-- ==== Sys2Proof/Word.lean ====
section
/-! DEFINITION. The word types of the panel and the one container that all sparse state uses. -/

namespace Sys2Proof

/-- A byte of scratchpad, instruction memory, DRAM or payload. -/
abbrev Byte := BitVec 8

/-- A quad: a register, a header quad, a general register (R29, R39, R137). -/
abbrev Word := BitVec 64

/-- One 32-bit vector lane or completion counter (R39, R69). -/
abbrev Lane := BitVec 32

/-- Sparse data by key. The keys rise strictly; a key that is not listed stands for a default
that the reader of the container names. -/
abbrev Sparse (α : Type) := List (Nat × α)

end Sys2Proof
end

