-- ==== Sys2Proof/Syntax.lean ====
section
/-! DEFINITION. Packets, frames and the commands of the panel: one constructor for each row of
spec/opcode_table.json, in the table's order, with the row's operands. -/

namespace Sys2Proof

/-- A packet: the four header quads of R137 and payload_len bytes of payload (R146). -/
structure Packet where
  h0 : Word
  h1 : Word
  h2 : Word
  h3 : Word
  data : List Byte
  deriving DecidableEq, Repr

/-- The inputs of a router: N, E, S, W, vertical, and the plane-transfer path (R164, R172). -/
inductive Port where
  | n | e | s | w | v | x
  deriving DecidableEq, Repr

/-- A link-layer frame as it is received: its first quad, CREDITS, the 256 data bytes and the CRC
it carries (R298). -/
structure Frame where
  q0 : Word
  credits : BitVec 32
  data : List Byte
  crc : BitVec 32
  deriving DecidableEq, Repr

/-- A register's place: space, physical node and offset (R23, R25). -/
structure Loc where
  space : Nat
  node : Nat
  off : Nat
  deriving DecidableEq, Repr

/-- What the far end of a pass port sends in EXCHANGE (R304). -/
structure FarEnd where
  level : BitVec 4
  step : BitVec 8
  feat : Word
  port : BitVec 3
  panel : BitVec 13
  idValid : Bool
  q1Mode : Bool
  goodRx : BitVec 34
  nextFseq : BitVec 12
  deriving DecidableEq, Repr

/-- How bond training ends (R408): whether the bond trained, and the planes that failed, as local node and plane. -/
structure BondResult where
  ok : Bool
  failed : List (Nat × Nat)
  deriving DecidableEq, Repr

/-- What a sled module puts on the bus in a transaction that it acknowledges (R400, R437): the bytes it sent, its packet
error code, and whether it stretched the clock beyond 25 ms. -/
structure BusAnswer where
  data : List Byte
  pec : Byte
  stretched : Bool
  deriving DecidableEq, Repr

/-- The answers of one polled module to READ_VIN, READ_IIN and STATUS_WORD, none where it did not acknowledge (R400). -/
structure ModuleAnswer where
  vin : Option BusAnswer
  iin : Option BusAnswer
  status : Option BusAnswer
  deriving DecidableEq, Repr

/-- A word slot as it arrives (R166, R168, R343): the number that it has at its sender where it is a DATA slot, its 64
bytes of data tracks, and its control tracks. -/
structure SlotSeen where
  number : BitVec 4
  word : List Byte
  ctl : BitVec 16
  deriving DecidableEq, Repr

/-- A slot on a module of a guest bridge (R343). -/
structure ModuleSlot where
  lane : Nat
  slot : SlotSeen
  deriving DecidableEq, Repr

/-- What the far end of a pass port reports as a lane repair ends (R304, R309): its good receive lanes and the number of
the next frame it expects. -/
structure FarLanes where
  goodRx : BitVec 34
  nextFseq : BitVec 12
  deriving DecidableEq, Repr

/-- How a write pointer leaves the slack of its crossing (R365): it lags; it is ahead, and a cycle of IDLE slots is dropped;
it is ahead until all 8 entries are full and the oldest is overwritten. -/
inductive Slip where
  | lag | ahead | full
  deriving DecidableEq, Repr

/-- The commands. n is a physical node, pl a plane, st a site, k a pass port (8 and 9 are the
control port's pairs A and B), g a guest site's index, q a steward's index (its quadrant), u a
ring's owner (0–7 pass ports, 8–11 guest bridges). -/
inductive Instr where
  -- core instructions: core n issues a word of this opcode (R41, R70, R73)
  | alu (n : Nat)
  | alui (n : Nat)
  | cmp (n : Nat)
  | cmpi (n : Nat)
  | li (n : Nat)
  | lih (n : Nat)
  | plog (n : Nat)
  | sel (n : Nat)
  | br (n : Nat)
  | brp (n : Nat)
  | call (n : Nat)
  | jr (n : Nat)
  | loop (n : Nat)
  | ld (n : Nat)
  | st (n : Nat)
  | vop (n : Nat)
  | vld (n : Nat)
  | vst (n : Nat)
  | vbcast (n : Nat)
  | vget (n : Nat)
  | vput (n : Nat)
  | vred (n : Nat)
  | vsort (n : Nat)
  | vxadd (n : Nat)
  | vtld (n : Nat)
  | tissue (n : Nat)
  | msend (n : Nat)
  | lop (n : Nat)
  | inmv (n : Nat)
  | waitSlot (n : Nat)
  | waitCount (n : Nat)
  | sig (n : Nat)
  | spawn (n : Nat)
  | endCtx (n : Nat)
  | park (n : Nat)
  | self (n : Nat)
  | rreg (n : Nat)
  | wreg (n : Nat)
  | fence (n : Nat)
  | breakCtx (n : Nat)
  | nop (n : Nat)
  -- unit steps: the unit of core n takes its oldest descriptor
  | vtldDone (n : Nat)
  | dot (n : Nat)
  | forest (n : Nat)
  | convert (n : Nat)
  | sealTile (n : Nat)
  | msendWrite (n : Nat)
  | msendTile (n : Nat)
  | msendRead (n : Nat)
  | msendMsg (n : Nat)
  | msendSignal (n : Nat)
  | msendMcastWrite (n : Nat)
  | msendMcastTile (n : Nat)
  | msendCell (n : Nat)
  | msendRed (n : Nat)
  | ledgerPortRequest (n : Nat)
  -- the mesh
  | injection (n pl : Nat) (p : Packet)
  | injectionGateEval (n pl : Nat)
  | arbitrationPass (n pl : Nat)
  /-- the receiver on port pt of router n, or for port x of the die above it, takes slot sl -/
  | linkCrcFailure (n pl : Nat) (pt : Port) (sl : SlotSeen)
  /-- the sender on port pt of router n, or for port x of the die above it, receives slot sl -/
  | linkNak (n pl : Nat) (pt : Port) (sl : SlotSeen)
  /-- the wire test ends: failing data wires in each of the four lane groups, and whether a
  check wire fails -/
  | bondLaneRepaired (n pl : Nat) (wires : List Nat) (check : Bool)
  | inboxRefusal (n pl : Nat) (p : Packet)
  | combineRelease (n pl : Nat) (i : Nat)
  -- packets delivered at node n from plane pl
  | write (n pl : Nat) (p : Packet)
  | readReq (n pl : Nat) (p : Packet)
  | readResp (n pl : Nat) (p : Packet)
  | msg (n pl : Nat) (p : Packet)
  | cell (n pl : Nat) (p : Packet)
  | signal (n pl : Nat) (p : Packet)
  | mcastWrite (n pl : Nat) (p : Packet)
  | ack (n pl : Nat) (p : Packet)
  | fenceCredit (n pl : Nat) (p : Packet)
  | redPart (n pl : Nat) (p : Packet)
  | redDone (n pl : Nat) (p : Packet)
  | ledgerReply (n pl : Nat) (p : Packet)
  | notice (n pl : Nat) (p : Packet)
  | noticeForward
  -- slices and the ledger
  /-- access i of the queue of slice n is performed -/
  | sliceAccess (n i : Nat)
  | mergeSetClose (n line : Nat)
  /-- temps: the 64 core sensors of site st, in °C -/
  | dramThermalSample (st : Nat) (temps : List (BitVec 8))
  | find (n : Nat)
  | findOrInsert (n : Nat)
  | update (n : Nat)
  | remove (n : Nat)
  | scan (n : Nat)
  | shardInitDone (n : Nat)
  -- register writes
  | registerWrite (l : Loc) (v : Word)
  | commitGo (l : Loc)
  | discard (l : Loc)
  | start (n : Nat)
  | clear (n : Nat)
  | clearDone (n : Nat)
  | halt (n : Nat) (bits : BitVec 4)
  | clearFault (n : Nat) (bits : BitVec 4)
  | flush (n : Nat)
  | flushComplete (n : Nat)
  | slotWrite (n sl : Nat) (v : Word)
  | ccWrite (n c : Nat) (v : Word)
  | vfence (n : Nat) (close : Bool)
  /-- out: the direction from the router to the die -/
  | vfenceEffect (n pl : Nat) (out : Bool)
  | imgBegin (ctl : Word)
  | imgAbort
  | attest
  | attReady
  | release
  | imgData (chunk : List Byte)
  | loadCheck
  | genAdvance (r : Nat)
  -- pass ports
  | passTrain (k : Nat)
  | passCtlDown (k : Nat)
  | opticsOff (k : Nat) (off : Bool)
  | passOpticsDone (k : Nat)
  | passLaneLockDone (k : Nat) (light : Bool) (good : BitVec 34)
  | passAlignDone (k : Nat) (locked : Bool)
  | passExchangeDone (k : Nat) (far : FarEnd)
  | passTrainTimeout (k : Nat)
  | frameData (k : Nat) (f : Frame)
  | frameIdle (k : Nat) (f : Frame)
  | frameNak (k : Nat) (f : Frame)
  | frameCells (k : Nat) (f : Frame)
  | passRetryTimeout (k : Nat)
  | passAckStall (k : Nat)
  /-- errs: corrected symbols of each receive lane in the last millisecond -/
  | laneErrCheck (k : Nat) (errs : List Nat)
  | remapDone (k : Nat) (farGood : FarLanes)
  | linkDieEgress (k pl : Nat) (p : Packet)
  | linkDieIngress (k : Nat) (p : Packet)
  | linkInject (k n pl : Nat)
  | ringReplay (u : Nat)
  | ringReplayRecord (u : Nat) (p : Packet)
  -- the control port
  | controlIngress (p : Packet)
  | regRead (p : Packet)
  | regWrite (p : Packet)
  | blockWrite (p : Packet)
  | ctlRequestTimeout (i : Nat)
  /-- pair b; up: whether the 0.5 s since it went DOWN are up -/
  | ctlPairRetrain (b : Bool) (up : Bool)
  -- guest sites
  | guestEnable (g : Nat) (on : Bool)
  | guestRetrain (g : Nat)
  | guestTrainDone (g : Nat) (modules : BitVec 16) (level : BitVec 4) (step : BitVec 8)
      (feat : Word) (timeout : Bool)
  | fordCheck (g m : Nat) (p : Packet)
  | guestHold (g : Nat) (m : ModuleSlot)
  | guestGo (g : Nat) (m : ModuleSlot)
  | fordTokenRefill (g : Nat)
  | guestOvercurrent (g : Nat)
  | guestRailReady (g : Nat)
  -- clocks
  | oscEn (st d : Nat) (on : Bool)
  | oscLock (st d : Nat)
  | cal (st : Nat)
  /-- fails: crossings that cannot be centred, as local node, plane and port; offset: the arrival
  offset measured -/
  | calDone (st : Nat) (fails : List (Nat × Nat × Port)) (offset : BitVec 8)
  | recal (st : Nat)
  | recalDone (st : Nat)
  | refSwitch (st : Nat)
  /-- b: false REFCLK_A, true REFCLK_B -/
  | referenceLoss (st : Nat) (b : Bool)
  | refGood (st : Nat) (b : Bool)
  /-- lead: the write pointer leads rather than lags; port 0–3 N, E, S, W, 4 from the die, 5 to the die -/
  | xingSlip (st loc pl port : Nat) (lead : Slip)
  | arm
  | fstepArrive (st : Nat)
  | fstepQuiet (st : Nat)
  | fstepSwitch (st : Nat)
  | fstepRecal (st : Nat) (fails : List (Nat × Nat × Port))
  | fstepResume (st : Nat)
  | fstepDone
  -- power and heat
  /-- at: the microsecond of the trip by the site controller's count -/
  | phaseOcTrip (st ph at_ : Nat)
  | phaseImbalance (st ph : Nat)
  /-- mv: the 64 droop sensors averaged over the millisecond; amps: the site current -/
  | openBondCheck (st : Nat) (mv : List Nat) (amps : Nat)
  | railRegulation (st : Nat)
  | headerGroupStep (st g : Nat)
  | holdClear (st : Nat) (v : Word)
  /-- mv: the 48 fields' readings of VIN -/
  | vinSample (mv : List Nat)
  | shedStep
  | watershedForce (f : BitVec 3)
  | pwrOk (high : Bool)
  | coolOk (high : Bool)
  | stewardThermalSample (q : Nat)
  | tripClear
  | pmbusPoll (answers : List ModuleAnswer)
  | pmbusXact (v : Word)
  /-- ok: the module acknowledged -/
  | pmbusXactDone (ok : Bool) (data : BusAnswer)
  -- reset, bring-up and recovery
  | panelResetN
  | panelResetRelease
  | passBoot
  | passBootRetrain
  | fwBegin
  | fwAbort
  | stwFwData (chunk : List Byte)
  /-- started: all four stewards start the firmware -/
  | fwVerify (started : Bool)
  | siteTrainBond (st : Nat)
  | siteTrainDram (st : Nat)
  | bondTrainDone (st : Nat) (r : BondResult)
  | dramTrainDone (st failed : Nat)
  | setHost (st : Nat)
  | cairnSample (q : Nat)
  | computeReset (v : Word)
  | resetDone
  | opcodeReserved (n : Nat)
  | phaseSwitchFault (st ph : Nat)
  | controlReply (n : Nat) (p : Packet)
  | ledgerOp (n pl : Nat) (p : Packet)
  | guestOcClear (g : Nat)
  | frameSend (k : Nat)
  deriving DecidableEq, Repr

end Sys2Proof
end

