-- ==== Sys2Proof/Config.lean ====
section
/-! DEFINITION. The values that the spec leaves open. Each is a constant without a body, so that
nothing can be proved of it but that it is a value (notes/assumptions 6, 9, 10, 13, 14, 20 to 23,
68, 77, 98, 112). -/

namespace Sys2Proof

/-- What a DRAM byte holds before anything has written it: undefined under R210. Arguments: the
fill generation of the slice, its physical node, the offset. -/
opaque Config.dramFill : Nat → Nat → Nat → Byte

/-- Which of the results within the bound of R134 a vector function gives. Arguments: the
function's MODE code and the operand. -/
opaque Config.pickUlp : Nat → BitVec 32 → Nat

/-- The MATCH_LEVEL average as it is read (R50). Arguments: the free counter and the core's node. -/
opaque Config.matchLevel : Nat → Nat → BitVec 8

/-- The salt with which an attestation report is signed (R285, R287). Argument: the 512 signed bytes. -/
opaque Config.attestSalt : List Byte → List Byte

/-- The private exponent of the panel identity key, which lies at no address (R21). Arguments: the public modulus and
exponent of the birth record. -/
opaque Config.idKeyD : List Byte → List Byte → Nat

/-- The prediction of the steward's thermal model (R395), whose coefficients no rule states.
Arguments: the free counter, the site and THM_CFG.INLET. -/
opaque Config.thermPred : Nat → Nat → Nat → BitVec 8

/-- What LGR_STAT shows of a count that REMOVEs of foreign entries have taken below 0 (R238, R243).
Argument: the count. -/
opaque Config.belowZero : Int → Nat

/-- What the panel measures of VDRAM or VGUEST (R402). Arguments: the free counter, the site, 0 for the voltage of a rail
that ramps or lies beyond the field, 1 for the current in A. -/
opaque Config.auxMeasure : Nat → Nat → Nat → Nat

/-- FW_HASH of a report made while the ROM runs (R287): no rule gives the ROM's bytes. -/
opaque Config.romFwHash : List Byte

/-- A calibrated crossing latency is 3, 4 or 5 (R363, R364); which one is measured. Arguments: the calibration and the
crossing. -/
opaque Config.crossingPick : Nat → Nat → Nat

/-- Whether the crossing of a reopened port cannot be centred (R364, R423). Arguments: the free counter and the crossing
of its site. -/
opaque Config.uncentred : Nat → Nat → Bool

/-- The cycles that an oscillator stretches at one step of the free counter (R358). Arguments: the free counter, the site
and the domain. -/
opaque Config.stretched : Nat → Nat → Nat → Nat

end Sys2Proof
end

