-- ==== Sys2Proof/Machine/Bits.lean ====
section
/-! DEFINITION. Bit fields, byte order, sign extension, saturation, and the three CRCs of the spec. -/

namespace Sys2Proof.Machine

/-- Bits lo + len − 1 to lo of a quad, as a number. -/
def bits (w : Word) (lo len : Nat) : Nat := (w.toNat >>> lo) % 2 ^ len

/-- One bit of a quad. -/
def bit (w : Word) (i : Nat) : Bool := w.getLsbD i

/-- A mask of len ones from bit lo. -/
def maskAt (lo len : Nat) : Word := BitVec.ofNat 64 ((2 ^ len - 1) <<< lo)

/-- w with bits lo + len − 1 to lo replaced by v. -/
def setBits (w : Word) (lo len v : Nat) : Word :=
  (w &&& ~~~ maskAt lo len) ||| BitVec.ofNat 64 ((v % 2 ^ len) <<< lo)

/-- w with bit i set to b. -/
def setBit (w : Word) (i : Nat) (b : Bool) : Word := setBits w i 1 b.toNat

/-- v placed at bit lo in a field of len bits. -/
def field (lo len v : Nat) : Word := BitVec.ofNat 64 ((v % 2 ^ len) <<< lo)

/-- A field incremented, saturating at all ones. -/
def satInc (w : Word) (lo len : Nat) : Word :=
  if bits w lo len = 2 ^ len - 1 then w else setBits w lo len (bits w lo len + 1)

/-- A field raised by k, saturating at all ones. -/
def satAdd (w : Word) (lo len k : Nat) : Word :=
  setBits w lo len (min (2 ^ len - 1) (bits w lo len + k))

/-- A field incremented modulo its size. -/
def wrapInc (w : Word) (lo len : Nat) : Word := setBits w lo len (bits w lo len + 1)

/-- The 32-bit immediate sign-extended to 64 bits (R70). -/
def sext32 (i : BitVec 32) : Word := i.signExtend 64

/-- The little-endian value of a byte list. -/
def leNat : List Byte → Nat
  | [] => 0
  | b :: rest => b.toNat + 256 * leNat rest

/-- The big-endian value of a byte list. -/
def beNat (l : List Byte) : Nat := l.foldl (fun a b => a * 256 + b.toNat) 0

/-- The n low bytes of a number, little-endian. -/
def leBytes (v : Nat) : Nat → List Byte
  | 0 => []
  | n + 1 => BitVec.ofNat 8 v :: leBytes (v / 256) n

/-- A quad as eight bytes, little-endian (R29, R137). -/
def quadBytes (w : Word) : List Byte := leBytes w.toNat 8

/-- The quad at byte offset o of a byte list; bytes past the end read zero. -/
def quadAt (l : List Byte) (o : Nat) : Word := BitVec.ofNat 64 (leNat ((l.drop o).take 8))

/-- A byte list cut into quads, the last one padded with zeros. -/
def toQuads (l : List Byte) : List Word :=
  (List.range ((l.length + 7) / 8)).map (fun i => quadAt l (8 * i))

/-- A byte list of exactly n bytes: cut or padded with zeros. -/
def padTo (n : Nat) (l : List Byte) : List Byte := (l ++ List.replicate (n - l.length) 0).take n

/-- Ceiling division. -/
def ceilDiv (a b : Nat) : Nat := (a + b - 1) / b

/-- a rounded up to a multiple of b. -/
def roundUp (a b : Nat) : Nat := ceilDiv a b * b

/-- One byte of a reflected CRC-32 with the given polynomial. -/
def crc32Byte (poly : BitVec 32) (c : BitVec 32) (b : Byte) : BitVec 32 :=
  (List.range 8).foldl
    (fun c _ => if c.getLsbD 0 then (c >>> 1) ^^^ poly else c >>> 1) (c ^^^ b.zeroExtend 32)

/-- A reflected CRC-32 with initial value and final XOR all ones. -/
def crc32 (poly : BitVec 32) (l : List Byte) : BitVec 32 :=
  (l.foldl (crc32Byte poly) 0xFFFF_FFFF) ^^^ 0xFFFF_FFFF

/-- The tile checksum CRC-32C (R104). -/
def crc32c (l : List Byte) : BitVec 32 := crc32 0x82F6_3B78 l

/-- The frame CRC-32 (R299). -/
def crcFrame (l : List Byte) : BitVec 32 := crc32 0xEDB8_8320 l

/-- One byte of the link CRC-16 (R167), most significant bit first. -/
def crc16Byte (c : BitVec 16) (b : Byte) : BitVec 16 :=
  (List.range 8).foldl
    (fun c _ => if c.getLsbD 15 then (c <<< 1) ^^^ 0x1021 else c <<< 1)
    (c ^^^ (b.zeroExtend 16 <<< 8))

/-- The link CRC-16 (R167). -/
def crc16 (l : List Byte) : BitVec 16 := l.foldl crc16Byte 0xFFFF

/-- Number of ones among the low n bits. -/
def popCount (v : Nat) : Nat → Nat
  | 0 => 0
  | n + 1 => v % 2 + popCount (v / 2) n

end Sys2Proof.Machine
end

