-- ==== Sys2Proof/Machine/State.lean ====
section
/-! DEFINITION. Everything the spec gives the panel, as plain data, and the panel after reset. -/

namespace Sys2Proof.Machine

/-- Reasons a step stops the machine. No rule of the spec stops the panel: discards, refusals and
context faults are next states. -/
inductive Fault where
  /-- Raised by nothing: the spec describes no state in which the panel as a whole stops. Safe. -/
  | stuck
  deriving DecidableEq, Repr

/-- Reasons a command has no meaning. -/
inductive Refusal where
  /-- Raised by an arm of exec whose command has no meaning yet. Safe. -/
  | notModelled (mnemonic : String)
  /-- Raised by a command that names a node, site, plane, port or other unit that the panel does
  not have (R14, R15, R17, R18): no such command can be given. Safe. -/
  | noSuchUnit
  deriving DecidableEq, Repr

/-- The register blocks. A block has a unit number: node, site, port, guest index or steward. -/
inductive BlkKind where
  | core | rtr | mc | lgr | stw | img | ctl | pwr | thm | pass | dom | clk | sitePwr | siteMisc | ford
  deriving DecidableEq, Repr

/-- One register block of one unit. -/
structure Blk where
  kind : BlkKind
  unit : Nat
  deriving DecidableEq, Repr

/-- Context states (R40). -/
inductive CtxState where
  | free | ready | parked | faulted | halted
  deriving DecidableEq, Repr

/-- What a context waits on: nothing; a slot with a counter; a counter with its threshold; the
inbox (PARK); the drain of a FENCE; the drain of an END (R44, R45, R92, R95, R96). -/
inductive WaitFor where
  | nothing
  | slot (s c : Nat)
  | count (c thr : Nat)
  | inbox
  | fence
  | ending
  deriving DecidableEq, Repr

/-- One context (R39, R40, R69). pc is a byte offset, 0 to 0x1_0000. Lane l of vr is under key
64 × r + l. -/
structure Ctx where
  state : CtxState := .free
  wait : WaitFor := .nothing
  idle : Bool := false
  held : Bool := false
  wake : Bool := false
  clearPending : Bool := false
  pc : Nat := 0
  gr : Sparse Word := []
  pr : BitVec 8 := 0
  vr : Sparse Lane := []
  outstanding : Nat := 0
  cairn : BitVec 32 := 0
  faultInfo : Word := 0
  faultAddr : Word := 0
  deriving DecidableEq, Repr

/-- The units of a core that take descriptors (R42). -/
inductive UnitKind where
  | vector | tensor | message | ledger
  deriving DecidableEq, Repr

/-- A descriptor handed to a unit (R42, R87): its context and instruction offset, the descriptor's
scratchpad offset, LCOUNT and its counter, VTLD's first register, TISSUE's operation. -/
structure UnitOp where
  unit : UnitKind
  ctx : Nat
  pc : Nat
  desc : Nat
  lcount : Bool
  cc : Nat
  reg : Nat
  fn : Nat
  deriving DecidableEq, Repr

/-- A ledger request that has been injected and waits for its reply (R230, R231). -/
structure LedgerWait where
  op : UnitOp
  seq : Nat
  land : Nat
  opcode : Nat
  ledger : Nat
  deriving DecidableEq, Repr

/-- A packet built above a node and waiting to enter: plane none stands for any plane (R157, R447). -/
structure Offer where
  pkt : Packet
  plane : Option Nat
  deriving DecidableEq, Repr

/-- One stage of the inbox chain: a 64-byte word and whether it ends its packet (R158). -/
structure InWord where
  bytes : List Byte
  last : Bool
  deriving DecidableEq, Repr

/-- The packet being admitted: its plane and the words that have still to enter (R159). -/
structure Admission where
  plane : Nat
  pkt : Packet
  rest : List InWord
  deriving DecidableEq, Repr

/-- What a core holds beside its registers (R39 to R65, R157 to R163, R193). fired: its tensor array has fired since
the average of R50 was reset. -/
structure Core where
  ctxs : Sparse Ctx := []
  lastIssued : Option Nat := none
  spad : Sparse Byte := []
  imem : Sparse Byte := []
  badSpad : List Nat := []
  badImem : List Nat := []
  slots : Sparse Word := []
  ccs : Sparse Lane := []
  inbox : List InWord := []
  admitting : Option Admission := none
  flushPending : Bool := false
  lastRead : List Byte := List.replicate 64 0
  ops : List UnitOp := []
  msgCur : Option UnitOp := none
  msgFault : Option (Nat × Nat) := none
  msgOut : List Offer := []
  lopOut : List Offer := []
  lopWait : List LedgerWait := []
  usedPlane : Nat := 3
  lopSeq : Nat := 0
  clearing : Bool := false
  clearDone : Bool := false
  fired : Bool := false
  deriving DecidableEq, Repr

/-- A header waiting in a router input: its packet, its input, the cycles it has waited, whether the
inbox chain has refused it, for a multicast copy the outputs still to be served, whether it is an injection, which
the gate holds back, and how many of its words have still to arrive (R169, R172, R173, R178, R182). -/
structure Header where
  pkt : Packet
  port : Port
  waited : Nat
  takenBack : Bool
  kids : Option (List Port)
  gated : Bool := false
  toCome : Nat := 0
  deriving DecidableEq, Repr

/-- A DATA slot of a link: its 64 bytes, the packet of which it is a word, whether it is the first, and whether it
passes from one clock domain to another (R165, R363). -/
structure WordSlot where
  bytes : List Byte
  pkt : Packet
  first : Bool
  cross : Bool := false
  deriving DecidableEq, Repr

/-- An output in transit: the packet and the word slots that have still to pass; the input from which it comes, and
how many of those words have still to arrive there (R169). -/
structure Transit where
  pkt : Packet
  words : List WordSlot
  port : Port := .x
  toCome : Nat := 0
  deriving DecidableEq, Repr

/-- The word slots that one cycle of a sender has put on a link, and the receiver cycles until they are read: for a
crossing, an entry of its FIFO (R164, R363). -/
structure InFlight where
  left : Nat
  words : List WordSlot
  deriving DecidableEq, Repr

/-- A packet in a combining buffer and the cycles to its release (R255, R257); or one that will be compared with
the buffers when its last word has arrived, and the words still to come (R256). -/
structure Held where
  pkt : Packet
  port : Port
  left : Nat
  deriving DecidableEq, Repr

/-- One end of a link. As a sender: the number of its next DATA slot, its last 16, and those that it sends again. As a receiver: the slots on
their way to it, oldest first, which are the entries of its FIFO where the link passes a crossing; the slot it waits
for after a failure; the word that failed last, by its number at the sender, and how often in succession; the NAK to
send, and whether it has been sent (R168, R363). -/
structure LinkEnd where
  sent : Nat := 0
  retry : List WordSlot := []
  again : List WordSlot := []
  wire : List InFlight := []
  awaiting : Option (BitVec 4) := none
  failWord : Nat := 0
  fails : Nat := 0
  nak : Option (BitVec 4) := none
  nakSent : Bool := false
  deriving DecidableEq, Repr

/-- One plane of a router. Ports are numbered 0 N, 1 E, 2 S, 3 W, 4 vertical (R192); in transit and ends, 5 is the die's
side of the vertical port. half: outputs on which a
packet has ended in slot 0 of the present cycle, so that another may begin in slot 1 (R165); defls counts the
deflections of the last cycles, the present one first; vout lists the packets granted the vertical
output that their consumer has not taken; served lists those at a node of this panel for spaces 0x3 and 0x7,
which the Plain serves without the vertical output; gather: packets that may combine and whose last word has
not arrived. -/
structure RPlane where
  inputs : List Header := []
  transit : Sparse Transit := []
  half : List Nat := []
  gate : Bool := true
  defls : List Nat := []
  vout : List Header := []
  served : List Header := []
  gather : List Held := []
  held : List Held := []
  ends : Sparse LinkEnd := []
  deriving DecidableEq, Repr

/-- A node's routers. Bit 2 × plane + d of vclosed: that plane's vertical port is closed toward the
die (d = 0) or from it (d = 1) (R184). spares: wires replaced in lane group 4 × plane + group (R186). -/
structure Router where
  planes : Sparse RPlane := []
  offers : List Offer := []
  plain : List Packet := []
  vclosed : BitVec 8 := 0
  spares : Sparse Nat := []
  badMap : List Nat := []
  badTree : List Nat := []
  deriving DecidableEq, Repr

/-- A queued request of a slice (R212). For a READ_REQ, lines gives each line it touches and
whether it opened the merge set of that line (R217); shared: it shares an earlier multicast (R219). acked: the ACK of a
WRITE, which is sent as the WRITE is ordered, has been injected (R212, R214). -/
structure Req where
  pkt : Packet
  plane : Nat
  lines : List (Nat × Bool)
  shared : Bool
  acked : Bool := false
  deriving DecidableEq, Repr

/-- A slice: its DRAM, which lists the bytes written since its contents were lost, and the number of that
loss; lines with an error; its queue; the lines with an open merge set, the data that the sets have read, and the
group reads that arrived in them; what is not yet injected: responses, ACKs of WRITEs, and responses of
register accesses and credits, which hold no place; shard counts (R208 to R243). -/
structure Slice where
  dram : Sparse Byte := []
  fill : Nat := 0
  badLines : List Nat := []
  corrLines : List Nat := []
  queue : List Req := []
  openSets : List Nat := []
  setData : Sparse (List Byte) := []
  mcSeen : List Packet := []
  respOut : List Offer := []
  ackOut : List Offer := []
  regOut : List Offer := []
  live : Int := 0
  stashLive : Int := 0
  initBusy : Bool := false
  active : Bool := false
  deriving DecidableEq, Repr

/-- Where a site stands in a frequency step: armed until the command arrives (R369, R370). -/
inductive StepPhase where
  | none | armed | counting | quiet | switched | recalibrated | ended
  deriving DecidableEq, Repr

/-- What a site controller holds beside its registers (R222, R363 to R365, R370, R379, R384). calAt and recalAt: when
the crossings, and those of reopened ports, were last calibrated; crossed: they have been since the router oscillator
started (R406); extra and early: the cycles by which a crossing's latency lies above and below its N_x; sampled: the
first temperature sample has been taken; stretchAt: the free counter when the register of an oscillator's stretched
cycles was last set (R358). -/
structure Site where
  calAt : Option Nat := none
  recalAt : Sparse Nat := []
  crossed : Bool := false
  extra : Sparse Nat := []
  early : Sparse Nat := []
  calBusy : Bool := false
  stepPhase : StepPhase := .none
  banks : Sparse Nat := []
  ocTimes : Sparse (List Nat) := []
  railOk : Bool := false
  guestRail : Bool := false
  sampled : Bool := false
  dramLevel : Nat := 0
  dramTemp : BitVec 8 := 0
  badEgress : List Nat := []
  stretchAt : Sparse Nat := []
  deriving DecidableEq, Repr

/-- A replay in progress (R328): the next record, the records left, the H3 key of the read that is out,
and the bytes of the record read so far. -/
structure Replay where
  seq : Nat
  left : Nat
  key : Word
  got : List Byte
  deriving DecidableEq, Repr

/-- A replay ring beside its registers (R325 to R328): the WRITEs outstanding, as H3 keys with their
record; the number of the next key; the records of which a WRITE was lost. -/
structure Ring where
  pend : List (Word × Nat) := []
  nextKey : Nat := 0
  lost : List Nat := []
  replay : Option Replay := none
  deriving DecidableEq, Repr

/-- A packet that a link die or guest bridge will inject (R302, R314, R325): the ingress frames that
this frees; whether the die originates it, so that the router fills in its source; whether it came from the mesh
and keeps its age (R315). -/
structure InPkt where
  pkt : Packet
  frames : Nat
  own : Bool
  kept : Bool := false
  deriving DecidableEq, Repr

/-- The link layer and queues of a pass port (0–7) or of the control port (8) (R298 to R302, R315).
egress: packets with the plane they came from; txWords: words of the packet in transmission still to
send; retry: frames not acknowledged, oldest first; resend: those to send again; far: accesses of the
far window carried for requesters of this panel (R320); strays: responses that no request of the die awaits (R338);
txFailing: the far receiver has still to name a lane of the transmit direction (R308); sentEnd: what the port last
sent of itself in EXCHANGE or REMAP (R304); trainMode: PASS_CFG.MODE as the training began with it (R323). -/
structure Link where
  egress : List Offer := []
  txWords : List (List Byte) := []
  txSeq : Nat := 0
  sentTotal : Nat := 0
  retry : List Frame := []
  resend : List Frame := []
  nakSeq : Nat := 0
  naks : Nat := 0
  rxSeq : Nat := 0
  rxDiscard : Bool := false
  fails : Nat := 0
  nakOut : Option Nat := none
  rxWords : List (List Byte) := []
  rxFrames : Nat := 0
  ingress : List InPkt := []
  toInject : List InPkt := []
  freed : BitVec 32 := 0
  farCredits : BitVec 32 := 0
  lastOut : Option Frame := none
  rotation : Nat := 0
  laneErrs : List Nat := []
  q1 : Bool := false
  resuming : Bool := false
  laserOn : Bool := false
  ring : Ring := {}
  far : List Packet := []
  strays : Nat := 0
  txFailing : Bool := false
  sentEnd : Option FarEnd := none
  trainMode : Bool := false
  deriving DecidableEq, Repr

/-- The bridge's end of one guest module (R168, R343, R344, R350). As a receiver: the DATA slot it waits for after a
failure, how often that slot has failed in succession, and the packets received whole that wait in its room of 268
words. As a sender: the number of its next DATA slot, its last 16, those that it sent last, the word that the guest
die refused last, by its number, and how often in succession. -/
structure GuestMod where
  awaiting : Option (BitVec 4) := none
  fails : Nat := 0
  waiting : List Packet := []
  sent : Nat := 0
  retry : List WordSlot := []
  last : List WordSlot := []
  nakWord : Nat := 0
  naks : Nat := 0
  deriving DecidableEq, Repr

/-- A guest bridge beside its registers (R342 to R352): the Ford's tokens; the packets buffered toward the
guest die; those handed to it last; the modules that the guest, and that the bridge, holds; the state of its
modules. -/
structure Guest where
  tokens : Nat := 0
  toGuest : List Offer := []
  handed : List Packet := []
  guestHolds : BitVec 16 := 0
  bridgeHolds : BitVec 16 := 0
  header : Bool := false
  ring : Ring := {}
  mods : Sparse GuestMod := []
  deriving DecidableEq, Repr

/-- A steward beside its registers: thermal caps by node (8 unlisted), samples above LIMIT by site,
still counts, hangs reported, Cairns and faults at the last sample by 4 × node + context; regions whose reset it
asks for again; stray responses (R338, R396, R397, R413, R414). -/
structure Steward where
  caps : Sparse Nat := []
  above : Sparse Nat := []
  still : Sparse Nat := []
  seenCairn : Sparse Lane := []
  seenFault : List Nat := []
  hung : List Nat := []
  resets : List Nat := []
  strays : Nat := 0
  deriving DecidableEq, Repr

/-- Progress of the lead steward's ROM (R403, R404, R407): held in reset; step 2 waiting for locks, for
calibration, for the bond of site 52; waiting; pass boot waiting for locks, for calibration, and
training. -/
inductive Rom where
  | held | startLock | startCal | startBond | waiting | bootLock | bootCal | bootTrain
  deriving DecidableEq, Repr

/-- The image engine (R277 to R283). window: bytes not yet consumed; sec, body, cur, items: the section in
progress, its bytes, those acted on, and the records or programs among them; commits and touched: its commit
records with the node named, and the blocks staged into; siteMap, trees, rgn: what SITE_MAP, TREES (keyed
4096 × node + tree) and REGIONS gave; targets, expect: target cores and expected counts by logical node; sent:
DRAM WRITEs not yet acknowledged; waitAdvance: regions that wait for their drain; short: cores to repair;
loose: H3 and kind of the packets of this load
that nothing acknowledges; first: regions to which this load has given their first generation; prior: regions STOPPED or CLEARED at BEGIN; staged: the blocks into
which the load has staged without committing. -/
structure ImgEngine where
  mode : Nat := 0
  hold : Bool := false
  plan : Nat := 0
  regions : BitVec 32 := 0
  window : Sparse Byte := []
  hdr : List Byte := []
  sec : Nat := 0
  body : List Byte := []
  cur : Nat := 0
  items : Nat := 0
  commits : List (Blk × Bool × Nat) := []
  touched : List Blk := []
  siteMap : List Word := []
  trees : Sparse Word := []
  rgn : List Byte := []
  targets : List Nat := []
  expect : Sparse Nat := []
  sent : List Packet := []
  waitAdvance : List Nat := []
  short : List Nat := []
  repairing : Bool := false
  nextKey : Nat := 0
  loose : List (Word × Nat) := []
  first : List Nat := []
  prior : List Nat := []
  staged : List Blk := []
  deriving DecidableEq, Repr

/-- A CONTROL request outstanding at the bridge (R335). -/
structure CtlReq where
  pkt : Packet
  key : Word
  deriving DecidableEq, Repr

/-- The lead steward beside its registers (R277, R287, R331, R340, R389, R392, R400, R410, R415). sigChecked: the policy
under which the loaded image was accepted; bus: the bytes it drove in the last transaction asked for on the PMBus. -/
structure Lead where
  rom : Rom := .held
  fwBytes : Sparse Byte := []
  fwImage : List Byte := []
  fwFull : List Byte := []
  img : ImgEngine := {}
  sigChecked : Bool := false
  attBusy : Bool := false
  report : List Byte := []
  bus : List Byte := []
  egress : List Packet := []
  reqs : List CtlReq := []
  ctlKey : Nat := 0
  below : Sparse Nat := []
  above : Nat := 0
  resetScope : List Nat := []
  resetRegions : List Nat := []
  deriving DecidableEq, Repr

/-- The sideband pins and the rails the ROM switches (R375, R406, R433). tripLow: TRIP_N driven low. -/
structure Pins where
  resetHeld : Bool := true
  pwrOk : Bool := true
  coolOk : Bool := true
  tripLow : Bool := false
  vlink : Bool := false
  vctl : Bool := false
  deriving DecidableEq, Repr

/-- The birth record (R20): what panel test wrote, without the fields that are computed from it or
fixed. trim, dieId and the keys are byte strings of the record's sizes, padded with zeros. -/
structure Birth where
  serial : Word
  siteStatus : List Byte
  dieId : List Byte
  trim : List Byte
  fwKeyHash : List Byte
  idKeyN : List Byte
  idKeyE : List Byte
  colRepair : List (BitVec 32)
  bondRepair : List (BitVec 32)
  deriving DecidableEq, Repr

/-- The panel. regs and staged hold the active and staged registers of every block under
Blk.key; every other field holds what is no register. -/
structure State where
  pending : List Instr
  free : Nat
  fill : Nat
  birth : Birth
  pins : Pins
  regs : Sparse Word
  staged : Sparse Word
  cores : Sparse Core
  routers : Sparse Router
  slices : Sparse Slice
  sites : Sparse Site
  links : Sparse Link
  guests : Sparse Guest
  stewards : Sparse Steward
  lead : Lead
  deriving DecidableEq, Repr

/-- The status byte panel test gives site st on the panel of State.reset: R15's fixed sites, blank
guest dies, and the spares. DESIGN CHOICE (assumption 5): the spec leaves the choice of spares to
panel test (R19); here the spares are sites 160 to 175. -/
def resetSiteStatus (st : Nat) : Byte :=
  if st = 32 ∨ st = 144 ∨ st = 47 ∨ st = 159 ∨ st = 4 ∨ st = 11 ∨ st = 180 ∨ st = 187 then 0x10
  else if st = 52 ∨ st = 59 ∨ st = 132 ∨ st = 139 then 0x20
  else if st = 7 ∨ st = 8 ∨ st = 183 ∨ st = 184 then 0x31
  else if 160 ≤ st ∧ st ≤ 175 then 0x02
  else 0x01

/-- The birth record of the panel of State.reset (assumption 5). -/
def resetBirth : Birth where
  serial := 1
  siteStatus := (List.range 192).map resetSiteStatus
  dieId := []
  trim := []
  fwKeyHash := []
  idKeyN := []
  idKeyE := []
  colRepair := []
  bondRepair := []

/-- The panel right after reset: PANEL_RESET_N still low, every register at its panel-reset value,
nothing powered, nothing queued (R32, R403, R434). -/
def State.reset : State where
  pending := []
  free := 0
  fill := 0
  birth := resetBirth
  pins := {}
  regs := []
  staged := []
  cores := []
  routers := []
  slices := []
  sites := []
  links := []
  guests := []
  stewards := []
  lead := {}

end Sys2Proof.Machine
end

