-- ==== Sys2Proof/Machine/Packet.lean ====
section
/-! DEFINITION. Packet headers: fields, kinds, sizes, and the packets the panel builds itself
(R137 to R147, R165, R445). -/

namespace Sys2Proof.Machine

/-- WRITE (R139). -/
def kWrite : Nat := 0x01
/-- READ_REQ (R139). -/
def kReadReq : Nat := 0x02
/-- READ_RESP (R139). -/
def kReadResp : Nat := 0x03
/-- MSG (R139). -/
def kMsg : Nat := 0x04
/-- SIGNAL (R139). -/
def kSignal : Nat := 0x05
/-- MCAST_WRITE (R139). -/
def kMcastWrite : Nat := 0x06
/-- ACK (R139). -/
def kAck : Nat := 0x07
/-- RED_PART (R139). -/
def kRedPart : Nat := 0x08
/-- RED_DONE (R139). -/
def kRedDone : Nat := 0x09
/-- LEDGER_OP (R139). -/
def kLedgerOp : Nat := 0x0C
/-- LEDGER_REPLY (R139). -/
def kLedgerReply : Nat := 0x0D
/-- CONTROL (R139). -/
def kControl : Nat := 0x10
/-- NOTICE (R139). -/
def kNotice : Nat := 0x11
/-- CELL (R139). -/
def kCell : Nat := 0x14
/-- FENCE_CREDIT (R139). -/
def kCredit : Nat := 0x18

/-- The defined kinds (R139). -/
def kinds : List Nat :=
  [kWrite, kReadReq, kReadResp, kMsg, kSignal, kMcastWrite, kAck, kRedPart, kRedDone, kLedgerOp,
   kLedgerReply, kControl, kNotice, kCell, kCredit]

/-- arch_level (R137). -/
def pLevel (p : Packet) : Nat := bits p.h0 60 4
/-- kind (R137). -/
def pKind (p : Packet) : Nat := bits p.h0 54 6
/-- class (R137). -/
def pClass (p : Packet) : Nat := bits p.h0 52 2
/-- generation (R137). -/
def pGen (p : Packet) : Nat := bits p.h0 48 4
/-- age (R137). -/
def pAge (p : Packet) : Nat := bits p.h0 40 8
/-- payload_len (R137). -/
def pLen (p : Packet) : Nat := bits p.h0 26 14
/-- completion_id (R137). -/
def pCid (p : Packet) : Nat := bits p.h0 14 12
/-- space of a global address (R23). -/
def aSpace (a : Word) : Nat := bits a 60 4
/-- local of a global address (R23). -/
def aLocal (a : Word) : Bool := bit a 59
/-- panel of a global address (R23). -/
def aPanel (a : Word) : Nat := bits a 46 13
/-- node of a global address (R23). -/
def aNode (a : Word) : Nat := bits a 32 14
/-- offset of a global address (R23). -/
def aOff (a : Word) : Nat := bits a 0 32
/-- H2.local (R137). -/
def pSrcLocal (p : Packet) : Bool := bit p.h2 59
/-- src_panel (R137). -/
def pSrcPanel (p : Packet) : Nat := bits p.h2 46 13
/-- src_node (R137). -/
def pSrcNode (p : Packet) : Nat := bits p.h2 32 14
/-- src_ctx (R137). -/
def pSrcCtx (p : Packet) : Nat := bits p.h2 30 2
/-- The return tag (R142). -/
def pTag (p : Packet) : Nat := bits p.h2 0 30
/-- RET_CC of the kinds that have one (R142). -/
def pRetCc (p : Packet) : Nat := bits p.h2 18 12
/-- ACK_REQ of a WRITE (R142). -/
def pAckReq (p : Packet) : Bool := bit p.h2 17
/-- MC of a READ_REQ (R142). -/
def pMc (p : Packet) : Bool := bit p.h2 17
/-- LAND (R142). -/
def pLand (p : Packet) : Nat := bits p.h2 0 15
/-- DKIND of a FENCE_CREDIT (R142). -/
def pDkind (p : Packet) : Nat := bits p.h2 24 6
/-- sequence (R137). -/
def pSeq (p : Packet) : Nat := bits p.h3 32 32
/-- stream (R137). -/
def pStream (p : Packet) : Nat := bits p.h3 16 16
/-- group (R137). -/
def pGroup (p : Packet) : Nat := bits p.h3 0 16

/-- A global address (R23). -/
def mkAddr (space : Nat) (local_ : Bool) (panel node off : Nat) : Word :=
  field 60 4 space ||| field 59 1 local_.toNat ||| field 46 13 panel ||| field 32 14 node |||
    field 0 32 off

/-- H0 of a packet of arch_level 1 and age 0 (R137, R138). -/
def mkH0 (kind cls gen len cid : Nat) : Word :=
  field 60 4 1 ||| field 54 6 kind ||| field 52 2 cls ||| field 48 4 gen ||| field 26 14 len |||
    field 14 12 cid

/-- The payload bytes of a packet: payload_len of them, none for a READ_REQ (R139, R146). -/
def pBytes (p : Packet) : List Byte := if pKind p = kReadReq then [] else padTo (pLen p) p.data

/-- Word slots on a link (R165). -/
def linkSlots (p : Packet) : Nat := ceilDiv (32 + (pBytes p).length) 64

/-- The header as 32 bytes (R137). -/
def headerBytes (p : Packet) : List Byte :=
  quadBytes p.h0 ++ quadBytes p.h1 ++ quadBytes p.h2 ++ quadBytes p.h3

/-- A byte list cut into words of n bytes, the last one padded with zeros; a word at most for each
byte of fuel. -/
def wordsOf (n : Nat) (l : List Byte) : List (List Byte) :=
  (List.range (ceilDiv l.length n)).map (fun i => padTo n ((l.drop (i * n)).take n))

/-- The packet as words of a link: header and payload run together (R165). -/
def linkWords (p : Packet) : List (List Byte) := wordsOf 64 (headerBytes p ++ pBytes p)

/-- The packet as DATA slots of a link, which passes a crossing where cross holds (R165). -/
def slotsOf (p : Packet) (cross : Bool) : List WordSlot := (linkWords p).mapIdx fun i b => ⟨b, p, i == 0, cross⟩

/-- What a receiver makes of a slot (R166). -/
inductive SlotKind where
  | data
  | idle
  | nak (sl : BitVec 4)
  | failed
  deriving DecidableEq, Repr

/-- The data tracks of a NAK slot that names slot sl (R166). -/
def nakWord (sl : BitVec 4) : List Byte := padTo 64 [0x4E, sl.zeroExtend 8]

/-- The data and control tracks of an IDLE slot (R166). -/
def idleSlot : List Byte × BitVec 16 := (padTo 64 [], ~~~ crc16 (padTo 64 []))

/-- The data and control tracks of a NAK slot (R166). -/
def nakSlot (sl : BitVec 4) : List Byte × BitVec 16 := (nakWord sl, ~~~ crc16 (nakWord sl))

/-- The kind of a slot from its data tracks and its control tracks: one that matches no kind is a DATA slot with a
CRC failure (R166). -/
def slotKind (word : List Byte) (ctl : BitVec 16) : SlotKind :=
  if ctl = crc16 word then .data
  else if ctl ≠ ~~~ crc16 word then .failed
  else if word = padTo 64 [] then .idle
  else if word = nakWord ((word.getD 1 0).truncate 4) then .nak ((word.getD 1 0).truncate 4)
  else .failed

/-- The packet as words of the inbox chain: the header has a word of its own (R158). -/
def chainWords (p : Packet) : List InWord :=
  let ws := padTo 64 (headerBytes p) :: wordsOf 64 (pBytes p)
  ws.mapIdx (fun i b => ⟨b, i + 1 == ws.length⟩)

/-- A packet with age raised by one, saturating at 255 (R173). -/
def raiseAge (p : Packet) : Packet := { p with h0 := satInc p.h0 40 8 }

/-- The kinds whose discard causes a FENCE_CREDIT (R145). -/
def creditKind (k : Nat) : Bool :=
  k == kWrite || k == kReadReq || k == kMsg || k == kSignal || k == kMcastWrite || k == kCell ||
    k == kRedPart || k == kLedgerOp

/-- The address to which credits and ACKs for p return: space 0x1, offset off, its src_node, with
local and panel of its H2 (R145, R147, R445). -/
def returnAddr (p : Packet) (off : Nat) : Word :=
  mkAddr 1 (pSrcLocal p) (pSrcPanel p) (pSrcNode p) off

/-- The FENCE_CREDIT for a discarded packet, where its kind causes one (R145). -/
def creditFor (p : Packet) : Option Packet :=
  if creditKind (pKind p) then
    some { h0 := mkH0 kCredit 1 (pGen p) 0 (pRetCc p), h1 := returnAddr p 0,
           h2 := field 24 6 (pKind p), h3 := p.h3, data := [] }
  else none

/-- The ACK of a WRITE with ACK_REQ = 1 (R445). -/
def ackFor (p : Packet) : Option Packet :=
  if pKind p = kWrite ∧ pAckReq p then
    some { h0 := mkH0 kAck 1 (pGen p) 0 (pRetCc p), h1 := returnAddr p 0,
           h2 := field 0 30 (pTag p), h3 := p.h3, data := [] }
  else none

/-- The READ_RESP to a READ_REQ with the data read (R147). -/
def respFor (p : Packet) (data : List Byte) : Packet :=
  { h0 := mkH0 kReadResp (pClass p) (pGen p) (pLen p) (if pMc p then pCid p else pRetCc p),
    h1 := returnAddr p (pLand p * 64), h2 := field 0 30 (pTag p), h3 := p.h3, data := data }

/-- The quads of the payload. -/
def pQuads (p : Packet) : List Word := toQuads (pBytes p)

/-- Put bytes b into list l at offset o. -/
def patch (l : List Byte) (o : Nat) (b : List Byte) : List Byte :=
  l.take o ++ b ++ l.drop (o + b.length)

/-- Remove the first element equal to x. -/
def eraseFirst {α : Type} [DecidableEq α] (x : α) : List α → List α
  | [] => []
  | y :: rest => if y = x then rest else y :: eraseFirst x rest

/-- Remove the first element that satisfies f, and give it. -/
def takeFirst {α : Type} (f : α → Bool) : List α → Option (α × List α)
  | [] => none
  | y :: rest =>
    if f y then some (y, rest)
    else match takeFirst f rest with
      | some (z, l) => some (z, y :: l)
      | none => none

end Sys2Proof.Machine
end

