-- ==== Sys2Proof/Machine/Geometry.lean ====
section
/-! DEFINITION. Sites, nodes, fields and quadrants of the Plain, and what the birth record says of
each site (R9 to R20). -/

namespace Sys2Proof.Machine

/-- Site kinds (R15). -/
inductive SiteKind where
  | compute | link | steward | guest
  deriving DecidableEq, Repr

/-- The link site of each pass port (R15). -/
def linkSite (k : Nat) : Nat := [32, 144, 47, 159, 4, 11, 180, 187].getD k 0

/-- The site of each steward (R15). -/
def stewardSite (q : Nat) : Nat := [52, 59, 132, 139].getD q 0

/-- The site of each guest index (R15). -/
def guestSite (g : Nat) : Nat := [7, 8, 183, 184].getD g 0

/-- The index of x in a list, if it is there. -/
def indexOf? (l : List Nat) (x : Nat) : Option Nat :=
  match l.findIdx? (· == x) with
  | some i => some i
  | none => none

/-- The pass port of a link site. -/
def portOfSite (st : Nat) : Option Nat := indexOf? [32, 144, 47, 159, 4, 11, 180, 187] st

/-- The steward index of a steward site. -/
def stewardOfSite (st : Nat) : Option Nat := indexOf? [52, 59, 132, 139] st

/-- The guest index of a guest site. -/
def guestOfSite (st : Nat) : Option Nat := indexOf? [7, 8, 183, 184] st

/-- The kind of a site (R15): every site that is not listed there is a compute site. -/
def siteKind (st : Nat) : SiteKind :=
  if (portOfSite st).isSome then .link
  else if (stewardOfSite st).isSome then .steward
  else if (guestOfSite st).isSome then .guest
  else .compute

/-- Node coordinates (R17). -/
def nodeX (n : Nat) : Nat := n % 128

/-- Node coordinates (R17). -/
def nodeY (n : Nat) : Nat := n / 128

/-- The node at (x, y) (R17). -/
def nodeAt (x y : Nat) : Nat := y * 128 + x

/-- The site a node lies under (R14, R17). -/
def siteOf (n : Nat) : Nat := (nodeY n / 8) * 16 + nodeX n / 8

/-- The local index of a node, ly × 8 + lx (R17). -/
def localOf (n : Nat) : Nat := (nodeY n % 8) * 8 + nodeX n % 8

/-- The node of local index i of a site (R17). -/
def nodeOf (st i : Nat) : Nat := nodeAt ((st % 16) * 8 + i % 8) ((st / 16) * 8 + i / 8)

/-- The 64 nodes of a site. -/
def siteNodes (st : Nat) : List Nat := (List.range 64).map (nodeOf st)

/-- The field of a site (R14). -/
def fieldOf (st : Nat) : Nat := (st / 16 / 2) * 8 + (st % 16) / 2

/-- The quadrant of a site (R14). -/
def quadrantOf (st : Nat) : Nat := (st / 16 / 6) * 2 + (st % 16) / 8

/-- The node exists (R17). -/
def isNode (n : Nat) : Bool := n < 12288

/-- The site exists (R14). -/
def isSite (st : Nat) : Bool := st < 192

/-- A compute site of the panel. -/
def isComputeSite (st : Nat) : Bool := isSite st && siteKind st == .compute

/-- There is a core over this node (R17). -/
def isCoreNode (n : Nat) : Bool := isNode n && siteKind (siteOf n) == .compute

/-- Every compute site, in ascending order. -/
def computeSites : List Nat := (List.range 192).filter isComputeSite

/-- The lead steward's node with local index 0 (R340). -/
def leadNode : Nat := 0x0C20

/-- The birth record's status byte of a site (R20). -/
def statusByte (b : Birth) (st : Nat) : Byte := b.siteStatus.getD st 0

/-- The birth record shows a spare (R19, R20). -/
def isSpare (b : Birth) (st : Nat) : Bool := statusByte b st == 0x02

/-- The birth record shows a blank die (R16, R20). -/
def isBlank (b : Birth) (st : Nat) : Bool := statusByte b st == 0x31

/-- A port of a node faces the edge of the Plain (R18): d is 0 N, 1 E, 2 S, 3 W. -/
def facesEdge (n d : Nat) : Bool :=
  (d == 0 && nodeY n == 0) || (d == 1 && nodeX n == 127) ||
  (d == 2 && nodeY n == 95) || (d == 3 && nodeX n == 0)

/-- The neighbour of a node on port d, where there is one (R9, R18). -/
def neighbour (n d : Nat) : Option Nat :=
  if facesEdge n d then none
  else if d = 0 then some (n - 128)
  else if d = 1 then some (n + 1)
  else if d = 2 then some (n + 128)
  else if d = 3 then some (n - 1)
  else none

/-- Port numbers (R192): 0 N, 1 E, 2 S, 3 W, 4 vertical, 5 the plane-transfer path. -/
def portNum : Port → Nat
  | .n => 0
  | .e => 1
  | .s => 2
  | .w => 3
  | .v => 4
  | .x => 5

/-- The port of a number. -/
def portOfNum (d : Nat) : Port :=
  if d = 0 then .n else if d = 1 then .e else if d = 2 then .s else if d = 3 then .w
  else if d = 4 then .v else .x

/-- The port of the neighbour that a port faces. -/
def opposite (d : Nat) : Nat := if d < 4 then (d + 2) % 4 else d

/-- The KIND of domain d of a site (R355), 0 where there is none. -/
def domainKind (st d : Nat) : Nat :=
  if d = 0 then 1
  else match siteKind st, d with
  | .compute, 1 => 2
  | .link, 1 => 3
  | .link, 2 => 4
  | .guest, 1 => 5
  | .steward, 1 => 6
  | _, _ => 0

/-- The site has a clock domain of index d (R355). -/
def hasDomain (st d : Nat) : Bool := domainKind st d != 0

/-- N after panel reset of a domain KIND (R355). -/
def domainN (kind : Nat) : Nat := [0, 80, 64, 80, 80, 64, 40].getD kind 0

/-- The multipliers allowed for a domain KIND (R355): lowest and highest. -/
def domainRange (kind : Nat) : Nat × Nat :=
  [(0, 0), (40, 96), (40, 64), (80, 80), (80, 80), (64, 64), (40, 40)].getD kind (0, 0)

end Sys2Proof.Machine
end

