-- ==== Sys2Proof/Machine/RegTables.lean ====
section
/-! DEFINITION. The register tables of every block: which offsets hold a register, its reset value
and the access types of its bits (R29 to R32). Bits in no mask are RO, WO or reserved: a plain write
leaves them. -/

namespace Sys2Proof.Machine

/-- A register: its panel-reset value and the masks of its RW, RWS and W1C bits (R31). -/
structure RegInfo where
  reset : Word
  rw : Word
  rws : Word
  w1c : Word
  deriving DecidableEq, Repr

/-- A register whose bits a plain write does not change. -/
def roReg (reset : Word) : RegInfo := ⟨reset, 0, 0, 0⟩

/-- A register of RW bits. -/
def rwReg (reset rw : Word) : RegInfo := ⟨reset, rw, 0, 0⟩

/-- A register of RWS bits. -/
def rwsReg (reset rws : Word) : RegInfo := ⟨reset, 0, rws, 0⟩

/-- The mask of bits hi to lo. -/
def msk (hi lo : Nat) : Word := maskAt lo (hi + 1 - lo)

/-- Every bit. -/
def allBits : Word := 0xFFFF_FFFF_FFFF_FFFF

/-- off lies in count registers spaced step from base. -/
def inArray (off base step count : Nat) : Bool :=
  decide (base ≤ off) && decide (off < base + step * count) && decide ((off - base) % step = 0)

/-- CORE_* registers held as words (R69). The slot and counter windows are not among them. -/
def coreRegs (off : Nat) : Option RegInfo :=
  if off = 0x00 then some (roReg 0)
  else if off = 0x08 then some (roReg 0)
  else if off = 0x10 then some (roReg 0x1FF)
  else if off = 0x18 then some (rwReg 0 (msk 7 4))
  else if off = 0x20 then some ⟨0, 0, 0, msk 14 13⟩
  else if off = 0x28 then some (rwReg 0 (msk 15 3))
  else if off = 0x30 then some (rwsReg 0 (msk 4 0 ||| msk 11 8 ||| msk 16 16))
  else if off = 0x38 then some (rwsReg 0x1000 (msk 1 0 ||| msk 15 8))
  else if off = 0x40 then some (rwReg 8 (msk 3 0))
  else if off = 0x48 then some (roReg 0)
  else if off = 0x50 then some ⟨0, 0, 0, msk 12 12⟩
  else if inArray off 0x80 8 16 then some (roReg 0)
  else none

/-- The CLOSED bits of a node's edge ports on all planes (R192). -/
def edgeMask (n : Nat) : Word :=
  (List.range 16).foldl (fun w i => if facesEdge n (i % 4) then setBit w i true else w) 0

/-- RTR_* registers of node n; fenced: VFENCE resets to 1 there (R183, R191, R192, R262). -/
def rtrRegs (n : Nat) (fenced : Bool) (off : Nat) : Option RegInfo :=
  if off = 0x00 then some (roReg 0)
  else if off = 0x08 then some (roReg 0)
  else if off = 0x10 then some (rwReg (if fenced then 3 else 0) (msk 0 0))
  else if off = 0x18 then some (rwsReg (edgeMask n) (msk 15 0))
  else if off = 0x20 then some (roReg 0)
  else if off = 0x28 then
    some (rwsReg 0x0004_1020_0208_030C (msk 10 0 ||| msk 26 16 ||| msk 55 32))
  else if inArray off 0x30 8 4 then some (rwReg 0 (msk 51 20))
  else if inArray off 0x50 8 4 then some (rwReg 0 (msk 47 0))
  else if off = 0x80 then some ⟨0, msk 47 16, msk 3 0 ||| msk 15 8, 0⟩
  else if inArray off 0x100 8 16 then
    some (rwsReg 0 (msk 6 0 ||| msk 14 8 ||| msk 22 16 ||| msk 30 24 ||| msk 38 32))
  else if inArray off 0x400 8 192 then some (rwsReg (BitVec.ofNat 64 ((off - 0x400) / 8)) (msk 8 0))
  else if inArray off 0x8000 8 4096 then some (rwsReg 0 (msk 8 0))
  else none

/-- MC_* registers (R244, R245). -/
def mcRegs (off : Nat) : Option RegInfo :=
  if off = 0x00 then some (roReg 0)
  else if off = 0x08 then some (roReg 0)
  else if off = 0x10 then some (rwsReg 0x110 (msk 8 0))
  else if off = 0x18 then some (rwReg 0 (msk 47 32))
  else if off = 0x20 ∨ off = 0x28 ∨ off = 0x30 then some (rwReg 0 allBits)
  else none

/-- LGR_* registers, offsets from 0x0800 (R244, R245). -/
def lgrRegs (off : Nat) : Option RegInfo :=
  if off = 0x00 then some (roReg 0)
  else if off = 0x08 then
    some (rwsReg 0 (msk 0 0 ||| msk 11 4 ||| msk 28 16 ||| msk 36 32 ||| msk 56 40))
  else if off = 0x10 then some (rwsReg 0 (msk 22 0))
  else if off = 0x18 ∨ off = 0x20 then some (rwsReg 0 allBits)
  else if off = 0x28 then some (rwReg 0 (msk 31 0))
  else if off = 0x30 then some (roReg 0)
  else if off = 0x38 then some (rwReg 0 allBits)
  else none

/-- STW_* registers of steward q (R425). -/
def stwRegs (q off : Nat) : Option RegInfo :=
  if off = 0x08 ∨ off = 0x28 then some (roReg 0)
  else if off = 0x40 then some ⟨0, msk 47 32, 0, msk 0 0⟩
  else if q ≠ 0 then none
  else if off = 0x00 then some (roReg 0)
  else if off = 0x10 then some (rwsReg 0x114 (msk 8 0))
  else if off = 0x18 ∨ off = 0x20 ∨ off = 0x30 ∨ off = 0x38 ∨ off = 0x8000 then some (roReg 0)
  else if inArray off 0x1000 32 32 then some (rwReg 0 (msk 12 11 ||| msk 31 16))
  else if inArray off 0x1000 8 128 then some (roReg 0)
  else none

/-- IMG_* registers, offsets from 0x0020_0000 (R292). -/
def imgRegs (off : Nat) : Option RegInfo :=
  if off = 0x00 ∨ off = 0x08 ∨ off = 0x10 ∨ off = 0x18 then some (roReg 0)
  else if off = 0x20 then some (rwsReg 0 (msk 1 0))
  else if inArray off 0x40 8 8 then some (rwsReg 0 allBits)
  else if off = 0x80 ∨ off = 0x88 then some (rwReg 0 allBits)
  else if inArray off 0xC0 8 8 then some (roReg 0)
  else if inArray off 0x100 8 4 then some (rwReg 0 allBits)
  else if inArray off 0x1000 8 128 then some (roReg 0)
  else if off = 0x8000 then some (roReg 0)
  else none

/-- CTL_* registers, offsets from 0x0030_0000 (R354). -/
def ctlRegs (off : Nat) : Option RegInfo :=
  if off = 0x00 ∨ off = 0x10 then some (roReg 0)
  else if off = 0x08 then some (rwsReg 0 (msk 0 0 ||| msk 31 16))
  else if off = 0x18 then some (rwReg 0 (msk 31 16))
  else if off = 0x20 then some (rwReg 0 allBits)
  else if off = 0x8000 ∨ off = 0x8008 then some (roReg 0)
  else none

/-- PWR_* registers, offsets from 0x0040_0000 (R401, R402). -/
def pwrRegs (off : Nat) : Option RegInfo :=
  if off = 0x00 ∨ off = 0x10 ∨ off = 0x18 then some (roReg 0)
  else if off = 0x08 then some ⟨0x01F4_0A0A, msk 30 28, msk 15 0 ||| msk 25 16, 0⟩
  else if off = 0x20 then some (rwsReg (setBits 0x400 48 10 800) (msk 57 0))
  else if off = 0x28 then some (rwsReg 0x000A_0000 (msk 6 0 ||| msk 11 8 ||| msk 23 16))
  else if off = 0x30 then some ⟨0, msk 31 16, 0, msk 14 0⟩
  else if off = 0x38 ∨ off = 0x40 then some (roReg 0)
  else none

/-- THM_* registers of a steward, offsets from 0x0050_0000 (R401, R402). -/
def thmRegs (off : Nat) : Option RegInfo :=
  if off = 0x00 ∨ off = 0x10 ∨ off = 0x18 then some (roReg 0)
  else if off = 0x08 then
    some ⟨0x0000_0023_376E_0369, msk 39 32, msk 11 0 ||| msk 31 16, 0⟩
  else none

/-- PASS_* registers of a port (R329, R330). -/
def passRegs (off : Nat) : Option RegInfo :=
  if off = 0x00 ∨ off = 0x08 then some (roReg 0)
  else if off = 0x10 then some (rwReg 8 (msk 3 2))
  else if off = 0x18 then some (rwsReg 0x0027_1010 (msk 4 0 ||| msk 23 8 ||| msk 44 32))
  else if inArray off 0x20 8 5 then some (roReg 0)
  else if off = 0x48 ∨ off = 0x50 then some (rwReg 0 allBits)
  else if inArray off 0x60 8 4 then some (rwsReg 0 (msk 12 0 ||| msk 28 16 ||| msk 32 32))
  else if off = 0x80 then some (rwsReg 0 (msk 7 0 ||| msk 29 16 ||| msk 63 32))
  else if off = 0x88 then some (rwsReg 0 (msk 16 0 ||| msk 47 32))
  else if off = 0x90 ∨ off = 0x98 then some (roReg 0)
  else if off = 0xA0 then some (rwReg 0 (msk 47 0))
  else if off = 0xA8 then some (rwReg 0 (msk 20 0))
  else if inArray off 0x100 8 8 then some (rwsReg 0 (msk 58 0))
  else none

/-- PASS_DOM registers, offsets from 0x0010_0000 (R329, R330). -/
def domRegs (off : Nat) : Option RegInfo :=
  if off = 0x00 then some (roReg 0)
  else if off = 0x08 then some (rwsReg 0 (msk 28 0))
  else if inArray off 0x1000 8 512 then some (rwsReg 0x8888_8888_8888_8888 allBits)
  else none

/-- CLK_* registers of a site, offsets from 0x0800 (R372 to R374). The references are taken as good
at reset (assumption 8). -/
def clkRegs (st off : Nat) : Option RegInfo :=
  if off = 0x00 then some (roReg 0)
  else if off = 0x08 then
    some (rwReg 0 ((List.range 3).foldl (fun w d => setBit w d (hasDomain st d)) 0))
  else if off = 0x10 then some (rwReg 0xC (msk 31 16))
  else if inArray off 0x20 8 3 then
    let d := (off - 0x20) / 8
    let n := domainN (domainKind st d)
    some ⟨if hasDomain st d then field 0 7 n ||| field 8 3 4 ||| field 16 7 n else 0,
      if hasDomain st d then msk 63 32 else 0, msk 6 0 ||| msk 10 8, 0⟩
  else if off = 0x40 then some ⟨0, msk 47 16, 0, msk 0 0⟩
  else if off = 0x48 ∨ off = 0x50 then some (roReg 0)
  else if off = 0x80 ∧ st = 52 then some (rwReg (field 16 16 1000) (msk 31 16))
  else if off = 0x88 ∧ st = 52 then some (roReg 0)
  else none

/-- SITE_PWR registers of a site, offsets from 0x0200 (R401, R402). -/
def sitePwrRegs (st off : Nat) : Option RegInfo :=
  if off = 0x00 then some (roReg 0)
  else if off = 0x08 then
    some (rwsReg (field 8 8 4 ||| (if siteKind st = .compute then field 16 10 750 else 0))
      (msk 2 0 ||| msk 15 8 ||| msk 35 16))
  else if off = 0x10 then some (roReg 0)
  else if off = 0x18 then some ⟨0, msk 47 32, msk 15 0, 0⟩
  else if off = 0x20 then some (roReg 0)
  else if off = 0x28 then some ⟨0, 0, 0, allBits⟩
  else none

/-- The registers of a site controller that are in no commit block, by their space 0x7 offsets:
SITE_VERSION and features (R293), THM_SITE and THM_COREk (R401), SITE_TRAIN and SITE_HEALTH (R426). -/
def siteMiscRegs (off : Nat) : Option RegInfo :=
  if off = 0x100 then some (roReg 0xA100_0010)
  else if off = 0x108 ∨ off = 0x110 then some (roReg 0)
  else if inArray off 0x300 8 9 then some (roReg 0)
  else if off = 0x400 then some (roReg 0)
  else if off = 0x408 then some ⟨0, msk 31 16, 0, msk 6 1⟩
  else none

/-- Guest bridge registers, offsets from 0xF000_0000 (R353). -/
def fordRegs (off : Nat) : Option RegInfo :=
  if off = 0x00 ∨ off = 0x10 then some (roReg 0)
  else if off = 0x08 then some (rwReg 0 (msk 0 0))
  else if off = 0x18 then some (rwsReg 0 (msk 5 0 ||| msk 8 8))
  else if off = 0x20 then some (rwsReg 0 allBits)
  else if off = 0x28 then some (rwsReg 0 (msk 31 0))
  else if off = 0x30 then some (rwReg 0 (msk 31 0))
  else if off = 0x38 ∨ off = 0x40 then some (roReg 0)
  else if off = 0x48 then some (rwReg 0 (msk 47 0))
  else if inArray off 0x100 16 16 then
    some (rwsReg 0 (msk 6 0 ||| msk 14 8 ||| msk 22 16 ||| msk 30 24 ||| msk 53 32 ||| msk 63 63))
  else if inArray off 0x108 16 16 then some (rwsReg 0 (msk 31 0 ||| msk 52 32))
  else if off = 0x200 then some (rwsReg 0 (msk 7 0 ||| msk 29 16 ||| msk 63 32))
  else if off = 0x208 then some (rwsReg 0 (msk 16 0 ||| msk 47 32))
  else if off = 0x210 ∨ off = 0x218 then some (roReg 0)
  else if off = 0x220 then some (rwReg 0 (msk 47 0))
  else if off = 0x228 then some (rwReg 0 (msk 20 0))
  else none

/-- VFENCE resets to 1 at the nodes of a spare or blank site (R183). -/
def fencedAtReset (b : Birth) (n : Nat) : Bool := isSpare b (siteOf n) || isBlank b (siteOf n)

/-- The register at an offset of a block, if one is defined there. -/
def regInfo (b : Birth) (k : Blk) (off : Nat) : Option RegInfo :=
  match k.kind with
  | .core => coreRegs off
  | .rtr => rtrRegs k.unit (fencedAtReset b k.unit) off
  | .mc => mcRegs off
  | .lgr => lgrRegs off
  | .stw => stwRegs k.unit off
  | .img => imgRegs off
  | .ctl => ctlRegs off
  | .pwr => pwrRegs off
  | .thm => thmRegs off
  | .pass => passRegs off
  | .dom => domRegs off
  | .clk => clkRegs k.unit off
  | .sitePwr => sitePwrRegs k.unit off
  | .siteMisc => siteMiscRegs off
  | .ford => fordRegs off

/-- The number of a block kind. -/
def BlkKind.num : BlkKind → Nat
  | .core => 0
  | .rtr => 1
  | .mc => 2
  | .lgr => 3
  | .stw => 4
  | .img => 5
  | .ctl => 6
  | .pwr => 7
  | .thm => 8
  | .pass => 9
  | .dom => 10
  | .clk => 11
  | .sitePwr => 12
  | .siteMisc => 13
  | .ford => 14

/-- The number of a block: kind and unit. -/
def Blk.num (k : Blk) : Nat := k.kind.num * 16384 + k.unit

/-- The key of a register in State.regs and State.staged. -/
def Blk.key (k : Blk) (off : Nat) : Nat := k.num * 65536 + off

end Sys2Proof.Machine
end

