-- ==== Sys2Proof/Machine/Sparse.lean ====
section
/-! DEFINITION. Operations on sparse data: look up, insert in order, remove, and the form that
makes equal contents equal lists. -/

namespace Sys2Proof.Machine

/-- The entry listed for key k, if one is listed. -/
def Sparse.find {α : Type} (k : Nat) : Sparse α → Option α
  | [] => none
  | (j, v) :: rest => if j = k then some v else Sparse.find k rest

/-- The value at key k, d where none is listed. -/
def Sparse.getD {α : Type} (d : α) (m : Sparse α) (k : Nat) : α := (Sparse.find k m).getD d

/-- List v at key k, in key order, in place of any entry there. -/
def Sparse.put {α : Type} (k : Nat) (v : α) : Sparse α → Sparse α
  | [] => [(k, v)]
  | (j, w) :: rest =>
    if k < j then (k, v) :: (j, w) :: rest
    else if k = j then (k, v) :: rest
    else (j, w) :: Sparse.put k v rest

/-- List nothing at key k. -/
def Sparse.del {α : Type} (k : Nat) (m : Sparse α) : Sparse α := m.filter (fun e => e.1 != k)

/-- Set key k to v where an unlisted key reads as d: v = d lists nothing. -/
def Sparse.set {α : Type} [DecidableEq α] (d : α) (k : Nat) (v : α) (m : Sparse α) : Sparse α :=
  if v = d then Sparse.del k m else Sparse.put k v m

/-- Drop every entry whose key lies in lo to lo + len − 1. -/
def Sparse.dropRange {α : Type} (lo len : Nat) (m : Sparse α) : Sparse α :=
  m.filter (fun e => ! (decide (lo ≤ e.1) && decide (e.1 < lo + len)))

/-- Every key of lo to lo + len − 1 set to v, the other entries kept. -/
def Sparse.fillRange {α : Type} (lo len : Nat) (v : α) (m : Sparse α) : Sparse α :=
  m.filter (fun e => decide (e.1 < lo)) ++ (List.range len).map (fun i => (lo + i, v)) ++
    m.filter (fun e => decide (lo + len ≤ e.1))

/-- The keys rise strictly. -/
def Sparse.rising {α : Type} : Sparse α → Bool
  | [] => true
  | [_] => true
  | (j, _) :: (k, w) :: rest => decide (j < k) && Sparse.rising ((k, w) :: rest)

/-- The keys rise strictly and no entry equals what an unlisted key reads as. -/
def Sparse.canonical {α : Type} [DecidableEq α] (d : α) (m : Sparse α) : Bool :=
  Sparse.rising m && m.all (fun e => decide (e.2 ≠ d))

/-- Bytes at offsets a, a + 1, … of a byte memory whose unlisted bytes read as d gives. -/
def Sparse.readBytes (d : Nat → Byte) (m : Sparse Byte) (a : Nat) : Nat → List Byte
  | 0 => []
  | n + 1 => (Sparse.find a m).getD (d a) :: Sparse.readBytes d m (a + 1) n

/-- Write bytes at a, a + 1, …, into a memory whose unlisted bytes read as zero. -/
def Sparse.writeZ (m : Sparse Byte) (a : Nat) : List Byte → Sparse Byte
  | [] => m
  | b :: rest => Sparse.writeZ (Sparse.set 0 a b m) (a + 1) rest

/-- Write bytes at a, a + 1, …, into a memory whose unlisted bytes hold no value. -/
def Sparse.writeAll (m : Sparse Byte) (a : Nat) : List Byte → Sparse Byte
  | [] => m
  | b :: rest => Sparse.writeAll (Sparse.put a b m) (a + 1) rest

end Sys2Proof.Machine
end

