-- ==== Sys2Proof/Machine/Ops.lean ====
section
/-! DEFINITION. The named operations over the panel: units, registers, contexts, power and headers,
addresses, notices and credits. -/

namespace Sys2Proof.Machine

/-- What a command's meaning answers. -/
abbrev Res := Host.Outcome State Fault Refusal

/-! ## Units -/

/-- The core over a node. -/
def State.core (s : State) (n : Nat) : Core := Sparse.getD {} s.cores n

/-- Replace the core over a node. -/
def State.setCore (s : State) (n : Nat) (c : Core) : State := { s with cores := Sparse.put n c s.cores }

/-- Change the core over a node. -/
def State.modCore (s : State) (n : Nat) (f : Core → Core) : State := s.setCore n (f (s.core n))

/-- The routers of a node; a node whose fence resets to 1 begins with every plane-direction of its
vertical port closed (R183, R184). -/
def State.router (s : State) (n : Nat) : Router :=
  Sparse.getD { vclosed := if fencedAtReset s.birth n then 0xFF else 0 } s.routers n

/-- Replace the routers of a node. -/
def State.setRouter (s : State) (n : Nat) (r : Router) : State :=
  { s with routers := Sparse.put n r s.routers }

/-- Change the routers of a node. -/
def State.modRouter (s : State) (n : Nat) (f : Router → Router) : State := s.setRouter n (f (s.router n))

/-- One plane of a node's routers. -/
def Router.plane (r : Router) (pl : Nat) : RPlane := Sparse.getD {} r.planes pl

/-- Replace one plane. -/
def Router.setPlane (r : Router) (pl : Nat) (p : RPlane) : Router :=
  { r with planes := Sparse.put pl p r.planes }

/-- Plane pl of node n. -/
def State.plane (s : State) (n pl : Nat) : RPlane := (s.router n).plane pl

/-- Replace plane pl of node n. -/
def State.setPlane (s : State) (n pl : Nat) (p : RPlane) : State :=
  s.modRouter n (fun r => r.setPlane pl p)

/-- Change plane pl of node n. -/
def State.modPlane (s : State) (n pl : Nat) (f : RPlane → RPlane) : State :=
  s.setPlane n pl (f (s.plane n pl))

/-- The slice above a node. -/
def State.slice (s : State) (n : Nat) : Slice := Sparse.getD {} s.slices n

/-- Replace the slice above a node. -/
def State.setSlice (s : State) (n : Nat) (c : Slice) : State :=
  { s with slices := Sparse.put n c s.slices }

/-- Change the slice above a node. -/
def State.modSlice (s : State) (n : Nat) (f : Slice → Slice) : State := s.setSlice n (f (s.slice n))

/-- The site controller of a site. -/
def State.site (s : State) (st : Nat) : Site := Sparse.getD {} s.sites st

/-- Replace the site controller's state. -/
def State.setSite (s : State) (st : Nat) (c : Site) : State := { s with sites := Sparse.put st c s.sites }

/-- Change the site controller's state. -/
def State.modSite (s : State) (st : Nat) (f : Site → Site) : State := s.setSite st (f (s.site st))

/-- The link layer of pass port k (0–7) or of the control port (8). -/
def State.link (s : State) (k : Nat) : Link := Sparse.getD {} s.links k

/-- Replace a link layer. -/
def State.setLink (s : State) (k : Nat) (c : Link) : State := { s with links := Sparse.put k c s.links }

/-- Change a link layer. -/
def State.modLink (s : State) (k : Nat) (f : Link → Link) : State := s.setLink k (f (s.link k))

/-- The guest bridge of index g. -/
def State.guest (s : State) (g : Nat) : Guest := Sparse.getD {} s.guests g

/-- Replace a guest bridge. -/
def State.setGuest (s : State) (g : Nat) (c : Guest) : State := { s with guests := Sparse.put g c s.guests }

/-- Change a guest bridge. -/
def State.modGuest (s : State) (g : Nat) (f : Guest → Guest) : State := s.setGuest g (f (s.guest g))

/-- Steward q. -/
def State.steward (s : State) (q : Nat) : Steward := Sparse.getD {} s.stewards q

/-- Replace a steward. -/
def State.setSteward (s : State) (q : Nat) (c : Steward) : State :=
  { s with stewards := Sparse.put q c s.stewards }

/-- Change a steward. -/
def State.modSteward (s : State) (q : Nat) (f : Steward → Steward) : State :=
  s.setSteward q (f (s.steward q))

/-- Change the lead steward. -/
def State.modLead (s : State) (f : Lead → Lead) : State := { s with lead := f s.lead }

/-! ## Commands that name a unit -/

/-- f where b holds; else the command names a unit that the panel does not have. -/
def onUnit (b : Bool) (s : State) (f : State → State) : Res :=
  if b then .next (f s) else .refused .noSuchUnit

/-- f at a core that exists (R17). -/
def onCore (n : Nat) (s : State) (f : State → State) : Res := onUnit (isCoreNode n) s f

/-- f at a node's router of a plane (R18). -/
def onPlane (n pl : Nat) (s : State) (f : State → State) : Res :=
  onUnit (isNode n && decide (pl < 4)) s f

/-- f at a site (R14). -/
def onSite (st : Nat) (s : State) (f : State → State) : Res := onUnit (isSite st) s f

/-- f at a pass port (R15). -/
def onPort (k : Nat) (s : State) (f : State → State) : Res := onUnit (decide (k < 8)) s f

/-- f at a pass port or a pair of the control port. -/
def onLink (k : Nat) (s : State) (f : State → State) : Res := onUnit (decide (k < 10)) s f

/-- f at a guest bridge (R15). -/
def onGuest (g : Nat) (s : State) (f : State → State) : Res := onUnit (decide (g < 4)) s f

/-- f at a steward (R15). -/
def onSteward (q : Nat) (s : State) (f : State → State) : Res := onUnit (decide (q < 4)) s f

/-! ## Registers -/

/-- The active value of a register as it is held (R29, R31). -/
def State.reg (s : State) (k : Blk) (off : Nat) : Word :=
  match Sparse.find (k.key off) s.regs with
  | some w => w
  | none => match regInfo s.birth k off with
    | some i => i.reset
    | none => 0

/-- Set the held value of a register. -/
def State.setReg (s : State) (k : Blk) (off : Nat) (w : Word) : State :=
  { s with regs := Sparse.put (k.key off) w s.regs }

/-- Change the held value of a register. -/
def State.modReg (s : State) (k : Blk) (off : Nat) (f : Word → Word) : State :=
  s.setReg k off (f (s.reg k off))

/-- Set a field of a register. -/
def State.setField (s : State) (k : Blk) (off lo len v : Nat) : State :=
  s.modReg k off (fun w => setBits w lo len v)

/-- A field of a register. -/
def State.getField (s : State) (k : Blk) (off lo len : Nat) : Nat := bits (s.reg k off) lo len

/-- The staged value of a register, or the active one where none is staged (R33). -/
def State.stagedReg (s : State) (k : Blk) (off : Nat) : Word :=
  (Sparse.find (k.key off) s.staged).getD (s.reg k off)

/-- Count one in a saturating field of a register. -/
def State.countField (s : State) (k : Blk) (off lo len : Nat) : State :=
  s.modReg k off (fun w => satInc w lo len)

/-- Block of core n. -/
def bCore (n : Nat) : Blk := ⟨.core, n⟩
/-- Block of the routers of node n. -/
def bRtr (n : Nat) : Blk := ⟨.rtr, n⟩
/-- Slice controller block of node n. -/
def bMc (n : Nat) : Blk := ⟨.mc, n⟩
/-- Ledger block of node n. -/
def bLgr (n : Nat) : Blk := ⟨.lgr, n⟩
/-- STW block of steward q. -/
def bStw (q : Nat) : Blk := ⟨.stw, q⟩
/-- IMG block. -/
def bImg : Blk := ⟨.img, 0⟩
/-- CTL block. -/
def bCtl : Blk := ⟨.ctl, 0⟩
/-- PWR block. -/
def bPwr : Blk := ⟨.pwr, 0⟩
/-- THM block of steward q. -/
def bThm (q : Nat) : Blk := ⟨.thm, q⟩
/-- PASS block of port k. -/
def bPass (k : Nat) : Blk := ⟨.pass, k⟩
/-- PASS_DOM block. -/
def bDom : Blk := ⟨.dom, 0⟩
/-- CLK block of site st. -/
def bClk (st : Nat) : Blk := ⟨.clk, st⟩
/-- SITE_PWR block of site st. -/
def bSp (st : Nat) : Blk := ⟨.sitePwr, st⟩
/-- Other registers of site st. -/
def bSm (st : Nat) : Blk := ⟨.siteMisc, st⟩
/-- Guest bridge block of guest g. -/
def bFord (g : Nat) : Blk := ⟨.ford, g⟩

/-! ## Free values -/

/-- A fresh argument for a free value (assumption 6). -/
def State.tick (s : State) : State := { s with free := s.free + 1 }

/-! ## Contexts -/

/-- Context i of a core. -/
def Core.ctx (c : Core) (i : Nat) : Ctx := Sparse.getD {} c.ctxs i

/-- Replace context i. -/
def Core.setCtx (c : Core) (i : Nat) (x : Ctx) : Core := { c with ctxs := Sparse.put i x c.ctxs }

/-- Context i of core n. -/
def State.ctx (s : State) (n i : Nat) : Ctx := (s.core n).ctx i

/-- Replace context i of core n. -/
def State.setCtx (s : State) (n i : Nat) (x : Ctx) : State := s.modCore n (fun c => c.setCtx i x)

/-- Change context i of core n. -/
def State.modCtx (s : State) (n i : Nat) (f : Ctx → Ctx) : State := s.setCtx n i (f (s.ctx n i))

/-- A general register: g0 reads as zero (R39, R72). -/
def Ctx.getG (x : Ctx) (r : Nat) : Word := if r = 0 then 0 else Sparse.getD 0 x.gr r

/-- Write a general register: g0 ignores writes (R39, R72). -/
def Ctx.setG (x : Ctx) (r : Nat) (v : Word) : Ctx :=
  if r = 0 then x else { x with gr := Sparse.set 0 r v x.gr }

/-- A predicate register (R39). -/
def Ctx.getP (x : Ctx) (r : Nat) : Bool := x.pr.getLsbD r

/-- Write a predicate register (R39). -/
def Ctx.setP (x : Ctx) (r : Nat) (b : Bool) : Ctx :=
  { x with pr := (x.pr &&& ~~~ (BitVec.ofNat 8 (1 <<< r))) ||| BitVec.ofNat 8 (b.toNat <<< r) }

/-- One lane of a vector register (R39). -/
def Ctx.lane (x : Ctx) (r l : Nat) : Lane := Sparse.getD 0 x.vr (64 * r + l)

/-- The 64 lanes of a vector register. -/
def Ctx.getV (x : Ctx) (r : Nat) : List Lane := (List.range 64).map (x.lane r)

/-- Write one lane of a vector register. -/
def Ctx.setLane (x : Ctx) (r l : Nat) (v : Lane) : Ctx :=
  { x with vr := Sparse.set 0 (64 * r + l) v x.vr }

/-- Write the 64 lanes of a vector register. -/
def Ctx.setV (x : Ctx) (r : Nat) (v : List Lane) : Ctx :=
  (List.range 64).foldl (fun x l => x.setLane r l (v.getD l 0)) x

/-! ## Power, headers and service -/

/-- SITE_PWR_STAT.STATE (R402). -/
def siteState (s : State) (st : Nat) : Nat := s.getField (bSp st) 0x10 0 3

/-- The active SITE_PWR_CTL.POWER_EN (R375, R377). -/
def powerEn (s : State) (st : Nat) : Bool := bit (s.reg (bSp st) 0x08) 0

/-- A compute site whose cores and slices are not served: spare, unpowered or dark (R19, R26, R377). -/
def siteUnpowered (s : State) (st : Nat) : Bool :=
  siteKind st == .compute && (!powerEn s st || siteState s st == 4)

/-- The headers of the core over node n are on: the four banks of its group (R384). -/
def headerOn (s : State) (n : Nat) : Bool :=
  Sparse.getD 0 (s.site (siteOf n)).banks (nodeY n % 8) == 4

/-- A register write can have reached the core: its site is powered and its headers are on (R386). -/
def coreServed (s : State) (n : Nat) : Bool := headerOn s n && !siteUnpowered s (siteOf n)

/-- The effective Watershed level (R390). -/
def wsLevel (s : State) : Nat := s.getField bPwr 0x10 0 3

/-- The effective tensor cap of a core (R49). -/
def effectiveCap (s : State) (n : Nat) : Nat :=
  let cap := s.getField (bCore n) 0x40 0 4
  if 1 ≤ wsLevel s then min cap 4 else cap

/-- VNET of a field is on (R375, R377); every regulator is stopped while PANEL_RESET_N is low (R434). -/
def vnetOn (s : State) (f : Nat) : Bool := bit (s.reg bPwr 0x20) f && !s.pins.resetHeld

/-- Domain d of site st runs (R359, R374). An oscillator that is not locked, or in holdover, runs
(R362). -/
def domainRuns (s : State) (st d : Nat) : Bool := bit (s.reg (bClk st) (0x20 + 8 * d)) 25

/-- The routers of a node run and are reached: VNET on, and the crossings of the site calibrated since its router
oscillator started, which takes a locked oscillator (R355, R359, R364, R375, R406). -/
def routerLive (s : State) (n : Nat) : Bool :=
  vnetOn s (fieldOf (siteOf n)) && domainRuns s (siteOf n) 0 && (s.site (siteOf n)).crossed

/-- Plane pl of node n's vertical port works: not dropped and not under repair (R186, R187). -/
def vertWorks (s : State) (n pl : Nat) : Bool :=
  let f := s.reg (bRtr n) 0x10
  !bit f (2 + pl) && !bit f (6 + pl)

/-- The vertical port is closed toward the die on plane pl (R183, R184). -/
def closedIn (s : State) (n pl : Nat) : Bool := (s.router n).vclosed.getLsbD (2 * pl)

/-- The vertical port is closed from the die on plane pl (R183, R184). -/
def closedOut (s : State) (n pl : Nat) : Bool := (s.router n).vclosed.getLsbD (2 * pl + 1)

/-! ## Addresses -/

/-- PASS_DOM_ID.ID_VALID (R311). -/
def idValid (s : State) : Bool := bit (s.reg bDom 0x08) 13

/-- PASS_DOM_ID.PANEL_ID (R311). -/
def panelId (s : State) : Nat := s.getField bDom 0x08 0 13

/-- The address is on this panel (R24). -/
def addrHere (s : State) (a : Word) : Bool := aLocal a || (idValid s && aPanel a == panelId s)

/-- Spaces whose node field is logical (R25, R27). -/
def logicalSpace (sp : Nat) : Bool := sp == 0 || sp == 1 || sp == 2 || sp == 4

/-- Spaces served above the node (R183). -/
def aboveSpace (sp : Nat) : Bool := logicalSpace sp || sp == 5 || sp == 6 || sp == 8

/-- The physical site that the site map of node n names for a logical site, none where it names
none (R27, R179). -/
def mapSite (s : State) (n lst : Nat) : Option Nat :=
  let w := s.reg (bRtr n) (0x400 + 8 * lst)
  if bit w 8 then none else some (bits w 0 8)

/-- A logical node as the site map of node n translates it (R27). -/
def translate (s : State) (n ln : Nat) : Option Nat :=
  (mapSite s n (siteOf ln)).map (fun st => nodeOf st (localOf ln))

/-- The logical node of a physical node by the inverse of the node's site map; a site that no entry
names maps to itself (R138). -/
def logicalNode (s : State) (n : Nat) : Nat :=
  match (List.range 192).find? (fun l => mapSite s n l == some (siteOf n)) with
  | some l => nodeOf l (localOf n)
  | none => n

/-- The egress port of a panel id, none for NONE (R312). -/
def egressOf (s : State) (p : Nat) : Option Nat :=
  let e := s.getField bDom (0x1000 + 8 * (p / 16)) (4 * (p % 16)) 4
  if e < 8 then some e else none

/-- The sites of region r: logical site l is in it (R425). -/
def regionHas (s : State) (r l : Nat) : Bool :=
  bit (s.reg (bStw 0) (0x1008 + 32 * r + 8 * (l / 64))) (l % 64)

/-- CORE_REGION of core n: MEMBER (R69). -/
def coreMember (s : State) (n : Nat) : Bool := bit (s.reg (bCore n) 0x30) 16

/-- CORE_REGION.REGION (R69). -/
def coreRegion (s : State) (n : Nat) : Nat := s.getField (bCore n) 0x30 0 5

/-- CORE_REGION.GEN (R69). -/
def coreGen (s : State) (n : Nat) : Nat := s.getField (bCore n) 0x30 8 4

/-- The effective spin mode of core n is FULL: its array fires on dummy operands while no context is READY (R47, R48). -/
def spinsFull (s : State) (n : Nat) : Bool :=
  headerOn s n && coreMember s n && s.getField (bCore n) 0x38 0 2 == 0 && decide (wsLevel s < 1)

/-- Core n, unless it is clearing, may have fired on dummy operands, which its average takes in (R50). -/
def State.spun (s : State) (n : Nat) : State :=
  if (s.core n).clearing then s else s.modCore n fun c => { c with fired := true }

/-- So may every core that spins in FULL now (R47, R50). -/
def State.noteSpin (s : State) : State :=
  ((s.sites.map Prod.fst).flatMap siteNodes).foldl (fun t n => if spinsFull s n then t.spun n else t) s

/-! ## Notices and credits -/

/-- A NOTICE that node n raises (R339, R340). Its generation is 0 at a core too, where R138 has a core stamp its own
(DEDUCED, assumption 110). -/
def mkNotice (s : State) (n code : Nat) (d1 d2 d3 : Word) : Packet :=
  let dom := s.reg bDom 0x08
  let worker := bits dom 14 2 == 2
  { h0 := mkH0 kNotice 1 0 32 0,
    h1 := mkAddr 5 (!worker) (if worker then bits dom 16 13 else 0) leadNode 0x0030_8008,
    h2 := 0, h3 := 0,
    data := quadBytes (field 0 16 code ||| field 16 14 n) ++ quadBytes d1 ++ quadBytes d2 ++
      quadBytes d3 }

/-- A notice about a packet, or about none: a NOTICE is never the subject of one (R141, R339). -/
def noticeAbout (s : State) (n code : Nat) (p : Option Packet) : Option Packet :=
  match p with
  | none => some (mkNotice s n code 0 0 0)
  | some q => if pKind q = kNotice then none else some (mkNotice s n code q.h0 q.h1 q.h3)

/-- Offer a packet of a die above node n for injection; plane none is any plane (R447). -/
def State.offer (s : State) (n : Nat) (p : Packet) (pl : Option Nat) : State :=
  s.modRouter n (fun r => { r with offers := r.offers ++ [⟨p, pl⟩] })

/-- A notice raised by the die above node n (R447). -/
def State.noticeDie (s : State) (n code : Nat) (p : Option Packet) : State :=
  match noticeAbout s n code p with
  | some q => s.offer n q none
  | none => s

/-- A notice raised by a block of the Plain at node n: at most 8 wait (R447). -/
def State.noticePlain (s : State) (n code : Nat) (p : Option Packet) : State :=
  match noticeAbout s n code p with
  | some q =>
    if (s.router n).plain.length < 8 then s.modRouter n (fun r => { r with plain := r.plain ++ [q] })
    else s
  | none => s

/-- A notice of the site controller of a site, raised at its node with local index 0 (R339). -/
def State.noticeSite (s : State) (st code : Nat) : State := s.noticePlain (nodeOf st 0) code none

/-- A notice of the lead steward. -/
def State.noticeLead (s : State) (code : Nat) : State := s.noticeDie leadNode code none

/-- The FENCE_CREDIT of a die above node n for a packet that it discards, on the packet's plane
(R145, R447). -/
def State.creditDie (s : State) (n pl : Nat) (p : Packet) : State :=
  match creditFor p with
  | some c => s.offer n c (some pl)
  | none => s

/-- Discard a packet at a die: a credit and a notice (R26, R145). -/
def State.discardDie (s : State) (n pl : Nat) (p : Packet) (code : Nat) : State :=
  (s.creditDie n pl p).noticeDie n code (some p)

/-- An ACK of the die above node n for a WRITE that asks for one, on plane pl (R445). -/
def State.ackDie (s : State) (n pl : Nat) (p : Packet) : State :=
  match ackFor p with
  | some a => s.offer n a (some pl)
  | none => s

/-! ## Sites -/

/-- Set a cause bit of SITE_HEALTH: REMAP follows it, and SITE_REMAP is sent when REMAP rises (R412). -/
def State.flagRemap (s : State) (st cause : Nat) : State :=
  let w := s.reg (bSm st) 0x408
  let s1 := s.setReg (bSm st) 0x408 (setBit (setBit w cause true) 0 true)
  if bit w 0 then s1 else s1.noticeSite st 0x0A06

/-- Bring the closed plane-directions of the vertical port of node n in line with VFENCE: those that
carry no packet, which now names as plane and, where it holds, the direction from the die, change at once (R184). -/
def State.fenceEffect (s : State) (n : Nat) (now : Nat → Bool → Bool) : State :=
  let want := bit (s.reg (bRtr n) 0x10) 0
  let v := (List.range 8).foldl (fun (v : BitVec 8) i =>
    if now (i / 2) (i % 2 == 1) then
      (if want then v ||| BitVec.ofNat 8 (1 <<< i) else v &&& ~~~ BitVec.ofNat 8 (1 <<< i))
    else v) (s.router n).vclosed
  let s1 := s.modRouter n (fun r => { r with vclosed := v })
  if v = 0xFF then s1.setField (bRtr n) 0x10 1 1 1
  else if v = 0 then s1.setField (bRtr n) 0x10 1 1 0
  else s1

/-- One end of a link. -/
def RPlane.endOf (r : RPlane) (d : Nat) : LinkEnd := Sparse.getD {} r.ends d

/-- A packet is in transit through output d, or words of one are to be sent again (R168, R169). -/
def RPlane.carries (r : RPlane) (d : Nat) : Bool :=
  (Sparse.find d r.transit).isSome || !(r.endOf d).again.isEmpty

/-- A packet is in transit through the vertical port of plane pl from the die (R169, R184). -/
def vertEntering (s : State) (n pl : Nat) : Bool :=
  let p := s.plane n pl
  p.carries 5 || !(p.endOf 4).wire.isEmpty

/-- A packet is in transit through the vertical output of plane pl: granted it, waiting for the
inbox chain, or being admitted by it (R169, R175, R184). -/
def vertBusy (s : State) (n pl : Nat) : Bool :=
  let p := s.plane n pl
  p.carries 4 || !p.vout.isEmpty ||
    (match (s.core n).admitting with
     | some a => a.plane == pl
     | none => false)

/-- Write VFENCE at a node (R183, R184). -/
def State.setFence (s : State) (n : Nat) (on : Bool) : State :=
  let s1 := s.setField (bRtr n) 0x10 0 1 on.toNat
  s1.fenceEffect n (fun pl fromDie => !(if fromDie then vertEntering s1 n pl else vertBusy s1 n pl))

end Sys2Proof.Machine
end

