-- ==== Sys2Proof/Machine/Waits.lean ====
section
/-! DEFINITION. Signal slots, completion counters, the release of waiting contexts, and how a unit
operation or a context ends (R40 to R60, R193 to R203). -/

namespace Sys2Proof.Machine

/-! ## Slots (R193) -/

/-- COUNT of a slot. -/
def slotCount (w : Word) : Nat := bits w 0 32
/-- MODE of a slot. -/
def slotMode (w : Word) : Nat := bits w 32 2
/-- GUARD of a slot. -/
def slotGuard (w : Word) : Bool := bit w 34
/-- LINK_EN of a slot. -/
def slotLinkEn (w : Word) : Bool := bit w 35
/-- LINK of a slot. -/
def slotLink (w : Word) : Nat := bits w 36 12
/-- EXPECT or THRESHOLD of a slot. -/
def slotExpect (w : Word) : Nat := bits w 48 16

/-- Slot sl of a core. -/
def Core.slot (c : Core) (sl : Nat) : Word := Sparse.getD 0 c.slots sl

/-- Set slot sl. -/
def Core.setSlot (c : Core) (sl : Nat) (w : Word) : Core := { c with slots := Sparse.set 0 sl w c.slots }

/-- Completion counter k of a core. -/
def Core.cc (c : Core) (k : Nat) : Lane := Sparse.getD 0 c.ccs k

/-- Set completion counter k. -/
def Core.setCc (c : Core) (k : Nat) (v : Lane) : Core := { c with ccs := Sparse.set 0 k v c.ccs }

/-- later(a, b) of R194. -/
def later (a b : Nat) : Bool :=
  let d := (a + 65536 - b) % 65536
  decide (1 ≤ d) && decide (d ≤ 32767)

/-- A slot after one signal with expect count e (R194). -/
def applySignal (w : Word) (e : Nat) : Word :=
  let e16 := e % 65536
  let w1 :=
    if slotMode w = 2 then w
    else if slotCount w = 0 then setBits (setBit w 34 (decide (e ≠ 0))) 48 16 e16
    else if e = 0 then w
    else if slotGuard w = false then setBits (setBit w 34 true) 48 16 e16
    else if later e16 (slotExpect w) then setBits w 48 16 e16
    else w
  satInc w1 0 32

/-- The guard of a slot is met for a counter value (R197). -/
def guardMet (w : Word) (cc : Lane) : Bool :=
  !slotGuard w || decide ((cc.toNat % 65536 + 65536 - slotExpect w) % 65536 ≤ 32767)

/-- A context in a SLOT-form wait on slot w with a counter at cc is eligible (R196). -/
def eligible (w : Word) (cc : Lane) : Bool :=
  if slotMode w = 2 then decide (slotExpect w ≤ slotCount w)
  else decide (1 ≤ slotCount w) && guardMet w cc

/-- The effect of one release on its slot (R196). -/
def consume (w : Word) : Word := if slotMode w = 0 then setBits w 0 32 (slotCount w - 1) else w

/-! ## Cairns (R59) -/

/-- Add one to the Cairn of context i of core n and to CORE_CAIRN. -/
def State.cairn (s : State) (n i : Nat) : State :=
  (s.modCtx n i (fun x => { x with cairn := x.cairn + 1 })).modReg (bCore n) 0x48
    (fun w => wrapInc w 0 32)

/-! ## Release (R45, R198) -/

/-- A context whose wait is satisfied: READY, or WAKE_PENDING where it is HALTED (R45, R60). Its wait has ended
with the release, so CORE_CTX_STATn shows none in either state (DEDUCED, assumption 75). -/
def Ctx.released (x : Ctx) : Ctx :=
  if x.state = .halted then { x with wait := .nothing, wake := true, idle := false }
  else { x with state := .ready, wait := .nothing, idle := false }

/-- Release context i of core n: one Cairn event (R59, R94). -/
def State.release (s : State) (n i : Nat) : State := (s.modCtx n i Ctx.released).cairn n i

/-- The context waits, PARKED or HALTED from PARKED (R198). -/
def Ctx.waits (x : Ctx) : Bool := x.state == .parked || x.state == .halted

/-- Test context i of core n where its wait satisfies sel, releasing it when its condition holds; the
counters that the release counts on by R201 are appended to links. -/
def testCtx (n : Nat) (sel : WaitFor → Bool) (a : State × List Nat) (i : Nat) : State × List Nat :=
  let c := a.1.core n
  let x := c.ctx i
  if x.waits && sel x.wait then
    match x.wait with
    | .slot sl k =>
      let w := c.slot sl
      if eligible w (c.cc k) then
        ((a.1.modCore n (fun c => c.setSlot sl (consume w))).release n i,
          if slotLinkEn w then a.2 ++ [slotLink w] else a.2)
      else a
    | .count k thr => if thr ≤ (c.cc k).toNat then (a.1.release n i, a.2) else a
    | _ => a
  else a

/-- One test for release: the contexts in the order c0 to c3 (R198). -/
def testAll (s : State) (n : Nat) (sel : WaitFor → Bool) : State × List Nat :=
  [0, 1, 2, 3].foldl (testCtx n sel) (s, [])

/-- The wait names counter k (R198, R203). -/
def waitsCounter (k : Nat) : WaitFor → Bool
  | .slot _ c => c == k
  | .count c _ => c == k
  | _ => false

/-- The wait is on slot sl (R198). -/
def waitsSlot (sl : Nat) : WaitFor → Bool
  | .slot t _ => t == sl
  | _ => false

/-- Add one to a counter, recording a wrap (R69). -/
def State.bump (s : State) (n k : Nat) : State :=
  let v := (s.core n).cc k
  let s1 := s.modCore n (fun c => c.setCc k (v + 1))
  if v = 0xFFFF_FFFF then s1.setField (bCore n) 0x20 14 1 1 else s1

/-- Add one to each counter of a list in turn, with the releases each brings and the counts those
add by R201. Each test ends before the counts of its releases are added (DESIGN CHOICE, assumption 111). Four contexts
can be released, so the fuel never runs out. -/
def addCounts : Nat → State → Nat → List Nat → State
  | 0, s, _, _ => s
  | _ + 1, s, _, [] => s
  | f + 1, s, n, k :: rest =>
    let a := testAll (s.bump n k) n (waitsCounter k)
    addCounts f a.1 n (rest ++ a.2)

/-- Fuel for addCounts: one count and at most four links. -/
def countFuel : Nat := 8

/-- One count on counter k of core n (R144, R198, R203). -/
def State.addCount (s : State) (n k : Nat) : State := addCounts countFuel s n [k]

/-- The test after a slot has changed, with the counts its releases add (R198, R201). -/
def State.testSlot (s : State) (n sl : Nat) : State :=
  let a := testAll s n (waitsSlot sl)
  addCounts countFuel a.1 n a.2

/-- One signal with expect count e to slot sl (R194, R198). -/
def State.signal (s : State) (n sl e : Nat) : State :=
  (s.modCore n (fun c => c.setSlot sl (applySignal (c.slot sl) e))).testSlot n sl

/-- A write of a slot: MODE 3 is applied as 0 with a notice (R69, R193, R202). -/
def State.writeSlot (s : State) (n sl : Nat) (v : Word) : State :=
  let w := if slotMode v = 3 then setBits v 32 2 0 else v
  let s1 := (s.modCore n (fun c => c.setSlot sl w)).testSlot n sl
  if slotMode v = 3 then s1.noticeDie n 0x0103 none else s1

/-- A write of a completion counter, which is a test moment (R68, R198, R203). -/
def State.writeCc (s : State) (n k : Nat) (v : Word) : State :=
  let a := testAll (s.modCore n (fun c => c.setCc k (v.truncate 32))) n (waitsCounter k)
  addCounts countFuel a.1 n a.2

/-- A complete packet is in the inbox chain: every context PARKED on PARK is released (R95, R161). -/
def State.wakeParked (s : State) (n : Nat) : State :=
  [0, 1, 2, 3].foldl (fun s i =>
    let x := s.ctx n i
    if x.state = .parked ∧ x.wait = .inbox then s.release n i else s) s

/-! ## Faults (R54 to R57) -/

/-- CORE_FAULT_INFOn (R69). The pc 0x1_0000 does not fit the PC field, which then reads 0, its low 16 bits
(DESIGN CHOICE, assumption 74). -/
def faultWord (code : Nat) (async : Bool) (unit pc : Nat) : Word :=
  field 0 8 code ||| field 8 1 async.toNat ||| field 10 3 unit ||| field 16 16 pc

/-- A fault found at issue (R54): nothing of the instruction happens, the search of R41 goes on after
the faulted context. -/
def State.faultCtx (s : State) (n i code unit pc : Nat) (addr : Word) : State :=
  (s.modCtx n i (fun x => { x with
    state := .faulted, held := false, faultInfo := faultWord code false unit pc,
    faultAddr := addr })).noticeDie n 0x0101 none

/-- A fault found by a unit after issue (R56). A context in the drain of END keeps it, and becomes FREE with
the last of its operations (R44): it is not FAULTED, so a second one replaces the record and is reported too; one in
the drain of FENCE, or HALTED, becomes FAULTED (DEDUCED, assumption 15). -/
def State.asyncFault (s : State) (n i code unit pc : Nat) (addr : Word) : State :=
  let x := s.ctx n i
  if x.state = .faulted then s.setCtx n i { x with faultInfo := setBit x.faultInfo 9 true }
  else if x.waits && x.wait == .ending then
    (s.setCtx n i { x with faultInfo := faultWord code true unit pc,
                           faultAddr := addr }).noticeDie n 0x0101 none
  else (s.setCtx n i { x with
    state := .faulted, wait := .nothing, idle := false, wake := false, held := false,
    faultInfo := faultWord code true unit pc, faultAddr := addr }).noticeDie n 0x0101 none

/-- The context becomes FREE (R44, R58). -/
def Ctx.freed (x : Ctx) : Ctx :=
  { x with state := .free, wait := .nothing, idle := false, held := false, wake := false,
           clearPending := false }

/-- After an operation of context i has ended: a drained FENCE is released, a drained END frees the
context, a pending CLEAR_FAULT acts (R44, R45, R58). -/
def State.drain (s : State) (n i : Nat) : State :=
  let x := s.ctx n i
  if x.outstanding ≠ 0 then s
  else if x.state = .faulted then
    if x.clearPending then s.setCtx n i { x.freed with faultInfo := 0, faultAddr := 0 } else s
  else if x.waits then
    match x.wait with
    | .fence => s.release n i
    | .ending => (s.modCtx n i Ctx.freed).cairn n i
    | _ => s
  else s

end Sys2Proof.Machine
end

