-- ==== Sys2Proof/Machine/Operands.lean ====
section
/-! DEFINITION. Instruction words: their fields, the checks of decode in the order of R74, scratchpad
and instruction memory, and which context of a core issues (R41, R42, R52, R53, R70 to R76, R86). -/

namespace Sys2Proof.Machine

/-! ## Fields (R70) -/

/-- OP. -/
def iOp (w : Word) : Nat := bits w 56 8
/-- D. -/
def iD (w : Word) : Nat := bits w 51 5
/-- A. -/
def iA (w : Word) : Nat := bits w 46 5
/-- B. -/
def iB (w : Word) : Nat := bits w 41 5
/-- MODE. -/
def iMode (w : Word) : Nat := bits w 32 9
/-- IMM. -/
def iImm (w : Word) : Nat := bits w 0 32
/-- sext(IMM). -/
def iSext (w : Word) : Word := sext32 (w.truncate 32)

/-- The defined opcodes (R73). -/
def opcodes : List Nat :=
  [0x10, 0x11, 0x12, 0x13, 0x14, 0x15, 0x16, 0x17, 0x20, 0x21, 0x22, 0x23, 0x24, 0x30, 0x31, 0x40,
   0x41, 0x42, 0x43, 0x44, 0x45, 0x46, 0x47, 0x48, 0x49, 0x50, 0x60, 0x61, 0x70, 0x71, 0x80, 0x90,
   0x91, 0x92, 0x93, 0xA0, 0xA1, 0xA2, 0xA3, 0xA4]

/-- LCOUNT of a unit opcode (R87). -/
def iLcount (w : Word) : Bool := bit w 40
/-- The counter of a unit opcode, IMM[31:20] (R87). -/
def iUnitCc (w : Word) : Nat := bits w 20 12
/-- The displacement of a unit opcode, IMM[19:0] (R87). -/
def iUnitDisp (w : Word) : Nat := bits w 0 20

/-- A VOP function and type are defined together (R84). -/
def vopDefined (f ty : Nat) : Bool :=
  decide (f ≤ 0x13) && decide (ty < 2) &&
    !(decide (0x0B ≤ f) && decide (f ≤ 0x0D) && ty == 0) && !(decide (0x0F ≤ f) && ty == 1)

/-- MODE, IMM and unused fields of a defined opcode hold accepted values (R71, R80 to R96). -/
def modeOk (w : Word) : Bool :=
  let d := iD w == 0
  let a := iA w == 0
  let b := iB w == 0
  let m := iMode w
  let im := iImm w
  let unitImm := iLcount w || iUnitCc w == 0
  match iOp w with
  | 0x10 => im == 0 && decide (m ≤ 0x15) && (!(decide (0x10 ≤ m) && decide (m ≤ 0x13)) || b)
  | 0x11 => b && decide (m ≤ 0x15) && !(decide (0x10 ≤ m) && decide (m ≤ 0x13))
  | 0x12 => im == 0 && decide (m < 8)
  | 0x13 => b && decide (m < 8)
  | 0x14 => a && b && m == 0
  | 0x15 => a && b && m == 0
  | 0x16 => im == 0 && decide (m < 8) && (decide (m < 4) || b) && (decide (m < 6) || a)
  | 0x17 => im == 0 && decide (m < 16)
  | 0x20 => d && a && b && m == 0 && decide (im < 8192)
  | 0x21 => d && a && b && decide (m < 16) && decide (im < 8192)
  | 0x22 => a && b && m == 0 && decide (im < 8192)
  | 0x23 => d && b && m == 0 && im == 0
  | 0x24 => a && b && m == 0 && decide (im < 8192)
  | 0x30 => b && decide (m < 7)
  | 0x31 => d && decide (m < 4)
  | 0x40 => im == 0 && decide (m < 128) && vopDefined (m % 32) (m / 32) &&
      (!(m % 32 == 6 || m % 32 == 7 || m % 32 == 0x0E) || b)
  | 0x41 => b && m == 0
  | 0x42 => d && m == 0
  | 0x43 => b && m == 0 && im == 0
  | 0x44 => b && m == 0 && decide (im < 64)
  | 0x45 => b && m == 0 && decide (im < 64)
  | 0x46 => b && im == 0 && decide (m % 32 < 3) && decide (m / 32 < 2)
  | 0x47 => im == 0 && m % 32 == 0 && decide (m / 32 < 2)
  | 0x48 => im == 0 && decide (m < 2)
  | 0x49 => b && m % 256 == 0 && unitImm
  | 0x50 => d && b && m % 16 == 0 && decide (m % 256 / 16 < 3) && unitImm
  | 0x60 => d && b && m % 256 == 0 && unitImm
  | 0x61 => b && m == 0
  | 0x70 => d && a && decide (im < 2 ^ 18) && decide (m < 4) &&
      (if m / 2 = 0 then b else im % 64 == 0)
  | 0x71 => d && a && m == 0 && decide (im < 64)
  | 0x80 => d && b && m % 256 == 0 && unitImm
  | 0x90 => b && m == 0 && decide (im < 8192)
  | 0x91 => d && a && b && m == 0 && im == 0
  | 0x92 => d && a && b && decide (m < 2) && im == 0
  | 0x93 => a && b && m == 0 && im == 0
  | 0xA0 => b && m == 0
  | 0xA1 => d && m == 0
  | 0xA2 => d && a && b && m == 0 && im == 0
  | 0xA3 => d && a && b && m == 0
  | 0xA4 => d && a && b && m == 0
  | _ => false

/-- The vector registers that a word names (R84, R86). -/
def vecRegs (w : Word) : List Nat :=
  match iOp w with
  | 0x40 => [iD w, iA w, iB w]
  | 0x41 => [iD w]
  | 0x42 => [iB w]
  | 0x43 => [iD w]
  | 0x44 => [iA w]
  | 0x45 => [iD w]
  | 0x46 => [iA w]
  | 0x47 => [iD w, iD w + 1, iA w, iB w]
  | 0x48 => [iD w, iA w, iB w]
  | 0x49 => [iD w]
  | _ => []

/-- Vector and predicate register fields hold registers that exist; VSORT's destination is even
(R72, R84). -/
def regOk (w : Word) : Bool :=
  (vecRegs w).all (fun r => decide (r < 16)) &&
  match iOp w with
  | 0x12 => decide (iD w < 8)
  | 0x13 => decide (iD w < 8)
  | 0x16 => decide (iD w < 8) && decide (iA w < 8) && decide (iB w < 8)
  | 0x47 => iD w % 2 == 0
  | _ => true

/-- The fault of decode, steps 3 and 4 of R74: MODE_RESERVED, then REG_RANGE. -/
def decodeFault (w : Word) : Option Nat :=
  if modeOk w then (if regOk w then none else some 0x05) else some 0x04

/-! ## Scratchpad and instruction memory (R51 to R53) -/

/-- n scratchpad bytes from offset a. -/
def Core.readSpad (c : Core) (a n : Nat) : List Byte := Sparse.readBytes (fun _ => 0) c.spad a n

/-- The words of a list that a write of n bytes at a covers only in part, or not at all: their parity
state stays (R52). -/
def keepBad (bad : List Nat) (a n : Nat) : List Nat :=
  bad.filter (fun w => !(decide (a ≤ 8 * w) && decide (8 * w + 8 ≤ a + n)))

/-- Write scratchpad bytes from offset a; a word wholly covered gets fresh parity (R52). -/
def Core.writeSpad (c : Core) (a : Nat) (bs : List Byte) : Core :=
  { c with spad := Sparse.writeZ c.spad a bs, badSpad := keepBad c.badSpad a bs.length }

/-- n instruction-memory bytes from offset a. -/
def Core.readImem (c : Core) (a n : Nat) : List Byte := Sparse.readBytes (fun _ => 0) c.imem a n

/-- Write instruction-memory bytes from offset a. -/
def Core.writeImem (c : Core) (a : Nat) (bs : List Byte) : Core :=
  { c with imem := Sparse.writeZ c.imem a bs, badImem := keepBad c.badImem a bs.length }

/-- The offset of the first word with a parity error among those that hold bytes a to a + n − 1. -/
def firstBad (bad : List Nat) (a n : Nat) : Option Nat :=
  if n = 0 then none
  else match (bad.filter (fun w => decide (a / 8 ≤ w) && decide (w ≤ (a + n - 1) / 8))).min? with
    | some w => some (8 * w)
    | none => none

/-- The end of the scratchpad. -/
def spadEnd : Nat := 0x20_0000

/-- The fault of a scratchpad access of len bytes at ea: SPAD_RANGE, then SPAD_ALIGN (R75). -/
def spadFault (ea : Word) (len align : Nat) : Option Nat :=
  if ea.toNat + len > spadEnd then some 0x06
  else if ea.toNat % align ≠ 0 then some 0x07
  else none

/-- CORE_FAULT_ADDRn of a range or alignment fault: bits [20:0] of the offset (R75). -/
def eaAddr (ea : Word) : Word := ea &&& maskAt 0 21

/-! ## Fetch and issue (R41, R42, R53, R74, R86) -/

/-- What a context would issue: a fetch fault with its code, or a word (R53, R74). -/
inductive Fetch where
  | fault (code : Nat)
  | word (w : Word)
  deriving DecidableEq, Repr

/-- The fetch of context x of core c: PC_RANGE, then IMEM_PARITY, then the word (R53, R74). -/
def fetch (c : Core) (x : Ctx) : Fetch :=
  if 0x1_0000 ≤ x.pc then .fault 0x01
  else if c.badImem.contains (x.pc / 8) then .fault 0x02
  else .word (quadAt (c.readImem x.pc 8) 0)

/-- The unit a unit opcode hands its descriptor to (R87). -/
def unitOf (op : Nat) : Option UnitKind :=
  match op with
  | 0x49 => some .vector
  | 0x50 => some .tensor
  | 0x60 => some .message
  | 0x80 => some .ledger
  | _ => none

/-- Descriptors a unit of the core holds (R42). -/
def Core.unitLoad (c : Core) (u : UnitKind) : Nat := (c.ops.filter (fun o => o.unit == u)).length

/-- Vector registers held by the outstanding VTLDs of context i: vD to v15 (R86). -/
def heldVec (c : Core) (i r : Nat) : Bool :=
  c.ops.any (fun o => o.unit == .vector && o.ctx == i && decide (o.reg ≤ r))

/-- The descriptor address of a unit opcode (R87). -/
def unitEa (x : Ctx) (w : Word) : Word := x.getG (iA w) + BitVec.ofNat 64 (iUnitDisp w)

/-- Context i is held at issue: its word decodes, and its unit is full or a register it names is
held (R42, R86). A unit opcode whose descriptor address faults is not held by a full unit; a word that names a
held register is held before steps 5 and 6 of R74 look at its scratchpad (DEDUCED, assumption 76). -/
def heldAt (c : Core) (i : Nat) : Bool :=
  let x := c.ctx i
  match fetch c x with
  | .fault _ => false
  | .word w =>
    decide (iOp w ∈ opcodes) && (decodeFault w).isNone &&
    ((vecRegs w).any (heldVec c i) ||
      match unitOf (iOp w) with
      | some u => (spadFault (unitEa x w) 64 64).isNone && decide (8 ≤ c.unitLoad u)
      | none => false)

/-- The order in which R41 looks at the contexts; c0 is first where none has issued since clearing
(assumption 7). -/
def issueOrder : Option Nat → List Nat
  | some l => [(l + 1) % 4, (l + 2) % 4, (l + 3) % 4, l % 4]
  | none => [0, 1, 2, 3]

/-- The context that issues: the first READY one that is not held (R41, R42). -/
def pick (c : Core) : Option Nat :=
  (issueOrder c.lastIssued).find? (fun i => (c.ctx i).state == .ready && !heldAt c i)

/-- The contexts that R41 passes over because they are held, when context i issues or none does. -/
def passedOver (c : Core) (stop : Option Nat) : List Nat :=
  ((issueOrder c.lastIssued).takeWhile (fun i => some i != stop)).filter
    (fun i => (c.ctx i).state == .ready && heldAt c i)

/-- The core may issue: its headers are on, and no clearing runs (R62, R387). -/
def mayIssue (s : State) (n : Nat) : Bool := headerOn s n && !(s.core n).clearing

/-- The context that issues at core n with what it fetches. -/
def issuing (s : State) (n : Nat) : Option (Nat × Fetch) :=
  if mayIssue s n then
    match pick (s.core n) with
    | some i => some (i, fetch (s.core n) (s.ctx n i))
    | none => none
  else none

/-- Record HELD_AT_ISSUE at the contexts passed over, and the context that issues as the latest
(R41, R42). -/
def beginIssue (s : State) (n : Nat) (who : Option Nat) : State :=
  s.modCore n (fun c =>
    let c1 := (passedOver c who).foldl (fun c j => c.setCtx j { c.ctx j with held := true }) c
    match who with
    | some i => { c1.setCtx i { c1.ctx i with held := false } with lastIssued := some i }
    | none => c1)

/-- Context i retires an instruction that goes on at the next word, having changed its bank by f:
the program counter advances and one Cairn event is added (R53, R59). -/
def State.retire (s : State) (n i : Nat) (f : Ctx → Ctx) : State :=
  (s.modCtx n i (fun x => { f x with pc := x.pc + 8 })).cairn n i

/-- Context i retires an instruction that goes on at byte offset t. -/
def State.retireTo (s : State) (n i t : Nat) (f : Ctx → Ctx) : State :=
  (s.modCtx n i (fun x => { f x with pc := t })).cairn n i

/-- Core n issues: where the context that R41 picks holds a word of the row, it is checked by steps 3
and 4 of R74 and then acts; where another word is next, nothing of this row happens. -/
def issue (s : State) (n : Nat) (row : Word → Bool) (act : State → Nat → Word → State) : State :=
  match issuing s n with
  | some (i, .word w) =>
    if iOp w ∈ opcodes ∧ row w then
      let s1 := beginIssue s n (some i)
      match decodeFault w with
      | some code => s1.faultCtx n i code 0 (s.ctx n i).pc (BitVec.ofNat 64 (s.ctx n i).pc)
      | none => act s1 i w
    else s
  | some (_, .fault _) => s
  | none => if mayIssue s n then beginIssue s n none else s

/-- The row of one opcode. -/
def isOp (op : Nat) (w : Word) : Bool := iOp w == op

/-- A fault of context i at issue under a unit number of R76. -/
def State.issueFault (s : State) (n i code unit : Nat) (addr : Word) : State :=
  s.faultCtx n i code unit (s.ctx n i).pc addr

end Sys2Proof.Machine
end

