-- ==== Sys2Proof/Machine/LoadStore.lean ====
section
/-! DEFINITION. Loads, stores, and the unit opcodes that hand a descriptor to a unit (R83, R87). -/

namespace Sys2Proof.Machine

/-- Sign-extend the low 8 × n bits of v to 64 bits. -/
def sextBytes (n v : Nat) : Word :=
  if v.testBit (8 * n - 1) then BitVec.ofInt 64 ((v : Int) - (2 ^ (8 * n) : Nat)) else BitVec.ofNat 64 v

/-- The size in bytes of MODE[1:0] (R83). -/
def lsSize (w : Word) : Nat := 2 ^ (iMode w % 4)

/-- The effective offset gA + sext(IMM) (R75, R83). -/
def effAddr (x : Ctx) (w : Word) : Word := x.getG (iA w) + iSext w

/-- LD (R83). -/
def execLd (n : Nat) (s : State) : Res :=
  onCore n s fun s => issue s n (isOp 0x30) fun s i w =>
    let ea := effAddr (s.ctx n i) w
    match spadFault ea (lsSize w) (lsSize w), firstBad (s.core n).badSpad ea.toNat (lsSize w) with
    | some code, _ => s.issueFault n i code 2 (eaAddr ea)
    | none, some a => s.issueFault n i 0x08 2 (BitVec.ofNat 64 a)
    | none, none =>
      let v := leNat ((s.core n).readSpad ea.toNat (lsSize w))
      s.retire n i fun x =>
        x.setG (iD w) (if 4 ≤ iMode w then sextBytes (lsSize w) v else BitVec.ofNat 64 v)

/-- ST (R83). -/
def execSt (n : Nat) (s : State) : Res :=
  onCore n s fun s => issue s n (isOp 0x31) fun s i w =>
    let x := s.ctx n i
    let ea := effAddr x w
    match spadFault ea (lsSize w) (lsSize w) with
    | some code => s.issueFault n i code 2 (eaAddr ea)
    | none =>
      (s.modCore n fun c => c.writeSpad ea.toNat (leBytes (x.getG (iB w)).toNat (lsSize w))).retire
        n i id

/-- Hand a descriptor to a unit: its place is taken, the context's outstanding count rises, the
instruction retires (R42, R87). unit is the number of R76 for a fault at issue. -/
def handOver (s : State) (n i : Nat) (w : Word) (u : UnitKind) (unit : Nat) : State :=
  let x := s.ctx n i
  let ea := unitEa x w
  match spadFault ea 64 64 with
  | some code => s.issueFault n i code unit (eaAddr ea)
  | none =>
    let op : UnitOp :=
      { unit := u, ctx := i, pc := x.pc, desc := ea.toNat, lcount := iLcount w, cc := iUnitCc w,
        reg := iD w, fn := iMode w / 16 % 16 }
    (s.modCore n fun c => { c with ops := c.ops ++ [op] }).retire n i fun x =>
      { x with outstanding := x.outstanding + 1 }

/-- VTLD (R86, R87). -/
def execVtld (n : Nat) (s : State) : Res :=
  onCore n s fun s => issue s n (isOp 0x49) fun s i w => handOver s n i w .vector 3

/-- TISSUE (R87): a tensor instruction's faults at issue carry unit 4 (DEDUCED, assumption 16). -/
def execTissue (n : Nat) (s : State) : Res :=
  onCore n s fun s => issue s n (isOp 0x50) fun s i w => handOver s n i w .tensor 4

/-- MSEND (R87). -/
def execMsend (n : Nat) (s : State) : Res :=
  onCore n s fun s => issue s n (isOp 0x60) fun s i w => handOver s n i w .message 5

/-- LOP (R87). -/
def execLop (n : Nat) (s : State) : Res :=
  onCore n s fun s => issue s n (isOp 0x80) fun s i w => handOver s n i w .ledger 6

end Sys2Proof.Machine
end

