-- ==== Sys2Proof/Machine/Inbox.lean ====
section
/-! DEFINITION. The inbox chain: admission, reading and flushing (R91, R158 to R163). -/

namespace Sys2Proof.Machine

/-- CORE_INBOX_STAT.PACKETS: packets whose last word is in the chain (R161). -/
def Core.packets (c : Core) : Nat := (c.inbox.filter InWord.last).length

/-- Words enter the chain while a stage is free; while a flush is pending, the word at the head makes
room (R158, R163). Answers the chain and the words that still wait. -/
def feedWords (flush : Bool) (inbox : List InWord) : List InWord → List InWord × List InWord
  | [] => (inbox, [])
  | w :: ws =>
    if inbox.length < 32 then feedWords flush (inbox ++ [w]) ws
    else if flush then feedWords flush (inbox.tail ++ [w]) ws
    else (inbox, w :: ws)

/-- Discard every word of the chain and end the flush (R163). -/
def Core.flushed (c : Core) : Core := { c with inbox := [], flushPending := false }

/-- Words of the packet being admitted enter; with the last one it is counted, contexts on PARK are
released, and a pending flush acts (R161, R163). -/
def feed (s : State) (n : Nat) : State :=
  let c := s.core n
  match c.admitting with
  | none => s
  | some a =>
    let r := feedWords c.flushPending c.inbox a.rest
    if r.2 = [] then
      let s1 := s.setCore n { c with inbox := r.1, admitting := none }
      let s2 := (s1.addCount n (pCid a.pkt)).wakeParked n
      if c.flushPending then s2.modCore n Core.flushed else s2
    else s.setCore n { c with inbox := r.1, admitting := some { a with rest := r.2 } }

/-- The chain accepts the first word of a packet of plane pl; the others follow (R159). -/
def admitPacket (s : State) (n pl : Nat) (p : Packet) : State :=
  feed (s.modCore n fun c => { c with admitting := some ⟨pl, p, chainWords p⟩ }) n

/-- The chain would accept a first word now: a stage is free, no packet is being admitted, no flush
is pending (R159, R163). -/
def Core.accepts (c : Core) : Bool :=
  decide (c.inbox.length < 32) && c.admitting.isNone && !c.flushPending

/-- A FLUSH written while none is pending: it acts at once where no packet is being admitted (R163). -/
def State.flush (s : State) (n : Nat) : State :=
  s.modCore n fun c =>
    if c.admitting.isNone then c.flushed else { c with flushPending := true }

/-- INMV's status: LAST and EMPTY (R91). -/
def inmvStatus (last empty : Bool) : Word := field 0 1 last.toNat ||| field 1 1 empty.toNat

/-- INMV (R91, R162). -/
def execInmv (n : Nat) (s : State) : Res :=
  onCore n s fun s => issue s n (isOp 0x61) fun s i w =>
    let ea := effAddr (s.ctx n i) w
    match spadFault ea 64 64 with
    | some code => s.issueFault n i code 5 (eaAddr ea)
    | none =>
      let c := s.core n
      match (if c.flushPending then [] else c.inbox) with
      | [] =>
        ((s.modCore n fun c => c.writeSpad ea.toNat c.lastRead).setField (bCore n) 0x50 12 1 1).retire
          n i fun x => x.setG (iD w) (inmvStatus false true)
      | h :: rest =>
        let s1 := s.modCore n fun c =>
          { (c.writeSpad ea.toNat h.bytes) with inbox := rest, lastRead := h.bytes }
        let s2 := s1.retire n i fun x => x.setG (iD w) (inmvStatus h.last false)
        feed (if h.last then s2.cairn n i else s2) n

/-- FLUSH: a write of CORE_INBOX_STAT.FLUSH = 1 (R163). -/
def execFlush (n : Nat) (s : State) : Res :=
  onCore n s fun s => if coreServed s n then s.flush n else s

/-- FLUSH_COMPLETE: the packet being admitted while a flush is pending reaches its end (R163). -/
def execFlushComplete (n : Nat) (s : State) : Res :=
  onCore n s fun s =>
    if (s.core n).flushPending then
      if (s.core n).admitting.isNone then s.modCore n Core.flushed else feed s n
    else s

end Sys2Proof.Machine
end

