-- ==== Sys2Proof/Machine/Context.lean ====
section
/-! DEFINITION. Waiting, signals and context control (R43 to R46, R92 to R96), and the fetch that
faults (R53, R73). -/

namespace Sys2Proof.Machine

/-- The context parks on a wait; the instruction after it is next (R45, R60, R94). -/
def State.park (s : State) (n i : Nat) (wf : WaitFor) (idle : Bool) : State :=
  s.modCtx n i fun x => { x with state := .parked, wait := wf, idle := idle, pc := x.pc + 8 }

/-- The counter a WAIT names, IMM[17:6] (R92). -/
def waitCc (w : Word) : Nat := bits w 6 12

/-- MODE[0] of WAIT and PARK: IDLE_BY_DESIGN (R92, R95). -/
def idleFlag (w : Word) : Bool := bit w 32

/-- The word is a WAIT of the form selected by MODE[1] (R92). -/
def isWait (count : Bool) (w : Word) : Bool := iOp w == 0x70 && bit w 33 == count

/-- WAIT, SLOT form (R92, R196 to R201). -/
def execWaitSlot (n : Nat) (s : State) : Res :=
  onCore n s fun s => issue s n (isWait false) fun s i w =>
    let sl := iImm w % 64
    let sw := (s.core n).slot sl
    if eligible sw ((s.core n).cc (waitCc w)) then
      addCounts countFuel ((s.modCore n fun c => c.setSlot sl (consume sw)).retire n i id) n
        (if slotLinkEn sw then [slotLink sw] else [])
    else s.park n i (.slot sl (waitCc w)) (idleFlag w)

/-- WAIT, COUNT form (R92, R203). -/
def execWaitCount (n : Nat) (s : State) : Res :=
  onCore n s fun s => issue s n (isWait true) fun s i w =>
    let thr := bits ((s.ctx n i).getG (iB w)) 0 32
    if thr ≤ ((s.core n).cc (waitCc w)).toNat then s.retire n i id
    else s.park n i (.count (waitCc w) thr) (idleFlag w)

/-- SIG (R93, R194, R198). -/
def execSig (n : Nat) (s : State) : Res :=
  onCore n s fun s => issue s n (isOp 0x71) fun s i w =>
    let e := bits ((s.ctx n i).getG (iB w)) 0 32
    (s.retire n i id).signal n (iImm w % 64) e

/-- HALT bit i of a core (R46). -/
def haltBit (s : State) (n i : Nat) : Bool := bit (s.reg (bCore n) 0x18) (4 + i)

/-- A context that SPAWN or START selects: a zeroed bank, its program counter, its g1 (R43, R65). -/
def Ctx.started (x : Ctx) (halted : Bool) (pc : Nat) (g1 : Word) : Ctx :=
  ({ x with state := if halted then .halted else .ready, wait := .nothing, idle := false,
            held := false, wake := false, clearPending := false, pc := pc, gr := [], pr := 0,
            vr := [], outstanding := 0 }).setG 1 g1

/-- The lowest FREE context (R43). -/
def freeCtx (c : Core) : Option Nat := [0, 1, 2, 3].find? (fun i => (c.ctx i).state == .free)

/-- SPAWN (R43, R46, R95). -/
def execSpawn (n : Nat) (s : State) : Res :=
  onCore n s fun s => issue s n (isOp 0x90) fun s i w =>
    match freeCtx (s.core n) with
    | some j =>
      let arg := (s.ctx n i).getG (iA w)
      (s.modCtx n j fun x => x.started (haltBit s n j) (entryOf w) arg).retire n i fun x =>
        x.setG (iD w) (BitVec.ofNat 64 j)
    | none => s.retire n i fun x => x.setG (iD w) 0x100
where
  /-- The byte offset of the entry index IMM[12:0]. -/
  entryOf (w : Word) : Nat := iImm w % 8192 * 8

/-- END (R44, R94). -/
def execEndCtx (n : Nat) (s : State) : Res :=
  onCore n s fun s => issue s n (isOp 0x91) fun s i _ =>
    if (s.ctx n i).outstanding = 0 then s.retire n i Ctx.freed else s.park n i .ending false

/-- PARK (R95). -/
def execPark (n : Nat) (s : State) : Res :=
  onCore n s fun s => issue s n (isOp 0x92) fun s i w =>
    if 1 ≤ (s.core n).packets then s.retire n i id else s.park n i .inbox (idleFlag w)

/-- SELF (R95). -/
def execSelf (n : Nat) (s : State) : Res :=
  onCore n s fun s => issue s n (isOp 0x93) fun s i w =>
    s.retire n i fun x => x.setG (iD w) (BitVec.ofNat 64 i)

/-- FENCE (R96). -/
def execFence (n : Nat) (s : State) : Res :=
  onCore n s fun s => issue s n (isOp 0xA2) fun s i _ =>
    if (s.ctx n i).outstanding = 0 then s.retire n i id else s.park n i .fence false

/-- BREAK (R96). -/
def execBreakCtx (n : Nat) (s : State) : Res :=
  onCore n s fun s => issue s n (isOp 0xA3) fun s i _ =>
    s.issueFault n i 0x0D 0 (BitVec.ofNat 64 (s.ctx n i).pc)

/-- NOP (R96). -/
def execNop (n : Nat) (s : State) : Res :=
  onCore n s fun s => issue s n (isOp 0xA4) fun s i _ => s.retire n i id

/-- A fetch that faults, or a word whose opcode is reserved (R53, R73, R74). -/
def execOpcodeReserved (n : Nat) (s : State) : Res :=
  onCore n s fun s =>
    match issuing s n with
    | some (i, f) =>
      let code := match f with
        | .fault c => some c
        | .word w => if iOp w ∈ opcodes then none else some 0x03
      match code with
      | some c =>
        (beginIssue s n (some i)).issueFault n i c 0 (BitVec.ofNat 64 (s.ctx n i).pc)
      | none => s
    | none => if mayIssue s n then beginIssue s n none else s

/-! ## CORE_CTL (R46, R58, R65) -/

/-- HALT bit i goes from one value to another (R46). -/
def State.haltOne (s : State) (n i : Nat) (on : Bool) : State :=
  let x := s.ctx n i
  if on then
    if x.state = .ready ∨ x.state = .parked then
      s.setCtx n i { x with state := .halted, idle := false, held := false }
    else s
  else if x.state = .halted then
    if x.wake then s.setCtx n i { x with state := .ready, wake := false }
    else match x.wait with
      | .nothing => s.setCtx n i { x with state := .ready }
      | .inbox =>
        if 1 ≤ (s.core n).packets then
          (s.setCtx n i { x with state := .ready, wait := .nothing }).cairn n i
        else s.setCtx n i { x with state := .parked }
      | _ => s.setCtx n i { x with state := .parked }
  else s

/-- A write of the four HALT bits (R46). -/
def State.halt (s : State) (n : Nat) (bits4 : Nat) : State :=
  let old := s.reg (bCore n) 0x18
  let s1 := s.setField (bCore n) 0x18 4 4 bits4
  [0, 1, 2, 3].foldl (fun s i =>
    if bits4.testBit i then s.haltOne n i true
    else if bit old (4 + i) then s.haltOne n i false else s) s1

/-- CLEAR_FAULT of context i (R58). -/
def State.clearFaultOne (s : State) (n i : Nat) : State :=
  let x := s.ctx n i
  if x.state = .faulted then
    if x.outstanding = 0 then s.setCtx n i { x.freed with faultInfo := 0, faultAddr := 0 }
    else s.setCtx n i { x with clearPending := true }
  else s

/-- A write of the four CLEAR_FAULT bits (R58). -/
def State.clearFault (s : State) (n : Nat) (bits4 : Nat) : State :=
  [0, 1, 2, 3].foldl (fun s i => if bits4.testBit i then s.clearFaultOne n i else s) s

/-- START is refused (R65). -/
def State.startRefused (s : State) (n : Nat) : State :=
  (s.setField (bCore n) 0x20 13 1 1).noticeDie n 0x0102 none

/-- The conditions of START (R65). -/
def mayStart (s : State) (n : Nat) : Bool :=
  [0, 1, 2, 3].all (fun i => (s.ctx n i).state == .free) && coreMember s n && (s.core n).clearDone

/-- A write of CORE_CTL.START (R65). -/
def State.start (s : State) (n : Nat) : State :=
  if mayStart s n then
    s.modCtx n 0 fun x => x.started (haltBit s n 0) (s.getField (bCore n) 0x28 3 13 * 8) 0
  else s.startRefused n

/-! ## Clearing (R61 to R64) -/

/-- The core as clearing leaves it, with clearing in progress: contexts, memories, slots, counters and
inbox at reset, unit operations and packets not yet injected abandoned (R61, R62). -/
def clearedCore : Core := { clearing := true }

/-- The registers that clearing returns to their reset values, and the staged set it drops (R61). -/
def clearRegs (s : State) (n : Nat) : State :=
  let s1 := [0x00, 0x18, 0x20, 0x28, 0x48, 0x50].foldl (fun s off => s.setReg (bCore n) off 0) s
  { s1 with staged := Sparse.dropRange ((bCore n).key 0) 0x1_0000 s1.staged }

/-- A packet part-way into the inbox chain is discarded as clearing starts: its sender's count is closed (R62). -/
def State.dropAdmission (s : State) (n : Nat) : State :=
  match (s.core n).admitting with
  | some a => s.creditDie n a.plane a.pkt
  | none => s

/-- Clearing starts (R61, R62). -/
def State.beginClear (s : State) (n : Nat) : State :=
  clearRegs ((s.dropAdmission n).setCore n clearedCore) n

/-- A write of CORE_CTL.CLEAR: nothing while clearing is in progress (R63). -/
def State.clear (s : State) (n : Nat) : State :=
  if (s.core n).clearing then s else s.beginClear n

/-- Clearing finishes (R64). -/
def State.clearDone (s : State) (n : Nat) : State :=
  if (s.core n).clearing then s.modCore n fun c => { c with clearing := false, clearDone := true }
  else s

/-- A write of CORE_CTL: CLEAR acts and START is refused where both are set; HALT is set; CLEAR_FAULT
acts (R69). -/
def State.writeCtl (s : State) (n : Nat) (v : Word) : State :=
  let s1 := (s.halt n (bits v 4 4)).clearFault n (bits v 8 4)
  if bit v 1 then (if bit v 0 then s1.startRefused n else s1).clear n
  else if bit v 0 then s1.start n
  else s1

/-- START (R65). -/
def execStart (n : Nat) (s : State) : Res :=
  onCore n s fun s => if coreServed s n then s.start n else s

/-- CLEAR (R61, R63). -/
def execClear (n : Nat) (s : State) : Res :=
  onCore n s fun s => if coreServed s n then s.clear n else s

/-- CLEAR_DONE (R64). -/
def execClearDone (n : Nat) (s : State) : Res :=
  onCore n s fun s => if headerOn s n then s.clearDone n else s

/-- HALT (R46). -/
def execHalt (n : Nat) (b : BitVec 4) (s : State) : Res :=
  onCore n s fun s => if coreServed s n then s.halt n b.toNat else s

/-- CLEAR_FAULT (R58). -/
def execClearFault (n : Nat) (b : BitVec 4) (s : State) : Res :=
  onCore n s fun s => if coreServed s n then s.clearFault n b.toNat else s

end Sys2Proof.Machine
end

