-- ==== Sys2Proof/Machine/Bridge.lean ====
section
/-! DEFINITION. CONTROL packets and the control bridge's replies (R333 to R335). -/

namespace Sys2Proof.Machine

/-- C0 of a CONTROL packet (R334). -/
def ctlHead (p : Packet) : Word := quadAt (pBytes p) 0
/-- OP. -/
def ctlOp (p : Packet) : Nat := bits (ctlHead p) 0 4
/-- COUNT. -/
def ctlCount (p : Packet) : Nat := bits (ctlHead p) 8 8
/-- TARGET. -/
def ctlTarget (p : Packet) : Word := quadAt (pBytes p) 8
/-- The DATA bytes of a request. -/
def ctlData (p : Packet) : List Byte := (pBytes p).drop 32

/-- The offset of CTL_CMD in space 0x5 (R354). -/
def ctlCmd : Nat := 0x0030_8000
/-- The offset of CTL_NOTICE in space 0x5 (R354). -/
def ctlNotice : Nat := 0x0030_8008

/-- The reply to a request: to CTL_CMD at src_node, with local and panel of its H2, and H3 copied (R333,
R334). -/
def controlReply (p : Packet) (status : Nat) (data : List Byte) : Packet :=
  { h0 := mkH0 kControl 1 0 (32 + data.length) 0
    h1 := mkAddr 5 (pSrcLocal p) (pSrcPanel p) (pSrcNode p) ctlCmd
    h2 := 0
    h3 := p.h3
    data := quadBytes (field 0 4 8 ||| field 8 8 (ctlCount p) ||| field 16 8 status ||| field 24 4 (ctlOp p) |||
        (ctlHead p &&& msk 63 32)) ++
      quadBytes (ctlTarget p) ++ List.replicate 16 0 ++ data }

/-- The bridge sends a reply. -/
def State.bridgeReply (s : State) (p : Packet) (status : Nat) (data : List Byte) : State :=
  s.offer leadNode (controlReply p status data) none

/-- CTL_ERR.STRAY counts one (R354). -/
def State.countStray (s : State) : State := s.countField bCtl 0x20 48 16

/-- The outstanding request of an OP whose access has this H3 (R335, R338). -/
def bridgeReq (s : State) (op : Nat) (key : Word) : Option CtlReq :=
  s.lead.reqs.find? fun r => ctlOp r.pkt == op && r.key == key

/-- A request is outstanding no longer: its reply is sent (R335). -/
def State.bridgeEnd (s : State) (r : CtlReq) (status : Nat) (data : List Byte) : State :=
  (s.modLead fun l => { l with reqs := l.reqs.filter fun x => x.key != r.key }).bridgeReply r.pkt status data

/-- A packet of the bridge has been injected: a BLOCK_WRITE is answered then (R335). -/
def State.bridgeInjected (s : State) (p : Packet) : State :=
  if pKind p = kWrite then
    match bridgeReq s 3 p.h3 with
    | some r => s.bridgeEnd r 0 []
    | none => s
  else s

end Sys2Proof.Machine
end

