-- ==== Sys2Proof/Machine/Crossing.lean ====
section
/-! DEFINITION. What lies between a sender and a receiver of the mesh: crossings and their latencies, the two ends of a
link, the slots on their way, and the room of an input (R164, R168, R169, R363 to R365, R370). -/

namespace Sys2Proof.Machine

/-! ## Crossings (R363, R364) -/

/-- The key of a crossing of a site: local node, plane, and port number of CLK_XING_FIRST. -/
def xingKey (loc pl port : Nat) : Nat := (loc * 4 + pl) * 8 + port

/-- Site st has a crossing at that place: the receiving end of a link from another site, or either
direction between routers and what stands above them (R363). -/
def isXing (st loc pl port : Nat) : Bool :=
  decide (loc < 64) && decide (pl < 4) &&
    (if port < 4 then
       match neighbour (nodeOf st loc) port with
       | some m => siteOf m != st
       | none => false
     else decide (port < 6))

/-- The keys of the crossings of a site. -/
def xingKeys (st : Nat) : List Nat :=
  (List.range 64).flatMap fun loc => [0, 1, 2, 3].flatMap fun pl =>
    ([0, 1, 2, 3, 4, 5].filter (isXing st loc pl)).map (xingKey loc pl)

/-- N_x of a crossing: 3 to 5, the free value of its last calibration (R363, R364). -/
def crossingN (x : Site) (key : Nat) : Nat :=
  3 + Config.crossingPick ((Sparse.find key x.recalAt).getD (x.calAt.getD 0)) key % 3

/-- The latency of a crossing in receiver cycles (R363, R365). -/
def crossingLatency (x : Site) (key : Nat) : Nat :=
  crossingN x key + Sparse.getD 0 x.extra key - Sparse.getD 0 x.early key

/-- The site is in the quiet period of a frequency step (R370). -/
def siteQuiet (s : State) (st : Nat) : Bool :=
  match (s.site st).stepPhase with
  | .quiet => true
  | .switched => true
  | .recalibrated => true
  | _ => false

/-- The packet goes to the core above a compute node and not to its slice controller. -/
def toCore (s : State) (n : Nat) (p : Packet) : Bool :=
  addrHere s p.h1 && siteKind (siteOf n) == .compute && (aSpace p.h1 == 1 || aSpace p.h1 == 2)

/-- The packet goes into the inbox chain of the core above node n (R158). -/
def toInbox (s : State) (n : Nat) (p : Packet) : Bool :=
  toCore s n p && aSpace p.h1 == 1 && (pKind p == kMsg || pKind p == kCell)

/-! ## The ends of a link (R168) -/

/-- Change one end of a link. -/
def State.modEnd (s : State) (n pl d : Nat) (f : LinkEnd → LinkEnd) : State :=
  s.modPlane n pl fun r => { r with ends := Sparse.put d (f (r.endOf d)) r.ends }

/-- The far end of port d of router n: the neighbour's end; the die's and the router's end of the vertical port face
each other. -/
def farEnd (n d : Nat) : Nat × Nat :=
  match neighbour n d with
  | some m => (m, opposite d)
  | none => (n, if d = 4 then 5 else 4)

/-- The number of the next DATA slot, modulo 16 (R168). -/
def LinkEnd.txSlot (e : LinkEnd) : BitVec 4 := BitVec.ofNat 4 e.sent

/-- The sender's side of a link after DATA slots: their numbers and the retry buffer of the last 16 (R168). -/
def LinkEnd.send (e : LinkEnd) (ws : List WordSlot) : LinkEnd :=
  let l := e.retry ++ ws
  { e with sent := e.sent + ws.length, retry := l.drop (l.length - 16) }

/-- How many DATA slots a sender has sent from slot sl on. -/
def LinkEnd.since (e : LinkEnd) (sl : BitVec 4) : Nat := (e.txSlot - sl).toNat

/-- The sender sends its DATA slots again from slot sl on (R168). -/
def LinkEnd.replay (e : LinkEnd) (sl : BitVec 4) : LinkEnd :=
  let keep := e.retry.length - e.since sl
  let l := e.retry.drop keep
  { e with sent := e.sent - l.length, retry := e.retry.take keep, again := l ++ e.again }

/-- The words on their way to a receiver, oldest first. -/
def LinkEnd.flight (e : LinkEnd) : List WordSlot := e.wire.flatMap InFlight.words

/-- The words of one sender cycle set out; a second slot of the cycle that has just set out joins the first (R165). -/
def LinkEnd.setOut (e : LinkEnd) (latency : Nat) (join : Bool) (ws : List WordSlot) : LinkEnd :=
  if ws = [] then e
  else match e.wire.getLast? with
    | some x =>
      if join && x.words.length == 1 && x.left == latency then
        { e with wire := e.wire.dropLast ++ [⟨x.left, x.words ++ ws⟩] }
      else { e with wire := e.wire ++ [⟨latency, ws⟩] }
    | none => { e with wire := e.wire ++ [⟨latency, ws⟩] }

/-- Receiver cycles from the sender to input e of node m: one, and where the words pass a crossing its latency
(R164, R363). -/
def linkLatency (s : State) (m pl e : Nat) (cross : Bool) : Nat :=
  if cross then crossingLatency (s.site (siteOf m)) (xingKey (localOf m) pl e) else 1

/-- Words leave by output d of router n: they are numbered and kept for a replay, and are on their way (R165, R168). -/
def State.sendWords (s : State) (n pl d : Nat) (join : Bool) (ws : List WordSlot) : State :=
  let f := farEnd n d
  (s.modEnd n pl d fun e => e.send ws).modEnd f.1 pl f.2 fun e =>
    e.setOut (linkLatency s f.1 pl f.2 (ws.any WordSlot.cross)) join ws

/-- The words of the packet in transit through output d that have still to pass. -/
def RPlane.unsent (r : RPlane) (d : Nat) : List WordSlot := ((Sparse.find d r.transit).map Transit.words).getD []

/-- How many of the slots sent by output d of router n have not been received: those on their way or, where a replay is
awaited, those from the awaited one on (R168). -/
def sentUnread (s : State) (n pl d : Nat) : Nat :=
  let f := farEnd n d
  let rx := (s.plane f.1 pl).endOf f.2
  match rx.awaiting with
  | some sl => ((s.plane n pl).endOf d).since sl
  | none => rx.flight.length

/-- What the far end of output d has not received: slots sent, slots to send again, and words that have still to pass. -/
def unreceived (s : State) (n pl d : Nat) : List WordSlot :=
  let r := s.plane n pl
  let e := r.endOf d
  e.retry.drop (e.retry.length - sentUnread s n pl d) ++ e.again ++ r.unsent d

/-- The sender forgets the words of packet p among its last k slots and among those to send again; the slots that remain
number on. -/
def LinkEnd.forget (e : LinkEnd) (k : Nat) (p : Packet) : LinkEnd :=
  let keep := e.retry.length - k
  let l := e.retry.drop keep
  let m := l.filter fun w => w.pkt != p
  { e with sent := e.sent - (l.length - m.length), retry := e.retry.take keep ++ m
           again := e.again.filter fun w => w.pkt != p }

/-- Words that are on their way are not to be received any longer. -/
def LinkEnd.dropWords (e : LinkEnd) (f : WordSlot → Bool) : LinkEnd :=
  { e with wire := (e.wire.map fun i => { i with words := i.words.filter fun w => !f w }).filter fun i => i.words != [] }

/-- Nothing is on its way to the receiver, and it awaits nothing. -/
def LinkEnd.idle (e : LinkEnd) : LinkEnd :=
  { e with wire := [], awaiting := none, fails := 0, nak := none, nakSent := false }

/-! ## The room of an input (R169, R178) -/

/-- Words that an input still holds of packets that have been granted an output: of the copies of one multicast packet,
the one with most to send counts. -/
def RPlane.leavingWords (r : RPlane) (pt : Port) : Nat :=
  let out := (r.transit.filter fun e => decide (e.1 < 5) && e.2.port == pt).map fun e =>
    (e.2.pkt, e.2.words.length - e.2.toCome, e.1)
  ((out.filter fun a =>
    !(r.inputs.any fun h => h.pkt == a.1 && h.port == pt) &&
      !(out.any fun b => b.1 == a.1 &&
        (decide (a.2.1 < b.2.1) || (a.2.1 == b.2.1 && decide (b.2.2 < a.2.2))))).map fun a => a.2.1).sum

/-- Words that an input of a plane holds: those that have arrived and have not left (R169, R178). -/
def RPlane.inputWords (r : RPlane) (pt : Port) : Nat :=
  ((r.inputs.filter fun h => h.port == pt).map fun h => linkSlots h.pkt - h.toCome).sum +
    ((r.gather.filter fun h => h.port == pt).map fun h => linkSlots h.pkt - h.left).sum + r.leavingWords pt

/-- An input of 260 words has room for the two slots of a cycle beside what is on its way (R169). -/
def RPlane.hasRoom (r : RPlane) (pt : Port) : Bool :=
  decide (r.inputWords pt + (r.endOf (portNum pt)).flight.length + 2 ≤ 260)

/-- The cycle of output d does not come yet: its words would pass a crossing in a quiet period (R370); eight entries
are on their way, which is what a crossing holds (R363); its far input is full, whose router has its pass first
(R169); a NAK for the twelfth slot before is still to come, which takes 6 cycles at most (R168); or the inbox chain
has not accepted the packet at the vertical output (R159). The last of R163, R168 and R169 are orders of the routers'
turns, which the commands give (assumption 87). -/
def stalled (s : State) (n pl d : Nat) : Bool :=
  let r := s.plane n pl
  let f := farEnd n d
  let x := (s.plane f.1 pl).endOf f.2
  (siteQuiet s (siteOf n) && ((r.endOf d).again ++ r.unsent d).any WordSlot.cross) ||
    decide (8 ≤ x.wire.length) || (decide (d ≠ 4) && !(s.plane f.1 pl).hasRoom (portOfNum f.2)) ||
    x.awaiting.any (fun sl => decide (12 ≤ (r.endOf d).since sl)) ||
    (d == 4 && r.vout.any fun h => toInbox s n h.pkt)

/-! ## A latency that changes (R365) -/

/-- The reader waits one cycle: every entry comes one cycle later. -/
def LinkEnd.wait (e : LinkEnd) : LinkEnd :=
  { e with wire := e.wire.map fun i => { i with left := i.left + 1 } }

/-- The first cycle that brings no word after cycle k is dropped: the entries behind it come one cycle sooner. -/
def closeGap (k : Nat) : List InFlight → List InFlight
  | [] => []
  | i :: rest =>
    if k + 1 < i.left then (i :: rest).map fun j => { j with left := j.left - 1 } else i :: closeGap i.left rest

end Sys2Proof.Machine
end

