-- ==== Sys2Proof/Machine/Units.lean ====
section
/-! DEFINITION. How an operation of a core's unit ends or faults (R42, R44, R56, R76, R86, R90). -/

namespace Sys2Proof.Machine

/-- An operation has ended: a context stays held only while its own unit is still full or a register that it
names is still held (R42, R86). -/
def Core.unhold (c : Core) : Core :=
  { c with ctxs := c.ctxs.map (fun e => (e.1, { e.2 with held := e.2.held && heldAt c e.1 })) }

/-- A unit operation ends: it leaves its unit's place and its context's outstanding count; ok where it did not fault, and
then it adds its local count (R56, R90). -/
def State.opEnd (s : State) (n : Nat) (op : UnitOp) (ok : Bool) : State :=
  let s1 := (s.modCtx n op.ctx (fun x => { x with outstanding := x.outstanding - 1 })).modCore n
    (fun c => Core.unhold { c with ops := eraseFirst op c.ops })
  let s2 := if ok && op.lcount then s1.addCount n op.cc else s1
  s2.drain n op.ctx

/-- A unit operation finishes (R90). -/
def State.opFinish (s : State) (n : Nat) (op : UnitOp) : State := s.opEnd n op true

/-- CORE_FAULT_INFOn.UNIT of a fault a unit finds (R76). -/
def UnitKind.faultUnit : UnitKind → Nat
  | .vector => 3
  | .tensor => 4
  | .message => 5
  | .ledger => 6

/-- A unit operation faults: no write, no packet and no count of its own (R56). -/
def State.opFault (s : State) (n : Nat) (op : UnitOp) (code : Nat) (addr : Nat) : State :=
  (s.asyncFault n op.ctx code op.unit.faultUnit op.pc (BitVec.ofNat 64 addr)).opEnd n op false

end Sys2Proof.Machine
end

