-- ==== Sys2Proof/Machine/Fp.lean ====
section
/-! DEFINITION. Numbers: exact values, the floating-point formats, rounding, and the FP32 arithmetic
of the vector unit (R108 to R118, R132 to R134). -/

namespace Sys2Proof.Machine

/-- An exact value: NaN, an infinity, or (−1)^neg × m × 2^e. -/
inductive Num where
  | nan
  | inf (neg : Bool)
  | fin (neg : Bool) (m : Nat) (e : Int)
  deriving DecidableEq, Repr

/-- Which codes of a floating-point format are special (R108): ieee has infinities and NaNs at the
top exponent, e4m3 has a NaN only at all ones, plain has neither. -/
inductive Special where
  | ieee | e4m3 | plain
  deriving DecidableEq, Repr

/-- A floating-point format (R108). -/
structure FFmt where
  ebits : Nat
  mbits : Nat
  bias : Nat
  special : Special
  deriving DecidableEq, Repr

/-- FP32. -/
def fmtFp32 : FFmt := ⟨8, 23, 127, .ieee⟩
/-- FP16. -/
def fmtFp16 : FFmt := ⟨5, 10, 15, .ieee⟩
/-- BF16. -/
def fmtBf16 : FFmt := ⟨8, 7, 127, .ieee⟩
/-- FP8 E4M3. -/
def fmtE4M3 : FFmt := ⟨4, 3, 7, .e4m3⟩
/-- FP8 E5M2. -/
def fmtE5M2 : FFmt := ⟨5, 2, 15, .ieee⟩
/-- E3M2. -/
def fmtE3M2 : FFmt := ⟨3, 2, 3, .plain⟩
/-- E2M3. -/
def fmtE2M3 : FFmt := ⟨2, 3, 1, .plain⟩
/-- E2M1. -/
def fmtE2M1 : FFmt := ⟨2, 1, 1, .plain⟩

/-- The sign bit's place. -/
def FFmt.width (f : FFmt) : Nat := f.ebits + f.mbits

/-- The code of the largest finite magnitude (R108). -/
def FFmt.maxFinite (f : FFmt) : Nat :=
  match f.special with
  | .ieee => (2 ^ f.ebits - 1) * 2 ^ f.mbits - 1
  | .e4m3 => 2 ^ f.width - 2
  | .plain => 2 ^ f.width - 1

/-- The value of a code (R108). -/
def FFmt.decode (f : FFmt) (c : Nat) : Num :=
  let neg := c.testBit f.width
  let mag := c % 2 ^ f.width
  let ef := mag / 2 ^ f.mbits
  let m := mag % 2 ^ f.mbits
  if f.maxFinite < mag then
    if f.special = .ieee ∧ m = 0 then .inf neg else .nan
  else if ef = 0 then .fin neg m (1 - (f.bias : Int) - f.mbits)
  else .fin neg (m + 2 ^ f.mbits) ((ef : Int) - f.bias - f.mbits)

/-- v / 2^k rounded to nearest, ties to even (R116). -/
def shiftRne (v k : Nat) : Nat :=
  let q := v >>> k
  let r := v - (q <<< k)
  let half := 2 ^ k
  if 2 * r > half ∨ (2 * r = half ∧ q % 2 = 1) then q + 1 else q

/-- The magnitude code of m × 2^e rounded to nearest even without an upper bound, and whether the
value was inexact (R116). Codes beyond the largest finite one mean overflow. -/
def FFmt.roundMag (f : FFmt) (m : Nat) (e : Int) : Nat × Bool :=
  if m = 0 then (0, false)
  else
    let top := (Nat.log2 m : Int) + e
    let emin := 1 - (f.bias : Int)
    let q := max top emin - f.mbits
    let base := (q + f.mbits + f.bias - 1).toNat * 2 ^ f.mbits
    if q ≤ e then (base + (m <<< (e - q).toNat), false)
    else
      let k := (q - e).toNat
      let r := shiftRne m k
      (base + r, (r <<< k) != m)

/-- The sign bit of a code. -/
def FFmt.signBit (f : FFmt) (neg : Bool) : Nat := if neg then 2 ^ f.width else 0

/-- A converted element: its code and the flags OUT_OVF, OUT_INEXACT and OUT_NAN (R117, R125). -/
structure Conv where
  code : Nat
  ovf : Bool := false
  inexact : Bool := false
  nan : Bool := false
  deriving DecidableEq, Repr

/-- The canonical NaN of a format that has one (R117). -/
def FFmt.nanCode (f : FFmt) : Nat :=
  match f.special with
  | .ieee => (2 ^ f.ebits - 1) * 2 ^ f.mbits + 2 ^ (f.mbits - 1)
  | _ => 2 ^ f.width - 1

/-- The code of an infinity; E4M3 and the plain formats have none and give the largest magnitude
(R117). -/
def FFmt.infCode (f : FFmt) (neg : Bool) : Nat :=
  f.signBit neg + (match f.special with
    | .ieee => (2 ^ f.ebits - 1) * 2 ^ f.mbits
    | _ => f.maxFinite)

/-- Convert a value to a floating-point format (R116, R117). -/
def FFmt.encode (f : FFmt) (x : Num) : Conv :=
  match x with
  | .nan => { code := f.nanCode, nan := true }
  | .inf neg => { code := f.infCode neg, ovf := f.special != .ieee }
  | .fin neg m e =>
    let r := f.roundMag m e
    if f.maxFinite < r.1 then { code := f.infCode neg, ovf := true, inexact := true }
    else { code := f.signBit neg + r.1, inexact := r.2 }

/-- An exact integer. -/
def Num.ofInt (v : Int) : Num := .fin (decide (v < 0)) v.natAbs 0

/-- m × 2^e truncated toward zero to an integer, and whether it was exact. -/
def truncAt (m : Nat) (e : Int) : Nat × Bool :=
  if 0 ≤ e then (m <<< e.toNat, true)
  else
    let k := (-e).toNat
    let q := m >>> k
    (q, (q <<< k) == m)

/-- m × 2^e rounded to the nearest integer, ties to even, and whether it was exact. -/
def nearestAt (m : Nat) (e : Int) : Nat × Bool :=
  if 0 ≤ e then (m <<< e.toNat, true)
  else
    let k := (-e).toNat
    let q := shiftRne m k
    (q, (q <<< k) == m)

/-- A two's-complement code of w bits. -/
def intCode (w : Nat) (v : Int) : Nat := (v % (2 ^ w : Nat)).toNat

/-- The value of a two's-complement code of w bits (R109). -/
def intOf (w c : Nat) : Int := if c.testBit (w - 1) then (c : Int) - (2 ^ w : Nat) else c

/-- Convert a value to a two's-complement integer of w bits (R116, R117). -/
def encodeInt (w : Nat) (x : Num) : Conv :=
  let hi : Int := (2 ^ (w - 1) : Nat) - 1
  let lo : Int := -(2 ^ (w - 1) : Nat)
  match x with
  | .nan => { code := 0, nan := true }
  | .inf neg => { code := intCode w (if neg then lo else hi), ovf := true }
  | .fin neg m e =>
    let r := nearestAt m e
    let v : Int := if neg then -(r.1 : Int) else r.1
    if hi < v then { code := intCode w hi, ovf := true, inexact := true }
    else if v < lo then { code := intCode w lo, ovf := true, inexact := true }
    else { code := intCode w v, inexact := !r.2 }

/-- The exact product of two values; an infinity times zero is NaN. -/
def Num.mul : Num → Num → Num
  | .nan, _ => .nan
  | _, .nan => .nan
  | .inf a, .inf b => .inf (a ^^ b)
  | .inf a, .fin b m _ => if m = 0 then .nan else .inf (a ^^ b)
  | .fin a m _, .inf b => if m = 0 then .nan else .inf (a ^^ b)
  | .fin a m e, .fin b k f => .fin (a ^^ b) (m * k) (e + f)

/-- The exact sum of two values; opposite infinities are NaN; an exact zero is +0 but for two
negative zeros (R132). -/
def Num.add : Num → Num → Num
  | .nan, _ => .nan
  | _, .nan => .nan
  | .inf a, .inf b => if a = b then .inf a else .nan
  | .inf a, .fin _ _ _ => .inf a
  | .fin _ _ _, .inf b => .inf b
  | .fin a m e, .fin b k f =>
    let lo := min e f
    let x : Int := (m <<< (e - lo).toNat : Nat)
    let y : Int := (k <<< (f - lo).toNat : Nat)
    let v := (if a then -x else x) + (if b then -y else y)
    if v = 0 then .fin (a && b) 0 0 else .fin (decide (v < 0)) v.natAbs lo

/-- The negation of a value. -/
def Num.neg : Num → Num
  | .nan => .nan
  | .inf a => .inf (!a)
  | .fin a m e => .fin (!a) m e

/-- Integer square root by n binary digits, from a trial root. -/
def isqrtFrom (v : Nat) : Nat → Nat → Nat
  | 0, r => r
  | n + 1, r =>
    let t := r + 2 ^ n
    isqrtFrom v n (if t * t ≤ v then t else r)

/-- The integer square root. -/
def isqrt (v : Nat) : Nat := isqrtFrom v (Nat.log2 v / 2 + 1) 0

/-- The square root of m × 2^e as a mantissa with a sticky bit at its end, good to k more bits. -/
def sqrtAt (k m : Nat) (e : Int) : Nat × Int :=
  let odd := (e % 2).toNat
  let v := m <<< (2 * k + odd)
  let r := isqrt v
  (2 * r + (if r * r = v then 0 else 1), (e - odd) / 2 - k - 1)

/-! ## FP32 lanes (R132, R133) -/

/-- The value of a lane. -/
def fval (a : Lane) : Num := fmtFp32.decode a.toNat

/-- The lane of a value, rounded once (R132). -/
def fenc (x : Num) : Lane := BitVec.ofNat 32 (fmtFp32.encode x).code

/-- FP32 addition. -/
def fadd (a b : Lane) : Lane := fenc ((fval a).add (fval b))
/-- FP32 subtraction. -/
def fsub (a b : Lane) : Lane := fenc ((fval a).add (fval b).neg)
/-- FP32 multiplication. -/
def fmul (a b : Lane) : Lane := fenc ((fval a).mul (fval b))
/-- FP32 fused multiply and add, rounded once. -/
def ffma (a b d : Lane) : Lane := fenc (((fval a).mul (fval b)).add (fval d))

/-- FP32 square root, correctly rounded (R132). -/
def fsqrt (a : Lane) : Lane :=
  match fval a with
  | .nan => 0x7FC0_0000
  | .inf neg => if neg then 0x7FC0_0000 else a
  | .fin neg m e =>
    if m = 0 then a
    else if neg then 0x7FC0_0000
    else let r := sqrtAt 32 m e; fenc (.fin false r.1 r.2)

/-- The lane is NaN. -/
def isNan (a : Lane) : Bool := fval a == .nan

/-- The order of R133 as an integer: −0 is below +0. -/
def fkey (a : Lane) : Int :=
  if a.getLsbD 31 then -((a.toNat % 2 ^ 31 : Nat) : Int) - 1 else (a.toNat : Int)

/-- FP32 MIN (R133). -/
def fmin (a b : Lane) : Lane :=
  if isNan a then (if isNan b then 0x7FC0_0000 else b)
  else if isNan b then a
  else if fkey b < fkey a then b else a

/-- FP32 MAX (R133). -/
def fmax (a b : Lane) : Lane :=
  if isNan a then (if isNan b then 0x7FC0_0000 else b)
  else if isNan b then a
  else if fkey a < fkey b then b else a

/-- Signed INT32 to FP32 (R84). -/
def fcvtTo (a : Lane) : Lane := fenc (Num.ofInt a.toInt)

/-- FP32 to INT32: toward zero, saturating, NaN to 0 (R84). -/
def fcvtFrom (a : Lane) : Lane :=
  match fval a with
  | .nan => 0
  | .inf neg => if neg then 0x8000_0000 else 0x7FFF_FFFF
  | .fin neg m e =>
    let r := (truncAt m e).1
    if neg then (if 2 ^ 31 ≤ r then 0x8000_0000 else -(BitVec.ofNat 32 r))
    else (if 2 ^ 31 ≤ r then 0x7FFF_FFFF else BitVec.ofNat 32 r)

/-! ## Functions with a bound on their error (R134) -/

/-- Working precision in bits of the reference values. -/
def refBits : Nat := 160

/-- |m × 2^e − k × 2^f| ≤ b × 2^g. -/
def within (m : Nat) (e : Int) (k : Nat) (f : Int) (b : Nat) (g : Int) : Bool :=
  let lo := min (min e f) g
  let x : Int := (m <<< (e - lo).toNat : Nat)
  let y : Int := (k <<< (f - lo).toNat : Nat)
  decide ((x - y).natAbs ≤ b <<< (g - lo).toNat)

/-- The FP32 magnitudes that a function bounded by ulps may give where the exact result is
m × 2^e, to within far less than 2^−40 of an ulp; the infinity where the result rounds to it. -/
def candidates (ulps m : Nat) (e : Int) : List Nat :=
  let top := (Nat.log2 m : Int) + e
  let sub := decide (top < -126)
  let bound := (if sub then 2 else ulps) * 2 ^ 40 + 1
  let unit := (if sub then -149 else top - 23) - 40
  let c := (fmtFp32.roundMag m e).1
  let near := ((List.range 7).map (fun i => c + i - 3)).filter (fun k =>
    decide (k ≤ fmtFp32.maxFinite) &&
      match fmtFp32.decode k with
      | .fin _ a f => within m e a f bound unit
      | _ => false)
  if fmtFp32.maxFinite < c then near ++ [0x7F80_0000] else near

/-- One of the results within the bound, chosen by the free value of assumption 9. -/
def pickOf (fn ulps : Nat) (a : Lane) (neg : Bool) (m : Nat) (e : Int) : Lane :=
  let l := candidates ulps m e
  let c := l.getD (Config.pickUlp fn a % l.length) (fmtFp32.roundMag m e).1
  BitVec.ofNat 32 (fmtFp32.signBit neg + c)

/-- RCP (R134). -/
def frcp (a : Lane) : Lane :=
  match fval a with
  | .nan => 0x7FC0_0000
  | .inf neg => BitVec.ofNat 32 (fmtFp32.signBit neg)
  | .fin neg m e =>
    if m = 0 then BitVec.ofNat 32 (fmtFp32.infCode neg)
    else pickOf 0x0F 1 a neg (2 ^ (2 * refBits) / m) (-e - (2 * refBits : Nat))

/-- RSQRT (R134). -/
def frsqrt (a : Lane) : Lane :=
  match fval a with
  | .nan => 0x7FC0_0000
  | .inf neg => if neg then 0x7FC0_0000 else 0
  | .fin neg m e =>
    if m = 0 then BitVec.ofNat 32 (fmtFp32.infCode neg)
    else if neg then 0x7FC0_0000
    else
      let odd := (e % 2).toNat
      pickOf 0x10 1 a false (isqrt (2 ^ (4 * refBits) / (m <<< odd)))
        (-((e - odd) / 2) - (2 * refBits : Nat))

/-- The sum of z / 1! + … as the Taylor series of e^z − 1 at fixed point, term by term. -/
def expSeries (z : Int) : Nat → Int → Int → Int
  | 0, _, acc => acc
  | n + 1, t, acc =>
    let k := 63 - n
    let t' := t * z / (2 ^ refBits : Nat) / (k : Int)
    expSeries z n t' (acc + t')

/-- The series of 2·artanh z = ln ((1 + z) / (1 − z)) at fixed point; z2 is z², p the running power. -/
def logSeries (z2 : Int) : Nat → Int → Nat → Int → Int
  | 0, _, _, acc => acc
  | n + 1, p, k, acc => logSeries z2 n (p * z2 / (2 ^ refBits : Nat)) (k + 2) (acc + 2 * p / (k : Int))

/-- ln x at fixed point for a rational x = a / b near 1 (1 ≤ x ≤ 2). -/
def lnRatio (a b : Nat) : Int :=
  let z : Int := ((a : Int) - b) * (2 ^ refBits : Nat) / ((a : Int) + b)
  logSeries (z * z / (2 ^ refBits : Nat)) 64 z 1 0

/-- ln 2 at fixed point. -/
def ln2 : Int := lnRatio 2 1

/-- EXP (R134): 88.72284 is the FP32 code 0x42B17218. -/
def fexp (a : Lane) : Lane :=
  match fval a with
  | .nan => 0x7FC0_0000
  | .inf neg => if neg then 0 else 0x7F80_0000
  | .fin neg m e =>
    if m = 0 then 0x3F80_0000
    else if !neg && decide (0x42B1_7218 ≤ a.toNat) then 0x7F80_0000
    else if neg && decide (0x4300_0000 ≤ a.toNat % 2 ^ 31) then
      pickOf 0x11 2 a false 1 (-184)
    else
      let v : Int := ((truncAt m (e + (refBits : Nat))).1 : Nat)
      let x := if neg then -v else v
      let k := x / ln2
      let z := x - k * ln2
      let y := (2 ^ refBits : Nat) + expSeries z 63 (2 ^ refBits : Nat) 0
      pickOf 0x11 2 a false y.toNat (k - (refBits : Nat))

/-- LOG (R134). -/
def flog (a : Lane) : Lane :=
  match fval a with
  | .nan => 0x7FC0_0000
  | .inf neg => if neg then 0x7FC0_0000 else 0x7F80_0000
  | .fin neg m e =>
    if m = 0 then 0xFF80_0000
    else if neg then 0x7FC0_0000
    else
      let k := Nat.log2 m
      let y := ((k : Int) + e) * ln2 + lnRatio m (2 ^ k)
      if a = 0x3F80_0000 then 0
      else pickOf 0x12 2 a (decide (y < 0)) y.natAbs (-(refBits : Nat))

end Sys2Proof.Machine
end

