-- ==== Sys2Proof/Machine/Vector.lean ====
section
/-! DEFINITION. Vector instructions other than VTLD (R84, R85, R132 to R135). -/

namespace Sys2Proof.Machine

/-- VOP on FP32 lanes; d is the lane of vD before the instruction (R84). -/
def vopF (f : Nat) (a b d : Lane) : Lane :=
  match f with
  | 0x00 => fadd a b
  | 0x01 => fsub a b
  | 0x02 => fmul a b
  | 0x03 => ffma a b d
  | 0x04 => fmin a b
  | 0x05 => fmax a b
  | 0x06 => a &&& 0x7FFF_FFFF
  | 0x07 => a ^^^ 0x8000_0000
  | 0x08 => a &&& b
  | 0x09 => a ||| b
  | 0x0A => a ^^^ b
  | 0x0E => fcvtTo a
  | 0x0F => frcp a
  | 0x10 => frsqrt a
  | 0x11 => fexp a
  | 0x12 => flog a
  | 0x13 => fsqrt a
  | _ => 0

/-- VOP on INT32 lanes (R84). -/
def vopI (f : Nat) (a b d : Lane) : Lane :=
  match f with
  | 0x00 => a + b
  | 0x01 => a - b
  | 0x02 => a * b
  | 0x03 => a * b + d
  | 0x04 => if b.slt a then b else a
  | 0x05 => if a.slt b then b else a
  | 0x06 => if a.slt 0 then -a else a
  | 0x07 => -a
  | 0x08 => a &&& b
  | 0x09 => a ||| b
  | 0x0A => a ^^^ b
  | 0x0B => a <<< (b.toNat % 32)
  | 0x0C => a >>> (b.toNat % 32)
  | 0x0D => a.sshiftRight (b.toNat % 32)
  | 0x0E => fcvtFrom a
  | _ => 0

/-- A lane's result by type and function, MODE[6:5] and MODE[4:0] (R84). -/
def vopFn (m : Nat) (a b d : Lane) : Lane :=
  if m / 32 = 0 then vopF (m % 32) a b d else vopI (m % 32) a b d

/-- One level of the tree of R85: adjacent values combine, lower index first. -/
def pairUp (f : Lane → Lane → Lane) : List Lane → List Lane
  | a :: b :: rest => f a b :: pairUp f rest
  | l => l

/-- The fixed reduction tree over 64 lanes (R85). -/
def tree64 (f : Lane → Lane → Lane) (l : List Lane) : Lane :=
  ((List.range 6).foldl (fun l _ => pairUp f l) l).getD 0 0

/-- VRED's combining function: SUM, MIN or MAX of a type (R84). -/
def vredFn (m : Nat) : Lane → Lane → Lane :=
  let f := if m % 32 = 0 then 0x00 else if m % 32 = 1 then 0x04 else 0x05
  fun a b => if m / 32 = 0 then vopF f a b 0 else vopI f a b 0

/-- A sort key: FP32 by value with −0 equal to +0 and NaN below every other; INT32 signed (R85). -/
def sortKey (isInt : Bool) (a : Lane) : Int :=
  if isInt then a.toInt
  else if isNan a then -(2 ^ 40)
  else if a.getLsbD 31 then -((a.toNat % 2 ^ 31 : Nat) : Int) else (a.toNat : Int)

/-- Insert a pair after every pair whose key is at least its own. -/
def sortInsert (isInt : Bool) (p : Lane × Lane) : List (Lane × Lane) → List (Lane × Lane)
  | [] => [p]
  | q :: rest =>
    if sortKey isInt p.1 ≤ sortKey isInt q.1 then q :: sortInsert isInt p rest else p :: q :: rest

/-- The pairs in descending order of key, stable (R85). -/
def sortPairs (isInt : Bool) (l : List (Lane × Lane)) : List (Lane × Lane) :=
  l.foldl (fun acc p => sortInsert isInt p acc) []

/-- The sum of two EXACT accumulators of w integer bits: N modulo 2^w, flags ORed, the reserved bit
zero (R111, R113). -/
def exactAdd (w a b : Nat) : Nat := (a / 16 + b / 16) % 2 ^ w * 16 + ((a % 8) ||| (b % 8))

/-- k consecutive lanes from lane l as one number, lowest first (R135). -/
def lanesNat (v : List Lane) (l : Nat) : Nat → Nat
  | 0 => 0
  | k + 1 => (v.getD l 0).toNat + 2 ^ 32 * lanesNat v (l + 1) k

/-- A number as k lanes, lowest first. -/
def natLanes (v : Nat) : Nat → List Lane
  | 0 => []
  | k + 1 => BitVec.ofNat 32 v :: natLanes (v / 2 ^ 32) k

/-- VXADD: EXACT64 in lane pairs or EXACT128 in lane quads (R135). -/
def vxaddFn (wide : Bool) (a b : List Lane) : List Lane :=
  let k := if wide then 4 else 2
  let w := if wide then 124 else 60
  (List.range (64 / k)).flatMap (fun i => natLanes (exactAdd w (lanesNat a (k * i) k) (lanesNat b (k * i) k)) k)

/-- 256 bytes as 64 lanes. -/
def bytesLanes (bs : List Byte) : List Lane :=
  (List.range 64).map (fun i => BitVec.ofNat 32 (leNat ((bs.drop (4 * i)).take 4)))

/-- 64 lanes as 256 bytes. -/
def lanesBytes (v : List Lane) : List Byte := v.flatMap (fun a => leBytes a.toNat 4)

/-- VOP (R84). -/
def execVop (n : Nat) (s : State) : Res :=
  onCore n s fun s => issue s n (isOp 0x40) fun s i w =>
    s.retire n i fun x => x.setV (iD w) ((List.range 64).map (fun l =>
      vopFn (iMode w) (x.lane (iA w) l) (x.lane (iB w) l) (x.lane (iD w) l)))

/-- VLD (R84). -/
def execVld (n : Nat) (s : State) : Res :=
  onCore n s fun s => issue s n (isOp 0x41) fun s i w =>
    let ea := (s.ctx n i).getG (iA w) + iSext w
    match spadFault ea 256 64, firstBad (s.core n).badSpad ea.toNat 256 with
    | some code, _ => s.issueFault n i code 3 (eaAddr ea)
    | none, some a => s.issueFault n i 0x08 3 (BitVec.ofNat 64 a)
    | none, none =>
      let bs := (s.core n).readSpad ea.toNat 256
      s.retire n i fun x => x.setV (iD w) (bytesLanes bs)

/-- VST (R84). -/
def execVst (n : Nat) (s : State) : Res :=
  onCore n s fun s => issue s n (isOp 0x42) fun s i w =>
    let x := s.ctx n i
    let ea := x.getG (iA w) + iSext w
    match spadFault ea 256 64 with
    | some code => s.issueFault n i code 3 (eaAddr ea)
    | none =>
      (s.modCore n fun c => c.writeSpad ea.toNat (lanesBytes (x.getV (iB w)))).retire n i id

/-- VBCAST (R84). -/
def execVbcast (n : Nat) (s : State) : Res :=
  onCore n s fun s => issue s n (isOp 0x43) fun s i w =>
    s.retire n i fun x => x.setV (iD w) (List.replicate 64 ((x.getG (iA w)).truncate 32))

/-- VGET (R84). -/
def execVget (n : Nat) (s : State) : Res :=
  onCore n s fun s => issue s n (isOp 0x44) fun s i w =>
    s.retire n i fun x => x.setG (iD w) ((x.lane (iA w) (iImm w % 64)).zeroExtend 64)

/-- VPUT (R84). -/
def execVput (n : Nat) (s : State) : Res :=
  onCore n s fun s => issue s n (isOp 0x45) fun s i w =>
    s.retire n i fun x => x.setLane (iD w) (iImm w % 64) ((x.getG (iA w)).truncate 32)

/-- VRED (R84, R85). -/
def execVred (n : Nat) (s : State) : Res :=
  onCore n s fun s => issue s n (isOp 0x46) fun s i w =>
    s.retire n i fun x =>
      x.setG (iD w) ((tree64 (vredFn (iMode w)) (x.getV (iA w))).zeroExtend 64)

/-- VSORT (R84, R85): keys to vD, partners to vD+1. -/
def execVsort (n : Nat) (s : State) : Res :=
  onCore n s fun s => issue s n (isOp 0x47) fun s i w =>
    s.retire n i fun x =>
      let l := sortPairs (decide (iMode w / 32 = 1)) ((x.getV (iA w)).zip (x.getV (iB w)))
      (x.setV (iD w) (l.map Prod.fst)).setV (iD w + 1) (l.map Prod.snd)

/-- VXADD (R135). -/
def execVxadd (n : Nat) (s : State) : Res :=
  onCore n s fun s => issue s n (isOp 0x48) fun s i w =>
    s.retire n i fun x =>
      x.setV (iD w) (vxaddFn (decide (iMode w = 1)) (x.getV (iA w)) (x.getV (iB w)))

end Sys2Proof.Machine
end

