-- ==== Sys2Proof/Machine/Tile.lean ====
section
/-! DEFINITION. Tiles: headers, elements, checksums and the checks at use; EXACT terms; conversions of
elements (R98 to R120). -/

namespace Sys2Proof.Machine

/-! ## Formats (R100) -/

/-- Bits of an element of a format code; none where the code is reserved (R100). -/
def fmtBits (f : Nat) : Option Nat :=
  match f with
  | 0x01 => some 32 | 0x02 => some 16 | 0x03 => some 16 | 0x04 => some 8 | 0x05 => some 8
  | 0x06 => some 8 | 0x07 => some 4 | 0x08 => some 16 | 0x09 => some 32 | 0x10 => some 8
  | 0x11 => some 8 | 0x12 => some 6 | 0x13 => some 6 | 0x14 => some 4 | 0x15 => some 8
  | 0x20 => some 64 | 0x21 => some 128 | 0x3F => some 8 | _ => none

/-- An MX format (R110). -/
def isMx (f : Nat) : Bool := decide (0x10 ≤ f) && decide (f ≤ 0x15)

/-- An EXACT format (R111). -/
def isExact (f : Nat) : Bool := f == 0x20 || f == 0x21

/-- DOT input formats (R100). -/
def dotIn (f : Nat) : Bool := decide (0x02 ≤ f) && decide (f ≤ 0x07) || isMx f

/-- DOT output formats (R100). -/
def dotOut (f : Nat) : Bool := decide (0x01 ≤ f) && decide (f ≤ 0x06) || f == 0x09 || isExact f

/-- CONVERT source and result formats (R100). -/
def convFmt (f : Nat) : Bool := (fmtBits f).isSome && f != 0x3F

/-- The floating-point element format of a code, the MX element format included (R108). -/
def floatFmt (f : Nat) : Option FFmt :=
  match f with
  | 0x01 => some fmtFp32 | 0x02 => some fmtFp16 | 0x03 => some fmtBf16 | 0x04 => some fmtE4M3
  | 0x05 => some fmtE5M2 | 0x10 => some fmtE4M3 | 0x11 => some fmtE5M2 | 0x12 => some fmtE3M2
  | 0x13 => some fmtE2M3 | 0x14 => some fmtE2M1 | _ => none

/-! ## Headers (R99, R102) -/

/-- A tile as it stands in scratchpad: its offset, header and data. -/
structure Tile where
  off : Nat
  hdr : List Byte
  data : List Byte
  deriving DecidableEq, Repr

/-- Quad i of the header. -/
def Tile.q (t : Tile) (i : Nat) : Word := quadAt t.hdr (8 * i)
/-- FORMAT. -/
def Tile.fmt (t : Tile) : Nat := bits (t.q 0) 0 8
/-- ROWS. -/
def Tile.rows (t : Tile) : Nat := bits (t.q 0) 16 16
/-- COLS. -/
def Tile.cols (t : Tile) : Nat := bits (t.q 0) 32 16
/-- ROW_STRIDE. -/
def Tile.stride (t : Tile) : Nat := bits (t.q 1) 0 16
/-- DATA_LEN. -/
def Tile.dataLen (t : Tile) : Nat := bits (t.q 1) 16 16
/-- SCALE_OFFSET. -/
def Tile.scaleOff (t : Tile) : Nat := bits (t.q 1) 32 16
/-- SCALE_STRIDE. -/
def Tile.scaleStride (t : Tile) : Nat := bits (t.q 1) 48 16
/-- ANCHOR, signed. -/
def Tile.anchor (t : Tile) : Int := intOf 16 (bits (t.q 3) 0 16)
/-- The stored CRC. -/
def Tile.crc (t : Tile) : Nat := bits (t.q 7) 0 32

/-- DATA_LEN as the checks of R106 take it: a tile above 8,192 bytes is only its header. -/
def Tile.checkLen (t : Tile) : Nat := if t.dataLen ≤ 8192 then t.dataLen else 0

/-- The tile whose header lies at an offset (R98). -/
def readTile (c : Core) (off : Nat) : Tile :=
  let h : Tile := ⟨off, c.readSpad off 64, []⟩
  { h with data := c.readSpad (off + 64) h.checkLen }

/-- RB, the bytes of a row of cols elements (R102). -/
def rowBytes (f cols : Nat) : Nat := ceilDiv (cols * (fmtBits f).getD 0) 8

/-- A tile header is consistent (R102). -/
def Tile.consistent (t : Tile) : Bool :=
  match fmtBits t.fmt with
  | none => false
  | some b =>
    decide (t.dataLen ≤ 8192) &&
    if t.rows = 0 ∨ t.cols = 0 then t.dataLen == 0
    else
      (t.fmt != 0x07 || t.cols % 2 == 0) &&
      (!isMx t.fmt || t.cols % 32 == 0) &&
      decide (rowBytes t.fmt t.cols ≤ t.stride) &&
      (decide (b < 16) || t.stride % (b / 8) == 0) &&
      if isMx t.fmt then
        decide (t.rows * t.stride ≤ t.scaleOff) && decide (t.cols / 32 ≤ t.scaleStride) &&
          t.dataLen == t.scaleOff + t.rows * t.scaleStride
      else
        t.scaleOff == 0 && t.scaleStride == 0 && t.dataLen == t.rows * t.stride

/-- The checksum of a header and data (R104). -/
def tileCrc (hdr data : List Byte) : BitVec 32 :=
  crc32c (hdr.take 56 ++ List.replicate 4 0 ++ (hdr.drop 60) ++ data)

/-- The checksum matches (R105). -/
def Tile.crcOk (t : Tile) : Bool := (tileCrc t.hdr t.data).toNat == t.crc

/-! ## The checks of a tensor operation, VTLD or tile send (R106) -/

/-- An offset a descriptor names: where, how many bytes, which alignment. -/
structure Span where
  off : Nat
  len : Nat
  align : Nat
  deriving DecidableEq, Repr

/-- The span of a tile: header and data (R106). -/
def Tile.span (t : Tile) : Span := ⟨t.off, 64 + t.checkLen, 64⟩

/-- The first failure in the order of R106, as fault code and address: ranges and alignments of the
spans, parity of the tiles read, descriptor fields and agreement, headers, checksums. -/
def checkUse (c : Core) (desc : Nat) (spans : List Span) (tiles : List Tile) (bad verify : Bool) :
    Option (Nat × Nat) :=
  match spans.find? (fun p => decide (spadEnd < p.off + p.len)) with
  | some p => some (0x06, p.off)
  | none =>
  match spans.find? (fun p => decide (p.off % p.align ≠ 0)) with
  | some p => some (0x07, p.off)
  | none =>
  match tiles.findSome? (fun t => firstBad c.badSpad t.off (64 + t.checkLen)) with
  | some a => some (0x08, a)
  | none =>
  if bad then some (0x09, desc)
  else match tiles.find? (fun t => !t.consistent) with
  | some t => some (0x0B, t.off)
  | none =>
  match (if verify then tiles.find? (fun t => !t.crcOk) else none) with
  | some t => some (0x0C, t.off)
  | none => none

/-! ## Elements (R101, R108 to R110) -/

/-- n bits from bit position p of a byte list, little-endian. -/
def bitsAt (l : List Byte) (p n : Nat) : Nat :=
  (leNat ((l.drop (p / 8)).take (ceilDiv (p % 8 + n) 8)) >>> (p % 8)) % 2 ^ n

/-- The code of element (r, c) (R101). -/
def Tile.code (t : Tile) (r c : Nat) : Nat :=
  let b := (fmtBits t.fmt).getD 8
  bitsAt t.data (8 * (r * t.stride) + c * b) b

/-- The scale code of element (r, c) of an MX tile (R101, R110). -/
def Tile.scale (t : Tile) (r c : Nat) : Nat :=
  (t.data.getD (t.scaleOff + r * t.scaleStride + c / 32) 0).toNat

/-- A value times 2^k. -/
def Num.scaleBy (k : Int) : Num → Num
  | .fin a m e => .fin a m (e + k)
  | x => x

/-- The value of an element code of a format that is not EXACT, without a scale (R108, R109). -/
def elemNum (f c : Nat) : Num :=
  match floatFmt f with
  | some g => g.decode c
  | none =>
    if f = 0x15 then (Num.ofInt (intOf 8 c)).scaleBy (-6)
    else Num.ofInt (intOf ((fmtBits f).getD 8) c)

/-- The value of element (r, c), with its block's scale where the format is MX (R110). -/
def Tile.value (t : Tile) (r c : Nat) : Num :=
  let x := elemNum t.fmt (t.code r c)
  if isMx t.fmt then
    if t.scale r c = 0xFF then .nan else x.scaleBy ((t.scale r c : Int) - 127)
  else x

/-! ## Accumulators (R111 to R114) -/

/-- Bits of N: 60 for EXACT64, 124 for EXACT128. -/
def accBits (wide : Bool) : Nat := if wide then 124 else 60

/-- The term clamp L (R112). -/
def termMax (wide : Bool) : Nat := if wide then 2 ^ 91 - 1 else 2 ^ 43 - 1

/-- An accumulator from N and its flags LOSS, SAT and INVALID (R111). -/
def mkAcc (wide : Bool) (v : Int) (loss sat inval : Bool) : Nat :=
  intCode (accBits wide) v * 16 + loss.toNat + 2 * sat.toNat + 4 * inval.toNat

/-- N of an accumulator. -/
def accN (wide : Bool) (a : Nat) : Int := intOf (accBits wide) (a / 16 % 2 ^ accBits wide)

/-- The accumulator that holds one term (R112). -/
def term (wide : Bool) (anchor : Int) (x : Num) : Nat :=
  match x with
  | .nan => mkAcc wide 0 false false true
  | .inf neg => mkAcc wide (if neg then -(termMax wide : Int) else termMax wide) false true false
  | .fin neg m e =>
    let r := truncAt m (e - anchor)
    let n := min r.1 (termMax wide)
    mkAcc wide (if neg then -(n : Int) else n) (!r.2) (decide (termMax wide < r.1)) false

/-- The value an accumulator converts from: NaN where INVALID, an infinity of N's sign where SAT, else
N × 2^anchor (R116, R117). -/
def accNum (wide : Bool) (anchor : Int) (a : Nat) : Num :=
  let v := accN wide a
  if a.testBit 2 then .nan
  else if a.testBit 1 then .inf (decide (v < 0))
  else .fin (decide (v < 0)) v.natAbs anchor

/-! ## Results (R116 to R120, R124, R125) -/

/-- Convert a value to an element of a format that is neither MX nor EXACT (R116, R117). -/
def convElem (f : Nat) (x : Num) : Conv :=
  match floatFmt f with
  | some g => g.encode x
  | none => encodeInt ((fmtBits f).getD 8) x

/-- The status bits OUT_OVF, OUT_INEXACT and OUT_NAN of a conversion (R125). -/
def Conv.status (c : Conv) : Nat := 8 * c.ovf.toNat + 16 * c.inexact.toNat + 32 * c.nan.toNat

/-- The magnitude of a value as mantissa and exponent; NaN and infinities give none. -/
def Num.mag : Num → Option (Nat × Int)
  | .fin _ m e => some (m, e)
  | _ => none

/-- floor(log2 amax) of a block of finite values; none where every value is zero (R119). -/
def amaxLog (l : List Num) : Option Int :=
  l.foldl (fun acc x =>
    match x.mag with
    | some (m, e) =>
      if m = 0 then acc
      else
        let k := (Nat.log2 m : Int) + e
        match acc with
        | some a => some (max a k)
        | none => some k
    | none => acc) none

/-- emax of an MX element format (R119). -/
def mxEmax (f : Nat) : Int :=
  match f with
  | 0x10 => 8 | 0x11 => 15 | 0x12 => 4 | 0x13 => 2 | 0x14 => 2 | _ => 0

/-- An element of an MX block divided by its scale, rounded and clamped to the format's largest finite
magnitude (R119). -/
def mxElem (f : Nat) (x : Num) : Conv :=
  match floatFmt f with
  | some g =>
    match x with
    | .fin neg m e =>
      let r := g.roundMag m e
      if g.maxFinite < r.1 then
        { code := g.signBit neg + g.maxFinite, ovf := true, inexact := true }
      else { code := g.signBit neg + r.1, inexact := r.2 }
    | _ => { code := 0 }
  | none =>
    match x.scaleBy 6 with
    | .fin neg m e =>
      let r := nearestAt m e
      let top := if neg then 128 else 127
      let n := min r.1 top
      { code := intCode 8 (if neg then -(n : Int) else n), ovf := decide (top < r.1),
        inexact := !r.2 || decide (top < r.1) }
    | _ => { code := 0 }

/-- One block of 32 values as an MX scale code, its elements and the status bits (R119). -/
def mxBlock (f : Nat) (l : List Num) : Nat × List Nat × Nat :=
  if l.any (fun x => x.mag.isNone) then (0xFF, l.map (fun _ => 0), 32)
  else match amaxLog l with
  | none => (0x7F, l.map (fun _ => 0), 0)
  | some k =>
    let x := max (-127) (min 127 (k - mxEmax f))
    let cs := l.map (fun v => mxElem f (v.scaleBy (-x)))
    ((x + 127).toNat, cs.map Conv.code, cs.foldl (fun a c => a ||| c.status) 0)

/-- Element codes of b bits packed little-endian into bytes (R101). -/
def packCodes (b : Nat) (l : List Nat) : List Byte :=
  leBytes (l.foldr (fun c a => c % 2 ^ b + 2 ^ b * a) 0) (ceilDiv (l.length * b) 8)

/-- The header of an output tile without its CRC (R124). RB of a tile without elements may exceed 16 bits: the
field then holds its low 16 bits (DESIGN CHOICE, assumption 84). -/
def outHeader (f rows cols : Nat) (seq : Nat) (node ctx : Nat) (anchor : Int) : List Byte :=
  let rb := rowBytes f cols
  let mx := isMx f
  let so := if mx then rows * rb else 0
  let ss := if mx then cols / 32 else 0
  let len := if rows = 0 ∨ cols = 0 then 0 else rows * rb + rows * ss
  quadBytes (field 0 8 f ||| field 16 16 rows ||| field 32 16 cols) ++
  quadBytes (field 0 16 rb ||| field 16 16 len ||| field 32 16 so ||| field 48 16 ss) ++
  quadBytes (field 0 32 seq ||| field 32 14 node ||| field 46 2 ctx) ++
  quadBytes (field 0 16 (if isExact f then intCode 16 anchor else 0)) ++
  List.replicate 32 0

/-- A tile as bytes: its header with the CRC in place, then its data (R104, R124). -/
def sealTile (hdr data : List Byte) : List Byte :=
  patch hdr 56 (leBytes (tileCrc hdr data).toNat 4) ++ data

/-- An output tile of element codes given row by row (R124). -/
def outTile (f rows cols seq node ctx : Nat) (anchor : Int) (codes : List (List Nat))
    (scales : List Nat) : List Byte :=
  let b := (fmtBits f).getD 8
  sealTile (outHeader f rows cols seq node ctx anchor)
    (codes.flatMap (packCodes b) ++ scales.map (fun k => BitVec.ofNat 8 k))

/-- Data bytes of a result of a format and shape (R102, R124). -/
def outBytes (f rows cols : Nat) : Nat :=
  if rows = 0 ∨ cols = 0 then 0
  else rows * rowBytes f cols + (if isMx f then rows * (cols / 32) else 0)

end Sys2Proof.Machine
end

