-- ==== Sys2Proof/Machine/Tensor.lean ====
section
/-! DEFINITION. The tensor engine and VTLD: DOT, FOREST, CONVERT and SEAL (R49, R50, R88, R121 to
R131, R136). -/

namespace Sys2Proof.Machine

/-! ## Descriptors (R121, R136) -/

/-- The eight quads of a 64-byte descriptor. -/
structure Desc where
  d0 : Word
  d1 : Word
  d2 : Word
  d3 : Word
  d4 : Word
  d5 : Word
  d6 : Word
  d7 : Word
  deriving DecidableEq, Repr

/-- The descriptor at a scratchpad offset. -/
def readDesc (c : Core) (a : Nat) : Desc :=
  let b := c.readSpad a 64
  ⟨quadAt b 0, quadAt b 8, quadAt b 16, quadAt b 24, quadAt b 32, quadAt b 40, quadAt b 48, quadAt b 56⟩

/-- Bits outside a mask are zero. -/
def onlyBits (w mask : Word) : Bool := w &&& ~~~mask == 0

/-- IN0. -/
def Desc.in0 (d : Desc) : Nat := bits d.d0 0 21
/-- IN1. -/
def Desc.in1 (d : Desc) : Nat := bits d.d0 32 21
/-- IN2. -/
def Desc.in2 (d : Desc) : Nat := bits d.d1 0 21
/-- OUT. -/
def Desc.out (d : Desc) : Nat := bits d.d1 32 21
/-- ANCHOR, signed. -/
def Desc.anchor (d : Desc) : Int := intOf 16 (bits d.d2 0 16)
/-- OUT_FORMAT. -/
def Desc.outFmt (d : Desc) : Nat := bits d.d2 16 8
/-- ACC. -/
def Desc.acc (d : Desc) : Bool := bit d.d2 24
/-- WIDE. -/
def Desc.wide (d : Desc) : Bool := bit d.d2 25
/-- STATUS_EN. -/
def Desc.statusEn (d : Desc) : Bool := bit d.d2 26
/-- TRANSPOSE. -/
def Desc.transpose (d : Desc) : Bool := bit d.d2 27
/-- SEAL. -/
def Desc.isSeal (d : Desc) : Bool := bit d.d2 28
/-- STATUS. -/
def Desc.status (d : Desc) : Nat := bits d.d2 32 21
/-- DEPTH. -/
def Desc.depth (d : Desc) : Nat := bits d.d2 56 4
/-- LOG2_L. -/
def Desc.log2L (d : Desc) : Nat := bits d.d2 60 2
/-- OUT_SEQ. -/
def Desc.outSeq (d : Desc) : Nat := bits d.d3 0 32
/-- ACC_IN. -/
def Desc.accIn (d : Desc) : Nat := bits d.d3 32 21

/-- Fields that every tensor operation requires: unnamed bits and D4 to D7 zero, STATUS zero where it
is not enabled, ACC_IN zero where ACC = 0 (R121). -/
def Desc.commonOk (d : Desc) : Bool :=
  onlyBits d.d0 (msk 20 0 ||| msk 52 32) && onlyBits d.d1 (msk 20 0 ||| msk 52 32) &&
  onlyBits d.d2 (msk 28 0 ||| msk 52 32 ||| msk 61 56) && onlyBits d.d3 (msk 31 0 ||| msk 52 32) &&
  d.d4 == 0 && d.d5 == 0 && d.d6 == 0 && d.d7 == 0 &&
  (d.statusEn || d.status == 0) && (d.acc || d.accIn == 0)

/-- The span of the status word, where one is written. -/
def Desc.statusSpan (d : Desc) : List Span := if d.statusEn then [⟨d.status, 8, 8⟩] else []

/-- The span of an output tile: a result above 8,192 bytes is taken as its header alone, as R106 takes
an input tile (DEDUCED, assumption 17). -/
def outSpan (off f rows cols : Nat) : Span :=
  let n := outBytes f rows cols
  ⟨off, 64 + (if n ≤ 8192 then n else 0), 64⟩

/-- The result of a tensor operation: a fault, or the bytes of its output and its status word. -/
inductive TResult where
  | fault (code addr : Nat)
  | ok (out : List Byte) (status : Nat)
  deriving DecidableEq, Repr

/-- The flags of accumulators, ORed (R125). -/
def accFlags (l : List (List Nat)) : Nat := l.foldl (fun a r => r.foldl (fun a x => a ||| (x % 8)) a) 0

/-! ## DOT (R123) -/

/-- Element (i, j) of a DOT: the exact sum of its terms and the start value (R112, R113, R123). -/
def dotElem (wide : Bool) (anchor : Int) (a b : Tile) (start i j : Nat) : Nat :=
  (List.range a.cols).foldl
    (fun acc k => exactAdd (accBits wide) acc (term wide anchor ((a.value i k).mul (b.value j k)))) start

/-- Accumulators converted to an output format: codes and status bits (R116, R123). -/
def convertAccs (f : Nat) (wide : Bool) (anchor : Int) (accs : List (List Nat)) :
    List (List Nat) × Nat :=
  if isExact f then (accs, 0)
  else
    let cs := accs.map (fun r => r.map (fun a => convElem f (accNum wide anchor a)))
    (cs.map (fun r => r.map Conv.code), cs.foldl (fun a r => r.foldl (fun a c => a ||| c.status) a) 0)

/-- The EXACT format code of a width (R111). -/
def exactFmt (wide : Bool) : Nat := if wide then 0x21 else 0x20

/-- An accumulator of an ACC_IN tile as a start value: bit [3] is ignored, so that the result has it 0 (R111). -/
def startAcc (wide : Bool) (a : Nat) : Nat := a / 16 % 2 ^ accBits wide * 16 + a % 8

/-- DOT on core c at node for a context (R123 to R125). An input tile of a reserved FORMAT is DESC_BAD, as every
format not marked is, and not TILE_FORMAT, which R106 tests after it (DEDUCED, assumption 83). The range of STATUS is
tested after that of every tile, as in every operation (DESIGN CHOICE, assumption 109). -/
def dotRun (c : Core) (node ctx desc : Nat) (d : Desc) : TResult :=
  let a := readTile c d.in0
  let b := readTile c d.in1
  let m := a.rows
  let n := b.rows
  let ci := readTile c d.accIn
  let accs := if d.acc then [ci] else []
  let tiles := [a, b] ++ accs
  let bad := !(d.commonOk && d.in2 == 0 && !d.transpose && !d.isSeal && d.depth == 0 && d.log2L == 0 &&
      dotIn a.fmt && dotIn b.fmt && a.cols == b.cols && dotOut d.outFmt &&
      !(isExact d.outFmt && d.outFmt != exactFmt d.wide) &&
      decide (outBytes d.outFmt m n ≤ 8192)) ||
    accs.any (fun t => !(t.fmt == exactFmt d.wide && t.rows == m && t.cols == n && t.anchor == d.anchor))
  match checkUse c desc (tiles.map Tile.span ++ [outSpan d.out d.outFmt m n] ++ d.statusSpan) tiles bad
      true with
  | some (code, addr) => .fault code addr
  | none =>
    let res := (List.range m).map (fun i => (List.range n).map (fun j =>
      dotElem d.wide d.anchor a b (if d.acc then startAcc d.wide (ci.code i j) else 0) i j))
    let r := convertAccs d.outFmt d.wide d.anchor res
    .ok (outTile d.outFmt m n d.outSeq node ctx d.anchor r.1 []) (accFlags res ||| r.2)

/-! ## FOREST (R127 to R129) -/

/-- An ordering key of a code of a floating-point format: −0 equal to +0; none for NaN. -/
def floatKey (g : FFmt) (c : Nat) : Option Int :=
  match g.decode c with
  | .nan => none
  | _ =>
    let mag : Int := (c % 2 ^ g.width : Nat)
    some (if c.testBit g.width then -mag else mag)

/-- greater() of R128 in a feature format. -/
def featGt (f a b : Nat) : Bool :=
  match floatFmt f with
  | some g =>
    match floatKey g a, floatKey g b with
    | some x, some y => decide (y < x)
    | _, _ => false
  | none => decide (intOf 16 b < intOf 16 a)

/-- Split entry l of tree t (R127). -/
def splitEntry (sp : Tile) (t l : Nat) : Word := quadAt sp.data (t * sp.stride + 8 * l)

/-- The threshold of a split entry in the feature tile's format (R127). -/
def splitThr (f : Nat) (w : Word) : Nat := if f = 0x01 then bits w 32 32 else bits w 32 16

/-- A split entry names a feature below nf and its zero bits are zero (R127, R129). -/
def splitOk (f nf : Nat) (w : Word) : Bool :=
  decide (bits w 0 8 < nf) && bits w 8 24 == 0 && (f == 0x01 || bits w 48 16 == 0)

/-- The leaf index of sample s in tree t (R128). -/
def leafIndex (ft sp : Tile) (depth s t : Nat) : Nat :=
  (List.range depth).foldl (fun j l =>
    let w := splitEntry sp t l
    if featGt ft.fmt (ft.code s (bits w 0 8)) (splitThr ft.fmt w) then j + 2 ^ l else j) 0

/-- Output k of a FOREST for sample s: the exact sum of the leaf values that the trees reach and the start value
(R112, R113, R128). -/
def forestElem (ft sp lf : Tile) (depth lw : Nat) (anchor : Int) (start s k : Nat) : Nat :=
  (List.range sp.rows).foldl
    (fun acc t => exactAdd 60 acc (term false anchor (lf.value t (leafIndex ft sp depth s t * lw + k)))) start

/-- FOREST on core c at node for a context (R127 to R129). An input tile of a reserved FORMAT is DESC_BAD
(DEDUCED, assumption 83). -/
def forestRun (c : Core) (node ctx desc : Nat) (d : Desc) : TResult :=
  let ft := readTile c d.in0
  let sp := readTile c d.in1
  let lf := readTile c d.in2
  let ci := readTile c d.accIn
  let accs := if d.acc then [ci] else []
  let lw := 2 ^ d.log2L
  let ns := ft.rows
  let tiles := [ft, sp, lf] ++ accs
  let shapeBad := !(d.commonOk && d.outFmt == 0x20 && !d.wide && !d.transpose && !d.isSeal &&
      decide (1 ≤ d.depth) && decide (d.depth ≤ 12) &&
      (ft.fmt == 0x01 || ft.fmt == 0x02 || ft.fmt == 0x08) && sp.fmt == 0x3F &&
      (lf.fmt == 0x01 || lf.fmt == 0x02 || lf.fmt == 0x09 || lf.fmt == 0x08 || lf.fmt == 0x06) &&
      decide (1 ≤ ft.cols) && decide (ft.cols ≤ 256) && sp.cols == d.depth * 8 &&
      sp.rows == lf.rows && lf.cols == 2 ^ d.depth * lw && decide (outBytes 0x20 ns lw ≤ 8192)) ||
    accs.any (fun t => !(t.fmt == 0x20 && t.rows == ns && t.cols == lw && t.anchor == d.anchor))
  let bad := shapeBad || (List.range sp.rows).any (fun t => (List.range d.depth).any (fun l =>
      !splitOk ft.fmt ft.cols (splitEntry sp t l)))
  match checkUse c desc (tiles.map Tile.span ++ [outSpan d.out 0x20 ns lw] ++ d.statusSpan) tiles bad
      true with
  | some (code, addr) => .fault code addr
  | none =>
    let res := (List.range ns).map (fun s => (List.range lw).map (fun k =>
      forestElem ft sp lf d.depth lw d.anchor (if d.acc then startAcc false (ci.code s k) else 0) s k))
    .ok (outTile 0x20 ns lw d.outSeq node ctx d.anchor res []) (accFlags res)

/-! ## CONVERT and SEAL (R119, R120, R130, R131) -/

/-- The largest and the least N of a width (R120). -/
def accHi (wide : Bool) : Int := (2 ^ (accBits wide - 1) : Nat) - 1
/-- The least N of a width (R120). -/
def accLo (wide : Bool) : Int := -(2 ^ (accBits wide - 1) : Nat)

/-- N lies outside the field of a width (R120). -/
def accOut (wide : Bool) (x : Int) : Bool := decide (accHi wide < x) || decide (x < accLo wide)

/-- N re-aligned from one anchor to another, before any clamp, and whether no bit was lost (R120). -/
def realignN (wi : Bool) (ai ao : Int) (a : Nat) : Int × Bool :=
  let v := accN wi a
  let r := truncAt v.natAbs (ai - ao)
  (if v < 0 then -(r.1 : Int) else r.1, r.2)

/-- An accumulator re-aligned from one anchor and width to another, with the flags that it had; one with INVALID set
becomes n = 0 (R117, R120; DEDUCED, assumption 81). -/
def realign (wi wo : Bool) (ai ao : Int) (a : Nat) : Nat :=
  let x := realignN wi ai ao a
  if a.testBit 2 then mkAcc wo 0 (a.testBit 0) (a.testBit 1) true
  else mkAcc wo (max (accLo wo) (min (accHi wo) x.1)) (!x.2 || a.testBit 0) (accOut wo x.1 || a.testBit 1) false

/-- Source element (r, c) as a value (R130). -/
def srcNum (t : Tile) (r c : Nat) : Num :=
  if isExact t.fmt then accNum (t.fmt == 0x21) t.anchor (t.code r c) else t.value r c

/-- Source element (r, c) as an accumulator of the result format (R112, R120, R130). -/
def srcAcc (t : Tile) (wide : Bool) (anchor : Int) (r c : Nat) : Nat :=
  if isExact t.fmt then realign (t.fmt == 0x21) wide t.anchor anchor (t.code r c)
  else term wide anchor (t.value r c)

/-- A finite element whose integer lies outside the result's field range (R117, R120). -/
def srcOver (t : Tile) (wide : Bool) (anchor : Int) (r c : Nat) : Bool :=
  if isExact t.fmt then
    let w := t.fmt == 0x21
    !(t.code r c).testBit 2 && accOut wide (realignN w t.anchor anchor (t.code r c)).1
  else match t.value r c with
    | .fin neg m e =>
      let k := (truncAt m (e - anchor)).1
      accOut wide (if neg then -(k : Int) else k)
    | _ => false

/-- A finite element that its accumulator does not hold exactly (R116): it loses bits or is clamped. One of an EXACT
source with SAT set stands for an infinity in R117's table (DEDUCED, assumption 82). -/
def srcLost (t : Tile) (wide : Bool) (anchor : Int) (r c : Nat) : Bool :=
  if isExact t.fmt then
    let a := t.code r c
    let x := realignN (t.fmt == 0x21) t.anchor anchor a
    !a.testBit 1 && !a.testBit 2 && (!x.2 || accOut wide x.1)
  else match t.value r c with
    | .fin neg m e => term wide anchor (.fin neg m e) % 4 != 0
    | _ => false

/-- OUT_OVF, OUT_INEXACT and OUT_NAN of an element converted to an EXACT format (R116, R117, R120). -/
def exactStatus (t : Tile) (wide : Bool) (anchor : Int) (r c : Nat) : Nat :=
  8 * (srcOver t wide anchor r c).toNat + 16 * (srcLost t wide anchor r c).toNat +
    32 * ((srcAcc t wide anchor r c).testBit 2).toNat

/-- The rows of an MX result from its values: codes, scales and status bits (R119). -/
def mxRows (f : Nat) (rows : List (List Num)) : List (List Nat) × List Nat × Nat :=
  let bs := rows.map (fun r =>
    (List.range (r.length / 32)).map (fun b => mxBlock f ((r.drop (32 * b)).take 32)))
  (bs.map (fun r => r.flatMap (fun b => b.2.1)), bs.flatMap (fun r => r.map (fun b => b.1)),
    bs.foldl (fun a r => r.foldl (fun a b => a ||| b.2.2) a) 0)

/-- CONVERT with SEAL = 0 on core c at node for a context (R130). A source tile of a reserved FORMAT is DESC_BAD
(DEDUCED, assumption 83). A result in INT4 with an odd number of columns is written, although R102 has no
consistent tile of that shape: R130 lists no fault for it (DESIGN CHOICE, assumption 79). -/
def convertRun (c : Core) (node ctx desc : Nat) (d : Desc) : TResult :=
  let t := readTile c d.in0
  let f := d.outFmt
  let rows := if d.transpose then t.cols else t.rows
  let cols := if d.transpose then t.rows else t.cols
  let at_ {α : Type} (g : Nat → Nat → α) (r k : Nat) : α := if d.transpose then g k r else g r k
  let bad := !(d.commonOk && d.in1 == 0 && d.in2 == 0 && !d.acc && !d.wide && d.depth == 0 &&
      d.log2L == 0 && d.accIn == 0 && (isExact f || d.anchor == 0) && convFmt t.fmt && convFmt f &&
      decide (outBytes f rows cols ≤ 8192) && (!isMx f || cols % 32 == 0))
  match checkUse c desc ([t.span, outSpan d.out f rows cols] ++ d.statusSpan) [t] bad true with
  | some (code, addr) => .fault code addr
  | none =>
    let grid {α : Type} (g : Nat → Nat → α) : List (List α) :=
      (List.range rows).map (fun r => (List.range cols).map (at_ g r))
    if isExact f then
      let accs := grid (srcAcc t (f == 0x21) d.anchor)
      .ok (outTile f rows cols d.outSeq node ctx d.anchor accs [])
        (accFlags accs ||| (grid (exactStatus t (f == 0x21) d.anchor)).foldl
          (fun a r => r.foldl (fun a x => a ||| x) a) 0)
    else if isMx f then
      let m := mxRows f (grid (srcNum t))
      .ok (outTile f rows cols d.outSeq node ctx 0 m.1 m.2.1) (m.2.2 ||| srcFlags t)
    else
      let cs := (grid (srcNum t)).map (fun r => r.map (convElem f))
      .ok (outTile f rows cols d.outSeq node ctx 0 (cs.map (fun r => r.map Conv.code)) [])
        (cs.foldl (fun a r => r.foldl (fun a c => a ||| c.status) a) (srcFlags t))
where
  /-- The flags of the accumulators of an EXACT source; the result of a CONVERT to another format has
  no accumulators, so R125 gives it none (DEDUCED, assumption 17). -/
  srcFlags (_t : Tile) : Nat := 0

/-- CONVERT with SEAL = 1 on core c: the four bytes of the CRC (R131). TRANSPOSE = 1 beside it is accepted and has
no effect: neither R121 nor R131 gives the pair a meaning (DESIGN CHOICE, assumption 80). -/
def sealRun (c : Core) (desc : Nat) (d : Desc) : TResult :=
  let t := readTile c d.in0
  let bad := !(d.commonOk && d.in1 == 0 && d.in2 == 0 && !d.acc && !d.wide && d.depth == 0 &&
      d.log2L == 0 && d.accIn == 0 && d.anchor == 0 && d.outFmt == 0 && d.out == d.in0)
  match checkUse c desc ([t.span, ⟨d.out, 64, 64⟩] ++ d.statusSpan) [t] bad false with
  | some (code, addr) => .fault code addr
  | none => .ok (leBytes (tileCrc t.hdr t.data).toNat 4) 0

/-! ## The engine (R42, R49, R50, R122) -/

/-- The oldest descriptor that a unit of a core holds (R122, R151). -/
def Core.oldest (c : Core) (u : UnitKind) : Option UnitOp := c.ops.find? (fun o => o.unit == u)

/-- Write a tensor result: output bytes, then the status word, then the count (R107, R125). The array has fired (R50). -/
def writeResult (s : State) (n : Nat) (op : UnitOp) (at_ : Nat) (d : Desc) (r : TResult) : State :=
  match r with
  | .fault code addr => s.opFault n op code addr
  | .ok out status =>
    let s1 := s.modCore n fun c =>
      let c1 := c.writeSpad at_ out
      { (if d.statusEn then c1.writeSpad d.status (leBytes status 8) else c1) with fired := true }
    s1.opFinish n op

/-- The tensor engine takes its oldest descriptor where its operation is the row's and the effective
cap is not 0 (R49, R122). A parity error in the descriptor's own words comes first (R74). -/
def tensorStep (s : State) (n fn : Nat) (isSeal : Bool) (run : Core → UnitOp → Desc → Nat × TResult) : State :=
  let c := s.core n
  match c.oldest .tensor with
  | none => s
  | some op =>
    let d := readDesc c op.desc
    if c.clearing || !headerOn s n || effectiveCap s n == 0 || op.fn != fn || d.isSeal != isSeal then s
    else match firstBad c.badSpad op.desc 64 with
      | some a => s.opFault n op 0x08 a
      | none =>
        let r := run c op d
        writeResult s n op r.1 d r.2

/-- DOT (R123). Its row takes a descriptor with SEAL set too, which R121 makes DESC_BAD. -/
def execDot (n : Nat) (s : State) : Res :=
  onCore n s fun s =>
    let go := fun b => tensorStep s n 0 b (fun c op d => (d.out, dotRun c n op.ctx op.desc d))
    match (s.core n).oldest .tensor with
    | some op => go (readDesc (s.core n) op.desc).isSeal
    | none => s

/-- FOREST (R128). -/
def execForest (n : Nat) (s : State) : Res :=
  onCore n s fun s =>
    let go := fun b => tensorStep s n 1 b (fun c op d => (d.out, forestRun c n op.ctx op.desc d))
    match (s.core n).oldest .tensor with
    | some op => go (readDesc (s.core n) op.desc).isSeal
    | none => s

/-- CONVERT with SEAL = 0 (R130). -/
def execConvert (n : Nat) (s : State) : Res :=
  onCore n s fun s =>
    tensorStep s n 2 false (fun c op d => (d.out, convertRun c n op.ctx op.desc d))

/-- CONVERT with SEAL = 1 (R131): bytes 56 to 59 of the header. -/
def execSealTile (n : Nat) (s : State) : Res :=
  onCore n s fun s => tensorStep s n 2 true (fun c op d => (d.in0 + 56, sealRun c op.desc d))

/-! ## VTLD (R88, R136) -/

/-- The result of a VTLD: a fault, or the registers' data in order. -/
inductive VResult where
  | fault (code addr : Nat)
  | ok (regs : List (List Lane))
  deriving DecidableEq, Repr

/-- VTLD on core c with its first register (R88, R136). -/
def vtldRun (c : Core) (desc first : Nat) (d : Desc) : VResult :=
  let t := readTile c (bits d.d0 0 21)
  let start := bits d.d0 32 14
  let count := bits d.d0 48 5
  let k := if count = 0 then ceilDiv (t.dataLen - start) 256 else count
  let bad := !(onlyBits d.d0 (msk 20 0 ||| msk 45 32 ||| msk 52 48) && d.d1 == 0 && d.d2 == 0 &&
      d.d3 == 0 && d.d4 == 0 && d.d5 == 0 && d.d6 == 0 && d.d7 == 0 && start % 256 == 0 &&
      decide (start ≤ t.dataLen) && decide (count ≤ 16) && decide (first + k ≤ 16))
  match checkUse c desc [t.span] [t] bad true with
  | some (code, addr) => .fault code addr
  | none => .ok ((List.range k).map (fun i => bytesLanes (padTo 256 (t.data.drop (start + 256 * i)))))

/-- Write registers from vD on. -/
def Ctx.setVecs (x : Ctx) (r : Nat) : List (List Lane) → Ctx
  | [] => x
  | v :: vs => (x.setV r v).setVecs (r + 1) vs

/-- VTLD_DONE: the vector unit ends its oldest VTLD (R88, R136). -/
def execVtldDone (n : Nat) (s : State) : Res :=
  onCore n s fun s =>
    let c := s.core n
    match c.oldest .vector with
    | none => s
    | some op =>
      if c.clearing || !headerOn s n then s
      else match firstBad c.badSpad op.desc 64 with
        | some a => s.opFault n op 0x08 a
        | none =>
          match vtldRun c op.desc op.reg (readDesc c op.desc) with
          | .fault code addr => s.opFault n op code addr
          | .ok regs => (s.modCtx n op.ctx fun x => x.setVecs op.reg regs).opFinish n op

end Sys2Proof.Machine
end

