-- ==== Sys2Proof/Machine/Message.lean ====
section
/-! DEFINITION. The message engine's descriptors and the ledger port's requests (R151 to R157, R230,
R231). -/

namespace Sys2Proof.Machine

/-! ## Message descriptors (R152 to R155) -/

/-- A message descriptor: the quads M0 to M7 at a scratchpad offset (R152). -/
structure MDesc where
  m0 : Word
  m1 : Word
  m2 : Word
  m3 : Word
  m4 : Word
  rest : List Word
  deriving DecidableEq, Repr

/-- The message descriptor at a scratchpad offset. -/
def readMDesc (c : Core) (a : Nat) : MDesc :=
  let b := c.readSpad a 64
  ⟨quadAt b 0, quadAt b 8, quadAt b 16, quadAt b 24, quadAt b 32, [quadAt b 40, quadAt b 48, quadAt b 56]⟩

/-- OP. -/
def MDesc.op (d : MDesc) : Nat := bits d.m0 0 4
/-- CLASS. -/
def MDesc.cls (d : MDesc) : Nat := bits d.m0 4 1
/-- ACK. -/
def MDesc.ack (d : MDesc) : Bool := bit d.m0 5
/-- RESP_MC. -/
def MDesc.respMc (d : MDesc) : Bool := bit d.m0 6
/-- PLANE. -/
def MDesc.plane (d : MDesc) : Nat := bits d.m0 8 3
/-- STREAM. -/
def MDesc.stream (d : MDesc) : Nat := bits d.m0 16 16
/-- SEQ. -/
def MDesc.seq (d : MDesc) : Nat := bits d.m0 32 32
/-- LOCAL. -/
def MDesc.local_ (d : MDesc) : Nat := bits d.m2 0 21
/-- LEN. -/
def MDesc.len (d : MDesc) : Nat := bits d.m2 32 21
/-- PKT_SIZE. -/
def MDesc.size (d : MDesc) : Nat := bits d.m3 0 14
/-- DEST_CC. -/
def MDesc.destCc (d : MDesc) : Nat := bits d.m3 16 12
/-- RET_CC. -/
def MDesc.retCc (d : MDesc) : Nat := bits d.m3 32 12
/-- GROUP. -/
def MDesc.group (d : MDesc) : Nat := bits d.m3 48 16
/-- EXPECT. -/
def MDesc.expect (d : MDesc) : Nat := bits d.m4 0 32

/-- TILE and MCAST_TILE. -/
def MDesc.isTile (d : MDesc) : Bool := d.op == 1 || d.op == 6

/-- The operations that cut LEN bytes into packets of PKT_SIZE (R154). -/
def MDesc.cuts (d : MDesc) : Bool := d.op == 0 || d.op == 2 || d.op == 3 || d.op == 5

/-- The number of packets (R154). -/
def MDesc.count (d : MDesc) : Nat :=
  if d.cuts then max 1 (ceilDiv d.len d.size) else if d.op = 7 then d.len / 32 else 1

/-- payload_len of packet i of an operation that is no tile (R153, R154). -/
def MDesc.lenOf (d : MDesc) (i : Nat) : Nat :=
  if d.cuts then min d.size (d.len - i * d.size)
  else if d.op = 7 then 32 else if d.op = 4 then 8 else d.len

/-- The largest payload or request of a packet, given the tile's bytes (R155). -/
def MDesc.most (d : MDesc) (tileLen : Nat) : Nat := if d.isTile then tileLen else d.lenOf 0

/-- The fields that R153 requires to be zero are zero. -/
def MDesc.zerosOk (d : MDesc) : Bool :=
  let len := d.len == 0
  let size := d.size == 0
  let ack := !d.ack
  let mc := !d.respMc
  let grp := d.group == 0
  let ex := d.expect == 0
  match d.op with
  | 0 => mc && grp && ex
  | 1 => len && size && mc && grp && ex
  | 2 => ack && ex && (d.respMc || d.destCc == 0)
  | 3 => ack && mc && grp && ex
  | 4 => d.local_ == 0 && len && size && ack && mc && grp && d.destCc == 0
  | 5 => ack && mc && ex
  | 6 => len && size && ack && mc && ex
  | 7 => ack && mc && grp && ex
  | 8 => ack && mc && size && ex && d.destCc == 0
  | _ => false

/-- Bits that the table of R152 does not name are zero. -/
def MDesc.reservedOk (d : MDesc) : Bool :=
  onlyBits d.m0 (msk 6 0 ||| msk 10 8 ||| msk 63 16) && onlyBits d.m2 (msk 20 0 ||| msk 52 32) &&
  onlyBits d.m3 (msk 13 0 ||| msk 27 16 ||| msk 43 32 ||| msk 63 48) && onlyBits d.m4 (msk 31 0) &&
  d.rest.all (· == 0)

/-- The conditions of R155 that are DESC_BAD hold nowhere; tileLen is the bytes of the tile. -/
def MDesc.ok (d : MDesc) (tileLen : Nat) : Bool :=
  let sp := aSpace d.m1
  d.reservedOk && decide (d.plane ≤ 4) && d.zerosOk &&
  !(d.cuts && d.size == 0 && decide (0 < d.len)) &&
  !(d.cls == 1 && (decide (256 < d.most tileLen) || decide (5 ≤ d.op))) &&
  !(d.op == 7 && (d.len == 0 || d.len % 32 != 0 || d.size != 32)) &&
  !(d.op == 8 && (d.len == 0 || decide (8256 < d.len))) &&
  !(d.op == 2 && (d.local_ % 64 != 0 || (decide (1 < d.count) && d.size % 64 != 0))) &&
  !((d.op == 5 || d.op == 6) && (!aLocal d.m1 || decide (1 < sp) || decide (4095 < d.group))) &&
  !(d.op == 2 && d.respMc && decide (4095 < d.group)) &&
  !(d.op == 8 && decide (16383 < d.group)) &&
  !((d.op == 3 || d.op == 7) && sp != 1) && !(d.op == 4 && sp != 2) &&
  decide (aOff d.m1 + d.len ≤ 2 ^ 32)

/-! ## Packets (R153, R154) -/

/-- The packet kind of each operation (R153). -/
def MDesc.kind (d : MDesc) : Nat :=
  [kWrite, kWrite, kReadReq, kMsg, kSignal, kMcastWrite, kMcastWrite, kCell, kRedPart].getD d.op 0

/-- Scratchpad offset of packet i's payload, and of a READ's landing (R153, R154). -/
def MDesc.at_ (d : MDesc) (i : Nat) : Nat :=
  if d.op = 7 then d.local_ + 32 * i else d.local_ + i * d.size

/-- The return tag of packet i (R142). -/
def MDesc.tag (d : MDesc) (i : Nat) : Word :=
  field 18 12 d.retCc |||
    (if d.op = 2 then field 17 1 d.respMc.toNat ||| field 0 15 (d.at_ i / 64)
     else field 17 1 d.ack.toNat)

/-- Packet i with payload_len len and its payload. The router fills local and src_node (R138). -/
def MDesc.packet (d : MDesc) (gen ctx i len : Nat) (data : List Byte) : Packet :=
  { h0 := mkH0 d.kind d.cls gen len (if d.op = 8 then 0 else d.destCc),
    h1 := if d.op = 3 ∨ d.op = 7 then d.m1 else setBits d.m1 0 32 (aOff d.m1 + i * d.size),
    h2 := field 30 2 ctx ||| d.tag i,
    h3 := field 32 32 (d.seq + i) ||| field 16 16 d.stream ||| field 0 16 d.group, data := data }

/-- The plane of a packet: none where PLANE = 4 (R157). -/
def MDesc.planeOf (d : MDesc) : Option Nat := if d.plane < 4 then some d.plane else none

/-- Packet i of a descriptor that is no tile and its parity check: the failing word, or the packet
(R156). -/
def MDesc.build (d : MDesc) (c : Core) (gen ctx i : Nat) : Sum Nat Packet :=
  let len := d.lenOf i
  if d.op = 2 then .inr (d.packet gen ctx i len [])
  else if d.op = 4 then .inr (d.packet gen ctx i 8 (leBytes d.expect 8))
  else match firstBad c.badSpad (d.at_ i) len with
    | some a => .inl a
    | none => .inr (d.packet gen ctx i len (c.readSpad (d.at_ i) len))

/-- Packets i, i + 1, … of a descriptor, up to the first whose payload has a parity error: the
packets, and the failing word. -/
def MDesc.buildAll (d : MDesc) (c : Core) (gen ctx i : Nat) : Nat → List Packet × Option Nat
  | 0 => ([], none)
  | f + 1 =>
    match d.build c gen ctx i with
    | .inl a => ([], some a)
    | .inr p =>
      let r := d.buildAll c gen ctx (i + 1) f
      (p :: r.1, r.2)

/-- What the engine makes of a descriptor: the packets it sends, and the fault that ends it, if one
does (R155, R156). -/
def msgRun (c : Core) (desc gen ctx : Nat) (d : MDesc) : List Packet × Option (Nat × Nat) :=
  if spadEnd < d.local_ + d.len then ([], some (0x06, d.local_))
  else if d.isTile then
    let t := readTile c d.local_
    match checkUse c desc [t.span] [t] (!d.ok (64 + t.checkLen)) true with
    | some f => ([], some f)
    | none => ([d.packet gen ctx 0 (64 + t.dataLen) (t.hdr ++ t.data)], none)
  else if !d.ok 0 then ([], some (0x09, desc))
  else if 8256 < d.size then ([], some (0x0A, desc))
  else
    let r := d.buildAll c gen ctx 0 d.count
    (r.1, r.2.map fun a => (0x08, a))

/-- The message engine takes its oldest descriptor where its OP is the row's or reserved, and where
it has injected every packet of the one before (R151). A fault of packet k shows once packets 0 to k − 1 have
been injected (R156). -/
def msgStep (s : State) (n row : Nat) : State :=
  let c := s.core n
  match c.oldest .message with
  | none => s
  | some op =>
    let d := readMDesc c op.desc
    if c.clearing || !headerOn s n || c.msgCur.isSome || !c.msgOut.isEmpty ||
      !(d.op == row || decide (9 ≤ d.op)) then s
    else match firstBad c.badSpad op.desc 64 with
      | some a => s.opFault n op 0x08 a
      | none =>
        let r := msgRun c op.desc (coreGen s n) op.ctx d
        match r with
        | ([], some f) => s.opFault n op f.1 f.2
        | (ps, f) => s.modCore n fun c =>
            { c with msgOut := ps.map fun p => ⟨p, d.planeOf⟩, msgCur := some op, msgFault := f }

/-- MSEND_WRITE: OP 0 (R154). -/
def execMsendWrite (n : Nat) (s : State) : Res := onCore n s fun s => msgStep s n 0
/-- MSEND_TILE: OP 1 (R153). -/
def execMsendTile (n : Nat) (s : State) : Res := onCore n s fun s => msgStep s n 1
/-- MSEND_READ: OP 2 (R154). -/
def execMsendRead (n : Nat) (s : State) : Res := onCore n s fun s => msgStep s n 2
/-- MSEND_MSG: OP 3 (R154). -/
def execMsendMsg (n : Nat) (s : State) : Res := onCore n s fun s => msgStep s n 3
/-- MSEND_SIGNAL: OP 4 (R153). -/
def execMsendSignal (n : Nat) (s : State) : Res := onCore n s fun s => msgStep s n 4
/-- MSEND_MCAST_WRITE: OP 5 (R154). -/
def execMsendMcastWrite (n : Nat) (s : State) : Res := onCore n s fun s => msgStep s n 5
/-- MSEND_MCAST_TILE: OP 6 (R153). -/
def execMsendMcastTile (n : Nat) (s : State) : Res := onCore n s fun s => msgStep s n 6
/-- MSEND_CELL: OP 7 (R153). -/
def execMsendCell (n : Nat) (s : State) : Res := onCore n s fun s => msgStep s n 7
/-- MSEND_RED: OP 8 (R153). -/
def execMsendRed (n : Nat) (s : State) : Res := onCore n s fun s => msgStep s n 8

/-- After a packet of the engine has been injected: with the last one the descriptor ends, or its fault shows
(R90, R151, R156). -/
def State.msgInjected (s : State) (n pl : Nat) : State :=
  let c := s.core n
  let s1 := s.setCore n { c with msgOut := c.msgOut.tail, usedPlane := pl }
  match c.msgOut.tail, c.msgCur with
  | [], some op =>
    let s2 := s1.modCore n fun c => { c with msgCur := none, msgFault := none }
    match c.msgFault with
    | some f => s2.opFault n op f.1 f.2
    | none => s2.opFinish n op
  | _, _ => s1

/-! ## The ledger port (R230, R231) -/

/-- The ledger port's oldest descriptor whose request it has not built: those with a request
outstanding come first in its queue. -/
def Core.nextLop (c : Core) : Option UnitOp :=
  ((c.ops.filter fun o => o.unit == .ledger).drop c.lopWait.length).head?

/-- A sequence number that no outstanding request of the port has (R230). -/
def Core.freshSeq (c : Core) : Nat :=
  (((List.range 9).map fun i => (c.lopSeq + i) % 2 ^ 32).find?
    fun q => c.lopWait.all fun w => w.seq != q).getD c.lopSeq

/-- The fault of an LOP descriptor (R230): ranges, alignment, parity of the request. -/
def lopFault (c : Core) (req land : Nat) : Option (Nat × Nat) :=
  let r := c.readSpad req 96
  let m := if bits (quadAt r 0) 0 4 = 5 then bits (quadAt r 8) 32 8 else 0
  checkUse c 0 [⟨req, 96, 64⟩, ⟨land, 64 * (1 + m), 64⟩] [] false false |>.orElse fun _ =>
    (firstBad c.badSpad req 96).map fun a => (0x08, a)

/-- LEDGER_PORT_REQUEST (R230). -/
def execLedgerPortRequest (n : Nat) (s : State) : Res :=
  onCore n s fun s =>
    let c := s.core n
    match c.nextLop with
    | none => s
    | some op =>
      if c.clearing || !headerOn s n then s
      else match firstBad c.badSpad op.desc 64 with
        | some a => s.opFault n op 0x08 a
        | none =>
          let b := c.readSpad op.desc 24
          let req := bits (quadAt b 0) 0 21
          let land := bits (quadAt b 0) 32 21
          let plane := bits (quadAt b 0) 56 3
          match lopFault c req land with
          | some f => s.opFault n op f.1 f.2
          | none =>
            let data := c.readSpad req 96
            let p : Packet :=
              { h0 := mkH0 kLedgerOp 0 (coreGen s n) 96 0, h1 := quadAt b 8,
                h2 := field 30 2 op.ctx ||| field 18 12 (bits (quadAt b 16) 0 12) |||
                  field 0 15 (land / 64),
                h3 := field 32 32 c.freshSeq ||| field 16 16 0xFFFF, data := data }
            let w : LedgerWait :=
              { op := op, seq := c.freshSeq, land := land, opcode := bits (quadAt data 0) 0 4,
                ledger := bits (quadAt data 0) 4 4 }
            s.setCore n { c with
              lopOut := c.lopOut ++ [⟨p, if plane < 4 then some plane else none⟩],
              lopWait := c.lopWait ++ [w], lopSeq := (c.freshSeq + 1) % 2 ^ 32 }

/-- A ledger request ends: its place is free (R90, R231). -/
def State.lopDone (s : State) (n seq : Nat) : State :=
  match takeFirst (fun w : LedgerWait => w.seq == seq) (s.core n).lopWait with
  | some (w, rest) => (s.modCore n fun c => { c with lopWait := rest }).opFinish n w.op
  | none => s

/-- The reply head that the port writes for a lost request (R231). -/
def lostHead (w : LedgerWait) : List Byte :=
  padTo 64 (quadBytes (field 0 8 0x08 ||| field 8 4 w.opcode ||| field 12 4 w.ledger))

/-- A FENCE_CREDIT for the port's request: the LOST head at LAND before any count (R231). -/
def State.lopLost (s : State) (n seq : Nat) : State :=
  match (s.core n).lopWait.find? (fun w => w.seq == seq) with
  | some w => s.modCore n fun c => c.writeSpad w.land (lostHead w)
  | none => s

end Sys2Proof.Machine
end

