-- ==== Sys2Proof/Machine/Reduce.lean ====
section
/-! DEFINITION. Reductions: heads, the tests on a contribution, its application to a record, and the
addition that routers and destinations share (R246 to R256). -/

namespace Sys2Proof.Machine

/-- A reduction head, the quads E0 to E4; E5 to E7 as one list (R247). -/
structure RedHead where
  e0 : Word
  e1 : Word
  e2 : Word
  e3 : Word
  e4 : Word
  rest : List Word
  deriving DecidableEq, Repr

/-- The head in the first 64 bytes of a list. -/
def readHead (b : List Byte) : RedHead :=
  ⟨quadAt b 0, quadAt b 8, quadAt b 16, quadAt b 24, quadAt b 32, [quadAt b 40, quadAt b 48, quadAt b 56]⟩

/-- The 64 bytes of a head. -/
def RedHead.bytes (h : RedHead) : List Byte :=
  quadBytes h.e0 ++ quadBytes h.e1 ++ quadBytes h.e2 ++ quadBytes h.e3 ++ quadBytes h.e4 ++
    h.rest.flatMap quadBytes

/-- FMT. -/
def RedHead.fmt (h : RedHead) : Nat := bits h.e0 0 4
/-- ACCUM. -/
def RedHead.accum (h : RedHead) : Bool := bit h.e0 4
/-- DONE_EN. -/
def RedHead.doneEn (h : RedHead) : Bool := bit h.e0 5
/-- ANCHOR. -/
def RedHead.anchor (h : RedHead) : Nat := bits h.e0 8 16
/-- DONE_CC. -/
def RedHead.doneCc (h : RedHead) : Nat := bits h.e0 24 12
/-- CONTRIB. -/
def RedHead.contrib (h : RedHead) : Nat := bits h.e1 0 32
/-- EXPECTED. -/
def RedHead.expected (h : RedHead) : Nat := bits h.e1 32 32
/-- DLEN. -/
def RedHead.dlen (h : RedHead) : Nat := bits h.e3 0 14
/-- STATE. -/
def RedHead.state (h : RedHead) : Nat := bits h.e4 0 2
/-- GEN. -/
def RedHead.gen (h : RedHead) : Nat := bits h.e4 2 4
/-- DROPPED. -/
def RedHead.dropped (h : RedHead) : Nat := bits h.e4 32 32

/-- Bytes of an element of a reduction format, none where it is reserved (R248). -/
def redSize (f : Nat) : Option Nat :=
  match f with
  | 0 => some 8
  | 1 => some 16
  | 2 => some 4
  | 3 => some 4
  | 4 => some 4
  | _ => none

/-- Test 1 of R250 on a head and a payload length: the contribution is well formed. -/
def redFormed (h : RedHead) (len : Nat) : Bool :=
  decide (64 ≤ len) &&
  (match redSize h.fmt with
   | some z => (len - 64) % z == 0
   | none => false) &&
  bits h.e0 6 2 == 0 && bits h.e0 36 28 == 0 && h.e3 == 0 && bits h.e4 0 6 == 0 &&
  bits h.e4 8 56 == 0 && h.rest.all (· == 0) && (decide (h.fmt < 2) || h.anchor == 0) &&
  (if h.accum then h.expected == 0 && !h.doneEn
   else !((h.contrib == 0) != (h.expected == 0))) &&
  (!h.doneEn || (aSpace h.e2 == 1 && aOff h.e2 % 64 == 0))

/-- Two elements added, and whether the addition clamped (R248). -/
def redAdd (f a b : Nat) : Nat × Bool :=
  match f with
  | 0 => (exactAdd 60 a b, false)
  | 1 => (exactAdd 124 a b, false)
  | 2 => ((a + b) % 2 ^ 32, false)
  | 3 =>
    let v := intOf 32 a + intOf 32 b
    if v > 2 ^ 31 - 1 then (2 ^ 31 - 1, true)
    else if v < -(2 ^ 31) then (2 ^ 31, true)
    else (intCode 32 v, false)
  | _ => ((fadd (BitVec.ofNat 32 a) (BitVec.ofNat 32 b)).toNat, false)

/-- Data areas of n elements of z bytes added element by element, and whether one clamped. -/
def redAddData (f z : Nat) (a b : List Byte) : Nat → List Byte × Bool
  | 0 => ([], false)
  | n + 1 =>
    let e := redAdd f (leNat (a.take z)) (leNat (b.take z))
    let r := redAddData f z (a.drop z) (b.drop z) n
    (leBytes e.1 z ++ r.1, e.2 || r.2)

/-- The sum of two data areas of one length (R248). -/
def redSum (f : Nat) (a b : List Byte) : List Byte × Bool :=
  let z := (redSize f).getD 1
  redAddData f z a b (a.length / z)

/-- The fields in which a packet must equal an OPEN record or a held packet (R250, R256). -/
def redSame (a b : RedHead) : Bool :=
  a.fmt == b.fmt && a.accum == b.accum && a.doneEn == b.doneEn && a.anchor == b.anchor &&
    a.doneCc == b.doneCc && a.expected == b.expected && a.e2 == b.e2

/-- What a destination makes of a contribution: the bytes to write at the record, the notice, and
the RED_DONE (R250 to R253). -/
structure RedOut where
  write : List Byte
  notice : Option Nat
  done : Option Packet
  deriving DecidableEq, Repr

/-- A refusal: DROPPED counts one unless the record is IDLE; the notice is sent when DROPPED was 0. -/
def redRefuse (r : RedHead) (code : Nat) : RedOut :=
  if r.state = 0 then ⟨[], some code, none⟩
  else
    ⟨{ r with e4 := satInc r.e4 32 32 }.bytes, if r.dropped = 0 then some code else none, none⟩

/-- The RED_DONE of a record that the packet completes (R253). -/
def redDone (p : Packet) (r : RedHead) : Packet :=
  { h0 := mkH0 kRedDone 1 r.gen 64 r.doneCc, h1 := r.e2, h2 := 0, h3 := p.h3, data := r.bytes }

/-- A record with its head and data after a contribution, DONE where it is complete (R251, R253). -/
def redClose (p : Packet) (r : RedHead) (data : List Byte) : RedOut :=
  if !r.accum && r.contrib == r.expected then
    let d := { r with e4 := setBits r.e4 0 2 2 }
    ⟨d.bytes ++ data, none, if r.doneEn then some (redDone p d) else none⟩
  else ⟨r.bytes ++ data, none, none⟩

/-- The E4 flags SAT and NONREPRO that a record has after a contribution. -/
def redFlags (h : RedHead) (sat : Bool) (f : Nat) : Word :=
  (h.e4 &&& maskAt 6 2) ||| field 6 1 sat.toNat ||| field 7 1 (f == 4).toNat

/-- The first contribution opens an IDLE record (R251, R252). -/
def redOpen (p : Packet) (h : RedHead) (data : List Byte) : RedOut :=
  let zero := !h.accum && h.expected == 0
  redClose p
    { h with e3 := field 0 14 data.length,
             e4 := 1 ||| field 2 4 (pGen p) ||| redFlags h false h.fmt }
    (if zero then List.replicate data.length 0 else data)

/-- A contribution added to an OPEN record (R251). At one that a master opened with ACCUM = 0 and EXPECTED = 0 it is
the first, and the zero rule applies (R252). -/
def redMore (p : Packet) (h r : RedHead) (data rec : List Byte) : RedOut :=
  let s := if !h.accum && h.expected == 0 then (List.replicate data.length 0, false) else redSum h.fmt rec data
  redClose p
    { r with e1 := setBits r.e1 0 32 (min (2 ^ 32 - 1) (r.contrib + h.contrib)),
             e4 := r.e4 ||| redFlags h s.2 h.fmt } s.1

/-- A contribution at a record whose 64 head bytes and data area are rec (R250, R251). -/
def redApply (p : Packet) (rec : List Byte) : RedOut :=
  let h := readHead (pBytes p)
  let r := readHead rec
  let data := (pBytes p).drop 64
  if !redFormed h (pLen p) then redRefuse r 0x0401
  else if 2 ≤ r.state then redRefuse r 0x0403
  else if r.state = 1 ∧ !(redSame h r && r.dlen == data.length && r.gen == pGen p) then
    redRefuse r 0x0402
  else if !h.accum ∧ (if r.state = 1 then r.contrib else 0) + h.contrib > h.expected then
    redRefuse r 0x0404
  else if r.state = 1 then redMore p h r data ((rec.drop 64).take data.length)
  else redOpen p h data

/-! ## Combining (R255, R256) -/

/-- A packet is eligible for combining (R255). -/
def combinable (p : Packet) : Bool :=
  pKind p == kRedPart && pClass p == 0 && pAge p == 0 && decide (64 ≤ pLen p) &&
    decide (pLen p ≤ 320) && redFormed (readHead (pBytes p)) (pLen p)

/-- Two packets match (R256). -/
def combineMatch (a b : Packet) : Bool :=
  a.h1 == b.h1 && pGroup a == pGroup b && pGen a == pGen b && pLen a == pLen b &&
    redSame (readHead (pBytes a)) (readHead (pBytes b))

/-- Absorbing packet b would not take a's CONTRIB past EXPECTED. An ACCUM contribution has none. -/
def combineFits (a b : Packet) : Bool :=
  let x := readHead (pBytes a)
  let y := readHead (pBytes b)
  x.accum || decide (x.contrib + y.contrib ≤ x.expected)

/-- The held packet a after it has absorbed b (R256). -/
def combinePair (a b : Packet) : Packet :=
  let x := readHead (pBytes a)
  let y := readHead (pBytes b)
  let s := redSum x.fmt ((pBytes a).drop 64) ((pBytes b).drop 64)
  { a with data := { x with
      e1 := setBits x.e1 0 32 (min (2 ^ 32 - 1) (x.contrib + y.contrib)),
      e4 := x.e4 ||| (y.e4 &&& maskAt 6 2) ||| field 6 1 s.2.toNat ||| field 7 1 (x.fmt == 4).toNat
    }.bytes ++ s.1 }

end Sys2Proof.Machine
end

