-- ==== Sys2Proof/Machine/Slice.lean ====
section
/-! DEFINITION. Slices: DRAM lines and their errors, the queue, read merging and the accesses themselves
(R208 to R224). -/

namespace Sys2Proof.Machine

/-- The end of a slice (R208). -/
def dramEnd : Nat := 0x2000_0000

/-- The 128-byte lines that n bytes from offset a touch, first and last (R208). -/
def lineRange (a n : Nat) : List (Nat × Nat) := if n = 0 then [] else [(a / 128, (a + n - 1) / 128)]

/-- The lines of a range. -/
def linesOf (r : Nat × Nat) : List Nat := (List.range (r.2 + 1 - r.1)).map (r.1 + ·)

/-- The lines that n bytes from offset a touch. -/
def byteLines (a n : Nat) : List Nat := (lineRange a n).flatMap linesOf

/-- Two lists of ranges have a line in common. -/
def rangesMeet (a b : List (Nat × Nat)) : Bool :=
  a.any fun x => b.any fun y => decide (x.1 ≤ y.2) && decide (y.1 ≤ x.2)

/-! ## Bytes (R208, R210) -/

/-- n bytes of the slice above node nd from offset a. A byte not written since the contents were lost is
a free value (R210; assumption 6). -/
def Slice.readDram (c : Slice) (nd a n : Nat) : List Byte :=
  Sparse.readBytes (Config.dramFill c.fill nd) c.dram a n

/-- Write bytes from offset a. -/
def Slice.writeDram (c : Slice) (a : Nat) (b : List Byte) : Slice :=
  { c with dram := Sparse.writeAll c.dram a b }

/-- The contents of a slice are lost (R210, R382). -/
def State.loseDram (s : State) (n : Nat) : State :=
  { (s.modSlice n fun c => { c with dram := [], fill := s.fill, badLines := [], corrLines := [] }) with
    fill := s.fill + 1 }

/-! ## Line counts and errors (R215, R216) -/

/-- Count k in a 32-bit half of a counter register of the slice. -/
def State.countMc (s : State) (n off lo k : Nat) : State := s.modReg (bMc n) off fun w => satAdd w lo 32 k

/-- Lines are read from DRAM: each counts, a corrected one counts, and one that could not be corrected
counts and sends its notice (R215, R216). -/
def State.readLines (s : State) (n : Nat) (lines : List Nat) : State :=
  let c := s.slice n
  let corr := (lines.filter c.corrLines.contains).length
  let bad := (lines.filter c.badLines.contains).length
  let s1 := ((s.countMc n 0x20 0 lines.length).modReg (bMc n) 0x30 fun w => satAdd w 0 16 corr).modReg (bMc n)
    0x30 fun w => satAdd w 16 16 bad
  (List.range bad).foldl (fun s _ => s.noticeDie n 0x0301 none) s1

/-- Lines are written to DRAM whole, which ends their errors (R215, R216). -/
def State.storeLines (s : State) (n : Nat) (lines : List Nat) : State :=
  (s.countMc n 0x28 0 lines.length).modSlice n fun c =>
    { c with badLines := c.badLines.filter (!lines.contains ·)
             corrLines := c.corrLines.filter (!lines.contains ·) }

/-- The lines that a write of n bytes from a covers only in part. -/
def partLines (a n : Nat) : List Nat :=
  (byteLines a n).filter fun l => !(decide (a ≤ 128 * l) && decide (128 * l + 128 ≤ a + n))

/-- A WRITE or a multicast write of bytes b from offset a (R215). -/
def State.writeSlice (s : State) (n a : Nat) (b : List Byte) : State :=
  let part := partLines a b.length
  let s1 := (s.readLines n part).countMc n 0x28 32 part.length
  (s1.storeLines n (byteLines a b.length)).modSlice n fun c => c.writeDram a b

/-! ## Serving (R213, R222 to R224) -/

/-- The stacks are in self-refresh: the Watershed is at W3 or deeper, or TRIP is 1 (R394). -/
def selfRefresh (s : State) : Bool := decide (3 ≤ wsLevel s) || bit (s.reg bPwr 0x10) 8

/-- The slices of a site are ready: a first temperature has been sampled, and their DRAM has been trained (R222,
R411). -/
def dramReady (s : State) (st : Nat) : Bool :=
  (s.site st).sampled && decide (2 ≤ s.getField (bSm st) 0x400 5 3)

/-- The slice above node n serves accesses now: its site is powered, its domain runs, its DRAM is ready, it is
neither PAUSED nor in self-refresh (R209, R222, R224). -/
def sliceServes (s : State) (n : Nat) : Bool :=
  let st := siteOf n
  isCoreNode n && !siteUnpowered s st && domainRuns s st 1 && dramReady s st &&
    decide ((s.site st).dramLevel < 3) && !selfRefresh s

/-! ## Where a ledger operation works (R226 to R229) -/

/-- One round of the keyed hash (R228). -/
def ledgerFin (x : Word) : Word :=
  let y := (x ^^^ (x >>> 30)) * 0xBF58_476D_1CE4_E5B9
  let z := (y ^^^ (y >>> 27)) * 0x94D0_49BB_1331_11EB
  z ^^^ (z >>> 31)

/-- The keyed hash of the quads of a key (R228). -/
def ledgerHash (w : List Word) (k0 k1 : Word) : Word :=
  ledgerFin (w.foldl (fun h x => ledgerFin (h ^^^ x) + k1) k0 ^^^ 32)

/-- A shard's geometry and keys (R226, R228). -/
structure Shard where
  log2Shards : Nat
  index : Nat
  ledger : Nat
  b : Nat
  base : Nat
  k0 : Word
  k1 : Word
  deriving DecidableEq, Repr

/-- The active shard configuration of a slice (R245). -/
def shardOf (s : State) (n : Nat) : Shard :=
  let w := s.reg (bLgr n) 0x08
  ⟨bits w 8 4, bits w 16 13, bits w 4 4, bits w 32 5, bits w 40 17 * 4096, s.reg (bLgr n) 0x18,
    s.reg (bLgr n) 0x20⟩

/-- The shard, bucket1 and bucket2 of a key (R229). -/
def Shard.places (d : Shard) (key : List Byte) : Nat × Nat × Nat :=
  let h := ledgerHash [quadAt key 0, quadAt key 8, quadAt key 16, quadAt key 24] d.k0 d.k1
  let h2 := ledgerFin (h ^^^ d.k1)
  let b1 := bits h 0 d.b
  let b2 := bits h2 0 d.b
  (if d.log2Shards = 0 then 0 else bits h (64 - d.log2Shards) d.log2Shards, b1, if b2 = b1 then b1 ^^^ 1 else b2)

/-- Bucket slots of the shard; stash positions follow (R227). -/
def Shard.slots (d : Shard) : Nat := 2 ^ d.b * 8

/-- Positions of the shard (R227). -/
def Shard.positions (d : Shard) : Nat := d.slots + 1024

/-- Offset of the entry at a position (R226). -/
def Shard.entryAt (d : Shard) (p : Nat) : Nat :=
  if p < d.slots then d.base + p * 64 else d.base + 2 ^ d.b * 576 + (p - d.slots) * 64

/-- Offset of the metadata word of a position (R226). -/
def Shard.metaAt (d : Shard) (p : Nat) : Nat :=
  if p < d.slots then d.base + 2 ^ d.b * 512 + p * 8
  else d.base + 2 ^ d.b * 576 + 65536 + (p - d.slots) * 8

/-- The lines of the entries and metadata words of cnt positions from p, all bucket slots or all stash. -/
def Shard.spans (d : Shard) (p cnt : Nat) : List (Nat × Nat) :=
  lineRange (d.entryAt p) (cnt * 64) ++ lineRange (d.metaAt p) (cnt * 8)

/-- The ranges of lines that a LEDGER_OP may read or write at this slice, those of the stash where stash holds. -/
def ledgerRanges (s : State) (n : Nat) (p : Packet) (stash : Bool) : List (Nat × Nat) :=
  if !bit (s.reg (bLgr n) 0x08) 0 then []
  else
    let d := shardOf s n
    let body := padTo 96 (pBytes p)
    let own :=
      if bits (quadAt body 0) 0 4 = 5 then
        let cur := bits (quadAt body 8) 0 32
        let last := min (cur + 4096) d.positions
        d.spans cur (min last d.slots - cur) ++ d.spans (max cur d.slots) (last - max cur d.slots)
      else
        let pl := d.places ((body.drop 32).take 32)
        d.spans (pl.2.1 * 8) 8 ++ d.spans (pl.2.2 * 8) 8
    own ++ (if stash then d.spans d.slots 1024 else [])

/-- A LEDGER_OP that may insert: FIND_OR_INSERT, and UPDATE, may place its entry in the stash (R232, R236). -/
def mayInsert (p : Packet) : Bool :=
  let op := bits (quadAt (padTo 96 (pBytes p)) 0) 0 4
  op == 2 || op == 3

/-- The ranges of lines that a queued request may touch (R213): an insert may reach an empty stash. -/
def reqRanges (s : State) (n : Nat) (p : Packet) : List (Nat × Nat) :=
  if pKind p = kLedgerOp then ledgerRanges s n p (decide ((s.slice n).stashLive > 0) || mayInsert p)
  else if pKind p = kRedPart then lineRange (aOff p.h1) (max 64 (pLen p))
  else lineRange (aOff p.h1) (pLen p)

/-- The ranges of lines whose merge sets a request closes as it arrives (R218). -/
def closeRanges (s : State) (n : Nat) (p : Packet) : List (Nat × Nat) :=
  if pKind p = kLedgerOp then ledgerRanges s n p (decide ((s.slice n).stashLive > 0)) else reqRanges s n p

/-- Request i of the queue may be performed: the slice serves, and no earlier request has a line in
common with it (R213). -/
def mayPerform (s : State) (n i : Nat) : Bool :=
  sliceServes s n &&
    match (s.slice n).queue[i]? with
    | some r =>
      ((s.slice n).queue.take i).all fun q => !rangesMeet (reqRanges s n q.pkt) (reqRanges s n r.pkt)
    | none => false

/-! ## Arrival (R211, R212, R214, R217 to R219) -/

/-- Write data that a request holds (R212). -/
def writeRoom (p : Packet) : Nat :=
  if pKind p = kWrite ∨ pKind p = kRedPart then roundUp (pLen p) 64 else 0

/-- A queued WRITE whose ACK has still to be injected. -/
def Req.ackDue (r : Req) : Bool := (ackFor r.pkt).isSome && !r.acked

/-- Request places in use: those of the queue, and those of accesses performed whose response or ACK has not been
injected (R212). -/
def Slice.places (c : Slice) : Nat :=
  c.queue.length + c.respOut.length + (c.ackOut.length - (c.queue.filter Req.ackDue).length)

/-- The slice has a request place and write data for a packet (R212). The data of a WRITE or RED_PART is free once its
access has been performed (DESIGN CHOICE, assumption 100). -/
def Slice.hasRoom (c : Slice) (p : Packet) : Bool :=
  decide (c.places < 128) &&
    decide ((c.queue.map fun r => writeRoom r.pkt).sum + writeRoom p ≤ 65536)

/-- MC_CFG.MERGE_WINDOW. -/
def mergeWindow (s : State) (n : Nat) : Nat := s.getField (bMc n) 0x10 0 8

/-- Data read for a merge set is kept while its set is open or a request that joined it is queued. -/
def Slice.dropData (c : Slice) : Slice :=
  { c with setData := c.setData.filter fun e =>
      c.openSets.contains e.1 || c.queue.any fun r => r.lines.contains (e.1, false) }

/-- The set of a line is open no longer (R217, R218). -/
def Slice.closeSet (c : Slice) (l : Nat) : Slice :=
  Slice.dropData { c with openSets := c.openSets.filter (· != l)
                          mcSeen := c.mcSeen.filter fun p => aOff p.h1 / 128 != l }

/-- The sets of the lines in some ranges are closed (R218). -/
def Slice.closeSets (c : Slice) (rs : List (Nat × Nat)) : Slice :=
  (c.openSets.filter fun l => rangesMeet [(l, l)] rs).foldl Slice.closeSet c

/-- Two group reads are identical in the sense of R219. -/
def sameGroupRead (a b : Packet) : Bool :=
  a.h1 == b.h1 && pLen a == pLen b && pCid a == pCid b && pGen a == pGen b && pTag a == pTag b &&
    pGroup a == pGroup b

/-- A READ_REQ joins or opens the sets of its lines (R217, R219). -/
def Slice.joinSets (c : Slice) (win : Nat) (mergeMc : Bool) (p : Packet) (pl : Nat) : Slice :=
  let ls := byteLines (aOff p.h1) (pLen p)
  let lines := ls.map fun l => (l, win == 0 || !c.openSets.contains l)
  let opens := if win = 0 then c.openSets else c.openSets ++ ls.filter (!c.openSets.contains ·)
  let grouped := pMc p && mergeMc && win != 0 && !ls.isEmpty
  let shared := grouped && c.mcSeen.any (sameGroupRead p)
  { c with queue := c.queue ++ [{ pkt := p, plane := pl, lines := lines, shared := shared }]
           openSets := opens
           mcSeen := if grouped && !shared then c.mcSeen ++ [p] else c.mcSeen }

/-- A packet finds room in the queue: READ_REQs merge, any other access closes the sets of its lines, and
a WRITE is ordered and acknowledged (R212, R214, R217, R218). -/
def State.queueReq (s : State) (n pl : Nat) (p : Packet) : State :=
  if pKind p = kReadReq then
    s.modSlice n fun c => c.joinSets (mergeWindow s n) (bit (s.reg (bMc n) 0x10) 8) p pl
  else
    let rs := closeRanges s n p
    s.modSlice n fun c =>
      let c1 := c.closeSets rs
      { c1 with queue := c1.queue ++ [{ pkt := p, plane := pl, lines := [], shared := false }]
                ackOut := c1.ackOut ++ ((ackFor p).map fun a => ⟨a, some pl⟩).toList }

/-- The FENCE_CREDIT of a slice controller for a packet that it discards, on the packet's plane (R145, R447). -/
def State.creditSlice (s : State) (n pl : Nat) (p : Packet) : State :=
  match creditFor p with
  | some c => s.modSlice n fun x => { x with regOut := x.regOut ++ [⟨c, some pl⟩] }
  | none => s

/-- Discard a packet at a slice controller: a credit and a notice (R26, R145). -/
def State.discardSlice (s : State) (n pl : Nat) (p : Packet) (code : Nat) : State :=
  (s.creditSlice n pl p).noticeDie n code (some p)

/-- A discard by the slice controller with a counter and, where it was 0, a notice (R211, R212). -/
def State.mcOverflow (s : State) (n pl : Nat) (p : Packet) : State :=
  let was := s.getField (bMc n) 0x30 32 16
  let s1 := (s.creditSlice n pl p).countField (bMc n) 0x30 32 16
  if was = 0 then s1.noticeDie n 0x0302 (some p) else s1

/-- A kind that the slice does not serve (R211). -/
def State.mcKind (s : State) (n pl : Nat) (p : Packet) : State :=
  (s.discardSlice n pl p 0x0304).countField (bMc n) 0x30 48 16

/-- A packet for DRAM, or a LEDGER_OP, that has passed the checks of its kind and offset (R212); a slice whose domain has
stopped takes it too (DESIGN CHOICE, assumption 103). -/
def State.acceptReq (s : State) (n pl : Nat) (p : Packet) : State :=
  if (s.slice n).hasRoom p then s.queueReq n pl p else s.mcOverflow n pl p

/-- A packet addressed to space 0x0 reaches its slice (R211, R212, R246). -/
def State.toDram (s : State) (n pl : Nat) (p : Packet) : State :=
  let k := pKind p
  if k ≠ kWrite ∧ k ≠ kReadReq ∧ k ≠ kMcastWrite ∧ k ≠ kRedPart then s.mcKind n pl p
  else if aOff p.h1 + max (pLen p) 1 > dramEnd ∨ (k = kRedPart ∧ aOff p.h1 % 64 ≠ 0) then
    s.discardSlice n pl p 0x0214
  else s.acceptReq n pl p

/-! ## Performing (R213 to R220) -/

/-- Send a response of the slice on the plane of its request (R212, R215). -/
def State.respond (s : State) (n pl : Nat) (p : Packet) : State :=
  s.modSlice n fun c => { c with respOut := c.respOut ++ [⟨p, some pl⟩] }

/-- The byte at offset x that a merge set has read for a request that joined it (R217). -/
def Slice.setByte (c : Slice) (r : Req) (x : Nat) : Option Byte :=
  if r.lines.contains (x / 128, false) then (Sparse.find (x / 128) c.setData).bind fun l => l[x % 128]? else none

/-- The bytes that a READ_REQ returns: of a line whose set it joined, those of that set's one read (R217). -/
def Slice.readMerged (c : Slice) (nd : Nat) (r : Req) : List Byte :=
  let a := aOff r.pkt.h1
  (c.readDram nd a (pLen r.pkt)).mapIdx fun i b => (c.setByte r (a + i)).getD b

/-- The lines that a request reads for the sets it opened are kept for the requests that joined them (R217). -/
def Slice.keepLines (c : Slice) (nd : Nat) (lines : List Nat) : Slice :=
  let kept := lines.foldl (fun m l => Sparse.put l (c.readDram nd (128 * l) 128) m) c.setData
  Slice.dropData { c with setData := kept }

/-- A READ_REQ is served (R215, R217, R219). -/
def State.sliceRead (s : State) (n : Nat) (r : Req) : State :=
  let own := (r.lines.filter Prod.snd).map Prod.fst
  let s1 := ((s.readLines n own).countMc n 0x20 32 (r.lines.length - own.length)).modSlice n fun c =>
    c.keepLines n own
  if r.shared then s1 else s1.respond n r.plane (respFor r.pkt ((s.slice n).readMerged n r))

/-- A contribution is applied to its record (R249 to R253). -/
def State.sliceReduce (s : State) (n : Nat) (r : Req) : State :=
  let a := aOff r.pkt.h1
  let o := redApply r.pkt ((s.slice n).readDram n a (max 64 (pLen r.pkt)))
  let ls := byteLines a (if o.write.length ≤ 64 then 64 else pLen r.pkt)
  let s1 := ((s.readLines n ls).storeLines n (byteLines a o.write.length)).modSlice n fun c =>
    c.writeDram a o.write
  let s2 := match o.notice with
    | some c => s1.noticeDie n c (some r.pkt)
    | none => s1
  match o.done with
  | some d => s2.respond n r.plane d
  | none => s2

/-- SLICE_ACCESS: access i of the queue, no ledger operation, is performed (R213). -/
def execSliceAccess (n i : Nat) (s : State) : Res :=
  onCore n s fun s =>
    match (s.slice n).queue[i]? with
    | none => s
    | some r =>
      if pKind r.pkt = kLedgerOp ∨ !mayPerform s n i then s
      else
        let s1 := s.modSlice n fun c => { c with queue := c.queue.eraseIdx i }
        if pKind r.pkt = kReadReq then s1.sliceRead n r
        else if pKind r.pkt = kRedPart then s1.sliceReduce n r
        else s1.writeSlice n (aOff r.pkt.h1) (pBytes r.pkt)

/-- MERGE_SET_CLOSE: the window of the set of a line has run out (R217). -/
def execMergeSetClose (n line : Nat) (s : State) : Res :=
  onCore n s fun s => s.modSlice n fun c => c.closeSet line

end Sys2Proof.Machine
end

