-- ==== Sys2Proof/Machine/Mesh.lean ====
section
/-! DEFINITION. The mesh: injection and its checks, routing, arbitration and deflection, multicast,
combining, links that fail, and the vertical port (R141, R164 to R189, R255 to R257, R290, R313, R447). -/

namespace Sys2Proof.Machine

/-! ## Ports -/

/-- Port d of plane pl is closed in RTR_LINK_CFG (R192). -/
def closedPort (s : State) (n pl d : Nat) : Bool := bit (s.reg (bRtr n) 0x18) (4 * pl + d)

/-- The link on port d of plane pl is lost (R189). -/
def lostPort (s : State) (n pl d : Nat) : Bool := bit (s.reg (bRtr n) 0x20) (4 * pl + d)

/-- The link on port d of router n leads to another site: its words pass a crossing (R164, R363). -/
def crosses (n d : Nat) : Bool := (neighbour n d).any fun m => siteOf m != siteOf n

/-- Output d, one of N, E, S, W, can be granted to a header now: it is open, not lost, no packet is in transit through
it, and, in a quiet period, it crosses no site boundary (R169, R173, R185, R189, R370). -/
def outFree (s : State) (n pl d : Nat) : Bool :=
  (neighbour n d).isSome && !closedPort s n pl d && !lostPort s n pl d &&
    !(s.plane n pl).carries d && !(siteQuiet s (siteOf n) && crosses n d)

/-- The gate of plane pl as it counts for injections: the gate of R178, the fence, the quiet period
and a vertical port that does not work close it (R178, R183, R187, R370). -/
def gateOpen (s : State) (n pl : Nat) : Bool :=
  routerLive s n && (s.plane n pl).gate && !closedOut s n pl && vertWorks s n pl &&
    !siteQuiet s (siteOf n)

/-! ## Discards (R145, R177, R447) -/

/-- The source fields that the injecting router n writes (R138). -/
def fillSource (s : State) (n : Nat) (p : Packet) : Packet :=
  { p with h2 := setBits (setBits (setBits p.h2 59 1 1) 46 13 0) 32 14 (logicalNode s n) }

/-- A header as it begins to wait. -/
def newHeader (p : Packet) (pt : Port) : Header :=
  { pkt := p, port := pt, waited := 0, takenBack := false, kids := none }

/-- A header that arrives at an input: at the vertical one it is an injection, which the gate holds back (R178). -/
def arrived (p : Packet) (pt : Port) : Header := { newHeader p pt with gated := pt == .v }

/-- A credit built by router n for packet p takes p's place in input pt (R447). -/
def State.creditHere (s : State) (n pl : Nat) (pt : Port) (p : Packet) : State :=
  match creditFor p with
  | some c => s.modPlane n pl fun r => { r with inputs := r.inputs ++ [newHeader (fillSource s n c) pt] }
  | none => s

/-- RTR_ERRp.DISCARDS counts one (R177, R192). -/
def State.countDiscard (s : State) (n pl : Nat) : State := s.countField (bRtr n) (0x50 + 8 * pl) 16 16

/-- Router n discards packet p, which waited at input pt: its credit where credit holds, its notice
where the case has one (R177). -/
def State.routerDrop (s : State) (n pl : Nat) (pt : Port) (p : Packet) (credit : Bool)
    (code : Option Nat) : State :=
  let s1 := s.countDiscard n pl
  let s2 := if credit then s1.creditHere n pl pt p else s1
  match code with
  | some c => s2.noticePlain n c (some p)
  | none => s2

/-! ## Arrival, combining (R165, R168, R185, R255, R256) -/

/-- RTR_COMBINE_CFG.WINDOW. -/
def combineWindow (s : State) (n : Nat) : Nat := s.getField (bRtr n) 0x80 8 8

/-- Router n combines on plane pl (R255). -/
def combines (s : State) (n pl : Nat) : Bool :=
  bit (s.reg (bRtr n) 0x80) pl && combineWindow s n != 0

/-- Put a packet into the first held packet that matches and has room for it. -/
def absorb (p : Packet) : List Held → Option (List Held)
  | [] => none
  | h :: rest =>
    if combineMatch h.pkt p && combineFits h.pkt p then some ({ h with pkt := combinePair h.pkt p } :: rest)
    else (absorb p rest).map (h :: ·)

/-- The last word of packet h has arrived: where the plane still combines it is absorbed or held, else it waits as a
header (R255, R256). -/
def State.meet (n pl : Nat) (s : State) (h : Held) : State :=
  let r := s.plane n pl
  let r := { r with gather := eraseFirst h r.gather }
  let wait := s.setPlane n pl { r with inputs := r.inputs ++ [arrived h.pkt h.port] }
  if !combines s n pl then wait
  else match absorb h.pkt r.held with
  | some l => (s.setPlane n pl { r with held := l }).countField (bRtr n) 0x80 16 32
  | none =>
    if r.held.any (fun x => combineMatch x.pkt h.pkt) then wait
    else if r.held.length < 16 then
      s.setPlane n pl { r with held := r.held ++ [⟨h.pkt, h.port, combineWindow s n⟩] }
    else wait

/-- Header h arrives at its input of router n: a packet that may combine is kept until its last word has arrived, any
other waits (R169, R256). -/
def State.enter (s : State) (n pl : Nat) (h : Header) : State :=
  if combines s n pl && combinable h.pkt then
    let g : Held := ⟨h.pkt, h.port, h.toCome⟩
    let s1 := s.modPlane n pl fun r => { r with gather := r.gather ++ [g] }
    if h.toCome = 0 then s1.meet n pl g else s1
  else s.modPlane n pl fun r => { r with inputs := r.inputs ++ [h] }

/-- The packet on its way at port pt has one word less to come. -/
def RPlane.wordCame (r : RPlane) (pt : Port) : RPlane :=
  let one := fun h : Header => if h.port = pt then { h with toCome := h.toCome - 1 } else h
  { r with inputs := r.inputs.map one
           vout := r.vout.map one
           gather := r.gather.map fun h => if h.port = pt then { h with left := h.left - 1 } else h
           transit := r.transit.map fun e =>
             (e.1, if e.2.port = pt then { e.2 with toCome := e.2.toCome - 1 } else e.2) }

/-- A word arrives at input e of router n: the first brings the header, which a closed port discards (R165, R169,
R185); a packet that may combine meets the buffers with its last one (R256). -/
def State.takeWord (n pl e : Nat) (s : State) (w : WordSlot) : State :=
  let pt := portOfNum e
  if w.first then
    if decide (e < 4) && closedPort s n pl e then s.routerDrop n pl pt w.pkt true none
    else s.enter n pl { arrived w.pkt pt with toCome := linkSlots w.pkt - 1 }
  else
    let s1 := s.modPlane n pl fun r => r.wordCame pt
    ((s1.plane n pl).gather.filter fun h => h.port == pt && h.left == 0).foldl (State.meet n pl) s1

/-- Words arrive at the receiver of port e; those toward the die leave the mesh (R175). -/
def State.takeWords (s : State) (n pl e : Nat) (ws : List WordSlot) : State :=
  if e < 5 then ws.foldl (State.takeWord n pl e) s else s

/-- One receiver cycle at port e: every entry is one cycle nearer, and the oldest is read when its cycles are over;
what comes while a replay is awaited is discarded (R164, R168, R363). -/
def State.receive (n pl : Nat) (s : State) (e : Nat) : State :=
  let x := (s.plane n pl).endOf e
  match x.wire.map fun i => { i with left := i.left - 1 } with
  | [] => s
  | i :: rest =>
    if i.left = 0 then
      let s1 := s.modEnd n pl e fun x => { x with wire := rest }
      if x.awaiting.isSome then s1 else s1.takeWords n pl e i.words
    else s.modEnd n pl e fun x => { x with wire := i :: rest }

/-- Header h is put on output d: its words pass from the next cycle on, the first in slot 1 of the present one where
another packet ended in slot 0 (R165, R169). -/
def State.occupy (s : State) (n pl d : Nat) (h : Header) (cross : Bool) : State :=
  let r := s.plane n pl
  let ws := slotsOf h.pkt cross
  let go := fun (ws : List WordSlot) =>
    if ws = [] then r.transit else Sparse.put d ⟨h.pkt, ws, h.port, h.toCome⟩ r.transit
  if r.half.contains d then
    (s.setPlane n pl { r with half := eraseFirst d r.half, transit := go (ws.drop 1) }).sendWords n pl d true (ws.take 1)
  else s.setPlane n pl { r with transit := go ws }

/-- A header is granted output d, one of N, E, S, W. -/
def State.forward (s : State) (n pl d : Nat) (h : Header) : State := s.occupy n pl d h (crosses n d)

/-! ## Injection (R138, R141, R178, R181, R290) -/

/-- The class of a packet is one its kind allows (R139, R141). -/
def classOk (k c : Nat) : Bool :=
  if k = kMcastWrite ∨ k = kRedPart ∨ k = kLedgerOp ∨ k = kLedgerReply ∨ k = kCell then c == 0
  else if k = kAck ∨ k = kRedDone ∨ k = kControl ∨ k = kNotice ∨ k = kCredit then c == 1
  else decide (c < 2)

/-- payload_len is one its kind and class allow (R140, R141). -/
def lenOk (p : Packet) : Bool :=
  let k := pKind p
  let l := pLen p
  decide (l ≤ 8256) && !(pClass p == 1 && decide (256 < l)) &&
    (if k = kSignal then l == 8 else if k = kCell then l == 32
     else if k = kAck ∨ k = kCredit then l == 0 else true)

/-- A multicast write or a multicast read request. -/
def isMcOrigin (p : Packet) : Bool := pKind p == kMcastWrite || (pKind p == kReadReq && pMc p)

/-- A packet that a tree carries (R170). -/
def isTree (p : Packet) : Bool := pKind p == kMcastWrite || (pKind p == kReadResp && bit p.h2 17)

/-- The checks of R141, in order: the notice of the first that fails. -/
def headerCheck (p : Packet) : Option Nat :=
  let k := pKind p
  if k ∉ kinds then some 0x0220
  else if !classOk k (pClass p) then some 0x0221
  else if !lenOk p then some 0x0222
  else if (isMcOrigin p && decide (4095 < pGroup p)) ||
      ((k == kRedPart || k == kRedDone) && decide (16383 < pGroup p)) then some 0x0223
  else if isMcOrigin p && !aLocal p.h1 then some 0x0224
  else none

/-- The agreed level of a site's bond (R289, R293). A guest bridge lies in the Plain: its level is the
Plain's. -/
def siteLevel (s : State) (st : Nat) : Nat :=
  if siteKind st = .guest then 1 else s.getField (bSm st) 0x100 8 4

/-- arch_level is 0 or above a level (R290). -/
def levelBad (p : Packet) (lv : Nat) : Bool := pLevel p == 0 || decide (lv < pLevel p)

/-- Tree entry t of router n, which holds 4,096: a group above names none (R181). -/
def treeEntry (s : State) (n t : Nat) : Word := if t < 4096 then s.reg (bRtr n) (0x8000 + 8 * t) else 0

/-- The injecting router's address checks of R26: the notice of the first that fails. -/
def addrCheck (p : Packet) : Option Nat :=
  if 9 ≤ aSpace p.h1 then some 0x0210
  else if 12288 ≤ aNode p.h1 then some 0x0211
  else none

/-- A packet for a tree is injected at router n: at the tree's root f takes it (R181). -/
def State.rootOnly (s : State) (n pl : Nat) (pt : Port) (q : Packet) (f : State → State) : State :=
  let e := treeEntry s n (pGroup q)
  if !isTree q then f s
  else if (s.router n).badTree.contains (pGroup q) then s.routerDrop n pl pt q true (some 0x0202)
  else if bit e 0 && bits e 1 3 == 4 then f s
  else s.routerDrop n pl pt q false (some 0x0203)

/-- A packet that the level check lets through enters router n: the checks of R141, R26 and R181, and the source fields
unless the packet keeps its own (R314). -/
def State.enterChecked (s : State) (n pl : Nat) (pt : Port) (p : Packet) (keep : Bool) : State :=
  match headerCheck p with
  | some c => s.routerDrop n pl pt p false (some c)
  | none =>
    let q := if keep then p else fillSource s n p
    match addrCheck q with
    | some c => s.routerDrop n pl pt q true (some c)
    | none => s.rootOnly n pl pt q fun s => s.enter n pl { arrived q pt with toCome := if pt = .v then linkSlots q - 1 else 0 }

/-- A packet enters router n by the vertical input or the plane-transfer path, through the bond of its site: its
level is checked first (R290). -/
def State.inject (s : State) (n pl : Nat) (pt : Port) (p : Packet) (keep : Bool) : State :=
  if levelBad p (siteLevel s (siteOf n)) then s.noticePlain n 0x0501 (some p) else s.enterChecked n pl pt p keep

/-- The plane on which a packet that names plane q enters: the next working one from q on (R187). -/
def workingPlane (s : State) (n q : Nat) : Option Nat :=
  [q % 4, (q + 1) % 4, (q + 2) % 4, (q + 3) % 4].find? (fun p => vertWorks s n p)

/-- The first plane whose gate is open, searching from plane q on (R157, R447). -/
def openPlane (s : State) (n q : Nat) : Option Nat :=
  [q % 4, (q + 1) % 4, (q + 2) % 4, (q + 3) % 4].find? (fun p => gateOpen s n p)

/-- An offer may enter on plane pl: its own plane or, where it names none, the first open one from
plane start on. -/
def offerOn (s : State) (n pl start : Nat) (o : Offer) : Bool :=
  match o.plane with
  | some q => workingPlane s n q == some pl
  | none => openPlane s n start == some pl

/-- An offer is in its turn: at a site that is no compute site, what a die or block offers without a plane of its own
enters in the order in which it was offered (R326, R332, R336; assumption 93). -/
def inTurn (s : State) (n : Nat) (o : Offer) : Bool :=
  isComputeSite (siteOf n) || o.plane.isSome ||
    (s.router n).offers.find? (fun q => q.plane.isNone) == some o

/-- The die above node n begins to send packet p on plane pl: its first word comes with the injection, and the others
follow (R165, R168, R186). -/
def State.dieSends (s : State) (n pl : Nat) (p : Packet) (cross : Bool) : State :=
  let ws := slotsOf p cross
  s.modPlane n pl fun r =>
    { r with transit := if ws.drop 1 = [] then r.transit else Sparse.put 5 ⟨p, ws.drop 1, .x, 0⟩ r.transit
             ends := Sparse.put 5 ((r.endOf 5).send (ws.take 1)) r.ends }

/-- The vertical port of plane pl can take a packet from the die: its gate is open, its input has room, and no word of
the packet before, and no replay, is still to come (R165, R168, R169, R178). -/
def canInject (s : State) (n pl : Nat) : Bool :=
  let r := s.plane n pl
  gateOpen s n pl && r.hasRoom .v && !r.carries 5 && (r.endOf 4).wire.isEmpty &&
    (r.endOf 4).awaiting.isNone

/-- Packet p begins to come from the die and enters; from the core it passes no crossing (R141, R355, R363). -/
def State.injectFrom (s : State) (n pl : Nat) (p : Packet) (cross keep : Bool) : State :=
  (s.dieSends n pl p cross).inject n pl .v p keep

/-- Everything a slice has still to inject. -/
def Slice.outs (c : Slice) : List Offer := c.respOut ++ c.ackOut ++ c.regOut

/-- The first element that satisfies f is changed. -/
def modFirst {α : Type} (f : α → Bool) (g : α → α) : List α → List α
  | [] => []
  | x :: rest => if f x then g x :: rest else x :: modFirst f g rest

/-- ACK o has been injected: it answers a WRITE that has been performed where one still waits for such an ACK, else the
first of the queue that does (R212). -/
def Slice.ackGone (c : Slice) (o : Offer) : Slice :=
  let due := fun r : Req => r.ackDue && ackFor r.pkt == some o.pkt && o.plane == some r.plane
  if (c.ackOut.filter fun q => q == o).length < (c.queue.filter due).length then
    { c with queue := modFirst due (fun r => { r with acked := true }) c.queue }
  else c

/-- The first offer of a slice that satisfies f is taken from where it waits. -/
def Slice.takeOut (c : Slice) (f : Offer → Bool) : Option Slice :=
  match takeFirst f c.respOut with
  | some (_, l) => some { c with respOut := l }
  | none =>
    match takeFirst f c.ackOut with
    | some (o, l) => some ({ c with ackOut := l }.ackGone o)
    | none => (takeFirst f c.regOut).map fun x => { c with regOut := x.2 }

/-- INJECTION: packet p, offered above node n, enters on plane pl where the gate is open. A packet of
the message engine, of the ledger port, of a slice or of a die leaves the place where it waits; any other comes
from the die above (assumption 2). -/
def execInjection (n pl : Nat) (p : Packet) (s : State) : Res :=
  onPlane n pl s fun s =>
    if !canInject s n pl then s
    else
      let c := s.core n
      let next := c.usedPlane + 1
      match c.msgOut.head? with
      | some o =>
        if o.pkt = p then
          if offerOn s n pl next o then (s.msgInjected n pl).injectFrom n pl p false false else s
        else other s c next
      | none => other s c next
where
  /-- A packet that is not the message engine's next one. -/
  other (s : State) (c : Core) (next : Nat) : State :=
    match takeFirst (fun o : Offer => o.pkt == p) c.lopOut with
    | some (o, rest) =>
      if offerOn s n pl next o then
        (s.setCore n { c with lopOut := rest, usedPlane := pl }).injectFrom n pl p false false
      else s
    | none =>
      match (s.slice n).takeOut fun o => o.pkt == p && offerOn s n pl 0 o with
      | some c => (s.setSlice n c).injectFrom n pl p true false
      | none =>
        match takeFirst (fun o : Offer => o.pkt == p && offerOn s n pl 0 o && inTurn s n o) (s.router n).offers with
        | some (_, rest) =>
          let s1 := s.modRouter n fun r => { r with offers := rest }
          (if n = leadNode then s1.bridgeInjected p else s1).injectFrom n pl p (!isComputeSite (siteOf n)) false
        | none =>
          if ((s.slice n).outs ++ (s.router n).offers).any (fun o => o.pkt == p) || (guestOfSite (siteOf n)).isSome then s
          else s.injectFrom n pl p (!isComputeSite (siteOf n)) false

/-! ## The gate (R178) -/

/-- Words held in the five inputs of a plane (R178). -/
def occWords (s : State) (n pl : Nat) : Nat :=
  min 1300 ([Port.n, .e, .s, .w, .v].map (s.plane n pl).inputWords).sum

/-- Deflections in the last w cycles, saturating at 255 (R178). -/
def deflsIn (r : RPlane) (w : Nat) : Nat := min 255 ((r.defls.take w).sum)

/-- The gate after one evaluation (R178). -/
def gateNext (thr : Word) (occ defl : Nat) (isOpen : Bool) : Bool :=
  let occHi := bits thr 0 11
  let occLo := bits thr 16 11
  let deflHi := bits thr 32 8
  let deflLo := bits thr 40 8
  let occOn := occHi != 0
  let deflOn := bits thr 48 8 != 0
  if isOpen then
    !((occOn && decide (occHi < occ)) || (deflOn && decide (deflHi < defl)))
  else (!occOn || decide (occ < occLo)) && (!deflOn || decide (defl < deflLo))

/-- The words of the packet in transit through output d that have still to arrive at its input. -/
def RPlane.unread (r : RPlane) (d : Nat) : Nat := ((Sparse.find d r.transit).map Transit.toCome).getD 0

/-- k words more of the packet in transit through output d have passed; with the last one the output is free. -/
def RPlane.passed (r : RPlane) (d k : Nat) : RPlane :=
  match Sparse.find d r.transit with
  | none => r
  | some t =>
    { r with transit := if t.words.length ≤ k then Sparse.del d r.transit
                        else Sparse.put d { t with words := t.words.drop k } r.transit }

/-- One cycle of output d: two word slots pass, as far as its input has received them, one of them a NAK where one is
due, which goes first; none where the output stalls (R164, R165, R168, R169). -/
def State.drainPort (n pl : Nat) (s : State) (d : Nat) : State :=
  let r := s.plane n pl
  let e := r.endOf d
  let due := e.nak.isSome && !e.nakSent && !(siteQuiet s (siteOf n) && crosses n d)
  let s1 := if due then s.modEnd n pl d fun e => { e with nakSent := true } else s
  let ws := e.again ++ r.unsent d
  let k := if stalled s n pl d then 0 else min (if due then 1 else 2) (ws.length - r.unread d)
  if k = 0 then s1
  else
    let s2 := s1.modPlane n pl fun r =>
      { (r.passed d (k - e.again.length)) with
        half := if ws.length = 1 ∧ k = 1 ∧ !due then d :: r.half else r.half
        ends := Sparse.put d { r.endOf d with again := e.again.drop k } r.ends }
    s2.sendWords n pl d false (ws.take k)

/-- One cycle of every port of a plane, the die's side of the vertical port with it: what is on its way comes nearer or
arrives, and the outputs send. -/
def State.portCycle (s : State) (n pl : Nat) : State :=
  let s1 := [0, 1, 2, 3, 4, 5].foldl (State.receive n pl) (s.modPlane n pl fun r => { r with half := [] })
  [0, 1, 2, 3, 4, 5].foldl (State.drainPort n pl) s1

/-- Cycles of deflections that a router keeps: the widest window (R178). -/
def deflCycles : Nat := 16320

/-- INJECTION_GATE_EVAL: one router cycle of a plane, with the evaluation of its gate (R178). -/
def execInjectionGateEval (n pl : Nat) (s : State) : Res :=
  onPlane n pl s fun s =>
    if !routerLive s n then s
    else
      let thr := s.reg (bRtr n) 0x28
      let occ := occWords s n pl
      (s.modPlane n pl fun r =>
        { r with
          gate := gateNext thr occ (deflsIn r (64 * bits thr 48 8)) r.gate
          defls := 0 :: r.defls.take (deflCycles - 1)
          inputs := r.inputs.map fun h => { h with waited := h.waited + 1 }
          held := r.held.map fun h => { h with left := h.left - 1 } }).portCycle n pl

/-- COMBINE_RELEASE: held packet i of a plane, whose window has run out, becomes a header of the input
it arrived on (R257). -/
def execCombineRelease (n pl i : Nat) (s : State) : Res :=
  onPlane n pl s fun s =>
    let r := s.plane n pl
    match r.held[i]? with
    | some h =>
      if h.left = 0 ∧ routerLive s n then
        s.setPlane n pl { r with held := r.held.eraseIdx i, inputs := r.inputs ++ [arrived h.pkt h.port] }
      else s
    | none => s

/-! ## Routing (R170, R171, R180, R312, R313) -/

/-- Where a router sends a packet: a physical node, or a discard with its notice. -/
inductive Route where
  | node (d : Nat)
  | drop (code : Option Nat)
  deriving DecidableEq, Repr

/-- The destination that router n finds for a packet (R170, R312, R313). -/
def route (s : State) (n : Nat) (p : Packet) : Route :=
  let a := p.h1
  if addrHere s a then
    if logicalSpace (aSpace a) then
      if (s.router n).badMap.contains (siteOf (aNode a)) then .drop (some 0x0202)
      else match translate s n (aNode a) with
        | some d => .node d
        | none => .drop (some 0x0212)
    else .node (aNode a)
  else if !idValid s then .drop (some 0x0607)
  else
    let q := aPanel a
    if (s.site (siteOf n)).badEgress.contains (q / 16) then .drop (some 0x0202)
    else match egressOf s q with
      | some k => .node (nodeOf (linkSite k) (q % 64))
      | none => .drop (some 0x0607)

/-- Action of the lowest detour entry of router n that matches destination d on plane pl, 0 where none
does (R180). -/
def detour (s : State) (n pl d : Nat) : Nat :=
  ((List.range 16).findSome? fun i =>
    let w := s.reg (bRtr n) (0x100 + 8 * i)
    if bits w 36 3 ≠ 0 ∧ bit w (32 + pl) ∧ bits w 0 7 ≤ nodeX d ∧ nodeX d ≤ bits w 8 7 ∧
        bits w 16 7 ≤ nodeY d ∧ nodeY d ≤ bits w 24 7 then some (bits w 36 3) else none).getD 0

/-- The port can be productive: neither closed nor lost on the plane (R171, R189). -/
def usable (s : State) (n pl d : Nat) : Bool := !closedPort s n pl d && !lostPort s n pl d

/-- The productive outputs at router n for destination d ≠ n, the preferred one first and then in the
order E, W, N, S; act is the action of a detour entry (R171, R173). -/
def productive (s : State) (n pl d act : Nat) : List Nat :=
  if act ≠ 0 then [act - 1].filter (usable s n pl)
  else
    let xs := if nodeX n < nodeX d then [1] else if nodeX d < nodeX n then [3] else []
    let ys := if nodeY d < nodeY n then [0] else if nodeY n < nodeY d then [2] else []
    (xs ++ ys).filter (usable s n pl)

/-! ## At the destination (R26, R183, R187, R290, R370) -/

/-- A space of this panel that the Plain serves at any node (R25, R183). -/
def inPlain (s : State) (p : Packet) : Bool :=
  addrHere s p.h1 && (aSpace p.h1 == 3 || aSpace p.h1 == 7)

/-- The space of a packet is served above node n (R25, R446). -/
def servedAbove (s : State) (n : Nat) (p : Packet) : Bool :=
  let k := siteKind (siteOf n)
  if !addrHere s p.h1 then k == .link
  else match aSpace p.h1 with
    | 0 => k == .compute
    | 1 => true
    | 2 => k == .compute
    | 4 => k == .compute
    | 5 => k == .steward
    | 6 => k == .link
    | 8 => k == .guest
    | _ => false

/-- What the destination router does with a packet for delivery. -/
inductive Delivery where
  | deliver
  | wait
  | drop (credit : Bool) (code : Option Nat) (counted : Bool)
  | bypass (q : Nat)
  deriving DecidableEq, Repr

/-- Delivery at node n from plane pl (R26, R177, R183, R187, R290). -/
def delivery (s : State) (n pl : Nat) (p : Packet) : Delivery :=
  let st := siteOf n
  if inPlain s p then if levelBad p 1 then .drop false (some 0x0501) false else .deliver
  else if !servedAbove s n p then .drop true (some 0x0213) true
  else if closedIn s n pl || siteUnpowered s st then .drop true none true
  else if levelBad p (siteLevel s st) then .drop false (some 0x0501) false
  else if !vertWorks s n pl then
    match [0, 1, 2, 3].find? (fun q => vertWorks s n q) with
    | some q => .bypass q
    | none => .drop true none true
  else if siteQuiet s st && !toCore s n p then .wait
  else .deliver

/-- The vertical output of plane pl carries nothing (R159, R169). -/
def vertFree (s : State) (n pl : Nat) : Bool := !vertBusy s n pl

/-- Remove a header from the inputs of a plane. -/
def State.leave (s : State) (n pl : Nat) (h : Header) : State :=
  s.modPlane n pl fun r => { r with inputs := eraseFirst h r.inputs }

/-- Hand a header's packet to the vertical output, whose port to the core is no crossing (R175, R355, R363). -/
def State.handUp (s : State) (n pl : Nat) (h : Header) : State :=
  (s.occupy n pl 4 h (!toCore s n h.pkt)).modPlane n pl fun r => { r with vout := r.vout ++ [h] }

/-- Hand a header's packet to the router's or the site controller's registers in the Plain (R183). -/
def State.handPlain (s : State) (n pl : Nat) (h : Header) : State :=
  s.modPlane n pl fun r => { r with served := r.served ++ [h] }

/-- Move a packet for delivery to plane q by the plane-transfer path (R187). -/
def State.transfer (s : State) (n pl q : Nat) (p : Packet) (kids : Option (List Port)) : State :=
  (s.modPlane n q fun r => { r with inputs := r.inputs ++ [{ newHeader p .x with kids := kids }] }).countField
    (bRtr n) (0x50 + 8 * pl) 32 16

/-! ## The arbitration pass (R172, R173) -/

/-- Header a ranks above header b by rules 1 to 5 of R172. -/
def ranksAbove (a b : Header) : Bool :=
  let la := decide (64 ≤ a.waited)
  let lb := decide (64 ≤ b.waited)
  if la != lb then la
  else if la && a.waited != b.waited then decide (b.waited < a.waited)
  else if pClass a.pkt ≠ pClass b.pkt then decide (pClass b.pkt < pClass a.pkt)
  else if pAge a.pkt ≠ pAge b.pkt then decide (pAge b.pkt < pAge a.pkt)
  else if a.waited ≠ b.waited then decide (b.waited < a.waited)
  else decide (portNum a.port < portNum b.port)

/-- Insert a header behind every header that it does not rank above. -/
def rankInsert (h : Header) : List Header → List Header
  | [] => [h]
  | x :: rest => if ranksAbove h x then h :: x :: rest else x :: rankInsert h rest

/-- The headers in rank order (R172). -/
def rankOrder (l : List Header) : List Header := l.foldl (fun acc h => rankInsert h acc) []

/-- A header that is not at its destination, or has been taken back, may deflect (R173). -/
def mayDeflect (h : Header) (atDest : Bool) : Bool :=
  (!atDest || h.takenBack) && pAge h.pkt != 255 && h.kids.isNone && !isTree h.pkt && h.port != .v

/-- The outputs in the order in which a deflection looks at them (R173). The rule starts after the port of arrival
and names N, E, S and W alone: a header taken back that came by the vertical input, or one of the
plane-transfer path, begins at N (DESIGN CHOICE, assumption 85). -/
def deflectOrder (pt : Port) : List Nat :=
  match pt with
  | .n => [1, 2, 3, 0]
  | .e => [2, 3, 0, 1]
  | .s => [3, 0, 1, 2]
  | .w => [0, 1, 2, 3]
  | _ => [0, 1, 2, 3]

/-- A deflection of header h to the first free output, where the router makes one (R173, R370). -/
def State.deflect (s : State) (n pl : Nat) (h : Header) : State :=
  if siteQuiet s (siteOf n) then s
  else match (deflectOrder h.port).find? (outFree s n pl) with
    | none => s
    | some d =>
      let s1 := (s.leave n pl h).countField (bRtr n) (0x30 + 8 * pl) 20 32
      let s2 := s1.modPlane n pl fun r =>
        { r with defls := match r.defls with
                          | [] => [1]
                          | x :: l => (x + 1) :: l }
      s2.forward n pl d { h with pkt := raiseAge h.pkt }

/-- Header h at its destination n; the Plain's registers and the plane-transfer path take it when its last word has
arrived (R173, R187). -/
def State.passDest (s : State) (n pl : Nat) (h : Header) : State :=
  if h.takenBack then s.deflect n pl h
  else match delivery s n pl h.pkt with
    | .deliver =>
      if inPlain s h.pkt then (if h.toCome = 0 then (s.leave n pl h).handPlain n pl h else s)
      else if vertFree s n pl then (s.leave n pl h).handUp n pl h
      else s
    | .wait => s
    | .drop credit code true => (s.leave n pl h).routerDrop n pl h.port h.pkt credit code
    | .drop _ code false =>
      match code with
      | some c => (s.leave n pl h).noticePlain n c (some h.pkt)
      | none => s.leave n pl h
    | .bypass q => if h.toCome = 0 then (s.leave n pl h).transfer n pl q h.pkt none else s

/-- Header h on its way to node d (R171, R173, R177, R180). -/
def State.passRoute (s : State) (n pl d : Nat) (h : Header) : State :=
  let act := detour s n pl d
  if act = 5 then (s.leave n pl h).routerDrop n pl h.port h.pkt true none
  else
    let prod := productive s n pl d act
    if prod = [] ∧ !mayDeflect h false then
      (s.leave n pl h).routerDrop n pl h.port h.pkt true (some 0x0201)
    else match prod.find? (outFree s n pl) with
      | some o => (s.leave n pl h).forward n pl o h
      | none => if mayDeflect h false then s.deflect n pl h else s

/-- The outputs that the CHILDREN of a tree entry name (R192). -/
def childPorts (e : Word) : List Port :=
  ([0, 1, 2, 3, 4].filter fun d => bit e (4 + d)).map portOfNum

/-- One copy of a multicast packet at router n: the state after it, and whether the copy has left or
ended (R182). -/
def State.passCopy (s : State) (n pl : Nat) (h : Header) (pt : Port) : State × Bool :=
  if pt = .v then
    match delivery s n pl h.pkt with
    | .deliver =>
      if inPlain s h.pkt then (if h.toCome = 0 then (s.handPlain n pl h, true) else (s, false))
      else if vertFree s n pl then (s.handUp n pl h, true)
      else (s, false)
    | .wait => (s, false)
    | .drop credit code true => (s.routerDrop n pl h.port h.pkt credit code, true)
    | .drop _ code false =>
      match code with
      | some c => (s.noticePlain n c (some h.pkt), true)
      | none => (s, true)
    | .bypass q => if h.toCome = 0 then (s.transfer n pl q h.pkt (some [.v]), true) else (s, false)
  else if lostPort s n pl (portNum pt) then (s.routerDrop n pl h.port h.pkt false (some 0x0205), true)
  else if outFree s n pl (portNum pt) then (s.forward n pl (portNum pt) h, true)
  else (s, false)

/-- The copies of a multicast header that still wait for an output. -/
def State.passCopies (s : State) (n pl : Nat) (h : Header) : List Port → State × List Port
  | [] => (s, [])
  | pt :: rest =>
    let a := s.passCopy n pl h pt
    let b := a.1.passCopies n pl h rest
    (b.1, if a.2 then b.2 else pt :: b.2)

/-- A multicast header: the copies that can leave do, and the header stays until its last copy has left
(R181, R182). -/
def State.passTree (s : State) (n pl : Nat) (h : Header) : State :=
  let e := treeEntry s n (pGroup h.pkt)
  let s0 := s.leave n pl h
  match h.kids with
  | none =>
    if (s.router n).badTree.contains (pGroup h.pkt) then s0.routerDrop n pl h.port h.pkt true (some 0x0202)
    else if bit e 0 && bits e 1 3 == portNum h.port then go s0 (childPorts e)
    else s0.routerDrop n pl h.port h.pkt false (some 0x0204)
  | some ks => go s0 ks
where
  /-- Serve the copies, and put the header back where some still wait. -/
  go (s0 : State) (ks : List Port) : State :=
    let a := s0.passCopies n pl h ks
    if a.2 = [] then a.1
    else a.1.modPlane n pl fun r => { r with inputs := r.inputs ++ [{ h with kids := some a.2 }] }

/-- An injection is offered to arbitration only while the gate is open; it counts as closed behind a fence and in a
quiet period (R178, R183, R370). -/
def gateHolds (s : State) (n pl : Nat) (h : Header) : Bool :=
  h.gated && !((s.plane n pl).gate && !closedOut s n pl && !siteQuiet s (siteOf n))

/-- One header in its turn (R173). -/
def State.passOne (n pl : Nat) (s : State) (h : Header) : State :=
  if !(s.plane n pl).inputs.contains h || gateHolds s n pl h then s
  else if isTree h.pkt then s.passTree n pl h
  else match route s n h.pkt with
    | .drop code => (s.leave n pl h).routerDrop n pl h.port h.pkt true code
    | .node d => if d = n then s.passDest n pl h else s.passRoute n pl d h

/-- The notices of the Plain that wait at node n enter the router by the plane-transfer path of plane
n mod 4: they cross no bond, so no level is checked (R290, R447). -/
def State.enterPlain (s : State) (n pl : Nat) : State :=
  match (s.router n).plain with
  | [] => s
  | l =>
    if pl = n % 4 then
      l.foldl (fun s p => s.enterChecked n pl .x p false) (s.modRouter n fun r => { r with plain := [] })
    else s

/-- ARBITRATION_PASS (R172, R173). -/
def execArbitrationPass (n pl : Nat) (s : State) : Res :=
  onPlane n pl s fun s =>
    if !routerLive s n then s
    else
      let s1 := s.enterPlain n pl
      (rankOrder (s1.plane n pl).inputs).foldl (State.passOne n pl) s1

/-! ## Refusal by the inbox chain (R159, R160) -/

/-- INBOX_REFUSAL: packet p at the vertical output of plane pl has not been accepted (R159, R160, R370). Taken back
into its input, it begins to wait anew (DESIGN CHOICE, assumption 86). -/
def execInboxRefusal (n pl : Nat) (p : Packet) (s : State) : Res :=
  onPlane n pl s fun s =>
    if !isCoreNode n || !toInbox s n p || (s.core n).accepts then s
    else match takeFirst (fun h : Header => h.pkt == p) (s.plane n pl).vout with
      | none => s
      | some (h, rest) =>
        let s1 := s.countField (bCore n) 0x50 16 32
        if siteQuiet s (siteOf n) then s1
        else
          let s2 := s1.modPlane n pl fun r => { r with vout := rest, transit := Sparse.del 4 r.transit }
          if pAge p = 255 then ((s2.countDiscard n pl).creditHere n pl h.port p).noticeDie n 0x0104 (some p)
          else s2.modPlane n pl fun r =>
            { r with inputs := r.inputs ++ [{ newHeader p h.port with takenBack := true, toCome := h.toCome }] }

/-! ## Links that fail (R168, R186 to R189) -/

/-- The packet whose words are still to come at port pt of a plane: where it waits or, having been granted an output,
as it leaves. -/
def RPlane.coming (r : RPlane) (pt : Port) : Option Packet :=
  match (r.inputs ++ r.vout).find? fun h => h.port == pt && h.toCome != 0 with
  | some h => some h.pkt
  | none =>
    match r.gather.find? fun h => h.port == pt && h.left != 0 with
    | some h => some h.pkt
    | none => (r.transit.find? fun e => decide (e.1 < 4) && e.2.port == pt && e.2.toCome != 0).map fun e => e.2.pkt

/-- The packet whose words are still to come at port pt of router n ends there: it leaves its input, and every output on
which it has gone on, with what of it is further on (R177, R189). A packet crosses fewer routers than it has words, so
the fuel never runs out. -/
def State.cutOff : Nat → State → Nat → Nat → Port → State
  | 0, s, _, _, _ => s
  | f + 1, s, n, pl, pt =>
    let gone := fun h : Header => h.port == pt && h.toCome != 0
    let s1 := s.modPlane n pl fun r =>
      { r with inputs := r.inputs.filter fun h => !gone h
               vout := r.vout.filter fun h => !gone h
               gather := r.gather.filter fun h => !(h.port == pt && h.left != 0) }
    [0, 1, 2, 3, 4].foldl (fun s o =>
      match Sparse.find o (s.plane n pl).transit with
      | none => s
      | some t =>
        if t.port = pt ∧ t.toCome ≠ 0 then
          let e := farEnd n o
          let begun := !(unreceived s n pl o).any fun w => w.first && w.pkt == t.pkt
          let k := sentUnread s n pl o
          let s2 := (s.modPlane n pl fun r => { r with transit := Sparse.del o r.transit }).modEnd n pl o
            fun x => x.forget k t.pkt
          let s3 := s2.modEnd e.1 pl e.2 fun x => x.dropWords fun w => w.pkt == t.pkt
          if begun ∧ o < 4 then cutOff f s3 e.1 pl (portOfNum e.2) else s3
        else s) s1

/-- Fuel for State.cutOff: the words of the largest packet. -/
def cutFuel : Nat := 130

/-- What is in transit from output d of router n is discarded: a packet whose header the far router holds by that
router, every other one by the sender, whose credit enters by the plane-transfer path (R177, R189; DESIGN CHOICE,
assumption 101). -/
def State.cutLink (s : State) (n pl d : Nat) : State :=
  let f := farEnd n d
  let pt := portOfNum f.2
  let unsent := ((unreceived s n pl d).filter WordSlot.first).map WordSlot.pkt
  let held := (s.plane f.1 pl).coming pt
  let s1 := ((s.modPlane n pl fun r => { r with transit := Sparse.del d r.transit }).modEnd n pl d
    fun x => { x with again := [] }).modEnd f.1 pl f.2 LinkEnd.idle
  let s2 := unsent.foldl (fun s p => s.routerDrop n pl .x p true none) s1
  match held with
  | some p => (s2.cutOff cutFuel f.1 pl pt).routerDrop f.1 pl pt p true none
  | none => s2

/-- Words sent by output d of router n, or by the die at port x, that are lost with their sender: those to send, those
to send again and, where the receiver awaits a replay, those sent from there on. -/
def lostWords (s : State) (n pl d : Nat) : List WordSlot :=
  let f := farEnd n d
  if ((s.plane f.1 pl).endOf f.2).awaiting.isSome then unreceived s n pl d
  else ((s.plane n pl).endOf d).again ++ (s.plane n pl).unsent d

/-- The words of lostWords that satisfy f are lost, and with them what has come, or is on its way, of their packets; no
replay is awaited any longer (R359; DESIGN CHOICE, assumption 102). -/
def State.loseSent (s : State) (n pl d : Nat) (f : WordSlot → Bool) : State :=
  let e := farEnd n d
  let gone := ((lostWords s n pl d).filter f).map WordSlot.pkt
  if gone = [] then s
  else
    let held := ((s.plane e.1 pl).coming (portOfNum e.2)).any gone.contains
    let mine := fun w : WordSlot => gone.contains w.pkt
    let s1 := (s.modPlane n pl fun r => { r with transit := if (r.unsent d).any f then Sparse.del d r.transit else r.transit }).modEnd
      n pl d fun x => { x with again := x.again.filter fun w => !mine w }
    let s2 := s1.modEnd e.1 pl e.2 fun x => { x.dropWords mine with awaiting := none, fails := 0, nak := none, nakSent := false }
    if held then s2.cutOff cutFuel e.1 pl (portOfNum e.2) else s2

/-- The link on port d of router n is failing: both its routers mark it lost, the lower-numbered one raises LINK_LOST,
and the packets in transit on it are discarded (R177, R189). -/
def State.linkLost (s : State) (n pl d : Nat) : State :=
  match neighbour n d with
  | none => s
  | some m =>
    if lostPort s n pl d then s
    else
      let e := opposite d
      let s1 := ((s.modReg (bRtr n) 0x20 fun w => setBit w (4 * pl + d) true).modReg (bRtr m) 0x20
        fun w => setBit w (4 * pl + e) true).noticePlain (min n m) 0x0206 none
      (s1.cutLink n pl d).cutLink m pl e

/-- A lost link returns: neither of its routers marks it lost any longer (R189). -/
def State.linkBack (s : State) (n pl d : Nat) : State :=
  match neighbour n d with
  | none => s
  | some m =>
    (s.modReg (bRtr n) 0x20 fun w => setBit w (4 * pl + d) false).modReg (bRtr m) 0x20
      fun w => setBit w (4 * pl + opposite d) false

/-- The vertical port of plane pl at node n is failing: it is under repair (R186). -/
def State.vertFailing (s : State) (n pl : Nat) : State :=
  if bit (s.reg (bRtr n) 0x10) (2 + pl) then s
  else s.modReg (bRtr n) 0x10 fun w => setBit w (6 + pl) true

/-- The port of the plane exists at the node: a link to a neighbour, or the vertical port, whose end at the die is
port x. -/
def hasPort (n : Nat) (pt : Port) : Bool :=
  match pt with
  | .v => true
  | .x => true
  | p => (neighbour n (portNum p)).isSome

/-- DATA slot sl, which is on its way to the receiver of port pt or is the next to come, fails its CRC: it and every
later one are discarded until the replay, and one NAK is due; the eighth failure in succession of one word makes the
link failing (R168). What came before it has arrived. -/
def State.crcFailure (s : State) (n pl : Nat) (pt : Port) (sl : BitVec 4) : State :=
  let d := portNum pt
  let x := (s.plane n pl).endOf d
  let f := farEnd n d
  let sent := ((s.plane f.1 pl).endOf f.2).sent
  let words := x.flight
  let i := (sl - BitVec.ofNat 4 (sent - words.length)).toNat
  let word := sent - (words.length - i)
  let fails := if x.failWord = word then x.fails + 1 else 1
  if x.awaiting.isSome || decide (words.length < i) then s
  else
    let s1 := (s.takeWords n pl d (words.take i)).modEnd n pl d fun x =>
      { x with wire := [], awaiting := some sl, failWord := word, fails := if 8 ≤ fails then 0 else fails
               nak := some sl, nakSent := false }
    if fails < 8 then s1
    else if pt = .v ∨ pt = .x then s1.vertFailing n pl
    else s1.linkLost n pl d

/-- LINK_CRC_FAILURE: a slot whose tracks match no kind is a DATA slot with a CRC failure (R166, R168). -/
def execLinkCrcFailure (n pl : Nat) (pt : Port) (sl : SlotSeen) (s : State) : Res :=
  onUnit (isNode n && decide (pl < 4) && hasPort n pt) s fun s =>
    if slotKind sl.word sl.ctl = .failed then s.crcFailure n pl pt sl.number else s

/-- LINK_NAK: the sender on port pt replays from the slot that the NAK names; RETRIES counts one, and the receiver,
which has discarded what came meanwhile, takes the slots again (R166, R168). -/
def execLinkNak (n pl : Nat) (pt : Port) (sl : SlotSeen) (s : State) : Res :=
  onUnit (isNode n && decide (pl < 4) && hasPort n pt) s fun s =>
    match slotKind sl.word sl.ctl with
    | .nak q =>
      let d := portNum pt
      let f := farEnd n d
      if ((s.plane f.1 pl).endOf f.2).nak = some q then
        ((s.countField (bRtr n) (0x50 + 8 * pl) 0 16).modEnd n pl d fun x => x.replay q).modEnd f.1 pl f.2
          fun x => { x with wire := [], awaiting := none, nak := none, nakSent := false }
      else s
    | _ => s

/-- Planes dropped at a node (R186). -/
def droppedPlanes (s : State) (n : Nat) : Nat := popCount (s.getField (bRtr n) 0x10 2 4) 4

/-- A plane's vertical port is dropped at a node: the site is flagged when it is the second (R186,
R188, R412). -/
def State.dropPlane (s : State) (n pl : Nat) : State :=
  let s1 := (s.modReg (bRtr n) 0x10 fun w => setBit (setBit w (2 + pl) true) (6 + pl) false).noticePlain
    n 0x0208 none
  if isComputeSite (siteOf n) && droppedPlanes s1 n == 2 && droppedPlanes s n == 1 then
    (s1.noticeSite (siteOf n) 0x0209).flagRemap (siteOf n) 2
  else s1

/-- BOND_LANE_REPAIRED: the wire test of a vertical port under repair ends (R186). -/
def execBondLaneRepaired (n pl : Nat) (wires : List Nat) (check : Bool) (s : State) : Res :=
  onPlane n pl s fun s =>
    if !bit (s.reg (bRtr n) 0x10) (6 + pl) then s
    else
      let used := fun g => Sparse.getD 0 (s.router n).spares (4 * pl + g)
      let take := fun g => min (wires.getD g 0) (8 - used g)
      let spent := [0, 1, 2, 3].any fun g => decide (8 < used g + wires.getD g 0)
      let next := [0, 1, 2, 3].foldl
        (fun m g => Sparse.set 0 (4 * pl + g) (used g + take g) m) (s.router n).spares
      let s1 := s.modRouter n fun r => { r with spares := next }
      let s2 := if [0, 1, 2, 3].any (fun g => take g != 0) then s1.noticePlain n 0x0207 none else s1
      if check || spent then s2.dropPlane n pl
      else s2.modReg (bRtr n) 0x10 fun w => setBit w (6 + pl) false

/-! ## The fence (R183, R184) -/

/-- VFENCE: a write of RTR_FENCE.VFENCE (R183, R184). -/
def execVfence (n : Nat) (close : Bool) (s : State) : Res :=
  onUnit (isNode n) s fun s => s.setFence n close

/-- VFENCE_EFFECT: a plane and direction of the vertical port reaches a packet boundary; out: toward the
die (R184). -/
def execVfenceEffect (n pl : Nat) (out : Bool) (s : State) : Res :=
  onPlane n pl s fun s =>
    s.fenceEffect n fun q fromDie =>
      q == pl && fromDie != out && !(if out then vertBusy s n pl else vertEntering s n pl)

end Sys2Proof.Machine
end

