-- ==== Sys2Proof/Machine/Clock.lean ====
section
/-! DEFINITION. Oscillators, references, crossings and frequency steps (R355 to R371). -/

namespace Sys2Proof.Machine

/-! ## Oscillators (R357, R359, R376) -/

/-- Offset of CLK_OSCd. -/
def oscOff (d : Nat) : Nat := 0x20 + 8 * d

/-- The words in the routers of a site are lost, and with them the rest of packets that are leaving the site (R359). -/
def loseRouterWords (s : State) (st : Nat) : State :=
  (siteNodes st).foldl (fun s n =>
    let s1 := ([0, 1, 2, 3].filter (crosses n)).foldl (fun s d =>
      [0, 1, 2, 3].foldl (fun s pl => s.loseSent n pl d fun _ => true) s) s
    s1.modRouter n fun r =>
      { r with planes := r.planes.map fun e =>
          (e.1, { e.2 with inputs := [], gather := [], transit := [], half := [], vout := [], served := [], held := []
                           ends := e.2.ends.map fun x => (x.1, { sent := x.2.sent }) }) }) s

/-- The words in the crossings between the routers of a site and its die are lost, with the packets granted the vertical
output for the die and what the die was sending (R359, R363). -/
def loseDieWords (s : State) (st : Nat) : State :=
  (siteNodes st).foldl (fun s n => [0, 1, 2, 3].foldl (fun s pl =>
    ((s.loseSent n pl 4 WordSlot.cross).loseSent n pl 5 WordSlot.cross).modPlane n pl fun r =>
      { r with vout := r.vout.filter fun h => toCore s n h.pkt
               ends := Sparse.put 5 ((r.endOf 5).dropWords WordSlot.cross) r.ends }) s) s

/-- The words in the domain's crossings and pipelines are lost (R359): those of the routers; of the slices; of a
pass port's transmitter and receiver; of a guest bridge's buffers; of a steward, in the lead's case with the control
port's, which runs in its domain (R355). -/
def loseWords (s : State) (st d : Nat) : State :=
  match domainKind st d with
  | 1 => loseRouterWords s st
  | 2 => (siteNodes st).foldl (fun s n => s.modSlice n fun c =>
      { c with queue := [], openSets := [], setData := [], mcSeen := [], respOut := [], ackOut := [], regOut := [] })
      (loseDieWords s st)
  | 3 => match portOfSite st with
    | some k => (loseDieWords s st).modLink k fun l => { l with txWords := [] }
    | none => s
  | 4 => match portOfSite st with
    | some k => s.modLink k fun l => { l with rxWords := [], rxFrames := 0 }
    | none => s
  | 5 => match guestOfSite st with
    | some g => (loseDieWords s st).modGuest g fun x => { x with toGuest := [], mods := [] }
    | none => s
  | 6 =>
    let s1 := loseDieWords s st
    if st = 52 then s1.modLink 8 fun l => { l with txWords := [], rxWords := [], rxFrames := 0 } else s1
  | _ => s

/-- STRETCHES of CLK_OSCd with what a running oscillator has counted since its register was set: each step of the free
counter brings a free number of stretched cycles (R358; assumption 112). -/
def showStretches (s : State) (st d : Nat) : Word :=
  let w := s.reg (bClk st) (oscOff d)
  let since := Sparse.getD 0 (s.site st).stretchAt d
  if domainRuns s st d then
    satAdd w 32 32 (((List.range (s.free - since)).map fun i => Config.stretched (since + i) st d).sum)
  else w

/-- From now on an oscillator counts on what its register holds. -/
def State.countStretches (s : State) (st d : Nat) : State :=
  s.modSite st fun x => { x with stretchAt := Sparse.put d s.free x.stretchAt }

/-- A write of OSC_EN bit d (R359); nothing runs while PANEL_RESET_N is low (R434). -/
def State.oscEn (s : State) (st d : Nat) (on : Bool) : State :=
  if !hasDomain st d || bit (s.reg (bClk st) 0x08) d == on || s.pins.resetHeld then s
  else
    let s1 := s.modReg (bClk st) 0x08 fun w => setBit w d on
    if on then
      (s1.modReg (bClk st) (oscOff d) fun w =>
        setBits (setBit (setBit w 25 true) 24 false) 16 7 (bits w 0 7)).countStretches st d
    else
      let s2 := s1.setReg (bClk st) (oscOff d) (setBit (setBit (showStretches s st d) 25 false) 24 false)
      loseWords (if d = 0 then s2.modSite st fun x => { x with crossed := false } else s2) st d

/-- OSC_EN (R359). -/
def execOscEn (st d : Nat) (on : Bool) (s : State) : Res :=
  onUnit (isSite st && decide (d < 3)) s fun s => s.oscEn st d on

/-- The rail of domain d stands at least at the minimum of R376 for its N_TARGET. -/
def railHolds (s : State) (st d : Nat) : Bool :=
  let n := s.getField (bClk st) (oscOff d) 0 7
  match domainKind st d with
  | 1 =>
    let mv := s.getField bPwr 0x20 48 10
    vnetOn s (fieldOf st) && decide ((if n ≤ 64 then 700 else if n ≤ 80 then 760 else 860) ≤ mv)
  | 2 =>
    let mv := s.getField (bSp st) 0x08 16 10
    powerEn s st && (s.site st).railOk && decide ((if n ≤ 48 then 550 else 650) ≤ mv)
  | 0 => false
  | _ => !s.pins.resetHeld

/-- CLK_REF_STAT.ACTIVE. -/
def activeRef (s : State) (st : Nat) : Nat := s.getField (bClk st) 0x10 0 2

/-- LOCKED. -/
def locked (s : State) (st d : Nat) : Bool := bit (s.reg (bClk st) (oscOff d)) 24

/-- The lost links of a site, those to other sites or those within it, return, but for the crossings listed
(R189; DEDUCED, assumption 94). -/
def State.linksBack (s : State) (st : Nat) (cross : Bool) (fails : List (Nat × Nat × Port)) : State :=
  (siteNodes st).foldl (fun s n =>
    if s.reg (bRtr n) 0x20 = 0 then s
    else (List.range 16).foldl (fun s i =>
      let pl := i / 4
      let d := i % 4
      if bit (s.reg (bRtr n) 0x20) i && (neighbour n d).any (fun m => (siteOf m != st) == cross) &&
          !fails.contains (localOf n, pl, portOfNum d) then s.linkBack n pl d else s) s) s

/-- An enabled oscillator whose rail is high enough locks to the active reference (R357, R362, R374, R376). A router
oscillator that locks after a restart brings back the lost links within its site (R189). -/
def State.oscLock (s : State) (st d : Nat) : State :=
  if domainRuns s st d && railHolds s st d && activeRef s st != 2 then
    let s1 := s.setField (bClk st) (oscOff d) 24 1 1
    if d = 0 ∧ !(s.site st).crossed then s1.linksBack st false [] else s1
  else s

/-! ## References (R360 to R362) -/

/-- The site moves to reference a (0 A, 1 B) with notice REF_FAILOVER; the move counts where counted
holds (R361, R362). -/
def State.moveRef (s : State) (st a : Nat) (counted : Bool) : State :=
  let s1 := s.setField (bClk st) 0x10 0 2 a
  (if counted then s1.countField (bClk st) 0x10 16 16 else s1).noticeSite st 0x0801

/-- A frequency step is under way: it has been armed and has not ended (R369, R371). -/
def stepUnderWay (s : State) : Bool :=
  s.sites.any fun e => e.2.stepPhase != .none

/-- A write of REF_SWITCH (R361). -/
def State.refSwitch (s : State) (st : Nat) : State :=
  let a := activeRef s st
  if a < 2 ∧ bit (s.reg (bClk st) 0x10) (2 + (1 - a)) ∧ !stepUnderWay s then s.moveRef st (1 - a) true
  else s

/-- REF_SWITCH (R361). -/
def execRefSwitch (st : Nat) (s : State) : Res := onSite st s fun s => s.refSwitch st

/-- DEGRADED and FAIL_SITE of a step that the site degrades (R370, R371). -/
def State.degrade (s : State) (st : Nat) : State :=
  (s.setField (bClk 52) 0x88 8 1 1).setField (bClk 52) 0x88 16 8 st

/-- Both references are lost: every oscillator of the site holds its trim (R362, R370). -/
def State.holdover (s : State) (st : Nat) : State :=
  let s1 := s.setField (bClk st) 0x10 0 2 2
  let s2 := [0, 1, 2].foldl (fun s d => s.setField (bClk st) (oscOff d) 24 1 0) s1
  let s3 := s2.noticeSite st 0x0802
  if (s.site st).stepPhase = .none then s3 else s3.degrade st

/-- REFERENCE_LOSS: reference b (false A, true B) is lost at a site (R360 to R362). -/
def execReferenceLoss (st : Nat) (b : Bool) (s : State) : Res :=
  onSite st s fun s =>
    let r := b.toNat
    if !bit (s.reg (bClk st) 0x10) (2 + r) then s
    else
      let s1 := s.setField (bClk st) 0x10 (2 + r) 1 0
      if activeRef s st ≠ r then s1
      else if bit (s.reg (bClk st) 0x10) (2 + (1 - r)) then s1.moveRef st (1 - r) true
      else s1.holdover st

/-- REF_GOOD: a lost reference is good again; a site in holdover locks to it (R360, R362). -/
def execRefGood (st : Nat) (b : Bool) (s : State) : Res :=
  onSite st s fun s =>
    let r := b.toNat
    let s1 := s.setField (bClk st) 0x10 (2 + r) 1 1
    if activeRef s st = 2 then s1.moveRef st r false else s1

/-! ## Crossings (R363 to R366) -/

/-- CLK_XING_STAT.MAX_EXTRA follows the extra latencies held (R365). -/
def State.noteExtra (s : State) (st : Nat) : State :=
  s.setField (bClk st) 0x40 48 2 ((s.site st).extra.foldl (fun m e => max m e.2) 0)

/-- N_MIN and N_MAX follow the calibrated latencies. -/
def State.noteCal (s : State) (st : Nat) : State :=
  let ns := (xingKeys st).map (crossingN (s.site st))
  s.modReg (bClk st) 0x50 fun w => setBits (setBits w 0 3 (ns.foldl min 5)) 3 3 (ns.foldl max 3)

/-- The link of a crossing that cannot be centred is a failing link (R168, R364). -/
def State.failXing (s : State) (st : Nat) (f : Nat × Nat × Port) : State :=
  let n := nodeOf st f.1
  if isXing st f.1 f.2.1 (portNum f.2.2) then
    if portNum f.2.2 < 4 then s.linkLost n f.2.1 (portNum f.2.2) else s.vertFailing n f.2.1
  else s

/-- A site at which a crossing sets CAL_FAIL during a step degrades it (R371). -/
def State.stepCalFail (s : State) (st : Nat) (failed : Bool) : State :=
  if failed && stepUnderWay s then s.degrade st else s

/-- Every crossing of the site is centred at a newly measured N_x; fails: those that cannot be (R364). -/
def State.calibrate (s : State) (st : Nat) (fails : List (Nat × Nat × Port)) : State :=
  let bad := fails.filter fun f => isXing st f.1 f.2.1 (portNum f.2.2)
  let s1 := (s.modSite st fun x =>
    { x with calAt := some s.free, recalAt := [], crossed := true, extra := [], early := [], calBusy := false }).tick
  let s2 := (s1.modReg (bClk st) 0x40 fun w =>
    setBits (setBit (setBit w 2 true) 3 (!bad.isEmpty)) 48 2 0).noteCal st
  (bad.foldl (fun s f => s.failXing st f) s2).stepCalFail st (!bad.isEmpty)

/-- CAL: calibration starts (R364). -/
def State.cal (s : State) (st : Nat) : State := s.modSite st fun x => { x with calBusy := true }

/-- CAL (R364). -/
def execCal (st : Nat) (s : State) : Res := onSite st s fun s => s.cal st

/-- Every oscillator of a site whose rail is on is LOCKED. -/
def siteLocked (s : State) (st : Nat) : Bool :=
  [0, 1, 2].all fun d => !hasDomain st d || locked s st d || (domainKind st d == 2 && !powerEn s st)

/-- The sites beside a site (R14). -/
def sitesBeside (st : Nat) : List Nat :=
  (if 16 ≤ st then [st - 16] else []) ++ (if st % 16 < 15 then [st + 1] else []) ++
    (if st < 176 then [st + 16] else []) ++ (if 0 < st % 16 then [st - 1] else [])

/-- Every oscillator on both sides of the site's crossings is LOCKED (R364); a neighbour that does not run yet, as at
step 2 of bring-up, has none to be (R404; DEDUCED, assumption 95). -/
def calReady (s : State) (st : Nat) : Bool :=
  siteLocked s st && (sitesBeside st).all fun t => !domainRuns s t 0 || locked s t 0

/-- The calibration that CAL started ends, with the arrival offset measured (R364); the lost links over the crossings
that it centres return (R189). It goes on until the oscillators are locked. -/
def State.calEnd (s : State) (st : Nat) (fails : List (Nat × Nat × Port)) (offset : Nat) : State :=
  if (s.site st).calBusy && calReady s st then
    ((s.linksBack st true fails).calibrate st fails).setField (bClk st) 0x50 8 8 offset
  else s

/-- The crossing of a reopened port is calibrated anew; one that cannot be centred fails as any other (R364, R423). -/
def State.recalPort (s : State) (st loc pl d : Nat) (failed : Bool) : State :=
  let key := xingKey loc pl d
  if !isXing st loc pl d then s
  else
    let s1 := (((s.modSite st fun x =>
      { x with recalAt := Sparse.put key s.free x.recalAt, extra := Sparse.del key x.extra
               early := Sparse.del key x.early }).tick).noteExtra st).noteCal st
    if failed then ((s1.setField (bClk st) 0x40 3 1 1).failXing st (loc, pl, portOfNum d)).stepCalFail st true else s1

/-- A write of RECAL (R366). -/
def State.recal (s : State) (st : Nat) : State := s.setField (bClk st) 0x40 1 1 1

/-- RECAL (R366). -/
def execRecal (st : Nat) (s : State) : Res := onSite st s fun s => s.recal st

/-- RECAL_DONE: every crossing of the site is back at N_x (R366). -/
def execRecalDone (st : Nat) (s : State) : Res :=
  onSite st s fun s =>
    if bit (s.reg (bClk st) 0x40) 1 then
      ((s.modSite st fun x => { x with extra := [], early := [] }).setField (bClk st) 0x40 1 1 0).noteExtra st
    else s

/-- The latency of a crossing rises by one. -/
def Site.later (x : Site) (key : Nat) : Site :=
  let e := Sparse.getD 0 x.early key
  if 0 < e then { x with early := Sparse.set 0 key (e - 1) x.early }
  else { x with extra := Sparse.set 0 key (Sparse.getD 0 x.extra key + 1) x.extra }

/-- The latency of a crossing falls by one, below N_x where it holds no extra cycle. -/
def Site.sooner (x : Site) (key : Nat) : Site :=
  let e := Sparse.getD 0 x.extra key
  if 0 < e then { x with extra := Sparse.set 0 key (e - 1) x.extra }
  else { x with early := Sparse.set 0 key (Sparse.getD 0 x.early key + 1) x.early }

/-- A slip: the latency of the crossing rises by one (R365). -/
def State.slip (s : State) (st loc pl port : Nat) : State :=
  let w := s.reg (bClk st) 0x40
  let s1 := (s.modSite st fun x => x.later (xingKey loc pl port)).noteExtra st
  let s2 := (s1.setField (bClk st) 0x40 0 1 1).countField (bClk st) 0x40 16 16
  let s3 := if bit w 0 then s2 else
    s2.setReg (bClk st) 0x48 (field 0 6 loc ||| field 6 2 pl ||| field 8 3 port ||| field 11 1 1)
  if bits w 16 16 = 0 then s3.noticeSite st 0x0803 else s3

/-- The oldest word in a crossing, whose receiver is port `port` of the node or, for port 5, the die above it, has a CRC
failure there and is retried (R168, R365); a crossing that holds none loses none. -/
def State.xingWord (s : State) (st loc pl port : Nat) : State :=
  let n := nodeOf st loc
  let f := farEnd n port
  let words := ((s.plane n pl).endOf port).flight
  if words = [] then s
  else s.crcFailure n pl (portOfNum port) (BitVec.ofNat 4 (((s.plane f.1 pl).endOf f.2).sent - words.length))

/-- XING_SLIP: a write pointer leaves its slack. A lag delays what the crossing holds, a lead drops an idle cycle; a
slip beyond N_x + 3, and a lead that fills all 8 entries, is a CRC failure of the word concerned (R168, R365). -/
def execXingSlip (st loc pl port : Nat) (lead : Slip) (s : State) : Res :=
  onUnit (isSite st && isXing st loc pl port) s fun s =>
    match lead with
    | .lag =>
      if Sparse.getD 0 (s.site st).extra (xingKey loc pl port) < 3 then
        (s.slip st loc pl port).modEnd (nodeOf st loc) pl port LinkEnd.wait
      else s.xingWord st loc pl port
    | .ahead =>
      (((s.modSite st fun x => x.sooner (xingKey loc pl port)).countField (bClk st) 0x40 32 16).noteExtra st).modEnd
        (nodeOf st loc) pl port fun x => { x with wire := closeGap 0 x.wire }
    | .full => s.xingWord st loc pl port

/-! ## Frequency steps (R368 to R371) -/

/-- Sites that satisfy f, the lowest first. -/
def firstSite (f : Nat → Bool) : Option Nat := (List.range 192).find? f

/-- A running oscillator of the site is not LOCKED (R369). -/
def siteUnlocked (s : State) (st : Nat) : Bool :=
  [0, 1, 2].any fun d => domainRuns s st d && !bit (s.reg (bClk st) (oscOff d)) 24

/-- The reason for which R369 refuses a step, with the lowest site concerned. -/
def stepRefusal (s : State) : Option (Nat × Nat) :=
  if stepUnderWay s then some (1, 0)
  else if s.getField (bClk 52) 0x80 16 16 < 64 then some (2, 0)
  else match firstSite fun st => activeRef s st == 2 with
  | some st => some (3, st)
  | none => match firstSite (siteUnlocked s) with
  | some st => some (4, st)
  | none => match firstSite fun st => bits (s.reg (bClk st) 0x00) 16 16 != 0 with
  | some st => some (5, st)
  | none => match firstSite fun st => !bit (s.reg (bClk st) 0x40) 2 with
  | some st => some (6, st)
  | none => none

/-- A write of CLK_FS_CTL.ARM (R369). -/
def State.arm (s : State) : State :=
  match stepRefusal s with
  | some (r, st) =>
    (s.modReg (bClk 52) 0x88 fun w =>
      setBits (setBits (setBits w 0 3 4) 4 4 r) 16 8 st).noticeLead 0x0804
  | none =>
    let s1 := s.modReg (bClk 52) 0x88 fun w =>
      setBits (setBits (setBits (setBits w 0 3 1) 4 4 0) 8 1 0) 16 8 0
    (List.range 192).foldl (fun s st => s.modSite st fun x => { x with stepPhase := .armed }) s1

/-- ARM (R369). -/
def execArm (s : State) : Res := .next s.arm

/-- A site goes on from one phase of a step to the next. -/
def stepFrom (st : Nat) (a b : StepPhase) (s : State) (f : State → State) : Res :=
  onSite st s fun s =>
    if (s.site st).stepPhase = a then f (s.modSite st fun x => { x with stepPhase := b }) else s

/-- FSTEP_ARRIVE (R370). -/
def execFstepArrive (st : Nat) (s : State) : Res := stepFrom st .armed .counting s id

/-- The domains of a site take their targets and start locking (R357, R368, R370). -/
def State.switchDomains (s : State) (st : Nat) : State :=
  [0, 1, 2].foldl (fun s d =>
    if hasDomain st d then
      s.modReg (bClk st) (oscOff d) fun w => setBit (setBits w 16 7 (bits w 0 7)) 24 false
    else s) s

/-- FSTEP_SWITCH: the switch edge C (R368, R370). -/
def execFstepSwitch (st : Nat) (s : State) : Res :=
  stepFrom st .quiet .switched s fun s => s.switchDomains st

/-- FSTEP_RECAL: C + 2,000 (R370, R371). -/
def execFstepRecal (st : Nat) (fails : List (Nat × Nat × Port)) (s : State) : Res :=
  stepFrom st .switched .recalibrated s fun s => s.calibrate st fails

/-- FSTEP_DONE: every site has ended its sequence (R371). -/
def execFstepDone (s : State) : Res :=
  .next (
    if (List.range 192).all fun st => (s.site st).stepPhase == .ended then
      let s1 := (List.range 192).foldl
        (fun s st => s.modSite st fun x => { x with stepPhase := .none }) s
      (s1.modReg (bClk 52) 0x88 fun w => wrapInc (setBits (setBits w 0 3 3) 4 4 0) 32 16).noticeLead 0x0805
    else s)

end Sys2Proof.Machine
end

