-- ==== Sys2Proof/Machine/Link.lean ====
section
/-! DEFINITION. The link layer of the pass ports and the control port: frames, retry and credits (R298 to
R302, R314, R323, R324). -/

namespace Sys2Proof.Machine

/-! ## Frames (R298, R299) -/

/-- FTYPE. -/
def fType (f : Frame) : Nat := bits f.q0 0 4
/-- FSEQ. -/
def fSeq (f : Frame) : Nat := bits f.q0 4 12
/-- ACK. -/
def fAck (f : Frame) : Nat := bits f.q0 16 12
/-- START of word slot i. -/
def fStart (f : Frame) (i : Nat) : Bool := bit f.q0 (28 + i)
/-- VALID of word or cell slot i. -/
def fValid (f : Frame) (i : Nat) : Bool := bit f.q0 (32 + i)

/-- Bytes 0 to 287 of a frame. -/
def frameBytes (f : Frame) : List Byte :=
  quadBytes f.q0 ++ leBytes f.credits.toNat 8 ++ List.replicate 16 0 ++ padTo 256 f.data

/-- The CRC of a frame holds (R299). -/
def frameOk (f : Frame) : Bool := crcFrame (frameBytes f) == f.crc

/-- A frame with its CRC (R299). -/
def sealFrame (f : Frame) : Frame := { f with crc := crcFrame (frameBytes f) }

/-- Word slot i of a DATA frame. -/
def frameWord (f : Frame) (i : Nat) : List Byte := ((padTo 256 f.data).drop (64 * i)).take 64

/-- Cell slot i of a CELLS frame. -/
def frameCell (f : Frame) (i : Nat) : List Byte := ((padTo 256 f.data).drop (32 * i)).take 32

/-! ## Acknowledgement and replay (R301) -/

/-- The frames left in a retry buffer after number a has been acknowledged. -/
def ackRetry (l : List Frame) (a : Nat) : List Frame :=
  match l.findIdx? (fun f => fSeq f == a) with
  | some i => l.drop (i + 1)
  | none => l

/-- ACK and CREDITS of a good frame (R301, R302): the NAKs of an acknowledged frame no longer count. -/
def Link.takeAck (l : Link) (f : Frame) : Link :=
  let r := ackRetry l.retry (fAck f)
  { l with retry := r, resend := ackRetry l.resend (fAck f), farCredits := f.credits
           naks := if r.any fun g => fSeq g == l.nakSeq then l.naks else 0 }

/-- Send again from frame number q (R301). -/
def Link.replayFrom (l : Link) (q : Nat) : Link :=
  { l with resend := l.retry.drop ((l.retry.findIdx? (fun f => fSeq f == q)).getD l.retry.length) }

/-- Send again from the oldest frame that is not acknowledged (R301, R332). -/
def Link.replayAll (l : Link) : Link := { l with resend := l.retry }

/-- A frame f fails its CRC: the awaited frame and the numbered frames after it are discarded until it arrives
again, and one NAK names it (R301). While frames are discarded, a bad frame that bears another number is one of
those that follow (assumption 26). -/
def Link.crcBad (l : Link) (f : Frame) : Link :=
  if l.rxDiscard && fSeq f != l.rxSeq then l
  else { l with rxDiscard := true, fails := l.fails + 1, nakOut := some l.rxSeq }

/-- The frame is the next numbered one in order (R301). -/
def Link.inOrder (l : Link) (f : Frame) : Bool := fSeq f == l.rxSeq

/-- The next frame in order has been accepted. -/
def Link.accepted (l : Link) : Link :=
  { l with rxSeq := (l.rxSeq + 1) % 4096, rxDiscard := false, fails := 0, rxFrames := l.rxFrames + 1 }

/-! ## Words of packets (R300) -/

/-- The packet whose words have been received, once they are all there. -/
def packetOf (ws : List (List Byte)) : Option Packet :=
  let b := ws.flatten
  let p : Packet := ⟨quadAt b 0, quadAt b 8, quadAt b 16, quadAt b 24, []⟩
  if linkSlots p ≤ ws.length then some { p with data := if pKind p = kReadReq then [] else (b.drop 32).take (pLen p) }
  else none

/-- One received word (R300): the packet it completes joins the ingress buffer. -/
def Link.takeWord (l : Link) (w : List Byte) (start : Bool) : Link :=
  if start ∨ l.rxWords ≠ [] then
    let ws := if start then [w] else l.rxWords ++ [w]
    match packetOf ws with
    | some p => { l with rxWords := [], rxFrames := 0, ingress := l.ingress ++ [⟨p, l.rxFrames, false, false⟩] }
    | none => { l with rxWords := ws }
  else l

/-- The words of a DATA frame. -/
def Link.takeWords (l : Link) (f : Frame) : Link :=
  [0, 1, 2, 3].foldl (fun l i => if fValid f i then l.takeWord (frameWord f i) (fStart f i) else l) l

/-! ## Sending (R300 to R302, R314, R323) -/

/-- The source fields of a packet that leaves the panel (R314). -/
def leaving (panel : Nat) (p : Packet) : Packet :=
  if pSrcLocal p then { p with h2 := setBits (setBit p.h2 59 false) 46 13 panel } else p

/-- The next packet of the egress queue: class 1 first (R300). -/
def nextEgress (l : List Offer) : Option (Offer × List Offer) :=
  match takeFirst (fun o : Offer => pClass o.pkt == 1) l with
  | some r => some r
  | none => takeFirst (fun _ => true) l

/-- The next word to send, and whether it begins a packet; f is what sending does to a packet's header. -/
def Link.nextWord (l : Link) (f : Packet → Packet) : Option (List Byte × Bool × Link) :=
  match l.txWords with
  | w :: ws => some (w, false, { l with txWords := ws })
  | [] =>
    match nextEgress l.egress with
    | none => none
    | some (o, rest) =>
      match linkWords (f o.pkt) with
      | [] => none
      | w :: ws => some (w, true, { l with egress := rest, txWords := ws })

/-- Up to four word slots: each word with its START bit. -/
def Link.fillWords (l : Link) (f : Packet → Packet) : Nat → List (List Byte × Bool) × Link
  | 0 => ([], l)
  | n + 1 =>
    match l.nextWord f with
    | none => ([], l)
    | some (w, b, l1) =>
      let r := l1.fillWords f n
      ((w, b) :: r.1, r.2)

/-- Up to eight cells of the egress queue (R323). -/
def Link.fillCells (l : Link) : Nat → List (List Byte) × Link
  | 0 => ([], l)
  | n + 1 =>
    match nextEgress l.egress with
    | none => ([], l)
    | some (o, rest) =>
      let r := { l with egress := rest }.fillCells n
      (padTo 32 (pBytes o.pkt) :: r.1, r.2)

/-- A new numbered frame may be sent: fewer than 2,048 are outstanding, and the far buffer of cap frames
has room (R301, R302). -/
def Link.mayNumber (l : Link) (cap : Nat) : Bool :=
  let room := (l.farCredits.toNat + cap + 2 ^ 32 - l.sentTotal % 2 ^ 32) % 2 ^ 32
  decide (l.retry.length < 2048) && decide (1 ≤ room) && decide (room ≤ cap)

/-- ACK as a frame carries it: the number of the last frame received in order. -/
def Link.ackNow (l : Link) : Nat := (l.rxSeq + 4095) % 4096

/-- A frame with the ACK, CREDITS and CRC of the moment it is sent. -/
def Link.stamp (l : Link) (f : Frame) : Frame :=
  sealFrame { f with q0 := setBits f.q0 16 12 l.ackNow, credits := l.freed }

/-- Record the frame handed to the fibre. -/
def Link.out (l : Link) (f : Frame) : Link := { l with lastOut := some f }

/-- Record a new numbered frame. -/
def Link.outNew (l : Link) (f : Frame) : Link :=
  { l with lastOut := some f, retry := l.retry ++ [f], txSeq := (l.txSeq + 1) % 4096,
           sentTotal := (l.sentTotal + 1) % 2 ^ 32 }

/-- The new numbered frame that the queue has words for. -/
def Link.newFrame (l : Link) (f : Packet → Packet) : Option (Frame × Link) :=
  if l.q1 then
    match l.fillCells 8 with
    | ([], _) => none
    | (cs, l1) =>
      some (⟨field 0 4 4 ||| field 4 12 l.txSeq ||| field 32 8 (2 ^ cs.length - 1), 0, cs.flatten, 0⟩, l1)
  else
    match l.fillWords f 4 with
    | ([], _) => none
    | (ws, l1) =>
      let starts := (ws.mapIdx fun i w => w.2.toNat <<< i).sum
      some (⟨field 0 4 1 ||| field 4 12 l.txSeq ||| field 28 4 starts ||| field 32 4 (2 ^ ws.length - 1), 0,
        (ws.map Prod.fst).flatten, 0⟩, l1)

/-- The next frame of a sender: a NAK that is due, a frame to send again, a new numbered frame, or IDLE;
and whether it is sent again (R301, R302). -/
def Link.sendNext (l : Link) (f : Packet → Packet) (cap : Nat) : Link × Bool :=
  match l.nakOut with
  | some q =>
    ({ l with nakOut := none }.out (l.stamp ⟨field 0 4 3 ||| field 4 12 q, 0, [], 0⟩), false)
  | none =>
    match l.resend with
    | g :: rest => ({ l with resend := rest }.out (l.stamp g), true)
    | [] =>
      match (if l.mayNumber cap then l.newFrame f else none) with
      | some (g, l1) => (l1.outNew (l.stamp g), false)
      | none => (l.out (l.stamp ⟨field 0 4 2, 0, [], 0⟩), false)

/-! ## Starting and resuming (R302, R304) -/

/-- Both ends start at frame 0 (R304). What waits in the ingress buffer no longer counts as frames. -/
def Link.fresh (l : Link) : Link :=
  { l with txWords := [], txSeq := 0, sentTotal := 0, retry := [], resend := [], nakSeq := 0, naks := 0,
           rxSeq := 0, rxDiscard := false, fails := 0, nakOut := none, rxWords := [], rxFrames := 0, freed := 0,
           farCredits := 0, txFailing := false, ingress := l.ingress.map fun p => { p with frames := 0 },
           toInject := l.toInject.map fun p => { p with frames := 0 } }

/-- Sending resumes at the far end's next expected frame (R304). -/
def Link.resumeAt (l : Link) (next : Nat) : Link :=
  let r := ackRetry l.retry ((next + 4095) % 4096)
  { l with retry := r, resend := r, rxDiscard := false, fails := 0, naks := 0, nakOut := none, txFailing := false }

/-- Frames of the ingress buffer are freed (R302). -/
def Link.free (l : Link) (n : Nat) : Link := { l with freed := l.freed + BitVec.ofNat 32 n }

/-- Packets of the retry buffer that are not wholly acknowledged: those that start there, the one whose
later words alone are there, and one of which only acknowledged words have been sent (R310). -/
def Link.uncertain (l : Link) : Nat :=
  let starts := fun (f : Frame) =>
    if fType f = 4 then popCount (bits f.q0 32 8) 8 else popCount (bits f.q0 28 4) 4
  let total := (l.retry.map starts).sum
  match l.retry with
  | f :: _ => total + (if fType f = 1 ∧ !fStart f 0 then 1 else 0)
  | [] => if l.txWords = [] then 0 else 1

end Sys2Proof.Machine
end

