-- ==== Sys2Proof/Machine/Ring.lean ====
section
/-! DEFINITION. The replay rings of pass ports and guest bridges (R325 to R328, R352). A ring's owner u is
a pass port 0 to 7, or 8 + g for guest index g. -/

namespace Sys2Proof.Machine

/-- The node of the owner's die with local index 0. -/
def ringNode (u : Nat) : Nat := if u < 8 then nodeOf (linkSite u) 0 else nodeOf (guestSite (u - 8)) 0

/-- The block that holds a ring's registers. -/
def ringBlk (u : Nat) : Blk := if u < 8 then bPass u else bFord (u - 8)

/-- The offset of a ring's first register in its block (R329, R353). -/
def ringOff (u : Nat) : Nat := if u < 8 then 0x80 else 0x200

/-- The held value of ring register i: 0 CFG, 1 AREA, 2 STAT0, 3 STAT1, 4 REPLAY0, 5 REPLAY1. -/
def ringReg (s : State) (u i : Nat) : Word := s.reg (ringBlk u) (ringOff u + 8 * i)

/-- Set a field of ring register i. -/
def State.setRing (s : State) (u i lo len v : Nat) : State :=
  s.setField (ringBlk u) (ringOff u + 8 * i) lo len v

/-- What a ring holds beside its registers. -/
def State.ring (s : State) (u : Nat) : Ring := if u < 8 then (s.link u).ring else (s.guest (u - 8)).ring

/-- Change it. -/
def State.modRing (s : State) (u : Nat) (f : Ring → Ring) : State :=
  if u < 8 then s.modLink u fun l => { l with ring := f l.ring }
  else s.modGuest (u - 8) fun g => { g with ring := f g.ring }

/-- A packet that the owner's die will inject: own where the die originates it (R302, R314). -/
def State.dieSend (s : State) (u : Nat) (p : Packet) (own : Bool) : State :=
  if u < 8 then s.modLink u fun l => { l with toInject := l.toInject ++ [⟨p, 0, own, false⟩] }
  else s.offer (ringNode u) p none

/-- A notice of the owner: a link die, or the guest bridge in the Plain (R447). -/
def State.ringNotice (s : State) (u code : Nat) : State :=
  if u < 8 then s.noticeDie (ringNode u) code none else s.noticePlain (ringNode u) code none

/-- N, the slices of a ring. -/
def ringN (s : State) (u : Nat) : Nat := bits (ringReg s u 0) 1 7
/-- S, the slots in each slice. -/
def ringS (s : State) (u : Nat) : Nat := bits (ringReg s u 1) 32 16
/-- C, the records a ring holds. -/
def ringC (s : State) (u : Nat) : Nat := ringN s u * ringS s u

/-- The address of byte b of record q (R326). -/
def ringAddr (s : State) (u q b : Nat) : Word :=
  let n := ringN s u
  mkAddr 0 true 0 (bits (ringReg s u 0) 16 14 + q % n)
    (bits (ringReg s u 1) 0 17 * 4096 + q / n % ringS s u * 8320 + b)

/-- The bytes of a record (R325). -/
def ringRecord (p : Packet) (q source : Nat) : List Byte :=
  headerBytes { p with h0 := setBits p.h0 40 8 0 } ++ leBytes q 8 ++ leBytes source 8 ++
    List.replicate 16 0 ++ padTo (roundUp (pLen p) 64) (pBytes p)

/-- The H3 of the die's n-th ring request: no two outstanding ones share it (R338). -/
def ringKey (n : Nat) : Word := field 32 32 n ||| field 16 16 0xFFFE

/-- A WRITE of a part of a record, with ACK_REQ = 1 (R326). -/
def ringWrite (a : Word) (key : Word) (d : List Byte) : Packet :=
  { h0 := mkH0 kWrite 0 0 d.length 0, h1 := a, h2 := field 17 1 1, h3 := key, data := d }

/-- DURABLE: the records below the first that is outstanding or lost (R326). -/
def durable (s : State) (u : Nat) : Nat :=
  let r := s.ring u
  ((r.pend.map Prod.snd) ++ r.lost).foldl min (bits (ringReg s u 2) 0 48)

/-- Show DURABLE in its register. -/
def State.noteDurable (s : State) (u : Nat) : State := s.setRing u 3 0 48 (durable s u)

/-- The packet qualifies for the ring (R325). -/
def ringTakes (s : State) (u : Nat) (p : Packet) : Bool :=
  let c := ringReg s u 0
  let k := pKind p
  bit c 0 && (aLocal p.h1 || (idValid s && aPanel p.h1 == panelId s)) &&
    (k == kWrite || k == kMsg || k == kCell) && decide (bits c 32 16 ≤ pStream p) &&
    decide (pStream p ≤ bits c 48 16)

/-- Record a packet: its WRITEs go before it (R325, R326). -/
def State.record (s : State) (u : Nat) (p : Packet) : State :=
  if !ringTakes s u p then s
  else
    let q := bits (ringReg s u 2) 0 48
    let b := ringRecord p q u
    let k := (s.ring u).nextKey
    let k0 := ringKey k
    let s1 := s.dieSend u (ringWrite (ringAddr s u q 0) k0 (b.take (if b.length ≤ 8256 then 8256 else 8192))) true
    let s2 :=
      if b.length ≤ 8256 then
        s1.modRing u fun r => { r with nextKey := k + 1, pend := r.pend ++ [(k0, q)] }
      else
        let k1 := ringKey (k + 1)
        (s1.dieSend u (ringWrite (ringAddr s u q 8192) k1 (b.drop 8192)) true).modRing u fun r =>
          { r with nextKey := k + 2, pend := r.pend ++ [(k0, q), (k1, q)] }
    (s2.setRing u 2 0 48 (q + 1)).noteDurable u

/-- The ring is configured anew: NEXT_SEQ, DURABLE and LOST are 0 (R327). -/
def State.resetRing (s : State) (u : Nat) : State :=
  ((s.setRing u 2 0 64 0).setRing u 3 0 48 0).modRing u fun r => { r with pend := [], lost := [] }

/-- A ring WRITE is outstanding under an H3. -/
def ringOwes (s : State) (u : Nat) (key : Word) : Bool := (s.ring u).pend.any fun e => e.1 == key

/-- An ACK of a ring WRITE (R326). -/
def State.ringAck (s : State) (u : Nat) (key : Word) : State :=
  (s.modRing u fun r => { r with pend := r.pend.filter fun e => e.1 != key }).noteDurable u

/-- A FENCE_CREDIT for a ring WRITE: the record is lost, and counts once (R326). -/
def State.ringLoss (s : State) (u : Nat) (key : Word) : State :=
  match (s.ring u).pend.find? (fun e => e.1 == key) with
  | none => s
  | some e =>
    let s1 := s.modRing u fun r =>
      { r with pend := r.pend.filter fun x => x.1 != key
               lost := if r.lost.contains e.2 then r.lost else e.2 :: r.lost }
    let s2 :=
      if (s.ring u).lost.contains e.2 then s1
      else (s1.countField (ringBlk u) (ringOff u + 16) 48 16).ringNotice u
        (if u < 8 then 0x060D else 0x0715)
    s2.noteDurable u

/-! ## Replay (R328) -/

/-- RSTATUS. -/
def State.setRstatus (s : State) (u v : Nat) : State := s.setRing u 5 25 3 v

/-- Read n bytes from byte b of record q with one READ_REQ of the die. -/
def State.ringRead (s : State) (u q b n : Nat) (left : Nat) (got : List Byte) : State :=
  let k := (s.ring u).nextKey
  let p : Packet := { h0 := mkH0 kReadReq 0 0 n 0, h1 := ringAddr s u q b, h2 := 0, h3 := ringKey k, data := [] }
  (s.dieSend u p true).modRing u fun r =>
    { r with nextKey := k + 1, replay := some ⟨q, left, ringKey k, got⟩ }

/-- Take the next record of a replay, or end it as DONE. -/
def State.replayNext (s : State) (u q left : Nat) : State :=
  if left = 0 then (s.modRing u fun r => { r with replay := none }).setRstatus u 2
  else s.ringRead u q 0 8192 left []

/-- A write of GO (R328). -/
def State.ringReplay (s : State) (u : Nat) : State :=
  let from_ := bits (ringReg s u 4) 0 48
  let count := bits (ringReg s u 5) 0 16
  if (s.ring u).replay.isSome ∨ bits (ringReg s u 3) 0 48 < from_ + count ∨
      from_ + ringC s u < bits (ringReg s u 2) 0 48 then s.setRstatus u 3
  else ((s.setRing u 5 32 16 0).setRstatus u 1).replayNext u from_ count

/-- RING_REPLAY (R328, R352). -/
def execRingReplay (u : Nat) (s : State) : Res := onUnit (decide (u < 12)) s fun s => s.ringReplay u

/-- A replay ends at a record that fails its check (R328). -/
def State.ringStale (s : State) (u : Nat) : State :=
  ((s.modRing u fun r => { r with replay := none }).setRstatus u 4).ringNotice u
    (if u < 8 then 0x060E else 0x0716)

/-- The packet that a record holds, with the generation of the replay (R328). -/
def replayPacket (ctl : Word) (b : List Byte) : Packet :=
  let h0 := quadAt b 0
  let p : Packet := ⟨h0, quadAt b 8, quadAt b 16, quadAt b 24, []⟩
  { p with h0 := if bit ctl 20 then setBits h0 48 4 (bits ctl 16 4) else h0
           data := (b.drop 64).take (pLen p) }

/-- Bytes of a record have been read. With the whole record the check of R328 decides. -/
def State.ringData (s : State) (u : Nat) (d : List Byte) : State :=
  match (s.ring u).replay with
  | none => s
  | some r =>
    let b := r.got ++ d
    let need := 64 + roundUp (bits (quadAt b 0) 26 14) 64
    if leNat ((b.drop 32).take 8) ≠ r.seq then s.ringStale u
    else if b.length < need ∧ b.length < 8320 then s.ringRead u r.seq b.length (8320 - b.length) r.left b
    else
      let s1 := s.dieSend u (replayPacket (ringReg s u 5) b) false
      (s1.setRing u 5 32 16 (bits (ringReg s u 5) 32 16 + 1)).replayNext u (r.seq + 1) (r.left - 1)

end Sys2Proof.Machine
end

