-- ==== Sys2Proof/Machine/Pass.lean ====
section
/-! DEFINITION. Pass ports and the control port's pairs: training, frames, lanes, the egress queue and
injection (R294 to R316, R322, R323, R331, R332). Ports 8 and 9 are the pairs A and B. -/

namespace Sys2Proof.Machine

/-- The node of link die k with local index 0. -/
def linkNode (k : Nat) : Nat := nodeOf (linkSite k) 0

/-- PASS_STAT.STATE of a port, or the state of a pair of the control port (R303, R354). -/
def portState (s : State) (k : Nat) : Nat :=
  if k < 8 then s.getField (bPass k) 0x20 0 3
  else if k = 8 then s.getField bCtl 0x10 0 3
  else s.getField bCtl 0x10 4 3

/-- Set the state of a port or a pair. -/
def State.setPort (s : State) (k v : Nat) : State :=
  if k < 8 then s.setField (bPass k) 0x20 0 3 v
  else if k = 8 then s.setField bCtl 0x10 0 3 v
  else s.setField bCtl 0x10 4 3 v

/-- The active pair of the control port, 8 or 9 (R332). -/
def activePair (s : State) : Nat := 8 + s.getField bCtl 0x10 8 1

/-- The control port is UP: its active pair is (R332). -/
def ctlUp (s : State) : Bool := portState s (activePair s) == 5

/-- The link layer that a port or pair uses: both pairs carry one logical port (R332). -/
def linkOf (k : Nat) : Nat := min k 8

/-- Frames flow on the port, or on the active pair (R303, R332). -/
def flows (s : State) (k : Nat) : Bool :=
  portState s k == 5 && (decide (k < 8) || k == activePair s)

/-- A notice of link die k. -/
def State.passNotice (s : State) (k code : Nat) (p : Option Packet) : State := s.noticeDie (linkNode k) code p

/-- Good lanes among 34 (R296). -/
def laneCount (g : BitVec 34) : Nat := popCount g.toNat 34

/-- The width for a number of good lanes, 0 where it is below 8 (R296). -/
def widthOf (n : Nat) : Nat := if 32 ≤ n then 32 else if 24 ≤ n then 24 else if 16 ≤ n then 16 else if 8 ≤ n then 8 else 0

/-- The active lanes of a direction: the lowest-numbered good lanes, as many as the width (R296). -/
def activeLanes (g : BitVec 34) : List Nat :=
  ((List.range 34).filter g.getLsbD).take (widthOf (laneCount g))

/-- The good receive lanes of a port. -/
def rxGood (s : State) (k : Nat) : BitVec 34 := (s.reg (bPass k) 0x38).truncate 34

/-- PASS_CFG.MIN_WIDTH in lanes (R307). -/
def minWidth (s : State) (k : Nat) : Nat := 8 * (s.getField (bPass k) 0x18 0 2 + 1)

/-- The feature mask of every A1 die and of the Plain (R288). -/
def a1Features : Word := 0x1FF

/-- What this end of port k sends in EXCHANGE (R304). -/
def nearEnd (s : State) (k : Nat) : FarEnd :=
  let w := s.reg bDom 0x08
  { level := 1, step := 0xA1, feat := a1Features, port := BitVec.ofNat 3 k, panel := w.truncate 13, idValid := bit w 13
    q1Mode := (s.link k).trainMode, goodRx := rxGood s k, nextFseq := BitVec.ofNat 12 (s.link k).rxSeq }

/-- Port k sends the values of R304 to the far end. -/
def State.sendEnd (s : State) (k : Nat) : State := s.modLink k fun l => { l with sentEnd := some (nearEnd s k) }

/-! ## Going down (R306, R310, R332) -/

/-- The node at which a packet leaves the mesh for link die k. -/
def exitNode (s : State) (k : Nat) (p : Packet) : Nat :=
  if addrHere s p.h1 then aNode p.h1 else nodeOf (linkSite k) (aPanel p.h1 % 64)

/-- Discard every packet of the egress queue with its credit (R310). -/
def State.dropEgress (s : State) (k : Nat) : State :=
  (s.link k).egress.foldl (fun s o => s.creditDie (exitNode s k o.pkt) (o.plane.getD 0) o.pkt)
    (s.modLink k fun l => { l with egress := [] })

/-- Port k goes to DOWN with a reason (R306, R310). -/
def State.goDown (s : State) (k reason : Nat) : State :=
  let was := portState s k
  let s1 := (s.setField (bPass k) 0x20 0 3 0).setField (bPass k) 0x20 4 4 reason
  if was = 0 then s1
  else
    let u := (s.link k).uncertain
    let s2 := ((s1.passNotice k 0x0602 none).dropEgress k).modReg (bPass k) 0x50 fun w => satAdd w 32 16 u
    s2.modLink k fun l =>
      { l with txWords := [], retry := [], resend := [], rxWords := [], rxFrames := 0, resuming := false, far := [],
               txFailing := false }

/-- A pair of the control port leaves UP, or fails to reach it (R332). -/
def State.pairDown (s : State) (k : Nat) : State :=
  let was := portState s k
  let act := activePair s
  let other := 17 - k
  let s1 := s.setPort k 0
  let s2 := if was = 5 then s1.offer leadNode (mkNotice s leadNode 0x0702 (field 0 1 (k - 8)) 0 0) none else s1
  if act = k ∧ was = 5 ∧ portState s other = 5 then
    ((s2.setField bCtl 0x10 8 1 (other - 8)).modLink 8 Link.replayAll).noticeLead 0x0701
  else s2

/-- A pair reaches UP, the far end awaiting frame number next. Where the active pair is not UP it becomes active;
the logical port resumes on the active pair alone (R304, R332). -/
def State.pairUp (s : State) (k next : Nat) : State :=
  let s1 := s.setPort k 5
  if activePair s = k then s1.modLink 8 fun l => l.resumeAt next
  else if portState s (activePair s) = 5 then s1
  else ((s1.setField bCtl 0x10 8 1 (k - 8)).modLink 8 fun l => l.resumeAt next).noticeLead 0x0701

/-- A port or pair goes down. -/
def State.portDown (s : State) (k reason : Nat) : State := if k < 8 then s.goDown k reason else s.pairDown k

/-! ## Training (R303 to R307, R322) -/

/-- A write of TRAIN: refused while OPTICS_OFF = 1 (R303, R322); a link die has no rail while PANEL_RESET_N is low
(R375, R434). MODE takes effect now, and a training that does not resume starts at frame 0 (R304, R323). -/
def State.passTrain (s : State) (k : Nat) : State :=
  if bit (s.reg (bPass k) 0x10) 2 || s.pins.resetHeld then s
  else
    let keep := portState s k == 5 || portState s k == 6 || (portState s k != 0 && (s.link k).resuming)
    (s.setPort k 1).modLink k fun l => 
      { l with resuming := keep, laserOn := true, laneErrs := [], trainMode := bit (s.reg (bPass k) 0x18) 2
               rxSeq := if keep then l.rxSeq else 0 }

/-- PASS_TRAIN (R303). -/
def execPassTrain (k : Nat) (s : State) : Res := onPort k s fun s => s.passTrain k

/-- PASS_CTL_DOWN (R306). -/
def execPassCtlDown (k : Nat) (s : State) : Res := onPort k s fun s => s.goDown k 1

/-- A write of OPTICS_OFF (R322). -/
def State.opticsOff (s : State) (k : Nat) (off : Bool) : State :=
  let s1 := s.setField (bPass k) 0x10 2 1 off.toNat
  if off then (s1.modLink k fun l => { l with laserOn := false }).goDown k 2 else s1

/-- OPTICS_OFF (R322). -/
def execOpticsOff (k : Nat) (off : Bool) (s : State) : Res := onPort k s fun s => s.opticsOff k off

/-- f where a port or pair is in training state a. -/
def inState (k a : Nat) (s : State) (f : State → State) : Res :=
  onLink k s fun s => if portState s k = a then f s else s

/-- PASS_OPTICS_DONE (R305). -/
def execPassOpticsDone (k : Nat) (s : State) : Res := inState k 1 s fun s => s.setPort k 2

/-- PASS_LANE_LOCK_DONE: far light and the good receive lanes (R303, R305, R306). A pair of the control port has
four lanes and no spare: it needs them all (R331). -/
def execPassLaneLockDone (k : Nat) (light : Bool) (good : BitVec 34) (s : State) : Res :=
  inState k 2 s fun s =>
    if 8 ≤ k then if light && good.toNat % 16 == 15 then s.setPort k 3 else s.pairDown k
    else
      let s1 := s.setReg (bPass k) 0x38 (good.zeroExtend 64)
      if !light then s1.goDown k 3
      else if laneCount good < 8 then s1.goDown k 4
      else s1.setPort k 3

/-- PASS_ALIGN_DONE: alignment and FEC lock on each stripe; without lock the port waits for its bound
(R303, R305, R307). -/
def execPassAlignDone (k : Nat) (locked : Bool) (s : State) : Res :=
  inState k 3 s fun s =>
    if !locked then s
    else if 8 ≤ k then s.setPort k 4
    else
      let w := widthOf (laneCount (rxGood s k))
      let s1 := s.setField (bPass k) 0x20 16 6 w
      if w < minWidth s k then s1.goDown k 9 else (s1.setPort k 4).sendEnd k

/-- Egress packets that are no cells are discarded at a port that enters Q1 mode (R323). -/
def State.q1Drop (s : State) (k n pl : Nat) (p : Packet) : State :=
  let was := s.getField (bPass k) 0x50 48 8
  let s1 := (s.creditDie n pl p).countField (bPass k) 0x50 48 8
  if was = 0 then s1.passNotice k 0x060B (some p) else s1

/-- Drop what a Q1 peer cannot take from the egress queue (R323). -/
def State.q1Purge (s : State) (k : Nat) : State :=
  let l := (s.link k).egress
  (l.filter fun o => pKind o.pkt != kCell).foldl
    (fun s o => s.q1Drop k (exitNode s k o.pkt) (o.plane.getD 0) o.pkt)
    (s.modLink k fun x => { x with egress := l.filter fun o => pKind o.pkt == kCell })

/-- The reason for which an exchange does not reach UP, 0 where it does (R306). -/
def exchangeFails (s : State) (k : Nat) (far : FarEnd) : Nat :=
  if laneCount far.goodRx < 8 then 4
  else if far.level = 0 then 5
  else if far.q1Mode ≠ (s.link k).trainMode then 6
  else if widthOf (laneCount far.goodRx) < minWidth s k ∨ widthOf (laneCount (rxGood s k)) < minWidth s k then 9
  else 0

/-- What the far end reported in EXCHANGE (R304). -/
def State.noteFar (s : State) (k : Nat) (far : FarEnd) : State :=
  let s1 := s.modReg (bPass k) 0x20 fun w =>
    setBits (setBits (setBits w 22 1 far.idValid.toNat) 24 3 far.port.toNat) 32 13 far.panel.toNat
  let s2 := s1.modReg (bPass k) 0x28 fun w => setBits (setBits w 0 4 far.level.toNat) 8 8 far.step.toNat
  s2.setReg (bPass k) 0x40 (far.goodRx.zeroExtend 64)

/-- The port reaches UP (R304, R323). -/
def State.passUp (s : State) (k : Nat) (far : FarEnd) : State :=
  let q1 := (s.link k).trainMode
  let s1 := ((s.setField (bPass k) 0x20 8 6 (widthOf (laneCount far.goodRx))).setField (bPass k) 0x28 4 4
    (min 1 far.level.toNat)).setReg (bPass k) 0x30 (if q1 then 0x81 else a1Features &&& far.feat)
  let s2 := s1.modLink k fun l =>
    { (if l.resuming then l.resumeAt far.nextFseq.toNat else l.fresh) with q1 := q1, resuming := false }
  ((if q1 then s2.q1Purge k else s2).setPort k 5).passNotice k 0x0601 none

/-- PASS_EXCHANGE_DONE (R304, R306, R307, R323). A pair of the control port resumes its logical port
(R332). -/
def execPassExchangeDone (k : Nat) (far : FarEnd) (s : State) : Res :=
  inState k 4 s fun s =>
    if 8 ≤ k then
      if far.level = 0 then s.pairDown k
      else s.pairUp k far.nextFseq.toNat
    else
      let s1 := s.noteFar k far
      let r := exchangeFails s k far
      if r = 0 then s1.passUp k far else s1.goDown k r

/-- PASS_TRAIN_TIMEOUT: a port or pair that is still training (R305, R306). -/
def execPassTrainTimeout (k : Nat) (s : State) : Res :=
  onLink k s fun s => if 1 ≤ portState s k ∧ portState s k ≤ 4 then s.portDown k 7 else s

/-- CTL_PAIR_RETRAIN: a pair that is DOWN begins to train once the 0.5 s are up (R303, R332). -/
def execCtlPairRetrain (b : Bool) (up : Bool) (s : State) : Res :=
  let k := 8 + b.toNat
  .next (if s.pins.resetHeld || portState s k != 0 || !up then s else s.setPort k 1)

/-! ## Lanes in service (R307 to R309) -/

/-- The port enters REMAP with lanes marked bad; packets wait, and the good lanes go to the far end (R304, R309). -/
def State.remap (s : State) (k : Nat) (lanes : List Nat) : State :=
  ((s.modReg (bPass k) 0x38 fun w => lanes.foldl (fun w l => setBit w l false) w).setPort k 6).sendEnd k

/-- The lane that the FEC statistics name for a failing receive direction: the active lane with the most corrected
symbols, none where no lane has any (R308; assumption 25). -/
def namedLane (s : State) (k : Nat) : Option Nat :=
  let e := (s.link k).laneErrs
  (activeLanes (rxGood s k)).foldl (fun m l =>
    if (match m with
        | some j => decide (e.getD j 0 < e.getD l 0)
        | none => decide (0 < e.getD l 0)) then some l else m) (none : Option Nat)

/-- The receive direction of a port is failing (R301, R308). -/
def State.failing (s : State) (k : Nat) : State :=
  if 8 ≤ k then s.pairDown k
  else match namedLane s k with
    | some l => s.remap k [l]
    | none => s.goDown k 8

/-- The transmit direction of a port is failing: the port enters REMAP, and the far receiver, whose statistics they
are, names the lane or none (R301, R308, R309; assumption 92). -/
def State.txFails (s : State) (k : Nat) : State :=
  if 8 ≤ k then s.pairDown k else (s.modLink k fun l => { l with txFailing := true }).remap k []

/-- LANE_ERR_CHECK: the corrected symbols of each active receive lane in a millisecond (R308, R309). -/
def execLaneErrCheck (k : Nat) (errs : List Nat) (s : State) : Res :=
  onPort k s fun s =>
    let lim := s.getField (bPass k) 0x18 8 16
    let bad := (activeLanes (rxGood s k)).filter fun l => lim != 0 && decide (lim < errs.getD l 0)
    if portState s k = 5 then
      let s1 := s.modLink k fun l => { l with laneErrs := errs }
      if bad = [] then s1 else s1.remap k bad
    else s

/-- The widths are chosen again after a lane has failed, never wider than before, and the port resumes at the far
end's next expected frame (R304, R307, R309). -/
def State.remapEnd (s : State) (k : Nat) (far : FarLanes) : State :=
  let oldT := s.getField (bPass k) 0x20 8 6
  let oldR := s.getField (bPass k) 0x20 16 6
  let wt := min oldT (widthOf (laneCount far.goodRx))
  let wr := min oldR (widthOf (laneCount (rxGood s k)))
  let s1 := ((s.setReg (bPass k) 0x40 (far.goodRx.zeroExtend 64)).setField (bPass k) 0x20 8 6 wt).setField
    (bPass k) 0x20 16 6 wr
  if wt = 0 ∨ wr = 0 then s1.goDown k 4
  else if wt < minWidth s k ∨ wr < minWidth s k then
    (s1.passNotice k 0x0604 none).goDown k 9
  else
    let s2 := (s1.setPort k 5).modLink k fun l => { l.resumeAt far.nextFseq.toNat with laneErrs := [] }
    s2.passNotice k (if wt = oldT ∧ wr = oldR then 0x0603 else 0x0604) none

/-- REMAP_DONE: the far end's good lanes and next expected frame. A port that is UP takes part where the far receiver
has marked a lane bad; a transmit direction that fails with no lane named takes the port DOWN (R308, R309;
assumption 92). -/
def execRemapDone (k : Nat) (farGood : FarLanes) (s : State) : Res :=
  onPort k s fun s =>
    let same := s.reg (bPass k) 0x40 == farGood.goodRx.zeroExtend 64
    if portState s k = 6 then
      if (s.link k).txFailing && same then s.goDown k 8 else s.remapEnd k farGood
    else if portState s k = 5 ∧ !same then (s.sendEnd k).remapEnd k farGood
    else s

/-! ## Frames (R301, R302, R324) -/

/-- A good frame's ACK and CREDITS. -/
def State.frameAck (s : State) (k : Nat) (f : Frame) : State := s.modLink (linkOf k) fun l => l.takeAck f

/-- A frame f that fails its CRC; the eighth failure of one frame makes the direction failing (R301). -/
def State.frameBad (s : State) (k : Nat) (f : Frame) : State :=
  let s1 := s.modLink (linkOf k) fun l => l.crcBad f
  if 8 ≤ (s1.link (linkOf k)).fails then (s1.modLink (linkOf k) fun l => { l with fails := 0 }).failing k else s1

/-- A frame of one of the types of a row, received where frames flow: bad is a frame with a CRC failure
or a reserved type. -/
def onFrame (k : Nat) (row : Nat) (f : Frame) (s : State) (act : State → State) : Res :=
  onLink k s fun s =>
    if !flows s k then s
    else
      let t := fType f
      let known := t == 1 || t == 2 || t == 3 || (t == 4 && decide (k < 8))
      if t ≠ row ∧ !(row == 1 && !known) ∧ !(row == 4 && t == 4) then s
      else if !frameOk f || !known then s.frameBad k f
      else act (s.frameAck k f)

/-- FRAME_DATA (R300, R301). A frame with a reserved type is received by this row as a CRC failure. -/
def execFrameData (k : Nat) (f : Frame) (s : State) : Res :=
  onFrame k 1 f s fun s =>
    if (s.link (linkOf k)).inOrder f then s.modLink (linkOf k) fun l => (l.accepted).takeWords f else s

/-- A pair of the control port that is UP beside the active one carries IDLE frames alone (R332). -/
def standby (s : State) (k : Nat) : Bool := decide (8 ≤ k) && portState s k == 5 && k != activePair s

/-- FRAME_IDLE (R302). On the pair that is not active it updates ACK and credits of the logical port (R332). -/
def execFrameIdle (k : Nat) (f : Frame) (s : State) : Res :=
  if k < 10 ∧ standby s k then .next (if fType f = 2 ∧ frameOk f then s.frameAck k f else s)
  else onFrame k 2 f s id

/-- FRAME_NAK: send again from the named frame; the eighth NAK of one frame in succession makes the
direction failing (R301, R308). -/
def execFrameNak (k : Nat) (f : Frame) (s : State) : Res :=
  onFrame k 3 f s fun s =>
    let l := s.link (linkOf k)
    let c := if l.nakSeq = fSeq f ∧ l.naks ≠ 0 then l.naks + 1 else 1
    if 8 ≤ c then (s.modLink (linkOf k) fun l => { l with naks := 0 }).txFails k
    else s.modLink (linkOf k) fun l => { (l.replayFrom (fSeq f)) with nakSeq := fSeq f, naks := c }

/-- The CELL packet that the die injects for a received cell, if an entry maps it (R324). -/
def cellPacket (s : State) (k : Nat) (c : List Byte) : Option Packet :=
  let d := bits (quadAt c 0) 0 16
  ((List.range 8).find? fun i =>
    let w := s.reg (bPass k) (0x100 + 8 * i)
    bit w 58 && decide (bits w 0 16 ≤ d) && decide (d ≤ bits w 16 16)).map fun i =>
      let w := s.reg (bPass k) (0x100 + 8 * i)
      { h0 := mkH0 kCell 0 0 32 (bits w 46 12), h1 := mkAddr 1 true 0 (bits w 32 14) 0,
        h2 := field 46 13 (s.getField (bPass k) 0x18 32 13), h3 := 0, data := c }

/-- One received cell (R324). -/
def State.takeCell (k : Nat) (s : State) (c : List Byte) : State :=
  match cellPacket s k c with
  | some p => s.modLink k fun l => { l with toInject := l.toInject ++ [⟨p, l.rxFrames, false, false⟩], rxFrames := 0 }
  | none =>
    let was := s.getField (bPass k) 0x50 48 8
    let s1 := s.countField (bPass k) 0x50 48 8
    if was = 0 then s1.passNotice k 0x060C none else s1

/-- FRAME_CELLS: in Q1 mode each cell is mapped and injected; on the control port the frame has a CRC
failure (R324, R331). -/
def execFrameCells (k : Nat) (f : Frame) (s : State) : Res :=
  onFrame k 4 f s fun s =>
    let l := s.link k
    if !l.inOrder f then s
    else
      let s1 := s.modLink k Link.accepted
      if !l.q1 then s1
      else
        let s2 := ((List.range 8).filter (fValid f)).foldl (fun s i => s.takeCell k (frameCell f i)) s1
        s2.modLink k fun l => { l.free l.rxFrames with rxFrames := 0 }

/-- PASS_RETRY_TIMEOUT: no ACK has advanced while frames are outstanding (R301, R331). -/
def execPassRetryTimeout (k : Nat) (s : State) : Res :=
  onLink k s fun s => if flows s k then s.modLink (linkOf k) Link.replayAll else s

/-- PASS_ACK_STALL: no ACK progress for 1 ms while UP (R306, R332). -/
def execPassAckStall (k : Nat) (s : State) : Res :=
  onLink k s fun s =>
    if portState s k = 5 then s.portDown k 8 else s

/-- The register and field that count a port's frames sent again. -/
def State.countRetry (s : State) (k : Nat) : State :=
  if k < 8 then s.countField (bPass k) 0x48 0 16 else s.countField bCtl 0x20 0 16

/-- FRAME_SEND: the next frame of a port, or of the control port's active pair; IDLE on a pair that is UP beside it. The
fibre of a link die takes packets as R314 says, the control port as they are (R301, R302, R331 to R333). -/
def execFrameSend (k : Nat) (s : State) : Res :=
  onLink k s fun s =>
    if standby s k then s.modLink 8 fun l => l.out (l.stamp ⟨field 0 4 2, 0, [], 0⟩)
    else if !flows s k then s
    else
      let r := (s.link (linkOf k)).sendNext (if k < 8 then leaving (panelId s) else id) (if k < 8 then 4096 else 2048)
      let s1 := s.setLink (linkOf k) r.1
      if r.2 then s1.countRetry k else s1

/-! ## From the mesh (R315, R320, R323) -/

/-- Bytes that a packet takes in the egress queue: its words. -/
def queueBytes (p : Packet) : Nat := 64 * linkSlots p

/-- The egress queue has room: 4 MiB, of which 256 KiB is kept for class 1 (R315). -/
def egressRoom (l : Link) (p : Packet) : Bool :=
  let used := (l.egress.map fun o => queueBytes o.pkt).sum
  decide (used + queueBytes p ≤ (if pClass p = 1 then 0x40_0000 else 0x3C_0000))

/-- The address is in the far window of port k (R320, R329). -/
def inFarWindow (s : State) (a : Word) : Bool :=
  addrHere s a && aSpace a == 6 && decide (0x0100_0000 ≤ aOff a) && decide (aOff a ≤ 0x0110_FFFF)

/-- A discard of the die with a counter and, where the counter was 0, a notice (R315). -/
def State.dieDrop (s : State) (k n pl : Nat) (p : Packet) (off lo len code : Nat) : State :=
  let was := s.getField (bPass k) off lo len
  let s1 := (s.creditDie n pl p).countField (bPass k) off lo len
  if was = 0 then s1.passNotice k code (some p) else s1

/-- The queue of the port takes a packet: steps 3 to 6 of R315. -/
def State.toFibre (s : State) (k n pl : Nat) (p : Packet) : State :=
  let st := portState s k
  if st ≠ 5 ∧ st ≠ 6 then s.dieDrop k n pl p 0x48 48 16 0x0607
  else if (s.link k).q1 ∧ pKind p ≠ kCell then s.q1Drop k n pl p
  else if !egressRoom (s.link k) p then s.dieDrop k n pl p 0x48 16 16 0x0605
  else s.modLink k fun l => { l with egress := l.egress ++ [⟨p, some pl⟩] }

/-- The notice of a kind that a resource does not take, where the resource has none of its own (R446). -/
def absentCode (p : Packet) : Nat := if pKind p = kLedgerOp then 0x0304 else 0x0213

/-- A packet from the mesh that is no access to the die's registers (R315, R320, R446). -/
def State.linkEgress (s : State) (k n pl : Nat) (p : Packet) : State :=
  if inFarWindow s p.h1 then
    if pKind p = kWrite ∨ pKind p = kReadReq then
      let s1 := s.toFibre k n pl { p with h1 := setBit p.h1 59 true }
      if (s1.link k).egress.length ≠ (s.link k).egress.length then
        s1.modLink k fun l => { l with far := l.far ++ [p] }
      else s1
    else (s.creditDie n pl p).passNotice k (absentCode p) (some p)
  else if addrHere s p.h1 then s
  else match egressOf s (aPanel p.h1) with
    | some j =>
      if j = k then s.toFibre k n pl p
      else (s.modLink k fun l =>
        { l with toInject := l.toInject ++ [⟨p, 0, false, true⟩] }).countField (bPass k) 0x50 16 16
    | none => s.toFibre k n pl p

/-- The input at which a packet arrived that waits to be taken at node n; the vertical one for a packet that
waits nowhere. -/
def upPort (s : State) (n pl : Nat) (p : Packet) : Port :=
  let r := s.plane n pl
  match (r.vout ++ r.served).find? (fun h => h.pkt == p) with
  | some h => h.port
  | none => .v

/-- Take a packet from where it waits at node n, the vertical output of a plane or the Plain, if it does
(assumption 2). -/
def State.takeUp (s : State) (n pl : Nat) (p : Packet) : State :=
  let r := s.plane n pl
  match takeFirst (fun h : Header => h.pkt == p) r.vout with
  | some (_, rest) => s.setPlane n pl { r with vout := rest }
  | none =>
    match takeFirst (fun h : Header => h.pkt == p) r.served with
    | some (_, rest) => s.setPlane n pl { r with served := rest }
    | none => s

/-- LINK_DIE_EGRESS: link die k takes a packet from plane pl of the mesh (R315, R320). -/
def execLinkDieEgress (k pl : Nat) (p : Packet) (s : State) : Res :=
  onUnit (decide (k < 8) && decide (pl < 4)) s fun s =>
    let n := exitNode s k p
    if siteOf n = linkSite k ∧ (inFarWindow s p.h1 ∨ !addrHere s p.h1) then
      (s.takeUp n pl p).linkEgress k n pl p
    else s

/-- The node and plane at which link die k injects next: in rotation, passing over closed gates (R302). -/
def nextInject (s : State) (k : Nat) : Option Nat :=
  ((List.range 256).map fun i => ((s.link k).rotation + i) % 256).find? fun i =>
    gateOpen s (nodeOf (linkSite k) (i / 4)) (i % 4)

/-- LINK_INJECT: the die injects its next packet at node n on plane pl where that is the next open one
in rotation; a packet of the fibre has age 0, one that came from the mesh is unchanged (R290, R300, R302, R314,
R315). -/
def execLinkInject (k n pl : Nat) (s : State) : Res :=
  onUnit (decide (k < 8) && isNode n && decide (pl < 4)) s fun s =>
    let i := localOf n * 4 + pl
    if siteOf n ≠ linkSite k ∨ nextInject s k ≠ some i ∨ !canInject s n pl then s
    else match (s.link k).toInject with
      | [] => s
      | q :: rest =>
        let s1 := s.modLink k fun l => { l.free q.frames with toInject := rest, rotation := (i + 1) % 256 }
        let p : Packet := if q.own || q.kept then q.pkt else { q.pkt with h0 := setBits q.pkt.h0 40 8 0 }
        s1.injectFrom n pl p true (!q.own)

end Sys2Proof.Machine
end

