-- ==== Sys2Proof/Machine/Guest.lean ====
section
/-! DEFINITION. Guest bridges and the Ford (R342 to R352), and the guest rail's effect on them (R388). -/

namespace Sys2Proof.Machine

/-- The node of guest bridge g with local index 0. -/
def guestNode (g : Nat) : Nat := nodeOf (guestSite g) 0

/-- GUEST_STAT.STATE. -/
def guestState (s : State) (g : Nat) : Nat := s.getField (bFord g) 0x10 0 3

/-- GUEST_CTL.ENABLE. -/
def guestEnabled (s : State) (g : Nat) : Bool := bit (s.reg (bFord g) 0x08) 0

/-- A notice of guest bridge g, a block of the Plain. -/
def State.guestNotice (s : State) (g code : Nat) (p : Option Packet) : State :=
  s.noticePlain (guestNode g) code p

/-! ## Toward the guest die (R345, R346) -/

/-- A discard of the bridge: its credit, which enters at the packet's node as one of a die does (DESIGN CHOICE,
assumption 105), its counter, and its notice where the counter was 0. -/
def State.guestDrop (s : State) (g : Nat) (o : Offer) (n lo code : Nat) : State :=
  let was := s.getField (bFord g) 0x48 lo 16
  let s1 := (s.creditDie n (o.plane.getD 0) o.pkt).countField (bFord g) 0x48 lo 16
  if was = 0 then s1.guestNotice g code (some o.pkt) else s1

/-- The node at which a packet for the guest die of bridge g was delivered: its site's node. -/
def guestAt (s : State) (g : Nat) (p : Packet) : Nat :=
  if aSpace p.h1 = 8 then aNode p.h1 else (translate s (guestNode g) (aNode p.h1)).getD (guestNode g)

/-- A discard under R346. -/
def State.guestStall (g : Nat) (s : State) (o : Offer) : State :=
  s.guestDrop g o (guestAt s g o.pkt) 16 0x0713

/-- The bridge's end of module m. -/
def guestMod (s : State) (g m : Nat) : GuestMod := Sparse.getD {} (s.guest g).mods m

/-- Change it. -/
def State.modMod (s : State) (g m : Nat) (f : GuestMod → GuestMod) : State :=
  s.modGuest g fun x => { x with mods := Sparse.put m (f (Sparse.getD {} x.mods m)) x.mods }

/-- The module on which the bridge begins packets now: the lowest of those in use that the guest die does not hold, as
words may start (R343; DESIGN CHOICE, assumption 104); none in a quiet period (R370). -/
def guestOpen (s : State) (g : Nat) : Option Nat :=
  if siteQuiet s (guestSite g) then none
  else (List.range 16).find? fun m => bit (s.reg (bFord g) 0x10) (4 + m) && !(s.guest g).guestHolds.getLsbD m

/-- DATA slots sent on a module: their numbers and the retry buffer (R168, R343). -/
def GuestMod.send (x : GuestMod) (ws : List WordSlot) : GuestMod :=
  let l := x.retry ++ ws
  { x with sent := x.sent + ws.length, retry := l.drop (l.length - 16), last := ws }

/-- Hand the buffered packets to the guest die on an open module; a WRITE that asks for one is
acknowledged (R343, R345). -/
def State.guestHand (s : State) (g : Nat) : State :=
  let l := (s.guest g).toGuest
  match guestOpen s g with
  | none => s
  | some m =>
    if guestState s g = 3 ∧ l ≠ [] then
      l.foldl (fun s o => s.ackDie (guestAt s g o.pkt) (o.plane.getD 0) o.pkt)
        ((s.modGuest g fun x => { x with toGuest := [], handed := l.map Offer.pkt }).modMod g m fun x =>
          x.send (l.flatMap fun o => slotsOf o.pkt false))
    else s

/-- A packet from the mesh for the guest die of bridge g (R345, R346). -/
def State.guestTake (s : State) (g pl : Nat) (p : Packet) : State :=
  let used := ((s.guest g).toGuest.map fun o => queueBytes o.pkt).sum
  if guestState s g ≠ 3 ∨ 0x4_0000 < used + queueBytes p then s.guestStall g ⟨p, some pl⟩
  else (s.modGuest g fun x => { x with toGuest := x.toGuest ++ [⟨p, some pl⟩] }).guestHand g

/-- The site is not UP: what is buffered for the guest die is discarded (R346). -/
def State.guestPurge (s : State) (g : Nat) : State :=
  (s.guest g).toGuest.foldl (State.guestStall g)
    (s.modGuest g fun x => { x with toGuest := [], guestHolds := 0, bridgeHolds := 0, mods := [] })

/-! ## Enabling and training (R342, R344, R388) -/

/-- Every module trains, the header being on. -/
def State.guestTrain (s : State) (g : Nat) : State :=
  ((s.setField (bFord g) 0x10 0 3 2).setField (bFord g) 0x10 4 16 0).guestPurge g

/-- A write of GUEST_CTL.ENABLE: ignored at a blank site. With 1 the header comes on, and the modules train
once the rail is in regulation; with 0 the bridge is in reset and the header off; nothing is written while PANEL_RESET_N is low (R342, R344, R353,
R434). -/
def State.guestEnable (s : State) (g : Nat) (on : Bool) : State :=
  if isBlank s.birth (guestSite g) || guestEnabled s g == on || s.pins.resetHeld then s
  else if on then
    let s1 := ((s.setField (bFord g) 0x08 0 1 1).setField (bFord g) 0x10 24 4 0).modGuest g fun x =>
      { x with header := true }
    if (s.site (guestSite g)).guestRail then s1.guestTrain g else s1.setField (bFord g) 0x10 0 3 1
  else
    let s1 := ((s.setField (bFord g) 0x08 0 1 0).setField (bFord g) 0x10 0 20 0).setField (bFord g) 0x10 24 4 4
    (s1.guestPurge g).modGuest g fun x => { x with header := false, tokens := 0 }

/-- GUEST_ENABLE (R342). -/
def execGuestEnable (g : Nat) (on : Bool) (s : State) : Res := onGuest g s fun s => s.guestEnable g on

/-- A write of GUEST_CTL.RETRAIN: nothing while the bridge is in reset or not yet powered (R353). -/
def State.guestRetrain (s : State) (g : Nat) : State :=
  if guestEnabled s g && decide (2 ≤ guestState s g) then s.guestTrain g else s

/-- GUEST_RETRAIN (R353). -/
def execGuestRetrain (g : Nat) (s : State) : Res := onGuest g s fun s => s.guestRetrain g

/-- What a site reports of the agreement of its bond: the die's level, step and mask, and the agreed
level and mask (R289, R293). -/
def State.noteAgreement (s : State) (st level step : Nat) (feat : Word) (trained : Bool) : State :=
  let s1 := s.modReg (bSm st) 0x100 fun w =>
    setBits (setBits (setBits (setBits w 0 4 level) 8 4 (if trained then min 1 level else 0)) 16 8 step) 32 1
      trained.toNat
  (s1.setReg (bSm st) 0x108 feat).setReg (bSm st) 0x110 (if trained then feat &&& a1Features else 0)

/-- GUEST_TRAIN_DONE: UP with at least one module and an agreed level, else DOWN (R344). -/
def execGuestTrainDone (g : Nat) (modules : BitVec 16) (level : BitVec 4) (step : BitVec 8) (feat : Word)
    (timeout : Bool) (s : State) : Res :=
  onGuest g s fun s =>
    if guestState s g ≠ 2 then s
    else
      let ok := !timeout && modules != 0 && level != 0
      let reason := if timeout then 3 else if modules = 0 then 1 else if level = 0 then 2 else 0
      let s1 := s.noteAgreement (guestSite g) level.toNat step.toNat feat ok
      let s2 := ((s1.setField (bFord g) 0x10 0 3 (if ok then 3 else 4)).setField (bFord g) 0x10 4 16
        modules.toNat).setField (bFord g) 0x10 24 4 reason
      s2.guestNotice g (if ok then 0x0710 else 0x0711) none

/-- VGUEST of a guest site is on, ramping or in regulation: VGUEST_EN = 1, no over-current held, and a die that is
not blank (R16, R375, R388). -/
def guestRailOn (s : State) (st : Nat) : Bool :=
  bit (s.reg (bSp st) 0x08) 2 && !bit (s.reg (bSp st) 0x10) 15 && !isBlank s.birth st && !s.pins.resetHeld

/-- GUEST_RAIL_READY: VGUEST comes into regulation; a bridge that waits for it trains (R388). -/
def execGuestRailReady (g : Nat) (s : State) : Res :=
  onGuest g s fun s =>
    let st := guestSite g
    if guestRailOn s st then
      let s1 := s.modSite st fun x => { x with guestRail := true }
      if guestState s g = 1 then s1.guestTrain g else s1
    else s

/-- GUEST_OVERCURRENT: the rail that is on, even while it ramps, trips (R388). -/
def execGuestOvercurrent (g : Nat) (s : State) : Res :=
  onGuest g s fun s =>
    let st := guestSite g
    if guestRailOn s st then
      (((s.modSite st fun x => { x with guestRail := false }).guestEnable g false).setField (bSp st) 0x10 15 1
        1).noticeSite st 0x090A
    else s

/-- A write of 1 to GUEST_OC: VGUEST may come back on (R388). -/
def State.guestOcClear (s : State) (st : Nat) : State := s.setField (bSp st) 0x10 15 1 0

/-- GUEST_OC_CLEAR (R388). -/
def execGuestOcClear (g : Nat) (s : State) : Res := onGuest g s fun s => s.guestOcClear (guestSite g)

/-! ## The Ford (R347 to R351) -/

/-- The permission bit of a window that a packet's kind needs, none where no window grants the kind
(R348). -/
def fordPerm (p : Packet) : Option Nat :=
  let k := pKind p
  if k = kReadReq then some 36
  else if k = kWrite ∨ k = kMcastWrite ∨ k = kMsg ∨ k = kCell ∨ k = kRedPart then some 37
  else if k = kSignal then some 38
  else if k = kLedgerOp then some 39
  else none

/-- The bytes of the access of a packet (R348). -/
def fordLen (p : Packet) : Nat :=
  if pKind p = kSignal ∨ pKind p = kLedgerOp then 1 else max (pLen p) 1

/-- Window i of bridge g grants len bytes at address a under a permission bit (R348). -/
def fordWindow (s : State) (g : Nat) (a : Word) (len perm i : Nat) : Bool :=
  let wa := s.reg (bFord g) (0x100 + 16 * i)
  let wb := s.reg (bFord g) (0x108 + 16 * i)
  let base := bits wb 0 32
  bit wa 63 && bits wa 32 4 == aSpace a &&
    (if aLocal a then !bit wa 40 else bit wa 40 && bits wa 41 13 == aPanel a) &&
    decide (bits wa 0 7 ≤ nodeX (aNode a)) && decide (nodeX (aNode a) ≤ bits wa 8 7) &&
    decide (bits wa 16 7 ≤ nodeY (aNode a)) && decide (nodeY (aNode a) ≤ bits wa 24 7) &&
    decide (base ≤ aOff a) && decide (aOff a + len ≤ base + bits wb 32 21 * 4096) && bit wa perm

/-- Some window grants the access. -/
def fordGrants (s : State) (g : Nat) (a : Word) (len perm : Nat) : Bool :=
  (List.range 16).any (fordWindow s g a len perm)

/-- The first Ford check that a packet fails (R347). -/
def fordCause (s : State) (g : Nat) (p : Packet) : Option Nat :=
  let cfg := s.reg (bFord g) 0x18
  let h := readHead (pBytes p)
  if !bit cfg 8 then some 1
  else if !bit (s.reg (bFord g) 0x20) (pKind p) then some 2
  else if pClass p = 1 ∧ !bit cfg 4 then some 3
  else if (!aLocal p.h1 && !bit cfg 5) || (pKind p == kReadReq && pMc p) then some 4
  else match fordPerm p with
    | none => some 5
    | some perm =>
      if !fordGrants s g p.h1 (fordLen p) perm then some 5
      else if pKind p = kRedPart ∧ h.doneEn ∧ !fordGrants s g h.e2 64 37 then some 5
      else none

/-- The packet that the Ford passes: its generation and src_ctx (R349). Header bits that an originator writes as 0 pass
as the guest die sent them (DESIGN CHOICE, assumption 106). -/
def fordStamp (s : State) (g : Nat) (p : Packet) : Packet :=
  { p with h0 := setBits p.h0 48 4 (s.getField (bFord g) 0x18 0 4), h2 := setBits p.h2 30 2 0 }

/-- A packet that fails a check (R351): its credit goes to the guest die as any packet does. -/
def State.fordDrop (s : State) (g : Nat) (p : Packet) (cause : Nat) : State :=
  let was := s.getField (bFord g) 0x30 0 32
  let s1 := s.countField (bFord g) 0x30 0 32
  let s2 :=
    if was = 0 then
      (((s1.setField (bFord g) 0x30 32 8 cause).setReg (bFord g) 0x38 p.h0).setReg (bFord g) 0x40
        p.h1).guestNotice g 0x0712 (some p)
    else s1
  match creditFor (fillSource s (guestNode g) p) with
  | some c => s2.guestTake g 0 c
  | none => s2

/-- Packet p of the guest die is checked, recorded where its ring takes it, and offered for injection
(R347 to R352). -/
def State.ford (s : State) (g : Nat) (p : Packet) : State :=
  match fordCause s g p with
  | some c => s.fordDrop g p c
  | none =>
    let q := fordStamp s g p
    (s.record (8 + g) q).offer (guestNode g) q none

/-! ## The modules of the bond (R343, R344, R350) -/

/-- Module m is trained and in use. -/
def moduleUp (s : State) (g m : Nat) : Bool := guestState s g == 3 && bit (s.reg (bFord g) 0x10) (4 + m)

/-- The bridge sends HOLD or GO on module m. -/
def State.bridgeHold (s : State) (g m : Nat) (held : Bool) : State :=
  s.modGuest g fun x => { x with bridgeHolds :=
    if held then x.bridgeHolds ||| BitVec.ofNat 16 (1 <<< m) else x.bridgeHolds &&& ~~~ BitVec.ofNat 16 (1 <<< m) }

/-- The packets received on module m go to the Ford in order while the tokens reach. Where they do not, the rest
waits in the module's room and the module is held (R343, R350). -/
def State.fordRun (g m : Nat) : List Packet → State → State
  | [], s => ((s.modMod g m fun x => { x with waiting := [] }).bridgeHold g m (siteQuiet s (guestSite g)))
  | p :: rest, s =>
    if s.getField (bFord g) 0x28 0 16 = 0 then fordRun g m rest (s.ford g p)
    else if (s.guest g).tokens < linkSlots p then
      (s.modMod g m fun x => { x with waiting := p :: rest }).bridgeHold g m true
    else
      fordRun g m rest ((s.modGuest g fun x => { x with tokens := x.tokens - linkSlots p }).ford g p)

/-- FORD_CHECK: a packet of the guest die has arrived whole on module m and joins what waits there. The room is
268 words (R343, R347, R350). -/
def execFordCheck (g m : Nat) (p : Packet) (s : State) : Res :=
  onUnit (decide (g < 4) && decide (m < 16)) s fun s =>
    let x := guestMod s g m
    let all := x.waiting ++ [p]
    if !moduleUp s g m || x.awaiting.isSome || decide (268 < (all.map linkSlots).sum) then s
    else s.fordRun g m all

/-- FORD_TOKEN_REFILL: every 1,024 bridge cycles (R350). What waits goes on, and GO follows on the modules where
nothing waits any longer. -/
def execFordTokenRefill (g : Nat) (s : State) : Res :=
  onGuest g s fun s =>
    let rate := s.getField (bFord g) 0x28 0 16
    let s1 := if rate = 0 then s
      else s.modGuest g fun x =>
        { x with tokens := max x.tokens (min (x.tokens + rate) (s.getField (bFord g) 0x28 16 16)) }
    (s1.guest g).mods.foldl (fun s e => if e.2.waiting = [] then s else s.fordRun g e.1 e.2.waiting) s1

/-- Module m fails its retry and is dropped; the loss of the last one takes the site DOWN (R344). -/
def State.dropModule (s : State) (g m : Nat) : State :=
  let s1 := (s.modReg (bFord g) 0x10 fun w => setBit w (4 + m) false).modMod g m fun x => { waiting := x.waiting }
  if s1.getField (bFord g) 0x10 4 16 ≠ 0 then s1
  else
    (((s1.setField (bFord g) 0x10 0 3 4).setField (bFord g) 0x10 24 4 1).guestPurge g).guestNotice g 0x0711 none

/-- A DATA slot of the guest die fails its CRC: the bridge asks for it again, and the eighth failure of it in
succession drops the module. While it waits for that slot, the later ones are discarded (R168, R343, R344). -/
def State.guestCrcFailure (s : State) (g m : Nat) (sl : BitVec 4) : State :=
  let x := guestMod s g m
  if x.awaiting.any fun a => a != sl then s
  else
    if 7 ≤ x.fails then s.dropModule g m
    else (s.countField (bFord g) 0x48 0 16).modMod g m fun x => { x with awaiting := some sl, fails := x.fails + 1 }

/-- The guest die refuses DATA slot q of module m: the bridge sends it and the later ones again, and the eighth NAK of
one word in succession drops the module (R168, R343, R344). A slot that has not been sent is not refused. -/
def State.guestNak (s : State) (g m : Nat) (q : BitVec 4) : State :=
  let x := guestMod s g m
  let k := (BitVec.ofNat 4 x.sent - q).toNat
  let c := if x.nakWord = x.sent - k then x.naks + 1 else 1
  if k = 0 ∨ x.retry.length < k then s
  else if 8 ≤ c then s.dropModule g m
  else (s.countField (bFord g) 0x48 0 16).modMod g m fun x =>
    { x with nakWord := x.sent - k, naks := c, last := x.retry.drop (x.retry.length - k) }

/-- The data tracks of a HOLD slot, and of a GO slot (R343). -/
def holdWord (hold : Bool) : List Byte := padTo 64 [if hold then 0x48 else 0x47]

/-- The data and control tracks of a HOLD or GO slot (R343). -/
def holdSlot (hold : Bool) : List Byte × BitVec 16 := (holdWord hold, ~~~ crc16 (holdWord hold))

/-- A slot of the guest die on module m: one of the kind of the row has its effect; NAK, DATA and a CRC failure act
under the retry of R168 in either row (R343). -/
def State.guestSlot (s : State) (g m : Nat) (sl : SlotSeen) (hold : Bool) : State :=
  if !moduleUp s g m then s
  else if (sl.word, sl.ctl) = holdSlot hold then
    if hold then s.modGuest g fun x => { x with guestHolds := x.guestHolds ||| BitVec.ofNat 16 (1 <<< m) }
    else (s.modGuest g fun x => { x with guestHolds := x.guestHolds &&& ~~~ BitVec.ofNat 16 (1 <<< m) }).guestHand g
  else if (sl.word, sl.ctl) = holdSlot (!hold) then s
  else match slotKind sl.word sl.ctl with
    | .idle => s
    | .nak q => s.guestNak g m q
    | .data =>
      if (guestMod s g m).awaiting = some sl.number then s.modMod g m fun x => { x with awaiting := none, fails := 0 } else s
    | .failed => s.guestCrcFailure g m sl.number

/-- GUEST_HOLD: a slot of the guest die on a module, HOLD where its tracks say so. -/
def execGuestHold (g : Nat) (m : ModuleSlot) (s : State) : Res :=
  onUnit (decide (g < 4) && decide (m.lane < 16)) s fun s => s.guestSlot g m.lane m.slot true

/-- GUEST_GO: a slot of the guest die on a module, GO where its tracks say so. -/
def execGuestGo (g : Nat) (m : ModuleSlot) (s : State) : Res :=
  onUnit (decide (g < 4) && decide (m.lane < 16)) s fun s => s.guestSlot g m.lane m.slot false

/-! ## The quiet period of a frequency step (R370) -/

/-- FSTEP_QUIET: C − 3. A guest bridge sends HOLD on every module. -/
def execFstepQuiet (st : Nat) (s : State) : Res :=
  stepFrom st .counting .quiet s fun s =>
    let s1 := s.modReg (bClk 52) 0x88 fun w => setBits (setBits w 0 3 2) 4 4 0
    match guestOfSite st with
    | some g => s1.modGuest g fun x => { x with bridgeHolds := 0xFFFF }
    | none => s1

/-- FSTEP_RESUME: C + 2,048. A guest bridge sends GO on the modules where no packet waits for tokens, and hands on
what it holds. -/
def execFstepResume (st : Nat) (s : State) : Res :=
  stepFrom st .recalibrated .ended s fun s =>
    match guestOfSite st with
    | some g => ([0, 1, 2, 3, 4, 5, 6, 7, 8, 9, 10, 11, 12, 13, 14, 15].foldl (fun s m =>
        s.bridgeHold g m ((guestMod s g m).waiting != [])) s).guestHand g
    | none => s

end Sys2Proof.Machine
end

