-- ==== Sys2Proof/Machine/Ledger.lean ====
section
/-! DEFINITION. Ledger operations and shard initialisation (R225 to R243). -/

namespace Sys2Proof.Machine

/-! ## Requests and replies (R232, R234) -/

/-- The fields of a LEDGER_OP payload (R232). -/
structure LReq where
  op : Nat
  ledger : Nat
  lanes : Nat
  upsert : Bool
  noTouch : Bool
  remove : Bool
  epochArg : Nat
  cursor : Nat
  maxEntries : Nat
  key : List Byte
  value : List Byte
  deriving DecidableEq, Repr

/-- The request a LEDGER_OP carries. -/
def readLReq (p : Packet) : LReq :=
  let b := padTo 96 (pBytes p)
  let q0 := quadAt b 0
  let q1 := quadAt b 8
  ⟨bits q0 0 4, bits q0 4 4, bits q0 8 16, bit q0 24, bit q0 25, bit q0 26, bits q0 32 32, bits q1 0 32,
    bits q1 32 8, (b.drop 32).take 32, (b.drop 64).take 32⟩

/-- The operation is reserved (R232). -/
def LReq.reserved (q : LReq) : Bool := q.op == 0 || decide (6 ≤ q.op)

/-- All bytes are zero. -/
def allZero (l : List Byte) : Bool := l.all (· == 0)

/-- Check 1 of R233 on the fields: those that the operation does not use are zero. -/
def LReq.fieldsOk (q : LReq) : Bool :=
  !q.reserved && decide (q.maxEntries ≤ 128) &&
    (q.op == 3 || (q.lanes == 0 && !q.upsert)) && (q.op == 1 || !q.noTouch) &&
    (q.op == 5 || (!q.remove && q.epochArg == 0 && q.cursor == 0 && q.maxEntries == 0)) &&
    (q.op != 5 || allZero q.key) && (q.op == 2 || q.op == 3 || allZero q.value)

/-- The reply to a ledger operation (R234). -/
structure LReply where
  code : Nat
  epoch : Nat := 0
  cursorNext : Nat := 0
  shardHashed : Nat := 0
  value : List Byte := []
  entries : List (List Byte) := []
  deriving DecidableEq, Repr

/-- The payload of a reply (R234). -/
def LReply.bytes (r : LReply) (q : LReq) : List Byte :=
  quadBytes (field 0 8 r.code ||| field 8 4 q.op ||| field 12 4 q.ledger ||| field 16 8 r.entries.length |||
      field 32 32 r.epoch) ++
    quadBytes (field 0 32 r.cursorNext ||| field 32 13 r.shardHashed) ++ List.replicate 16 0 ++
    padTo 32 r.value ++ r.entries.flatten

/-- The LEDGER_REPLY to a request (R234). -/
def ledgerReply (p : Packet) (data : List Byte) : Packet :=
  { h0 := mkH0 kLedgerReply 0 (pGen p) data.length (pRetCc p), h1 := returnAddr p (pLand p * 64),
    h2 := setBits (field 0 30 (pTag p)) 17 1 0, h3 := setBits p.h3 0 16 0, data := data }

/-! ## Looking a key up (R236) -/

/-- The metadata word of a position. -/
def Slice.metaWord (c : Slice) (nd : Nat) (d : Shard) (p : Nat) : Word :=
  quadAt (c.readDram nd (d.metaAt p) 8) 0

/-- The entry at a position is live. -/
def Slice.isLive (c : Slice) (nd : Nat) (d : Shard) (p : Nat) : Bool := bit (c.metaWord nd d p) 0

/-- The 64 bytes of the entry at a position. -/
def Slice.entry (c : Slice) (nd : Nat) (d : Shard) (p : Nat) : List Byte := c.readDram nd (d.entryAt p) 64

/-- The slots of bucket j. -/
def bucketSlots (j : Nat) : List Nat := (List.range 8).map (j * 8 + ·)

/-- The stash positions. -/
def stashSlots (d : Shard) : List Nat := (List.range 1024).map (d.slots + ·)

/-- The positions that a lookup compares, in order (R236). -/
def Slice.lookPositions (c : Slice) (d : Shard) (b1 b2 : Nat) : List Nat :=
  bucketSlots b1 ++ bucketSlots b2 ++ (if c.stashLive > 0 then stashSlots d else [])

/-- The live positions among them. -/
def Slice.livePositions (c : Slice) (nd : Nat) (d : Shard) (b1 b2 : Nat) : List Nat :=
  (c.lookPositions d b1 b2).filter (c.isLive nd d)

/-- The position of a key (R236). -/
def Slice.findKey (c : Slice) (nd : Nat) (d : Shard) (b1 b2 : Nat) (key : List Byte) : Option Nat :=
  (c.livePositions nd d b1 b2).find? fun p => (c.entry nd d p).take 32 == key

/-- The lines that a lookup reads: metadata, and every line that holds a live entry (R215, R236). -/
def Slice.lookLines (c : Slice) (nd : Nat) (d : Shard) (b1 b2 : Nat) : List Nat :=
  (byteLines (d.metaAt (b1 * 8)) 64 ++ byteLines (d.metaAt (b2 * 8)) 64 ++
    (if c.stashLive > 0 then byteLines (d.metaAt d.slots) 8192 else []) ++
    (c.livePositions nd d b1 b2).flatMap fun p => byteLines (d.entryAt p) 64).eraseDups

/-- The free slots of a bucket, lowest first. -/
def Slice.freeSlots (c : Slice) (nd : Nat) (d : Shard) (j : Nat) : List Nat :=
  (bucketSlots j).filter fun p => !c.isLive nd d p

/-! ## What an operation does -/

/-- The outcome of an operation: its reply, the lines it reads, its writes, and by how much LIVE and
STASH_LIVE change. -/
structure LOut where
  reply : LReply
  reads : List Nat
  writes : List (Nat × List Byte) := []
  live : Int := 0
  stash : Int := 0
  deriving DecidableEq, Repr

/-- The metadata word of a position, written. -/
def metaWrite (d : Shard) (p : Nat) (w : Word) : Nat × List Byte := (d.metaAt p, quadBytes w)

/-- 1 at a stash position (R236, R238). -/
def stashOne (d : Shard) (p : Nat) : Int := if p < d.slots then 0 else 1

/-- UPDATE's lane operations on a value (R232). -/
def applyLanes (lanes : Nat) (old arg : List Byte) : List Byte :=
  (List.range 8).flatMap fun k =>
    let a := leNat ((old.drop (4 * k)).take 4)
    let v := leNat ((arg.drop (4 * k)).take 4)
    let r := match lanes / 4 ^ k % 4 with
      | 0 => a
      | 1 => (a + v) % 2 ^ 32
      | 2 => max a v
      | _ => v
    leBytes r 4

/-- Where an absent key is placed, or the refusal's code; with it, whether the stash was looked at
(R236, R237). -/
def Slice.place (c : Slice) (nd : Nat) (d : Shard) (cap b1 b2 : Nat) : Sum Nat Nat × Bool :=
  let f1 := c.freeSlots nd d b1
  let f2 := c.freeSlots nd d b2
  if (cap : Int) ≤ c.live then (.inr 3, false)
  else if f1 ≠ [] ∧ f2.length ≤ f1.length then (.inl (f1.headD 0), false)
  else if f2 ≠ [] then (.inl (f2.headD 0), false)
  else if c.stashLive < 1024 then
    match (stashSlots d).find? fun p => !c.isLive nd d p with
    | some p => (.inl p, true)
    | none => (.inr 4, true)
  else (.inr 4, false)

/-- An insert of an absent key with a value (R236, R239). -/
def Slice.insertKey (c : Slice) (nd : Nat) (d : Shard) (cap epoch b1 b2 : Nat) (key value : List Byte) : LOut :=
  let look := c.lookLines nd d b1 b2
  let r := c.place nd d cap b1 b2
  let reads := (look ++ if r.2 then byteLines (d.metaAt d.slots) 8192 else []).eraseDups
  match r.1 with
  | .inr code => { reply := { code := code }, reads := reads }
  | .inl p =>
    { reply := { code := 1, value := value }, reads := reads,
      writes := [(d.entryAt p, key ++ value), metaWrite d p (field 0 1 1 ||| field 32 32 epoch)],
      live := 1, stash := stashOne d p }

/-- FIND (R232, R239). -/
def Slice.opFind (c : Slice) (nd : Nat) (d : Shard) (epoch b1 b2 : Nat) (q : LReq) : LOut :=
  let reads := c.lookLines nd d b1 b2
  match c.findKey nd d b1 b2 q.key with
  | none => { reply := { code := 2 }, reads := reads }
  | some p =>
    let m := c.metaWord nd d p
    { reply := { code := 0, epoch := bits m 32 32, value := (c.entry nd d p).drop 32 }, reads := reads,
      writes := if q.noTouch then [] else [metaWrite d p (setBits m 32 32 epoch)] }

/-- FIND_OR_INSERT (R232, R236, R239). -/
def Slice.opFindOrInsert (c : Slice) (nd : Nat) (d : Shard) (cap epoch b1 b2 : Nat) (q : LReq) : LOut :=
  match c.findKey nd d b1 b2 q.key with
  | none => c.insertKey nd d cap epoch b1 b2 q.key q.value
  | some p =>
    let m := c.metaWord nd d p
    { reply := { code := 0, epoch := bits m 32 32, value := (c.entry nd d p).drop 32 },
      reads := c.lookLines nd d b1 b2, writes := [metaWrite d p (setBits m 32 32 epoch)] }

/-- UPDATE (R232, R236, R239). -/
def Slice.opUpdate (c : Slice) (nd : Nat) (d : Shard) (cap epoch b1 b2 : Nat) (q : LReq) : LOut :=
  match c.findKey nd d b1 b2 q.key with
  | none =>
    if q.upsert then
      c.insertKey nd d cap epoch b1 b2 q.key (applyLanes q.lanes (List.replicate 32 0) q.value)
    else { reply := { code := 2 }, reads := c.lookLines nd d b1 b2 }
  | some p =>
    let m := c.metaWord nd d p
    let v := applyLanes q.lanes ((c.entry nd d p).drop 32) q.value
    { reply := { code := 0, epoch := bits m 32 32, value := v }, reads := c.lookLines nd d b1 b2,
      writes := [(d.entryAt p + 32, v), metaWrite d p (setBits m 32 32 epoch)] }

/-- REMOVE (R238). -/
def Slice.opRemove (c : Slice) (nd : Nat) (d : Shard) (b1 b2 : Nat) (q : LReq) : LOut :=
  let reads := c.lookLines nd d b1 b2
  match c.findKey nd d b1 b2 q.key with
  | none => { reply := { code := 2 }, reads := reads }
  | some p =>
    let m := c.metaWord nd d p
    { reply := { code := 0, epoch := bits m 32 32, value := (c.entry nd d p).drop 32 }, reads := reads,
      writes := [metaWrite d p (setBit m 0 false)], live := -1, stash := -stashOne d p }

/-- An entry with epoch e qualifies for a SCAN (R240). -/
def scanOlder (arg e : Nat) : Bool :=
  let x := (arg + 2 ^ 32 - e) % 2 ^ 32
  decide (1 ≤ x) && decide (x ≤ 2 ^ 31 - 1)

/-- Examine positions from p while entries may still be returned: those that qualify, and the first
position not examined (R240). -/
def Slice.scanFrom (c : Slice) (nd : Nat) (d : Shard) (arg : Nat) : Nat → Nat → Nat → List Nat × Nat
  | 0, _, p => ([], p)
  | f + 1, left, p =>
    if left = 0 ∨ d.positions ≤ p then ([], p)
    else
      let m := c.metaWord nd d p
      if bit m 0 && scanOlder arg (bits m 32 32) then
        let r := c.scanFrom nd d arg f (left - 1) (p + 1)
        (p :: r.1, r.2)
      else c.scanFrom nd d arg f left (p + 1)

/-- SCAN (R240). -/
def Slice.opScan (c : Slice) (nd : Nat) (d : Shard) (q : LReq) : LOut :=
  if q.maxEntries = 0 then { reply := { code := 0, cursorNext := q.cursor }, reads := [] }
  else
    let r := c.scanFrom nd d q.epochArg 4096 q.maxEntries q.cursor
    let metas := ((List.range (r.2 - q.cursor)).flatMap fun i => byteLines (d.metaAt (q.cursor + i)) 8).eraseDups
    { reply := { code := 0, cursorNext := if d.positions ≤ r.2 then 0xFFFF_FFFF else r.2,
                 entries := r.1.map (c.entry nd d) },
      reads := (metas ++ r.1.flatMap fun p => byteLines (d.entryAt p) 64).eraseDups,
      writes := if q.remove then r.1.map fun p => metaWrite d p (setBit (c.metaWord nd d p) 0 false) else [],
      live := if q.remove then -(r.1.length : Int) else 0,
      stash := if q.remove then -((r.1.map (stashOne d)).sum) else 0 }

/-- The checks 1 to 3 of R233, then the operation. -/
def ledgerRun (s : State) (n : Nat) (p : Packet) : LOut :=
  let c := s.slice n
  let d := shardOf s n
  let q := readLReq p
  let pl := d.places q.key
  let cap := s.getField (bLgr n) 0x10 0 23
  let epoch := s.getField (bLgr n) 0x28 0 32
  if pLen p ≠ 96 ∨ aOff p.h1 ≠ 0x1_0000 ∨ !q.fieldsOk then { reply := { code := 5 }, reads := [] }
  else if !c.active || q.ledger != d.ledger || (q.op != 5 && pl.1 != d.index) then
    { reply := { code := 6, shardHashed := if q.op = 5 then 0 else pl.1 }, reads := [] }
  else if q.op = 5 ∧ d.slots + 1023 < q.cursor then { reply := { code := 5 }, reads := [] }
  else match q.op with
    | 1 => c.opFind n d epoch pl.2.1 pl.2.2 q
    | 2 => c.opFindOrInsert n d cap epoch pl.2.1 pl.2.2 q
    | 3 => c.opUpdate n d cap epoch pl.2.1 pl.2.2 q
    | 4 => c.opRemove n d pl.2.1 pl.2.2 q
    | _ => c.opScan n d q

/-- The lines that the writes of an operation store. -/
def LOut.stores (o : LOut) : List Nat := (o.writes.flatMap fun w => byteLines w.1 w.2.length).eraseDups

/-- Count a refusal in LGR_ERR (R234). -/
def State.countLgr (s : State) (n code : Nat) : State :=
  match code with
  | 3 => s.countField (bLgr n) 0x38 0 16
  | 4 => s.countField (bLgr n) 0x38 16 16
  | 5 => s.countField (bLgr n) 0x38 32 16
  | 6 => s.countField (bLgr n) 0x38 48 16
  | _ => s

/-- An operation's effect on its slice. One that meets an uncorrected error changes nothing (R216); a line
is read before it is stored. -/
def State.ledgerApply (s : State) (n pl : Nat) (p : Packet) (o : LOut) : State :=
  let reads := (o.reads ++ o.stores).eraseDups
  let q := readLReq p
  let s1 := s.readLines n reads
  if reads.any (s.slice n).badLines.contains then s1.respond n pl (ledgerReply p (LReply.bytes { code := 7 } q))
  else
    let s2 := (s1.storeLines n o.stores).modSlice n fun c =>
      o.writes.foldl (fun c w => c.writeDram w.1 w.2)
        { c with live := c.live + o.live, stashLive := c.stashLive + o.stash }
    (s2.countLgr n o.reply.code).respond n pl (ledgerReply p (o.reply.bytes q))

/-- The oldest ledger operation of a slice, where its OP is the row's or reserved, is performed (R213,
R235, R242). -/
def ledgerRow (n row : Nat) (s : State) : Res :=
  onCore n s fun s =>
    let c := s.slice n
    match c.queue.findIdx? fun r => pKind r.pkt == kLedgerOp with
    | none => s
    | some i =>
      match c.queue[i]? with
      | none => s
      | some r =>
        let q := readLReq r.pkt
        if c.initBusy || !(q.op == row || q.reserved) || !mayPerform s n i then s
        else
          (s.modSlice n fun c => { c with queue := c.queue.eraseIdx i }).ledgerApply n r.plane r.pkt
            (ledgerRun s n r.pkt)

/-- FIND (R232). -/
def execFind (n : Nat) (s : State) : Res := ledgerRow n 1 s
/-- FIND_OR_INSERT (R236). -/
def execFindOrInsert (n : Nat) (s : State) : Res := ledgerRow n 2 s
/-- UPDATE (R232). -/
def execUpdate (n : Nat) (s : State) : Res := ledgerRow n 3 s
/-- REMOVE (R238). -/
def execRemove (n : Nat) (s : State) : Res := ledgerRow n 4 s
/-- SCAN (R240). -/
def execScan (n : Nat) (s : State) : Res := ledgerRow n 5 s

/-! ## Initialisation (R242) -/

/-- The fields of LGR_CFG whose change re-initialises a shard: all but ENABLE. -/
def lgrIdentity (s : State) (n : Nat) : Word × Word × Word :=
  (setBit (s.reg (bLgr n) 0x08) 0 false, s.reg (bLgr n) 0x18, s.reg (bLgr n) 0x20)

/-- What an applied commit of the LGR block does, old being the panel before it (R242). -/
def State.lgrApplied (s old : State) (n : Nat) : State :=
  if !bit (s.reg (bLgr n) 0x08) 0 then s.modSlice n fun c => { c with initBusy := false, active := false }
  else if bit (old.reg (bLgr n) 0x08) 0 && lgrIdentity s n == lgrIdentity old n then s
  else s.modSlice n fun c => { c with live := 0, stashLive := 0, initBusy := true, active := false }

/-- len bytes from offset a of a slice are zeroed. -/
def State.zeroDram (s : State) (n a len : Nat) : State :=
  (s.countMc n 0x28 0 (len / 128)).modSlice n fun c =>
    let out := fun l => !(decide (a ≤ 128 * l) && decide (128 * l < a + len))
    { c with dram := Sparse.fillRange a len 0 c.dram
             badLines := c.badLines.filter out
             corrLines := c.corrLines.filter out }

/-- SHARD_INIT_DONE: the metadata of the new area is zero and the shard is active (R242). -/
def execShardInitDone (n : Nat) (s : State) : Res :=
  onCore n s fun s =>
    if (s.slice n).initBusy && sliceServes s n then
      let d := shardOf s n
      let s1 := (s.zeroDram n (d.metaAt 0) (2 ^ d.b * 64)).zeroDram n (d.metaAt d.slots) 8192
      s1.modSlice n fun c => { c with initBusy := false, active := true }
    else s

end Sys2Proof.Machine
end

