-- ==== Sys2Proof/Machine/ImgState.lean ====
section
/-! DEFINITION. The state of an image load and how a load fails (R282, R283, R292, R425), and the commit
registers as DISCARD leaves them (R36). -/

namespace Sys2Proof.Machine

/-- IMG_STAT.STATE. -/
def imgState (s : State) : Nat := s.getField bImg 0x10 0 3

/-- A load is in progress: RECEIVING, CHECKING, REPAIR or READY. -/
def imgBusy (s : State) : Bool := decide (1 ≤ imgState s) && decide (imgState s ≤ 4)

/-- The staged set of a block is empty. -/
def State.dropStaged (s : State) (k : Blk) : State :=
  { s with staged := Sparse.dropRange (k.key 0) 0x1_0000 s.staged }

/-- The commit register after a DISCARD: STATUS DISCARDED, nothing staged (R36). -/
def discardedWord (w : Word) : Word := setBits (setBits (setBits w 4 4 4) 16 16 0) 32 16 0

/-- DISCARD at a block (R36). -/
def State.discardBlk (s : State) (k : Blk) : State := (s.dropStaged k).modReg k 0 discardedWord

/-- Offset of STW_RGNr_CFG. -/
def rgnOff (r : Nat) : Nat := 0x1000 + 32 * r

/-- STW_RGNr_CFG of region r. -/
def rgnCfg (s : State) (r : Nat) : Word := s.reg (bStw 0) (rgnOff r)

/-- VALID of a region. -/
def rgnValid (s : State) (r : Nat) : Bool := bit (rgnCfg s r) 0

/-- STATE of a region: 0 ABSENT, 1 LOADING, 2 RUNNING, 3 STOPPED, 4 RESETTING, 5 CLEARED. -/
def rgnState (s : State) (r : Nat) : Nat := bits (rgnCfg s r) 1 3

/-- Set STATE of a region. -/
def State.setRgnState (s : State) (r v : Nat) : State := s.setField (bStw 0) (rgnOff r) 1 3 v

/-- Every region id. -/
def allRegions : List Nat := List.range 32

/-- The load fails with a code (R283): section, where one is at fault; node, where one is named. Its
regions are left CLEARED (R425), and blocks into which it has staged are discarded. -/
def State.imgFail (s : State) (code sec : Nat) (node : Option Nat) : State :=
  let s1 := s.modReg bImg 0x10 fun w => setBits (setBits (setBits w 0 3 6) 8 8 code) 16 9 sec
  let s2 := match node with
    | some n => s1.setField bImg 0x10 32 14 n
    | none => s1
  let s3 := s.lead.img.staged.foldl State.discardBlk s2
  let s4 := allRegions.foldl (fun s r => if rgnState s r = 1 then s.setRgnState r 5 else s) s3
  (s4.modLead fun l => { l with img := { l.img with
    staged := [], waitAdvance := [], window := [], sent := [], short := [], repairing := false } }).noticeLead
      0x0503

/-- A region of the load is lost to a compute reset or to shedding (R283). -/
def State.imgInterrupt (s : State) (lost : Nat → Bool) : State :=
  if imgBusy s && allRegions.any (fun r => rgnState s r == 1 && lost r) then s.imgFail 0x0F 0 none else s

end Sys2Proof.Machine
end

