-- ==== Sys2Proof/Machine/Power.lean ====
section
/-! DEFINITION. Rails, VCORE phases, headers, the guest rail, the Watershed, heat and the PMBus (R375 to
R402), and the thermal levels of the DRAM (R222, R223). -/

namespace Sys2Proof.Machine

/-! ## Caps (R381) -/

/-- The steward of a site's quadrant. -/
def stewardFor (st : Nat) : Nat := quadrantOf st

/-- The thermal cap of a core (R396). -/
def thermalCap (s : State) (n : Nat) : Nat := Sparse.getD 8 (s.steward (stewardFor (siteOf n))).caps n

/-- The site cap (R381). -/
def siteCap (s : State) (st : Nat) : Nat := if siteState s st = 3 then 5 else 8

/-- The steward writes CORE_THROTTLE.CAP of a core whose headers are on (R381). -/
def State.writeCap (s : State) (n : Nat) : State :=
  if headerOn s n then s.setField (bCore n) 0x40 0 4 (min (siteCap s (siteOf n)) (thermalCap s n)) else s

/-! ## Headers (R384 to R387) -/

/-- The cores of group g of a site. -/
def groupNodes (st g : Nat) : List Nat := (List.range 8).map fun x => nodeOf st (8 * g + x)

/-- An offer at a compute node that its core built: a response of its registers or of its scratchpad, a credit, or a
notice of the core, of its RREG and WREG, or about a packet for it. The notices of the site controller and the slices
stay (DEDUCED, assumption 97). -/
def coreOffer (o : Offer) : Bool :=
  let k := pKind o.pkt
  let q := fun i => quadAt (pBytes o.pkt) (8 * i)
  let code := bits (q 0) 0 16
  k == kReadResp || k == kAck || k == kRedDone || k == kCredit ||
    (k == kNotice && (code / 256 == 1 || (q 1 == 0 && (code == 0x0215 || code == 0x0216)) ||
      (q 1 != 0 && (aSpace (q 2) == 1 || aSpace (q 2) == 2))))

/-- The core over a node is at reset: it holds nothing, its registers included (R387). -/
def State.coreReset (s : State) (n : Nat) : State :=
  { (s.setCore n {}) with
    regs := Sparse.dropRange ((bCore n).key 0) 0x1_0000 s.regs
    staged := Sparse.dropRange ((bCore n).key 0) 0x1_0000 s.staged }

/-- The core over a node loses everything as its headers go off, what it has built and not yet injected included; a packet
part-way into its inbox chain is discarded with its credit (R384, R386, R387). -/
def State.coreOff (s : State) (n : Nat) : State :=
  (if headerOn s n then
    (s.modRouter n fun r => { r with offers := r.offers.filter fun o => !coreOffer o }).dropAdmission n
  else s).coreReset n

/-- The headers of the core over a node come on: its registers are at reset, clearing runs, and the
steward writes its cap (R381, R384, R387). -/
def State.coreOn (s : State) (n : Nat) : State := ((s.coreReset n).beginClear n).writeCap n

/-- The banks on in group g of a site, 0 to 4. -/
def banksOn (s : State) (st g : Nat) : Nat := Sparse.getD 0 (s.site st).banks g

/-- The headers of a site are effective (R385). -/
def headersEffective (s : State) (st : Nat) : Bool :=
  bit (s.reg (bSp st) 0x08) 1 && decide (siteState s st ≠ 0) && decide (siteState s st ≠ 4) &&
    decide (s.getField (bSp st) 0x10 12 3 = 0)

/-- Every bank that R384 turns on before the next bank of group g is on. -/
def bankDue (s : State) (st g : Nat) : Bool :=
  let sp := s.getField (bSp st) 0x08 8 8
  let at_ := g * sp + banksOn s st g
  (List.range 8).all fun h => decide (banksOn s st h = 4) || decide (at_ ≤ h * sp + banksOn s st h)

/-- HEADER_GROUP_STEP: the next bank of group g comes on in the order of R384's times, or the four banks of
the group go off after those of the groups before it. -/
def execHeaderGroupStep (st g : Nat) (s : State) : Res :=
  onUnit (isComputeSite st && decide (g < 8)) s fun s =>
    let b := banksOn s st g
    if headersEffective s st then
      if (s.site st).railOk && decide (b < 4) && bankDue s st g then
        let s1 := s.modSite st fun x => { x with banks := Sparse.put g (b + 1) x.banks }
        if b = 3 then (groupNodes st g).foldl State.coreOn s1 else s1
      else s
    else if b ≠ 0 ∧ (List.range g).all fun h => banksOn s st h == 0 then
      ((groupNodes st g).foldl State.coreOff s).modSite st fun x => { x with banks := Sparse.del g x.banks }
    else s

/-! ## Losing a rail -/

/-- The slice controllers of a site lose VCORE and their DRAM loses VDRAM (R210, R375). Their registers are
at reset when the rails come back (assumption 29). -/
def State.slicesOff (s : State) (st : Nat) : State :=
  let s1 := (siteNodes st).foldl (fun s n =>
    let s1 := (s.setSlice n {}).loseDram n
    { s1 with
      regs := Sparse.dropRange ((bLgr n).key 0) 0x1_0000 (Sparse.dropRange ((bMc n).key 0) 0x1_0000 s1.regs)
      staged := Sparse.dropRange ((bLgr n).key 0) 0x1_0000
        (Sparse.dropRange ((bMc n).key 0) 0x1_0000 s1.staged) }) s
  s1.setField (bClk st) 0x28 24 1 0

/-- Headers, VCORE and VDRAM of a site go off at once (R382); its VCORE measures 0 (R402). -/
def State.railsOff (s : State) (st : Nat) : State :=
  let s1 := ((siteNodes st).foldl State.coreOff s).modSite st fun x => { x with banks := [], railOk := false }
  (s1.slicesOff st).modReg (bSp st) 0x20 fun w => setBits (setBits w 0 10 0) 16 10 0

/-- VFENCE is set at the 64 nodes of a site (R382, R397). -/
def State.fenceSite (s : State) (st : Nat) : State := (siteNodes st).foldl (fun s n => s.setFence n true) s

/-! ## VCORE phases (R379 to R382) -/

/-- A site goes DARK (R382). -/
def State.goDark (s : State) (st : Nat) : State :=
  ((((s.railsOff st).setField (bSp st) 0x10 0 3 4).fenceSite st).noticeSite st 0x0904).flagRemap st 1

/-- A site becomes CAPPED (R380, R381). -/
def State.goCapped (s : State) (st : Nat) : State :=
  (siteNodes st).foldl State.writeCap ((s.setField (bSp st) 0x10 0 3 3).noticeSite st 0x0903)

/-- Failed phases of a site. -/
def failedPhases (s : State) (st : Nat) : Nat := s.getField (bSp st) 0x10 16 5

/-- A phase has failed (R379, R380). -/
def State.failPhase (s : State) (st ph : Nat) : State :=
  if bit (s.reg (bSp st) 0x18) (16 + ph) then s
  else
    let f := failedPhases s st + 1
    let s1 := ((s.setField (bSp st) 0x18 (16 + ph) 1 1).setField (bSp st) 0x10 16 5 f).noticeSite st 0x0901
    if f = 5 then s1.goDark st
    else if f = 3 ∧ siteState s st = 2 then s1.goCapped st
    else s1

/-- A phase that switches: that of a site whose VCORE is on, ramping or in regulation, and that has not failed. Every
site has its 16 phases (R10); the fixed sites' feed no rail (R375, R402). -/
def onPhase (st ph : Nat) (s : State) (f : State → State) : Res :=
  onUnit (isSite st && decide (ph < 16)) s fun s =>
    let x := siteState s st
    if decide (1 ≤ x) && decide (x ≤ 3) && !bit (s.reg (bSp st) 0x18) (16 + ph) then f s else s

/-- PHASE_OC_TRIP: a phase over 30 A trips; three trips within 1 ms fail it (R379). -/
def execPhaseOcTrip (st ph at_ : Nat) (s : State) : Res :=
  onPhase st ph s fun s =>
    let old := (Sparse.getD [] (s.site st).ocTimes ph).filter fun t => decide (at_ ≤ t + 1000)
    let times := old ++ [at_]
    let s1 := (s.countField (bSp st) 0x18 32 16).modSite st fun x =>
      { x with ocTimes := Sparse.put ph times x.ocTimes }
    if 3 ≤ times.length then s1.failPhase st ph else s1

/-- PHASE_IMBALANCE (R379). -/
def execPhaseImbalance (st ph : Nat) (s : State) : Res := onPhase st ph s fun s => s.failPhase st ph

/-- PHASE_SWITCH_FAULT (R379). -/
def execPhaseSwitchFault (st ph : Nat) (s : State) : Res := onPhase st ph s fun s => s.failPhase st ph

/-- RAIL_REGULATION: VCORE and VDRAM are in regulation after POWER_EN is committed; what DRAM holds is undefined
(R210, R380, R384). -/
def execRailRegulation (st : Nat) (s : State) : Res :=
  onUnit (isComputeSite st) s fun s =>
    if powerEn s st ∧ siteState s st = 1 ∧ !s.pins.resetHeld then
      let s1 := (siteNodes st).foldl State.loseDram (s.modSite st fun x => { x with railOk := true })
      if 3 ≤ failedPhases s st then s1.goCapped st else s1.setField (bSp st) 0x10 0 3 2
    else s

/-- Insert into an ascending list. -/
def insertNat (x : Nat) : List Nat → List Nat
  | [] => [x]
  | y :: ys => if x ≤ y then x :: y :: ys else y :: insertNat x ys

/-- The elements of a list in ascending order. -/
def sortNats (l : List Nat) : List Nat := l.foldr insertNat []

/-- OPEN_BOND_CHECK: each droop sensor against the median of the site's 64, at less than half the rated
current, where VCORE is on (R378, R383). The median of 64 is the mean of the two middle readings. -/
def execOpenBondCheck (st : Nat) (mv : List Nat) (amps : Nat) (s : State) : Res :=
  onUnit (isComputeSite st && decide (mv.length = 64)) s fun s =>
    if siteState s st = 0 ∨ 3 < siteState s st then s
    else
      let so := sortNats mv
      let twice := so.getD 31 0 + so.getD 32 0
      let s1 := (s.setField (bSp st) 0x20 0 10 (so.getD 0 0)).setField (bSp st) 0x20 16 10 amps
      if 128 ≤ amps then s1
      else (List.range 64).foldl (fun s i =>
        if 2 * mv.getD i 0 + 60 ≤ twice ∧ !bit (s.reg (bSp st) 0x28) i then
          (s.setField (bSp st) 0x28 i 1 1).noticeSite st 0x0902
        else s) s1

/-! ## The Watershed (R389 to R394) -/

/-- TRIP (R398). -/
def tripped (s : State) : Bool := bit (s.reg bPwr 0x10) 8

/-- Powered compute sites: POWER_EN is 1 and they are not dark. -/
def poweredSites (s : State) : List Nat := computeSites.filter fun st => !siteUnpowered s st

/-- A hold bit is set at a site. -/
def State.hold (s : State) (st i : Nat) : State := s.setField (bSp st) 0x10 i 1 1

/-- The physical sites of region r through the live site map (R392). -/
def regionSites (s : State) (r : Nat) : List Nat :=
  ((List.range 192).filter (regionHas s r)).filterMap (mapSite s leadNode)

/-- The regions of the loaded image with a priority. -/
def prioRegions (s : State) (p : Nat) : List Nat :=
  allRegions.filter fun r => rgnValid s r && bits (rgnCfg s r) 8 3 == p

/-- The classes of R392 in their order: the powered sites of no region, then the physical sites of the regions by
priority. -/
def shedOrder (s : State) : List (List Nat) :=
  let on := poweredSites s
  if imgState s = 4 ∨ imgState s = 5 then
    let used := (allRegions.filter (rgnValid s)).flatMap (regionSites s)
    (on.filter fun st => !used.contains st) :: (List.range 8).map fun p =>
      ((prioRegions s p).flatMap (regionSites s)).eraseDups
  else [on]

/-- A site still has headers on: some bank is, and nothing has switched them off yet (R385, R392). -/
def headersOn (s : State) (st : Nat) : Bool := headersEffective s st && (s.site st).banks != []

/-- The next class that still has headers on is switched off (R392). -/
def State.shed (s : State) : State :=
  match (shedOrder s).find? fun c => c.any (headersOn s) with
  | none => s
  | some c =>
    let s1 := c.foldl (fun s st => s.hold st 12) s
    s1.imgInterrupt fun r => (regionSites s r).any c.contains

/-- Every warming load is off at the sites for which f holds. -/
def State.warmOff (s : State) (f : Nat → Bool) : State :=
  (computeSites.filter f).foldl (fun s st => s.setField (bSm st) 0x300 24 4 0) s

/-- What W3 does on entry (R391). -/
def State.enterW3 (s : State) : State :=
  let on := poweredSites s
  let s1 := on.foldl (fun s st => s.hold st 14) s
  let s2 := [0, 1, 2, 3].foldl (fun s g => s.guestEnable g false) s1
  s2.imgInterrupt fun r => (regionSites s r).any on.contains

/-- PASS_CTL.DOWN at every port (R391). -/
def State.enterW4 (s : State) : State := (List.range 8).foldl (fun s k => s.goDown k 1) s

/-- The level that R390 gives. -/
def ruledLevel (s : State) : Nat :=
  let w := s.reg bPwr 0x10
  max (max (bits w 3 3) (s.getField bPwr 0x08 28 3)) (if !s.pins.pwrOk || !s.pins.coolOk || bit w 8 then 3 else 0)

/-- The effective level follows R390; a change is counted and reported, and the levels entered act in
their order (R391). What leaving a level undoes follows from the level held (R393). -/
def State.updateLevel (s : State) : State :=
  let old := wsLevel s
  let new := ruledLevel s
  if old = new then s
  else
    let s0 := if old < 1 ∧ 1 ≤ new then s.noteSpin else s
    let s1 := (s0.modReg bPwr 0x10 fun w => wrapInc (setBits w 0 3 new) 16 16).noticeLead 0x0905
    let s2 := if old < 1 ∧ 1 ≤ new then s1.warmOff fun _ => true else s1
    let s3 := if old < 2 ∧ 2 ≤ new then s2.shed else s2
    let s4 := if old < 3 ∧ 3 ≤ new then s3.enterW3 else s3
    if old < 4 ∧ 4 ≤ new then s4.enterW4 else s4

/-- Entry thresholds of R389, mV. -/
def entryMv (l : Nat) : Nat := [0, 5600, 5400, 5200, 5000].getD l 0

/-- Leave thresholds of R389, mV. -/
def leaveMv (l : Nat) : Nat := [0, 5700, 5500, 5300, 5100].getD l 0

/-- Every regulator in the Plain stops: what is kept is what was sent, the birth record and the inputs
(R22, R391). -/
def State.powerLoss (s : State) : State :=
  { State.reset with
    pending := s.pending
    free := s.free
    fill := s.fill + 1
    birth := s.birth
    pins := { pwrOk := s.pins.pwrOk, coolOk := s.pins.coolOk } }

/-- VIN as sampled moves the measured level (R389). -/
def State.measureVin (s : State) (v : Nat) : State :=
  let m := s.getField bPwr 0x10 3 3
  let below := [1, 2, 3, 4].foldl (fun b l =>
    Sparse.set 0 l (if v < entryMv l then Sparse.getD 0 s.lead.below l + 1 else 0) b) ([] : Sparse Nat)
  let deep := ([4, 3, 2, 1].find? fun l =>
    decide (s.getField bPwr 0x08 0 8 ≤ Sparse.getD 0 below l) && decide (1 ≤ Sparse.getD 0 below l)).getD 0
  if m < deep then
    (s.modLead fun x => { x with below := below, above := 0 }).setField bPwr 0x10 3 3 deep
  else
    let above := if 1 ≤ m ∧ leaveMv m < v then s.lead.above + 1 else 0
    if 1 ≤ m ∧ s.getField bPwr 0x08 8 8 * 100 ≤ above then
      (s.modLead fun x => { x with below := below, above := 0 }).setField bPwr 0x10 3 3 (m - 1)
    else s.modLead fun x => { x with below := below, above := above }

/-- VIN_SAMPLE: the lowest reading of the 48 fields (R389, R391). -/
def execVinSample (mv : List Nat) (s : State) : Res :=
  onUnit (decide (mv.length = 48)) s fun s =>
    let v := (sortNats mv).getD 0 0
    if s.pins.resetHeld then s
    else if v < 4800 then s.powerLoss
    else ((s.setField bPwr 0x18 0 13 v).measureVin v).updateLevel

/-- SHED_STEP: the interval has passed at W2 or deeper (R392). -/
def execShedStep (s : State) : Res := .next (if 2 ≤ wsLevel s then s.shed else s)

/-- A write of PWR_WS_CFG.FORCE (R390, R402). -/
def State.force (s : State) (f : Nat) : State := (s.setField bPwr 0x08 28 3 (min f 4)).updateLevel

/-- WATERSHED_FORCE (R390). -/
def execWatershedForce (f : BitVec 3) (s : State) : Res := .next (s.force f.toNat)

/-- The level follows an input pin once reset has been released. -/
def State.pinLevel (s : State) : State := if s.pins.resetHeld then s else s.updateLevel

/-- PWR_OK (R390). -/
def execPwrOk (high : Bool) (s : State) : Res :=
  .next { s with pins := { s.pins with pwrOk := high } }.pinLevel

/-- COOL_OK (R390). -/
def execCoolOk (high : Bool) (s : State) : Res :=
  let s1 := { s with pins := { s.pins with coolOk := high } }.pinLevel
  .next (if s.pins.coolOk && !high && !s.pins.resetHeld then s1.noticeLead 0x0909 else s1)

/-- The cause of a hold has ended (R385). -/
def holdEnded (s : State) (st i : Nat) : Bool :=
  if i = 12 then decide (wsLevel s ≤ 1)
  else if i = 14 then decide (wsLevel s ≤ 2) && !tripped s && s.pins.pwrOk && s.pins.coolOk
  else
    decide ((BitVec.ofNat 8 (s.getField (bSm st) 0x300 0 8)).toInt + 10 ≤
      (s.getField (bThm (stewardFor st)) 0x08 0 8 : Int))

/-- A write to SITE_PWR_STAT: a hold is cleared where its cause has ended, GUEST_OC at once (R385, R388). -/
def State.holdClear (s : State) (st : Nat) (v : Word) : State :=
  let s1 := [12, 13, 14].foldl (fun s i => if bit v i && holdEnded s st i then s.setField (bSp st) 0x10 i 1 0 else s) s
  if bit v 15 then s1.guestOcClear st else s1

/-- HOLD_CLEAR (R385). -/
def execHoldClear (st : Nat) (v : Word) (s : State) : Res := onSite st s fun s => s.holdClear st v

/-! ## Heat (R222, R223, R395 to R399) -/

/-- A temperature in °C of a two's complement byte. -/
def celsius (b : Nat) : Int := (BitVec.ofNat 8 b).toInt

/-- THM_SITE.TMAX of a site. -/
def siteTmax (s : State) (st : Nat) : Int := celsius (s.getField (bSm st) 0x300 0 8)

/-- THM_SITE.PRED of a site. -/
def sitePred (s : State) (st : Nat) : Int := celsius (s.getField (bSm st) 0x300 16 8)

/-- THM_CFG of a steward: field at lo, 8 bits. -/
def thmCfg (s : State) (q lo : Nat) : Int := (s.getField (bThm q) 0x08 lo 8 : Int)

/-- "Entered at" of a DRAM level (R222). -/
def dramEntered (l : Nat) : Int := [0, 85, 95, 105].getD l 0

/-- The level that R222 sets from temperature t. -/
def dramNext (level : Nat) (t : Int) : Nat :=
  let up := ([3, 2, 1].find? fun l => decide (dramEntered l ≤ t)).getD 0
  if level < up then up
  else ([3, 2, 1].find? fun l => decide (l ≤ level) && decide (dramEntered l - 3 ≤ t)).getD 0

/-- The index of the first greatest element of a list of integers. -/
def hottest (l : List Int) : Nat :=
  ((List.range l.length).foldl (fun b i => if l.getD b 0 < l.getD i 0 then i else b) 0)

/-- Trip (R398). -/
def State.trip (s : State) : State :=
  if tripped s then s
  else (({ s with pins := { s.pins with tripLow := true } }.setField bPwr 0x10 8 1 1).updateLevel).noticeLead 0x0908

/-- The sensors of a site are reported (R395, R401). -/
def State.reportTemps (s : State) (st : Nat) (temps : List (BitVec 8)) : State :=
  let h := hottest (temps.map BitVec.toInt)
  let s1 := (s.setField (bSm st) 0x300 0 8 (temps.getD h 0).toNat).setField (bSm st) 0x300 8 6 h
  (List.range 8).foldl (fun s k => s.setReg (bSm st) (0x308 + 8 * k) (quadAt temps (8 * k))) s1

/-- DRAM_THERMAL_SAMPLE: the sensor cluster of a site, once VCTL is on. Any sensor may trip; a DRAM level belongs to a
compute site (R10, R222, R223, R395, R398). -/
def execDramThermalSample (st : Nat) (temps : List (BitVec 8)) (s : State) : Res :=
  onUnit (isSite st && decide (temps.length = 64)) s fun s =>
    let b := temps.getD (hottest (temps.map BitVec.toInt)) 0
    if !s.pins.vctl then s
    else if !isComputeSite st then
      let s1 := s.reportTemps st temps
      if 115 ≤ b.toInt then s1.trip else s1
    else
      let was := (s.site st).dramLevel
      let now := dramNext was b.toInt
      let s1 := (s.reportTemps st temps).modSite st fun x => { x with sampled := true, dramLevel := now, dramTemp := b }
      let s2 :=
        if was < 3 ∧ now = 3 then
          ((siteNodes st).foldl (fun s n => s.countField (bMc n) 0x18 32 16) s1).noticeSite st 0x0303
        else s1
      if 115 ≤ b.toInt then s2.trip else s2

/-- The compute sites of a quadrant. -/
def quadrantSites (q : Nat) : List Nat := computeSites.filter fun st => quadrantOf st == q

/-- A notice of steward q. -/
def State.noticeSteward (s : State) (q code : Nat) : State := s.noticeDie (nodeOf (stewardSite q) 0) code none

/-- The hottest core of a site. -/
def hottestCore (s : State) (st : Nat) : Nat := nodeOf st (s.getField (bSm st) 0x300 8 6)

/-- The first site of a list at which f is greatest. -/
def maxSite (f : Nat → Int) : List Nat → Option Nat
  | [] => none
  | st :: rest =>
    match maxSite f rest with
    | some b => if f st < f b then some b else some st
    | none => some st

/-- Every site of a quadrant. -/
def quadrantAll (q : Nat) : List Nat := (List.range 192).filter fun st => quadrantOf st == q

/-- New predictions for the sites of a quadrant: values of the model, free beyond the coolant inlet temperature that it
uses (R395, R444; assumption 14). -/
def State.predict (s : State) (q : Nat) : State :=
  let inlet := s.getField (bThm q) 0x08 32 8
  let s1 := (quadrantAll q).foldl (fun s st =>
    s.setField (bSm st) 0x300 16 8 (Config.thermPred s.free st inlet).toNat) s
  s1.tick

/-- The quadrant's hottest core, ties to the lowest node. -/
def quadrantHottest (s : State) (q : Nat) : Nat :=
  let l := quadrantSites q
  let m := (maxSite (siteTmax s) l).map (siteTmax s)
  ((l.filter fun st => some (siteTmax s st) == m).map (hottestCore s)).foldl (fun b n => min b n) 12287

/-- Set a core's thermal cap, with its effect (R381, R396). -/
def State.setThermalCap (s : State) (q n c : Nat) : State :=
  (s.modSteward q fun x => { x with caps := Sparse.set 8 n c x.caps }).writeCap n

/-- The core with the lowest cap below 8, ties to the lowest node. -/
def lowestCap : Sparse Nat → Option (Nat × Nat)
  | [] => none
  | e :: rest =>
    match lowestCap rest with
    | some b => if b.2 < e.2 then some b else some e
    | none => some e

/-- One throttle step (R396). -/
def State.throttle (s : State) (q : Nat) : State :=
  match maxSite (sitePred s) (quadrantSites q) with
  | none => s
  | some st =>
    let p := sitePred s st
    let caps := (s.steward q).caps
    if thmCfg s q 0 < p then
      let n := hottestCore s st
      let c := Sparse.getD 8 caps n
      if c = 0 then s
      else
        let s1 := s.setThermalCap q n (c - 1)
        if caps = [] then s1.noticeSteward q 0x0906 else s1
    else if p < thmCfg s q 0 - (s.getField (bThm q) 0x08 8 4 : Int) then
      match lowestCap caps with
      | some e => s.setThermalCap q e.1 (e.2 + 1)
      | none => s
    else s

/-- A site that throttling has failed to hold is held and fenced (R397). -/
def State.siteHeat (q : Nat) (s : State) (st : Nat) : State :=
  let x := s.steward q
  let a := if thmCfg s q 0 < sitePred s st ∧ Sparse.getD 8 x.caps (hottestCore s st) = 0 then
      Sparse.getD 0 x.above st + 1 else 0
  let s1 := s.setSteward q { x with above := Sparse.set 0 st (min a 20) x.above }
  if (thmCfg s q 16 ≤ siteTmax s st ∨ 20 ≤ a) ∧ !bit (s.reg (bSp st) 0x10) 13 then
    ((s1.hold st 13).fenceSite st).noticeSteward q 0x0907
  else s1

/-- One step of a site's warming load (R399). -/
def State.warmSite (q : Nat) (s : State) (st : Nat) : State :=
  let w := thmCfg s q 24
  let step := s.getField (bSm st) 0x300 24 4
  let next :=
    if wsLevel s ≠ 0 ∨ w = 0 then 0
    else if siteTmax s st < w then min 8 (step + 1)
    else if w + 2 < siteTmax s st then step - 1
    else step
  s.setField (bSm st) 0x300 24 4 next

/-- STEWARD_THERMAL_SAMPLE (R395 to R399). -/
def execStewardThermalSample (q : Nat) (s : State) : Res :=
  onSteward q s fun s =>
    if s.pins.resetHeld then s
    else
      let s1 := s.predict q
      let top := ((maxSite (sitePred s1) (quadrantAll q)).map (sitePred s1)).getD 0
      let s2 := (s1.setField (bThm q) 0x10 0 8 (BitVec.ofInt 8 top).toNat).setField (bThm q) 0x10 8 14
        (quadrantHottest s1 q)
      let s3 := (quadrantSites q).foldl (State.siteHeat q) (s2.throttle q)
      (quadrantSites q).foldl (State.warmSite q) s3

/-- A write of TRIP_CLEAR: every sensor of the panel reads below 95 °C (R398). -/
def State.tripClear (s : State) : State :=
  if tripped s ∧ (List.range 192).all fun st => decide (siteTmax s st < 95) then
    ({ s with pins := { s.pins with tripLow := false } }.setField bPwr 0x10 8 1 0).updateLevel
  else s

/-- TRIP_CLEAR (R398). -/
def execTripClear (s : State) : Res := .next s.tripClear

/-! ## PMBus (R400, R437) -/

/-- One step of the CRC-8 of packet error checking. -/
def crc8Bit (c : BitVec 8) : BitVec 8 := if c.msb then (c <<< 1) ^^^ 7 else c <<< 1

/-- The packet error code of the bytes of a transaction, address bytes included (R437; PRESUMED, assumption 66). -/
def pmbusPec (l : List Byte) : Byte :=
  l.foldl (fun c b => [0, 1, 2, 3, 4, 5, 6, 7].foldl (fun c _ => crc8Bit c) (c ^^^ b)) 0

/-- The address byte of a transfer: 7 address bits and the direction. -/
def busAddr (addr : Nat) (read : Bool) : Byte := BitVec.ofNat 8 (2 * addr + read.toNat)

/-- The bytes that the host drives in a read of command cmd. -/
def busRead (addr cmd : Nat) : List Byte := [busAddr addr false, BitVec.ofNat 8 cmd, busAddr addr true]

/-- The bytes that the host drives in a write, with their packet error code. -/
def busWrite (addr cmd : Nat) (data : List Byte) : List Byte :=
  let l := busAddr addr false :: BitVec.ofNat 8 cmd :: data
  l ++ [pmbusPec l]

/-- An acknowledged read of n bytes ends well: within the stretching allowed, and with the code that its bytes give
(R437). -/
def busOk (addr cmd n : Nat) (a : BusAnswer) : Bool :=
  !a.stretched && decide (a.data.length = n) && a.pec == pmbusPec (busRead addr cmd ++ a.data)

/-- A LINEAR11 value in units of 2^-16: an 11-bit mantissa times two to a 5-bit exponent, both signed (R437;
PRESUMED, assumption 66). -/
def linear11 (d : List Byte) : Int :=
  let w := BitVec.ofNat 16 (leNat d)
  (w.extractLsb' 0 11).toInt * (2 ^ ((w.extractLsb' 11 5).toInt + 16).toNat : Nat)

/-- The address of polled module m. -/
def moduleAddr (s : State) (m : Nat) : Nat := (s.getField bPwr 0x28 0 7 + m) % 128

/-- The answers of module m; one that gives none has sent a NAK. -/
def moduleAnswer (answers : List ModuleAnswer) (m : Nat) : ModuleAnswer := answers.getD m ⟨none, none, none⟩

/-- The two bytes that module m answers to a read of command cmd, none for a NAK. -/
def moduleRead (s : State) (m cmd : Nat) (a : Option BusAnswer) : Option (List Byte) :=
  (a.filter (busOk (moduleAddr s m) cmd 2)).map BusAnswer.data

/-- The input current that module m reports, in units of 2^-16 A. -/
def moduleIin (s : State) (answers : List ModuleAnswer) (m : Nat) : Int :=
  ((moduleRead s m 0x89 (moduleAnswer answers m).iin).map linear11).getD 0

/-- One polled module: READ_VIN, READ_IIN and STATUS_WORD. -/
def State.pollModule (answers : List ModuleAnswer) (s : State) (m : Nat) : State :=
  let a := moduleAnswer answers m
  let status := moduleRead s m 0x79 a.status
  let reads := [moduleRead s m 0x88 a.vin, moduleRead s m 0x89 a.iin, status]
  let s1 := (reads.filter Option.isNone).foldl (fun s _ => s.countField bPwr 0x30 16 16) s
  if reads.all Option.isSome ∧ status.map leNat = some 0 then s1
  else if bit (s.reg bPwr 0x30) m then s1
  else (s1.setField bPwr 0x30 m 1 1).noticeLead 0x090B

/-- PMBUS_POLL: the sum of READ_IIN is reported in whole amperes (assumption 99). -/
def execPmbusPoll (answers : List ModuleAnswer) (s : State) : Res :=
  .next (
    let m := s.getField bPwr 0x28 8 4
    if m = 0 ∨ s.pins.resetHeld then s
    else
      let sum := (((List.range m).map (moduleIin s answers)).foldl (· + ·) 0 / 65536).toNat
      (List.range m).foldl (State.pollModule answers) (s.setField bPwr 0x18 16 13 (min sum 8191)))

/-- A write of PWR_PMBUS_XACT: GO is ignored while a transaction is BUSY; LEN 3 ends with NAK status. The
register keeps the request until it ends, and the host drives its bytes. -/
def State.pmbusXact (s : State) (v : Word) : State :=
  if !bit v 63 || s.getField bPwr 0x40 0 2 == 1 then s
  else if bits v 16 2 = 3 then s.setField bPwr 0x40 0 2 3
  else
    let out := if bit v 7 then busRead (bits v 0 7) (bits v 8 8)
      else busWrite (bits v 0 7) (bits v 8 8) (leBytes (bits v 32 16) (bits v 16 2))
    ((s.setReg bPwr 0x38 v).setField bPwr 0x40 0 2 1).modLead fun l => { l with bus := out }

/-- PMBUS_XACT (R400). -/
def execPmbusXact (v : Word) (s : State) : Res := .next (s.pmbusXact v)

/-- PMBUS_XACT_DONE: a NAK, a packet error code that does not match, or too long a stretch ends the transaction as NAK
(R400, R437). -/
def execPmbusXactDone (ok : Bool) (data : BusAnswer) (s : State) : Res :=
  .next (
    let v := s.reg bPwr 0x38
    let good := ok && (if bit v 7 then busOk (bits v 0 7) (bits v 8 8) (bits v 16 2) data else !data.stretched)
    if s.getField bPwr 0x40 0 2 ≠ 1 then s
    else if !good then (s.countField bPwr 0x30 16 16).setField bPwr 0x40 0 2 3
    else
      let s1 := s.setField bPwr 0x40 0 2 2
      if bit v 7 then s1.setField bPwr 0x40 16 16 (leNat data.data) else s1)

end Sys2Proof.Machine
end

