-- ==== Sys2Proof/Machine/Commit.lean ====
section
/-! DEFINITION. Staging and commits (R31, R33 to R36, R191), the agreement conditions of every block, and
what an applied commit brings about. -/

namespace Sys2Proof.Machine

/-! ## Staging (R31, R34, R36) -/

/-- The mask of a register's RWS bits. -/
def rwsMask (s : State) (k : Blk) (off : Nat) : Word := ((regInfo s.birth k off).map RegInfo.rws).getD 0

/-- The value a register would have with its staged bits: the staged value where one exists, otherwise the
active one (R192). -/
def eff (s : State) (k : Blk) (off : Nat) : Word :=
  let m := rwsMask s k off
  (s.reg k off &&& ~~~ m) ||| (s.stagedReg k off &&& m)

/-- The register has a staged value. -/
def isStaged (s : State) (k : Blk) (off : Nat) : Bool := (Sparse.find (k.key off) s.staged).isSome

/-- Offsets of a block's staged registers. -/
def stagedOffs (s : State) (k : Blk) : List Nat :=
  (s.staged.filter fun e => decide (k.key 0 ≤ e.1) && decide (e.1 < k.key 0 + 0x1_0000)).map fun e => e.1 - k.key 0

/-- Stage the RWS bits of a write; the write counts once (R34, R36). -/
def State.stage (s : State) (k : Blk) (off : Nat) (m v : Word) : State :=
  if m = 0 then s
  else { s with staged := Sparse.put (k.key off) (v &&& m) s.staged }.countField k 0 16 16

/-- A write to a register whose fields have no behaviour of their own (R31). -/
def State.plainWrite (s : State) (k : Blk) (off : Nat) (i : RegInfo) (v : Word) : State :=
  let w := s.reg k off
  let w1 := ((w &&& ~~~ i.rw) ||| (v &&& i.rw)) &&& ~~~ (v &&& i.w1c)
  let s1 := if w1 = w then s else s.setReg k off w1
  s1.stage k off i.rws v

/-! ## Agreement conditions -/

/-- The least element of a list. -/
def least : List Nat → Option Nat
  | [] => none
  | x :: rest => match least rest with
    | some y => some (min x y)
    | none => some x

/-- off where b fails. -/
def failAt (b : Bool) (off : Nat) : List Nat := if b then [off] else []

/-- CORE_REGION and CORE_SPIN_MODE (R69). -/
def coreFails (s : State) (k : Blk) : List Nat :=
  let r := eff s k 0x30
  let m := eff s k 0x38
  failAt (!bit r 16 && (bits r 0 5 != 0 || bits r 8 4 != 0)) 0x30 ++
    failAt (bits m 0 2 == 3 || (bits m 0 2 == 1 && bits m 8 8 == 0)) 0x38

/-- A RTR_MAPs word names no physical site. -/
def mapNone (w : Word) : Bool := bit w 8

/-- Entry l of a site map breaks R28: map gives the words. -/
def mapBad (map : List Word) (l : Nat) : Bool :=
  let w := map.getD l 0
  let p := bits w 0 8
  decide (192 ≤ p) || (mapNone w && p != 0) ||
    (if siteKind l = .compute then !mapNone w && siteKind p != .compute else mapNone w || p != l) ||
    (!mapNone w && (map.take l).any fun v => !mapNone v && bits v 0 8 == p)

/-- Port d of node n is closed on one of the planes of a mask, by the CLOSED bits c. -/
def closedOn (c : Word) (planes d : Nat) : Bool :=
  [0, 1, 2, 3].any fun p => planes.testBit p && bit c (4 * p + d)

/-- A RTR_DETOURn word of node n breaks R192. -/
def detourBad (n : Nat) (c w : Word) : Bool :=
  let a := bits w 36 3
  decide (6 ≤ a) || decide (bits w 8 7 < bits w 0 7) || decide (bits w 24 7 < bits w 16 7) ||
    decide (95 < bits w 24 7) ||
    (decide (1 ≤ a) && decide (a ≤ 4) && (facesEdge n (a - 1) || closedOn c (bits w 32 4) (a - 1)))

/-- A RTR_TREEt word of node n breaks R192. -/
def treeBad (n : Nat) (c w : Word) : Bool :=
  let p := bits w 1 3
  let bad := fun d => facesEdge n d || closedOn c 15 d
  if bit w 0 then
    decide (5 ≤ p) || (decide (p < 4) && (bit w (4 + p) || bad p)) ||
      [0, 1, 2, 3].any fun d => bit w (4 + d) && bad d
  else bits w 1 8 != 0

/-- Offsets of the tree entries of a router that hold or stage anything but the reset value. -/
def treeOffs (s : State) (k : Blk) : List Nat :=
  let lo := k.key 0x8000
  (((s.regs.map Prod.fst) ++ (s.staged.map Prod.fst)).filter fun x =>
    decide (lo ≤ x) && decide (x < lo + 0x8000)).map (· - k.key 0)

/-- RTR_COMMIT (R28, R192). -/
def rtrFails (s : State) (k : Blk) : List Nat :=
  let n := k.unit
  let c := eff s k 0x18
  let t := eff s k 0x28
  let map := (List.range 192).map fun l => eff s k (0x400 + 8 * l)
  failAt (c &&& edgeMask n != edgeMask n) 0x18 ++
    failAt (decide (1300 < bits t 0 11) || decide (bits t 0 11 < bits t 16 11) ||
      decide (bits t 32 8 < bits t 40 8)) 0x28 ++
    (((List.range 16).filter fun i => detourBad n c (eff s k (0x100 + 8 * i))).map (0x100 + 8 * ·)) ++
    (((List.range 192).filter (mapBad map)).map (0x400 + 8 * ·)) ++
    (treeOffs s k).filter fun o => treeBad n c (eff s k o)

/-- LGR_COMMIT (R245). -/
def lgrFails (s : State) (k : Blk) : List Nat :=
  let w := eff s k 0x08
  let b := bits w 32 5
  let cap := bits (eff s k 0x10) 0 23
  if bit w 0 then
    failAt (decide (13 < bits w 8 4) || decide (2 ^ bits w 8 4 ≤ bits w 16 13) || decide (b < 4) ||
      decide (19 < b) || decide (dramEnd < bits w 40 17 * 4096 + 2 ^ b * 576 + 73728)) 0x08 ++
    failAt (cap == 0 || decide (2 ^ b * 8 + 1024 < cap)) 0x10
  else []

/-- STW_COMMIT (R425). -/
def stwFails (s : State) (k : Blk) : List Nat := failAt (bits (eff s k 0x10) 0 8 == 0) 0x10

/-- IMG_COMMIT (R292). -/
def imgFails (s : State) (k : Blk) : List Nat :=
  let busy := decide (1 ≤ imgState s) && decide (imgState s ≤ 3)
  failAt (bit (s.reg k 0x20) 1 || busy) 0x20 ++
    failAt (isStaged s k 0x20 && bit (eff s k 0x20) 0 &&
      (List.range 8).all fun i => eff s k (0x40 + 8 * i) == 0) 0x40

/-- CTL_COMMIT (R354). -/
def ctlFails (s : State) (k : Blk) : List Nat := failAt (eff s k 0x08 &&& msk 31 16 &&& ~~~ msk 26 17 != 0) 0x08

/-- PWR_COMMIT (R402). -/
def pwrFails (s : State) (k : Blk) : List Nat :=
  let w := eff s k 0x08
  let v := eff s k 0x20
  let p := eff s k 0x28
  failAt (bits w 0 8 == 0 || bits w 8 8 == 0 || bits w 16 10 == 0) 0x08 ++
    failAt (decide (bits v 48 10 < 700) || decide (900 < bits v 48 10) || !bit v 10) 0x20 ++
    failAt (bits p 16 8 == 0 && bits p 8 4 != 0) 0x28

/-- THM_COMMIT (R402). -/
def thmFails (s : State) (k : Blk) : List Nat :=
  let w := eff s k 0x08
  let lim := bits w 0 8
  let off := bits w 16 8
  let warm := bits w 24 8
  failAt (!(decide (85 ≤ lim) && decide (lim ≤ off) && decide (off ≤ 114) && decide (1 ≤ bits w 8 4) &&
    (warm == 0 || (decide (30 ≤ warm) && decide (warm ≤ 70))))) 0x08

/-- The ring conditions of R330 on CFG at offset o and AREA at o + 8. A bad area is AREA's failure where AREA
is staged, else CFG's. -/
def ringFails (s : State) (k : Blk) (o : Nat) : List Nat :=
  let c := eff s k o
  let a := eff s k (o + 8)
  let n := bits c 1 7
  let slots := bits a 32 16
  let busy := (s.ring (if k.kind = .pass then k.unit else 8 + k.unit)).replay.isSome
  (if bit c 0 then
    failAt (n == 0 || decide (64 < n) || decide (12287 < bits c 16 14 + n - 1) ||
      decide (bits c 48 16 < bits c 32 16)) o ++
    failAt (slots == 0 || decide (dramEnd < bits a 0 17 * 4096 + slots * 8320))
      (if isStaged s k (o + 8) then o + 8 else o)
  else []) ++
    failAt (busy && c != s.reg k o) o ++ failAt (busy && a != s.reg k (o + 8)) (o + 8)

/-- PASS_COMMIT (R330). -/
def passFails (s : State) (k : Blk) : List Nat :=
  ((List.range 4).filter fun i =>
    let w := eff s k (0x60 + 8 * i)
    bit w 32 && decide (bits w 16 13 < bits w 0 13)).map (0x60 + 8 * ·) ++
  ((List.range 8).filter fun i =>
    let w := eff s k (0x100 + 8 * i)
    bit w 58 && (decide (bits w 16 16 < bits w 0 16) || decide (12287 < bits w 32 14))).map (0x100 + 8 * ·) ++
  ringFails s k 0x80

/-- An egress word holds an entry of 9 to 15 (R330). -/
def egressBad (w : Word) : Bool := (List.range 16).any fun j => decide (9 ≤ bits w (4 * j) 4)

/-- PASS_DOM_COMMIT (R330). -/
def domFails (s : State) (k : Blk) : List Nat :=
  let w := eff s k 0x08
  let role := bits w 14 2
  let own := bits w 16 13 == bits w 0 13
  failAt (role == 3 || (role == 1 && !(bit w 13 && own)) || (role == 2 && !(bit w 13 && !own))) 0x08 ++
    (stagedOffs s k).filter fun o => decide (0x1000 ≤ o) && egressBad (eff s k o)

/-- CLK_COMMIT (R373). -/
def clkFails (s : State) (k : Blk) : List Nat :=
  failAt (stepUnderWay s) 0 ++
  ([0, 1, 2].filter fun d =>
    let w := eff s k (oscOff d)
    let n := bits w 0 7
    let g := bits w 8 3
    let r := domainRange (domainKind k.unit d)
    if hasDomain k.unit d then
      decide (n < r.1) || decide (r.2 < n) || g == 0 || (decide (n < 56) && decide (5 < g))
    else n != 0 || g != 0).map oscOff

/-- SITE_PWR_COMMIT (R402). -/
def sitePwrFails (s : State) (k : Blk) : List Nat :=
  let w := eff s k 0x08
  let vg := bits w 26 10
  failAt (match siteKind k.unit with
    | .compute => decide (bits w 16 10 < 550) || decide (950 < bits w 16 10) || bits w 8 8 == 0 ||
        (bit w 1 && !bit w 0) || bit w 2 || vg != 0
    | .guest => bit w 0 || bit w 1 || (bit w 2 && (decide (vg < 650) || decide (1000 < vg)))
    | _ => (isStaged s k 0x08 && w &&& rwsMask s k 0x08 != 0) || bits (eff s k 0x18) 0 16 != 0) 0x08

/-- The kinds a FORD_KINDS bit may be set for (R353). -/
def fordKinds : Word := 0x10_1176

/-- FORD_COMMIT (R353). -/
def fordFails (s : State) (k : Blk) : List Nat :=
  let r := eff s k 0x28
  failAt (eff s k 0x20 &&& ~~~ fordKinds != 0) 0x20 ++
  failAt (bits r 0 16 != 0 && decide (bits r 16 16 < 130)) 0x28 ++
  ((List.range 16).filter fun i =>
    let a := eff s k (0x100 + 16 * i)
    bit a 63 && (decide (bits a 8 7 < bits a 0 7) || decide (bits a 24 7 < bits a 16 7) ||
      decide (95 < bits a 24 7) || decide (9 ≤ bits a 32 4))).map (0x100 + 16 * ·) ++
  ((List.range 16).filter fun i =>
    let b := eff s k (0x108 + 16 * i)
    bit (eff s k (0x100 + 16 * i)) 63 && decide (2 ^ 32 < bits b 0 32 + bits b 32 21 * 4096)).map (0x108 + 16 * ·) ++
  ringFails s k 0x200

/-- Offsets of the registers of a block whose staged set breaks its agreement conditions. -/
def blkFails (s : State) (k : Blk) : List Nat :=
  match k.kind with
  | .core => coreFails s k
  | .rtr => rtrFails s k
  | .mc => []
  | .lgr => lgrFails s k
  | .stw => stwFails s k
  | .img => imgFails s k
  | .ctl => ctlFails s k
  | .pwr => pwrFails s k
  | .thm => thmFails s k
  | .pass => passFails s k
  | .dom => domFails s k
  | .clk => clkFails s k
  | .sitePwr => sitePwrFails s k
  | .siteMisc => []
  | .ford => fordFails s k

/-! ## What an applied commit brings about; old is the panel before it -/

/-- RTR: table entries written anew have no error, and a port whose CLOSED bit is cleared recalibrates its
crossing (R177, R423). -/
def State.rtrApplied (s old : State) (n : Nat) : State :=
  let offs := stagedOffs old (bRtr n)
  let s1 := s.modRouter n fun r =>
    { r with badMap := r.badMap.filter fun l => !offs.contains (0x400 + 8 * l)
             badTree := r.badTree.filter fun t => !offs.contains (0x8000 + 8 * t) }
  let opened := bits (old.reg (bRtr n) 0x18 &&& ~~~ s.reg (bRtr n) 0x18) 0 16
  if opened = 0 then s1
  else
    let st := siteOf n
    (List.range 16).foldl (fun s i =>
      if opened.testBit i then
        s.recalPort st (localOf n) (i / 4) (i % 4) (Config.uncentred s.free (xingKey (localOf n) (i / 4) (i % 4)))
      else s) s1

/-- The sites of a field. -/
def fieldSites (f : Nat) : List Nat := (List.range 192).filter fun st => fieldOf st == f

/-- VNET of a field rises: every RTR_* register of the field is at reset (R406). What dies and site
controllers offer still waits. -/
def State.vnetRise (s : State) (f : Nat) : State :=
  ((fieldSites f).flatMap siteNodes).foldl (fun s n =>
    let r := s.router n
    let fresh : Router := { vclosed := if fencedAtReset s.birth n then 0xFF else 0 }
    { (s.setRouter n { fresh with offers := r.offers, plain := r.plain }) with
      regs := Sparse.dropRange ((bRtr n).key 0) 0x1_0000 s.regs
      staged := Sparse.dropRange ((bRtr n).key 0) 0x1_0000 s.staged }) s

/-- VNET of a field falls: words in its routers are lost, and no router is reached until its crossings are calibrated
again; no register of space 0x7 changes (R359, R406). -/
def State.vnetFall (s : State) (f : Nat) : State :=
  (fieldSites f).foldl (fun s st => (loseRouterWords s st).modSite st fun x => { x with crossed := false }) s

/-- PWR (R375, R406). -/
def State.pwrApplied (s old : State) : State :=
  (List.range 48).foldl (fun s f =>
    match vnetOn old f, bit (s.reg bPwr 0x20) f with
    | false, true => s.vnetRise f
    | true, false => s.vnetFall f
    | _, _ => s) s

/-- Ring u after a commit (R327). -/
def State.ringApplied (s old : State) (u : Nat) : State :=
  let c := ringReg s u 0
  let c0 := ringReg old u 0
  let moved := bits c 1 7 != bits c0 1 7 || bits c 16 14 != bits c0 16 14 || ringReg s u 1 != ringReg old u 1
  if bit c 0 && (!bit c0 0 || moved) then s.resetRing u else s

/-- PASS: a raised MIN_WIDTH takes a narrower port DOWN, in EXCHANGE by its receive width (R307, R327). -/
def State.passApplied (s old : State) (k : Nat) : State :=
  let s1 := s.ringApplied old k
  let st := portState s1 k
  let up := st == 5 || st == 6
  if (up && decide (s1.getField (bPass k) 0x20 8 6 < minWidth s1 k)) ||
      ((up || st == 4) && decide (s1.getField (bPass k) 0x20 16 6 < minWidth s1 k)) then s1.goDown k 9 else s1

/-- PASS_DOM: every site controller's copy of the egress table is written (R311, R312). -/
def State.domApplied (s old : State) : State :=
  let offs := stagedOffs old bDom
  { s with sites := s.sites.map fun e =>
      (e.1, { e.2 with badEgress := e.2.badEgress.filter fun i => !offs.contains (0x1000 + 8 * i) }) }

/-- The guest rail goes off under an enabled bridge: it loses every module (R344; assumption 30). -/
def State.guestRailOff (s : State) (st : Nat) : State :=
  let s1 := s.modSite st fun x => { x with guestRail := false }
  match guestOfSite st with
  | none => s1
  | some g =>
    if 2 ≤ guestState s1 g ∧ guestState s1 g ≤ 3 then
      (((((s1.setField (bFord g) 0x10 0 3 4).setField (bFord g) 0x10 4 16 0).setField (bFord g) 0x10 24 4
        1).guestPurge g)).guestNotice g 0x0711 none
    else s1

/-- SITE_PWR: rails on and off, and phases disabled (R375, R377, R379, R388); no rail comes on while PANEL_RESET_N is low
(R434). -/
def State.sitePwrApplied (s old : State) (st : Nat) : State :=
  let w := s.reg (bSp st) 0x08
  let w0 := old.reg (bSp st) 0x08
  let s1 :=
    if bit w 0 && !bit w0 0 then
      if siteState s st = 4 ∨ s.pins.resetHeld then s else s.setField (bSp st) 0x10 0 3 1
    else if bit w0 0 && !bit w 0 then
      let x := s.railsOff st
      if siteState s st = 4 then x else x.setField (bSp st) 0x10 0 3 0
    else s
  let s2 := if bit w0 2 && !bit w 2 then s1.guestRailOff st else s1
  if siteKind st = .compute then
    (List.range 16).foldl (fun s ph => if bit (s.reg (bSp st) 0x18) ph then s.failPhase st ph else s) s2
  else s2

/-- What follows an applied commit of a block. -/
def State.applied (s old : State) (k : Blk) : State :=
  match k.kind with
  | .core => if spinsFull old k.unit then s.spun k.unit else s
  | .rtr => s.rtrApplied old k.unit
  | .mc => s.modSlice k.unit fun c => { c with openSets := [], mcSeen := [] }
  | .lgr => s.lgrApplied old k.unit
  | .stw => s
  | .img => s
  | .ctl =>
    let p := s.getField bCtl 0x08 0 1
    if portState s (8 + p) = 5 then s.setField bCtl 0x10 8 1 p else s
  | .pwr => s.pwrApplied old
  | .thm =>
    if bits (s.reg k 0x08) 24 8 = 0 then s.warmOff fun st => quadrantOf st == k.unit else s
  | .pass => s.passApplied old k.unit
  | .dom => s.domApplied old
  | .clk => s
  | .sitePwr => s.sitePwrApplied old k.unit
  | .siteMisc => s
  | .ford => s.ringApplied old (8 + k.unit)

/-! ## GO and DISCARD (R33, R36, R191) -/

/-- Staged writes that await a commit. -/
def stagedCount (s : State) (k : Blk) : Nat := s.getField k 0 16 16

/-- STATUS and ERR_OFFSET of a commit register. -/
def statusWord (st err : Nat) (w : Word) : Word := setBits (setBits w 4 4 st) 32 16 err

/-- The staged values of a block become active, with no count of staged writes left. -/
def State.activate (s : State) (k : Blk) : State :=
  let s1 := (stagedOffs s k).foldl (fun x o => x.setReg k o (eff s k o)) s
  (s1.dropStaged k).modReg k 0 fun w => wrapInc (setBits (statusWord 1 0 w) 16 16 0) 48 16

/-- IMG_POLICY.LOCK is active (R286). -/
def imgLocked (s : State) : Bool := bit (s.reg bImg 0x20) 1

/-- GO at one block (R33, R36). A locked IMG block rejects every GO (R286). -/
def State.go (s : State) (k : Blk) : State :=
  if k = bImg ∧ imgLocked s then s.modReg k 0 (statusWord 2 4)
  else if stagedCount s k = 0 then s.modReg k 0 (statusWord 3 0)
  else match least (blkFails s k) with
  | some o => s.modReg k 0 (statusWord 2 (o / 8))
  | none => (s.activate k).applied s k

/-- The router blocks of a site. -/
def siteRtrs (st : Nat) : List Blk := (siteNodes st).map bRtr

/-- GO at the site-wide RTR_COMMIT: all 64 or none (R191). -/
def State.goSite (s : State) (st : Nat) : State :=
  let ks := siteRtrs st
  if ks.all fun k => stagedCount s k == 0 then ks.foldl (fun x k => x.modReg k 0 (statusWord 3 0)) s
  else if ks.all fun k => (blkFails s k).isEmpty then ks.foldl (fun x k => (x.activate k).applied s k) s
  else ks.foldl (fun x k => x.modReg k 0 (statusWord 2 (((least (blkFails s k)).getD 0) / 8))) s

/-- A write of a commit register: DISCARD acts alone (R36). -/
def State.writeCommit (s : State) (k : Blk) (v : Word) : State :=
  if bit v 1 then s.discardBlk k else if bit v 0 then s.go k else s

/-- A write of the site-wide RTR_COMMIT (R191). -/
def State.writeCommitSite (s : State) (st : Nat) (v : Word) : State :=
  if bit v 1 then (siteRtrs st).foldl State.discardBlk s else if bit v 0 then s.goSite st else s

end Sys2Proof.Machine
end

