-- ==== Sys2Proof/Machine/Regs.lean ====
section
/-! DEFINITION. Which register an address names, and what a read of it returns (R20, R25, R29 to R31, and
the register tables of every chapter). -/

namespace Sys2Proof.Machine

/-! ## Places -/

/-- What an offset of a register space names: a register of a block; a register of a router through the
site-wide range; a slot or a counter of a core; a word of the birth record. -/
inductive Place where
  | reg (k : Blk) (off : Nat)
  | site (n off : Nat)
  | slot (n i : Nat)
  | cc (n c : Nat)
  | birth (i : Nat)
  deriving DecidableEq, Repr

/-- A register of a block, where its table defines one. -/
def regAt (s : State) (k : Blk) (off : Nat) : Option Place :=
  if off < 0x1_0000 ∧ (regInfo s.birth k off).isSome then some (.reg k off) else none

/-- Space 0x2 (R69). -/
def corePlace (s : State) (n off : Nat) : Option Place :=
  if off < 0x1000 then regAt s (bCore n) off
  else if off < 0x1200 then some (.slot n ((off - 0x1000) / 8))
  else if 0x1_0000 ≤ off ∧ off < 0x1_8000 then some (.cc n ((off - 0x1_0000) / 8))
  else none

/-- Space 0x3 (R191). -/
def rtrPlace (s : State) (n off : Nat) : Option Place :=
  if off < 0x1_0000 then regAt s (bRtr n) off
  else if off < 0x2_0000 ∧ (regAt s (bRtr n) (off - 0x1_0000)).isSome then some (.site n (off - 0x1_0000))
  else none

/-- Space 0x4 (R244). -/
def mcPlace (s : State) (n off : Nat) : Option Place :=
  if off < 0x800 then regAt s (bMc n) off
  else if off < 0x1000 then regAt s (bLgr n) (off - 0x800)
  else none

/-- Space 0x5 at steward q (R20, R292, R354, R401, R425). -/
def stwPlace (s : State) (q off : Nat) : Option Place :=
  if off < 0x1_0000 then regAt s (bStw q) off
  else if 0x50_0000 ≤ off then regAt s (bThm q) (off - 0x50_0000)
  else if q ≠ 0 then none
  else if 0x10_0000 ≤ off ∧ off < 0x10_4000 then some (.birth ((off - 0x10_0000) / 8))
  else if 0x40_0000 ≤ off then regAt s bPwr (off - 0x40_0000)
  else if 0x30_0000 ≤ off then regAt s bCtl (off - 0x30_0000)
  else if 0x20_0000 ≤ off then regAt s bImg (off - 0x20_0000)
  else none

/-- Space 0x6 at port k (R329). -/
def passPlace (s : State) (k off : Nat) : Option Place :=
  if off < 0x1_0000 then regAt s (bPass k) off
  else if 0x10_0000 ≤ off then regAt s bDom (off - 0x10_0000)
  else none

/-- Space 0x7 at a site (R293, R372, R401, R426). -/
def sitePlace (s : State) (st off : Nat) : Option Place :=
  if 0x800 ≤ off then (if off < 0x900 then regAt s (bClk st) (off - 0x800) else none)
  else if 0x200 ≤ off ∧ off < 0x300 then regAt s (bSp st) (off - 0x200)
  else regAt s (bSm st) off

/-- Space 0x8 at guest g: the bridge's own registers (R353). -/
def fordPlace (s : State) (g off : Nat) : Option Place :=
  if 0xF000_0000 ≤ off then regAt s (bFord g) (off - 0xF000_0000) else none

/-- The register that a space, a physical node and an offset name (R25). An offset outside every block's range names
none, as one inside a range that the block does not define (R30; DESIGN CHOICE, assumption 108). -/
def place (s : State) (sp n off : Nat) : Option Place :=
  let st := siteOf n
  if off % 8 ≠ 0 then none
  else match sp with
  | 2 => if isCoreNode n then corePlace s n off else none
  | 3 => rtrPlace s n off
  | 4 => if isCoreNode n then mcPlace s n off else none
  | 5 => match stewardOfSite st with
    | some q => stwPlace s q off
    | none => none
  | 6 => match portOfSite st with
    | some k => passPlace s k off
    | none => none
  | 7 => sitePlace s st off
  | 8 => match guestOfSite st with
    | some g => fordPlace s g off
    | none => none
  | _ => none

/-! ## The birth record (R20) -/

/-- The birth record without its CRC. -/
def birthBody (b : Birth) : List Byte :=
  let n := fun v => (b.siteStatus.filter (· == v)).length
  quadBytes 0x444C_5442_4952_5448 ++ quadBytes 0x4000_0001 ++ quadBytes 0xA101 ++ quadBytes b.serial ++
    quadBytes a1Features ++
    quadBytes (field 0 8 (n 0x01) ||| field 8 8 (n 0x02) ||| field 16 16 b.colRepair.length |||
      field 32 16 b.bondRepair.length) ++
    List.replicate 16 0 ++ padTo 192 b.siteStatus ++ padTo 1536 b.dieId ++ padTo 2304 b.trim ++
    padTo 64 b.fwKeyHash ++ padTo 512 b.idKeyN ++ padTo 8 b.idKeyE ++ List.replicate 192 0 ++
    padTo 8184 (b.colRepair.flatMap fun w => leBytes w.toNat 4) ++ List.replicate 8 0 ++
    padTo 3064 (b.bondRepair.flatMap fun w => leBytes w.toNat 4) ++ List.replicate 248 0

/-- The 16,384 bytes of the birth record. -/
def birthRecord (b : Birth) : List Byte :=
  let l := birthBody b
  l ++ leBytes (crc32c l).toNat 8

/-! ## Fields that follow from other state -/

/-- CORE_STAT.MATCH_LEVEL of core n (R50, R61, R69): 0 while clearing runs, at a core whose array has not fired since its
average was reset, on operands or on dummies, and with MATCH_WINDOW 0 outside MATCH; else the measured average, a free
value (assumption 10). -/
def matchLevel (s : State) (n : Nat) : Nat :=
  let c := s.core n
  let unmeasured := s.getField (bCore n) 0x38 8 8 = 0 ∧ s.getField (bCore n) 0x38 0 2 ≠ 1
  if c.clearing ∨ !(c.fired || spinsFull s n) ∨ unmeasured then 0
  else (Config.matchLevel s.free n).toNat

/-- CORE_STAT of core n (R47 to R50, R69): a core whose headers are off does not spin, and shows both spin fields at
their reset value. -/
def coreStat (s : State) (n : Nat) : Word :=
  let c := s.core n
  let held := s.reg (bCore n) 0x20
  let ctxs := [0, 1, 2, 3]
  let w1 := decide (1 ≤ wsLevel s)
  let on := headerOn s n
  field 0 1 c.clearing.toNat ||| field 1 1 c.clearDone.toNat |||
    field 2 1 (on && ctxs.all fun i => (c.ctx i).state != .ready).toNat |||
    field 3 2 (if !on then 0 else if !coreMember s n || w1 then 2 else s.getField (bCore n) 0x38 0 2) |||
    field 5 4 (effectiveCap s n) |||
    field 9 4 ((ctxs.map fun i => if (c.ctx i).state = .faulted then 2 ^ i else 0).sum) |||
    (held &&& msk 14 13) ||| field 15 1 w1.toNat |||
    field 16 8 (matchLevel s n)

/-- CORE_INBOX_STAT of core n (R69, R161). -/
def inboxStat (s : State) (n : Nat) : Word :=
  let c := s.core n
  let held := s.reg (bCore n) 0x50
  field 0 6 c.inbox.length ||| field 6 6 c.packets ||| (held &&& msk 12 12) |||
    field 14 1 c.flushPending.toNat ||| field 15 1 (decide (32 ≤ c.inbox.length)).toNat ||| (held &&& msk 47 16)

/-- STATE of a context (R40). -/
def ctxStateNum : CtxState → Nat
  | .free => 0
  | .ready => 1
  | .parked => 2
  | .faulted => 3
  | .halted => 4

/-- WAIT_KIND, WAIT_SLOT and WAIT_CC (R69). -/
def waitFields : WaitFor → Word
  | .nothing => 0
  | .slot sl c => field 4 4 1 ||| field 16 6 sl ||| field 22 12 c
  | .count c _ => field 4 4 1 ||| field 22 12 c
  | .inbox => field 4 4 2
  | .fence => field 4 4 3
  | .ending => field 4 4 3

/-- CORE_CTX_STATn (R69). -/
def ctxStat (x : Ctx) : Word :=
  field 0 4 (ctxStateNum x.state) ||| waitFields x.wait ||| field 8 1 x.idle.toNat |||
    field 9 1 x.held.toNat ||| field 10 1 x.wake.toNat ||| field 11 1 x.clearPending.toNat |||
    field 34 6 x.outstanding ||| field 48 16 x.pc

/-- CORE_* registers as read (R69). -/
def readCore (s : State) (n off : Nat) : Word :=
  let c := s.core n
  if off = 0x08 then field 0 14 n ||| field 14 6 (localOf n) ||| field 20 4 1 ||| field 24 8 0xA1
  else if off = 0x20 then coreStat s n
  else if off = 0x50 then inboxStat s n
  else if inArray off 0x80 8 4 then ctxStat (c.ctx ((off - 0x80) / 8))
  else if inArray off 0xA0 8 4 then (c.ctx ((off - 0xA0) / 8)).cairn.zeroExtend 64
  else if inArray off 0xC0 8 4 then (c.ctx ((off - 0xC0) / 8)).faultInfo
  else if inArray off 0xE0 8 4 then (c.ctx ((off - 0xE0) / 8)).faultAddr
  else s.reg (bCore n) off

/-- RTR_* registers as read (R178, R192). GATE_OPEN shows the gate of R178, which the fence of R183 does not move,
and which a quiet period closes (R370; DEDUCED, assumption 88). -/
def readRtr (s : State) (n off : Nat) : Word :=
  if off = 0x08 then
    field 0 14 n ||| field 14 6 (localOf n) ||| field 20 8 (siteOf n) ||| field 28 4 1 ||| field 32 8 0xA1
  else if inArray off 0x30 8 4 then
    let p := (off - 0x30) / 8
    let r := s.plane n p
    let win := 64 * s.getField (bRtr n) 0x28 48 8
    field 0 1 (r.gate && !siteQuiet s (siteOf n)).toNat ||| field 1 11 (occWords s n p) ||| field 12 8 (deflsIn r win) |||
      (s.reg (bRtr n) off &&& msk 51 20)
  else s.reg (bRtr n) off

/-- MC_* registers as read (R222, R224, R245). -/
def readMc (s : State) (n off : Nat) : Word :=
  let x := s.site (siteOf n)
  if off = 0x08 then
    field 0 14 n ||| field 14 6 (localOf n) ||| field 20 4 1 ||| field 24 8 0xA1 ||| field 32 4 8
  else if off = 0x18 then
    field 0 2 x.dramLevel ||| field 2 1 (selfRefresh s).toNat ||| field 8 8 x.dramTemp.toNat |||
      (s.reg (bMc n) off &&& msk 47 32)
  else s.reg (bMc n) off

/-- A count as LGR_STAT shows it. -/
def showCount (i : Int) : Nat := if 0 ≤ i then i.toNat else Config.belowZero i

/-- LGR_* registers as read (R243, R245). -/
def readLgr (s : State) (n off : Nat) : Word :=
  let c := s.slice n
  if off = 0x30 then
    field 0 23 (showCount c.live) ||| field 24 11 (showCount c.stashLive) ||| field 40 1 c.initBusy.toNat |||
      field 41 1 c.active.toNat
  else s.reg (bLgr n) off

/-- STW_FW_STAT.STATE. -/
def fwState (s : State) : Nat := s.getField (bStw 0) 0x20 0 3

/-- STW_* registers as read (R425). -/
def readStw (s : State) (q off : Nat) : Word :=
  if off = 0x08 then
    field 0 2 q ||| field 8 8 (stewardSite q) ||| field 16 1 (decide (q = 0)).toNat ||| field 20 4 1 |||
      field 24 8 0xA1
  else if off = 0x28 then (if fwState s = 3 then quadAt s.lead.fwImage 0x10 else 0)
  else s.reg (bStw q) off

/-- IMG_STAT.ATT_READY. -/
def attReady (s : State) : Bool := bit (s.reg bImg 0x10) 25

/-- IMG_* registers as read (R287, R292). -/
def readImg (s : State) (off : Nat) : Word :=
  if 0x1000 ≤ off ∧ off < 0x1400 then (if attReady s then quadAt s.lead.report (off - 0x1000) else 0)
  else s.reg bImg off

/-- Notices queued in the lead steward (R340). -/
def noticesQueued (s : State) : Nat := (s.lead.egress.filter fun p => pKind p == kNotice).length

/-- CTL_* registers as read (R354). -/
def readCtl (s : State) (off : Nat) : Word :=
  if off = 0x18 then setBits (s.reg bCtl off) 0 11 (noticesQueued s) else s.reg bCtl off

/-- PWR_* registers as read (R402). -/
def readPwr (s : State) (off : Nat) : Word :=
  if off = 0x10 then setBit (setBit (s.reg bPwr off) 6 s.pins.pwrOk) 7 s.pins.coolOk
  else if off = 0x38 then 0
  else s.reg bPwr off

/-- THM_* registers as read (R402). -/
def readThm (s : State) (q off : Nat) : Word :=
  if off = 0x10 then
    (s.reg (bThm q) off &&& msk 21 0) ||| field 22 12 (s.steward q).caps.length ||| field 34 1 (tripped s).toNat |||
      field 40 8 ((quadrantSites q).filter fun st => bit (s.reg (bSp st) 0x10) 13).length
  else if off = 0x18 then 0
  else s.reg (bThm q) off

/-- PASS_* registers as read (R330): widths and the agreement read 0 while the port is not UP. -/
def readPass (s : State) (k off : Nat) : Word :=
  let w := s.reg (bPass k) off
  let up := portState s k == 5
  if off = 0x08 then
    field 0 3 k ||| field 8 8 (linkSite k) ||| field 16 4 1 ||| field 20 8 0xA1 ||| field 32 6 34
  else if off = 0x20 then (if up then w else setBits (setBits w 8 6 0) 16 6 0)
  else if off = 0x28 then (if up then w else setBits w 4 4 0)
  else if off = 0x30 then (if up then w else 0)
  else w

/-- CLK_* registers as read (R358, R374). -/
def readClk (s : State) (st off : Nat) : Word :=
  if inArray off 0x20 8 3 then
    let d := (off - 0x20) / 8
    setBits (showStretches s st d) 26 3 (domainKind st d)
  else s.reg (bClk st) off

/-- A rail of SITE_PWR_MEAS: its setpoint in mV and its R_LL in quarters of a milliohm, where it is on and in
regulation or ramps (R375). -/
def auxRail (s : State) (st : Nat) : Option (Nat × Nat × Bool) :=
  let x := s.site st
  if powerEn s st ∧ siteState s st ≠ 4 then some (1050, 8, x.railOk)
  else if bit (s.reg (bSp st) 0x08) 2 && !bit (s.reg (bSp st) 0x10) 15 && !isBlank s.birth st then
    some (s.getField (bSp st) 0x08 26 10, 1, x.guestRail)
  else none

/-- VAUX and IAUX of SITE_PWR_MEAS: 0 while the rail is off; in regulation the voltage is the setpoint less R_LL times
the current, rounded down, and the current is what is measured (R375, R402; assumption 98). -/
def auxMeas (s : State) (st : Nat) : Nat × Nat :=
  match auxRail s st with
  | none => (0, 0)
  | some (mv, quarters, steady) =>
    let i := Config.auxMeasure s.free st 1 % 1024
    let v := (4 * mv - quarters * i) / 4
    (if steady && decide (v < 1024) then v else Config.auxMeasure s.free st 0 % 1024, i)

/-- SITE_PWR registers as read (R402). -/
def readSp (s : State) (st off : Nat) : Word :=
  let w := s.reg (bSp st) off
  let on := fun g => decide (banksOn s st g = 4)
  if off = 0x10 then
    let groups := ((List.range 8).map fun g => if on g then 2 ^ g else 0).sum
    setBits (setBits w 3 1 (decide (groups = 255)).toNat) 4 8 groups
  else if off = 0x20 then
    setBits (setBits w 32 10 (auxMeas s st).1) 48 10 (auxMeas s st).2
  else w

/-- Guest bridge registers as read (R353). -/
def readFord (s : State) (g off : Nat) : Word :=
  let w := s.reg (bFord g) off
  if off = 0x10 then setBit w 3 (isBlank s.birth (guestSite g)) else w

/-- A register of a block as read (R31). -/
def readBlk (s : State) (k : Blk) (off : Nat) : Word :=
  match k.kind with
  | .core => readCore s k.unit off
  | .rtr => readRtr s k.unit off
  | .mc => readMc s k.unit off
  | .lgr => readLgr s k.unit off
  | .stw => readStw s k.unit off
  | .img => readImg s off
  | .ctl => readCtl s off
  | .pwr => readPwr s off
  | .thm => readThm s k.unit off
  | .pass => readPass s k.unit off
  | .dom => s.reg k off
  | .clk => readClk s k.unit off
  | .sitePwr => readSp s k.unit off
  | .siteMisc => s.reg k off
  | .ford => readFord s k.unit off

/-- The site-wide RTR_COMMIT as read at node n: the least STAGED_WRITES of the 64 routers, and the ERR_OFFSET
of the lowest-numbered failing one (R191). -/
def readSiteCommit (s : State) (n : Nat) : Word :=
  let ks := siteRtrs (siteOf n)
  let errs := (ks.map fun k => s.reg k 0).filter fun w => bits w 4 4 == 2 && bits w 32 16 != 0
  let w := setBits (s.reg (bRtr n) 0) 16 16 ((least (ks.map (stagedCount s))).getD 0)
  setBits w 32 16 ((errs.head?.map fun e => bits e 32 16).getD 0)

/-- A place as read. -/
def readPlace (s : State) : Place → Word
  | .reg k off => readBlk s k off
  | .site n off => if off = 0 then readSiteCommit s n else readRtr s n off
  | .slot n i => (s.core n).slot i
  | .cc n c => ((s.core n).cc c).zeroExtend 64
  | .birth i => quadAt (birthRecord s.birth) (8 * i)

end Sys2Proof.Machine
end

