-- ==== Sys2Proof/Machine/Sha.lean ====
section
/-! DEFINITION. SHA-512 (FIPS 180-4) and the verification of RSASSA-PSS signatures (PKCS #1 v2.2), with the
parameters of R264, R285 and R409. -/

namespace Sys2Proof.Machine

/-! ## SHA-512 -/

/-- The greatest r below 2^n with r^k at most x: its bits are found from the highest down. -/
def rootBelow (k x : Nat) : Nat → Nat → Nat
  | 0, r => r
  | n + 1, r => rootBelow k x n (if (r + 2 ^ n) ^ k ≤ x then r + 2 ^ n else r)

/-- The first 64 bits of the fractional part of the k-th root of p, a number below 2^9. -/
def rootFraction (k p : Nat) : Word := BitVec.ofNat 64 (rootBelow k (p * 2 ^ (64 * k)) 70 0)

/-- The primes below 410: the first eighty. -/
def firstPrimes : List Nat :=
  (List.range 410).filter fun p =>
    decide (2 ≤ p) && [2, 3, 5, 7, 11, 13, 17, 19].all fun d => decide (p = d) || decide (p % d ≠ 0)

/-- The round constants of SHA-512: from the cube roots of the first eighty primes. -/
def shaK : List Word := firstPrimes.map (rootFraction 3)

/-- The first value of the eight working variables: from the square roots of the first eight primes. -/
def shaInit : List Word := (firstPrimes.take 8).map (rootFraction 2)

/-- A byte list as big-endian quads. -/
def beQuads (l : List Byte) : List Word :=
  (List.range (l.length / 8)).map fun i => BitVec.ofNat 64 (beNat ((l.drop (8 * i)).take 8))

/-- The n low bytes of a number, big-endian. -/
def beBytes (v n : Nat) : List Byte := (leBytes v n).reverse

/-- The padded message of SHA-512: a multiple of 128 bytes. -/
def shaPad (m : List Byte) : List Byte :=
  m ++ [0x80] ++ List.replicate ((256 - (m.length + 17) % 128) % 128) 0 ++ beBytes (8 * m.length) 16

/-- The sum modulo 2 of the rotations of a word to the right by the places of a list. -/
def rotations (x : Word) (places : List Nat) : Word := (places.map x.rotateRight).foldl (· ^^^ ·) 0

/-- The message schedule, newest word first: t more words. -/
def shaSchedule (w : List Word) : Nat → List Word
  | 0 => w
  | t + 1 =>
    let back := fun i => w.getD (i - 1) 0
    let next := back 7 + back 16 + (rotations (back 15) [1, 8] ^^^ (back 15 >>> 7)) +
      (rotations (back 2) [19, 61] ^^^ (back 2 >>> 6))
    shaSchedule (next :: w) t

/-- One round on the eight working variables, with constant plus schedule word kw: each moves on by one place, the
fourth and the eighth with what the round adds. -/
def shaRound (v : List Word) (kw : Word) : List Word :=
  match v with
  | [a, b, c, d, e, f, g, h] =>
    let add := h + kw + rotations e [14, 18, 41] + (g ^^^ (e &&& (f ^^^ g)))
    [add + rotations a [28, 34, 39] + ((a &&& b) ||| (c &&& (a ||| b))), a, b, c, d + add, e, f, g]
  | _ => v

/-- One block of 128 bytes. -/
def shaBlock (v : List Word) (blk : List Byte) : List Word :=
  let w := (shaSchedule (beQuads blk).reverse 64).reverse
  List.zipWith (· + ·) v ((List.zipWith (· + ·) w shaK).foldl shaRound v)

/-- SHA-512 of a byte string: 64 bytes. -/
def sha512 (m : List Byte) : List Byte :=
  let p := shaPad m
  let v := (List.range (p.length / 128)).foldl (fun v i => shaBlock v ((p.drop (128 * i)).take 128)) shaInit
  (List.range 8).flatMap fun i => beBytes (v.getD i 0).toNat 8

/-! ## RSASSA-PSS -/

/-- m to the power e modulo n, for an exponent of w bits. -/
def modPowBits (w m e n : Nat) : Nat :=
  (List.range w).foldl (fun acc i =>
    let sq := acc * acc % n
    if e.testBit (w - 1 - i) then sq * m % n else sq) (1 % n)

/-- m to the power e modulo n, for an exponent of 64 bits. -/
def modPow (m e n : Nat) : Nat := modPowBits 64 m e n

/-- The first len bytes of MGF1 with SHA-512. -/
def mgf1 (seed : List Byte) (len : Nat) : List Byte :=
  ((List.range (ceilDiv len 64)).flatMap fun i => sha512 (seed ++ beBytes i 4)).take len

/-- EMSA-PSS verification of an encoded message of 512 bytes and 4,095 bits, with a salt of 64 bytes. -/
def pssOk (hash em : List Byte) : Bool :=
  let masked := em.take 447
  let h := (em.drop 447).take 64
  let db0 := List.zipWith (· ^^^ ·) masked (mgf1 h 447)
  let db := match db0 with
    | b :: rest => (b &&& 0x7F) :: rest
    | [] => []
  em.getD 511 0 == 0xBC && (em.getD 0 0).toNat < 128 &&
    (db.take 382).all (· == 0) && db.getD 382 0 == 1 &&
    sha512 (List.replicate 8 0 ++ hash ++ db.drop 383) == h

/-- EMSA-PSS encoding of a hash with a salt of 64 bytes in 512 bytes and 4,095 bits. -/
def pssEncode (hash salt : List Byte) : List Byte :=
  let h := sha512 (List.replicate 8 0 ++ hash ++ salt)
  let masked := List.zipWith (· ^^^ ·) (List.replicate 382 0 ++ [1] ++ salt) (mgf1 h 447)
  ((masked.headD 0 &&& 0x7F) :: masked.drop 1) ++ h ++ [0xBC]

/-- A signature of 512 bytes over a message verifies under a modulus and an exponent, big-endian. -/
def pssVerify (keyN keyE msg sig : List Byte) : Bool :=
  let n := beNat keyN
  let s := beNat sig
  decide (s < n) && pssOk (sha512 msg) (beBytes (modPow s (beNat keyE) n) 512)

/-- KEY_E is odd and at least 3 (R283). -/
def keyEOk (keyE : List Byte) : Bool := beNat keyE % 2 == 1 && decide (3 ≤ beNat keyE)

end Sys2Proof.Machine
end

