-- ==== Sys2Proof/Machine/ImgFormat.lean ====
section
/-! DEFINITION. The layout of an image and what its header and sections must hold (R263 to R276, R285,
R291). -/

namespace Sys2Proof.Machine

/-! ## Header and section table (R263 to R265) -/

/-- Bytes of the image header. -/
def hdrBytes : Nat := 0x6480

/-- One entry of the section table (R264). -/
structure Section where
  ty : Nat
  region : Nat
  plan : Nat
  off : Nat
  len : Nat
  hash : List Byte
  deriving DecidableEq, Repr

/-- The first byte after a section and its padding. -/
def Section.fin (e : Section) : Nat := roundUp (e.off + e.len) 64

/-- Byte offset of entry i. -/
def entryOff (i : Nat) : Nat := 0x40 + 96 * i

/-- Entry i of the section table. -/
def sectionAt (h : List Byte) (i : Nat) : Section :=
  let q := quadAt h (entryOff i)
  { ty := bits q 0 8, region := bits q 8 5, plan := bits q 13 2
    off := (quadAt h (entryOff i + 8)).toNat
    len := (quadAt h (entryOff i + 16)).toNat
    hash := (h.drop (entryOff i + 32)).take 64 }

/-- SECTION_COUNT. -/
def sectionCount (h : List Byte) : Nat := bits (quadAt h 0x28) 0 9

/-- The sections of an image. -/
def sections (h : List Byte) : List Section := (List.range (sectionCount h)).map (sectionAt h)

/-- LENGTH. -/
def imageLength (h : List Byte) : Nat := (quadAt h 0x10).toNat

/-- The sections lie back to back from an offset to the end, with TYPE never decreasing (R263, R265). -/
def chained (fin : Nat) : Nat → Nat → List Section → Bool
  | off, _, [] => off == fin
  | off, ty, e :: rest =>
    e.off == off && decide (ty ≤ e.ty) && decide (e.ty ≤ 0x0B) && decide (64 ≤ e.len) && chained fin e.fin e.ty rest

/-- REGION and PLAN are set only where the scope allows it, and no two sections that share a place in the
counts of R265 exist. -/
def countsOk (l : List Section) : Bool :=
  (l.countP (·.ty == 1) == 1) && (l.countP (·.ty == 2) == 1) &&
  l.all fun e =>
    (decide (8 ≤ e.ty) || e.region == 0) && (e.ty == 0x0B || e.plan == 0) &&
      (e.ty == 9 || l.countP (fun f => f.ty == e.ty && f.region == e.region && f.plan == e.plan) == 1)

/-- Zeros of the header and of the table (R263, R264). -/
def zerosOk (h : List Byte) : Bool :=
  let n := sectionCount h
  bits (quadAt h 0x28) 9 55 == 0 && quadAt h 0x38 == 0 && allZero ((h.drop 0x6248).take 56) &&
  ((List.range n).all fun i => bits (quadAt h (entryOff i)) 15 49 == 0 && quadAt h (entryOff i + 24) == 0) &&
  allZero ((h.drop (entryOff n)).take (96 * (256 - n)))

/-- The section table holds R263 to R265. -/
def tableOk (h : List Byte) : Bool :=
  let n := imageLength h
  n % 64 == 0 && decide (25728 ≤ n) && decide (n ≤ 2 ^ 48 - 64) && decide (1 ≤ sectionCount h) &&
    decide (sectionCount h ≤ 256) && zerosOk h && countsOk (sections h) && chained n hdrBytes 1 (sections h)

/-- The features of the Plain at A1 that an image requires and the Plain lacks, or levels above it (R291). A level of 0,
which R5 reserves, is not above it: the image is accepted (DESIGN CHOICE, assumption 107). -/
def levelFails (h : List Byte) : Bool :=
  let f := quadAt h 8
  decide (1 < bits f 16 4) || decide (1 < bits f 20 4) || quadAt h 0x18 &&& ~~~ a1Features != 0

/-- The bytes that eight registers from an offset of IMG hold. -/
def imgBytes (s : State) (off n : Nat) : List Byte :=
  (List.range n).flatMap fun i => quadBytes (s.reg bImg (off + 8 * i))

/-- KEY_N and KEY_E, 520 bytes. -/
def keyBytes (h : List Byte) : List Byte := (h.drop 0x6040).take 520

/-- The failure of the policy of R285, if any. -/
def policyFails (s : State) (h : List Byte) : Option Nat :=
  if bit (s.reg bImg 0x20) 0 then
    let k := keyBytes h
    if sha512 k ≠ imgBytes s 0x40 8 ∨ !keyEOk (k.drop 512) then some 0x04
    else if pssVerify (k.take 512) (k.drop 512) (h.take 0x6280) (h.drop 0x6280) then none
    else some 0x05
  else none

/-- The first check of R279 step 1 that the header fails. -/
def headerFails (s : State) (h : List Byte) : Option Nat :=
  let f := quadAt h 8
  let sn := quadAt h 0x20
  if quadAt h 0 ≠ 0x444C_5449_4D41_4745 ∨ bits f 0 16 ≠ 1 ∨ bits f 24 40 ≠ 0 then some 0x01
  else if levelFails h then some 0x02
  else if sn ≠ 0 ∧ sn ≠ s.birth.serial then some 0x03
  else if !tableOk h then some 0x06
  else policyFails s h

/-! ## Usable sites (R291) -/

/-- A compute site is usable for an image: VCORE on, not flagged for remap, level and features agreed. -/
def siteUsable (s : State) (h : List Byte) (st : Nat) : Bool :=
  let v := s.reg (bSm st) 0x100
  let need := quadAt h 0x18
  (siteState s st == 2 || siteState s st == 3) && !bit (s.reg (bSm st) 0x408) 0 &&
    decide (bits (quadAt h 8) 20 4 ≤ bits v 8 4) && (s.reg (bSm st) 0x110 &&& need == need)

/-! ## Register records (R266, R267) -/

/-- Registers of a router that a section may write. -/
def rtrAllowed (ty off : Nat) : Bool :=
  off == 0 ||
  match ty with
  | 3 => off == 0x18 || off == 0x28 || off == 0x80 || inArray off 0x100 8 16
  | 4 => inArray off 0x8000 8 4096
  | 0x0B => off == 0x18 || inArray off 0x100 8 16 || inArray off 0x400 8 192 || inArray off 0x8000 8 4096
  | _ => false

/-- The table of R266. -/
def recordAllowed (ty : Nat) : Place → Bool
  | .reg k off =>
    match k.kind with
    | .rtr => (ty == 3 || ty == 4 || ty == 0x0B) && rtrAllowed ty off
    | .mc => ty == 5 && (off == 0 || off == 0x10)
    | .lgr => ty == 5 && (off == 0 || off == 0x08 || off == 0x10 || off == 0x28)
    | .pass => ty == 6 && (off == 0 || off == 0x18 || inArray off 0x60 8 4 || off == 0x80 || off == 0x88 ||
        inArray off 0x100 8 8)
    | .dom => ty == 6 && (off == 0 || inArray off 0x1000 8 512)
    | .ford => ty == 7 && (off == 0 || off == 0x18 || off == 0x20 || off == 0x28 || inArray off 0x100 8 32 ||
        off == 0x200 || off == 0x208)
    | _ => false
  | .site _ off => (ty == 3 || ty == 4 || ty == 0x0B) && rtrAllowed ty off
  | _ => false

/-- The sections that carry register records. -/
def isRecordSection (ty : Nat) : Bool := (decide (3 ≤ ty) && decide (ty ≤ 7)) || ty == 0x0B

/-- The blocks that a record writes, the offset within each, and whether it is site-wide. -/
def placeBlks : Place → List Blk × Nat × Bool
  | .reg k off => ([k], off, false)
  | .site n off => (siteRtrs (siteOf n), off, true)
  | _ => ([], 0, false)

/-- The records of a whole section: address and value. -/
def sectionRecords (body : List Byte) : List (Word × Word) :=
  (List.range (bits (quadAt body 0) 8 32)).map fun i => (quadAt body (64 + 16 * i), quadAt body (72 + 16 * i))

/-- The sum of CAPACITY over the shards that a LEDGER section enables (R271). -/
def ledgerSum (l : List (Word × Word)) : Nat :=
  let on := (l.filter fun r => aOff r.1 == 0x808 && bit r.2 0).map fun r => aNode r.1
  ((l.filter fun r => aOff r.1 == 0x810 && on.contains (aNode r.1)).map fun r => bits r.2 0 23).sum

/-! ## Regions (R269) -/

/-- Quad j of region entry r. -/
def rgnQuad (rgn : List Byte) (r j : Nat) : Word := quadAt rgn (64 * r + 8 * j)

/-- Logical site l is in region entry r. -/
def rgnHas (rgn : List Byte) (r l : Nat) : Bool := bit (rgnQuad rgn r (1 + l / 64)) (l % 64)

/-- LOAD_CC of a region. -/
def rgnLoadCc (rgn : List Byte) (r : Nat) : Nat := bits (rgnQuad rgn r 0) 32 12

/-- One entry holds the rules of R269. -/
def rgnEntryOk (rgn : List Byte) (r : Nat) : Bool :=
  let q := rgnQuad rgn r 0
  if bit q 0 then
    bits q 44 20 == 0 && (List.range 4).all (fun j => rgnQuad rgn r (4 + j) == 0) && bits q 4 2 != 3 &&
      bits q 6 2 != 3 && !(bits q 6 2 == 1 && bits q 8 8 == 0) &&
      (List.range 192).any (rgnHas rgn r) &&
      (List.range 192).all fun l => !rgnHas rgn r l || siteKind l == .compute
  else allZero ((rgn.drop (64 * r)).take 64)

/-- The 32 entries hold the rules of R269. -/
def rgnOk (rgn : List Byte) : Bool :=
  (List.range 32).any (fun r => bit (rgnQuad rgn r 0) 0) && (List.range 32).all (rgnEntryOk rgn) &&
    (List.range 192).all fun l => decide ((List.range 32).countP (rgnHas rgn · l) ≤ 1)

/-! ## Load trees (R270) -/

/-- The nodes with a valid entry for tree t, and the entries. -/
def treeNodes (trees : Sparse Word) (t : Nat) : List (Nat × Word) :=
  (trees.filter fun e => e.1 % 4096 == t && bit e.2 0).map fun e => (e.1 / 4096, e.2)

/-- The logical site that the image's SITE_MAP maps to a physical one. -/
def unmapSite (siteMap : List Word) (st : Nat) : Option Nat :=
  (List.range siteMap.length).find? fun l =>
    let w := siteMap.getD l 0
    !mapNone w && bits w 0 8 == st

/-- The root of a load tree and its members as logical nodes; none where the tree breaks R270. -/
def loadTree (trees : Sparse Word) (siteMap : List Word) (rgn : List Byte) (r t : Nat) : Option (Nat × List Nat) :=
  let l := treeNodes trees t
  let members := (l.filter fun e => bit e.2 8).map fun e =>
    (unmapSite siteMap (siteOf e.1)).map fun ls => nodeOf ls (localOf e.1)
  match (l.filter fun e => bits e.2 1 3 == 4).map Prod.fst with
  | [root] =>
    if siteOf root = 52 ∧ members.all (fun m => match m with
      | some n => rgnHas rgn r (siteOf n)
      | none => false) then some (root, members.filterMap id)
    else none
  | _ => none

/-! ## Programs and tile records (R272 to R274) -/

/-- A program as its head and lists stand in a section body at an offset. -/
structure Program where
  q0 : Word
  q1 : Word
  rest : List Byte
  deriving DecidableEq, Repr

/-- INSTR_COUNT. -/
def Program.instrs (p : Program) : Nat := bits p.q0 0 14
/-- ENTRY. -/
def Program.entry (p : Program) : Nat := bits p.q0 16 13
/-- TREE. -/
def Program.tree (p : Program) : Nat := bits p.q0 32 12
/-- UNICAST. -/
def Program.unicast (p : Program) : Bool := bit p.q0 44
/-- TARGET_COUNT. -/
def Program.count (p : Program) : Nat := bits p.q1 32 16
/-- Bytes of the target list with its padding. -/
def Program.listBytes (p : Program) : Nat := roundUp (2 * p.count) 64
/-- Bytes of the whole program. -/
def Program.size (p : Program) : Nat := 64 + p.listBytes + roundUp (8 * p.instrs) 64

/-- The program at an offset. -/
def programAt (body : List Byte) (o : Nat) : Program := ⟨quadAt body o, quadAt body (o + 8), body.drop (o + 16)⟩

/-- The listed targets, each once. -/
def Program.targets (p : Program) : List Nat :=
  ((List.range p.count).map fun i => leNat ((p.rest.drop (48 + 2 * i)).take 2)).eraseDups

/-- The instruction bytes. -/
def Program.code (p : Program) : List Byte := (p.rest.drop (48 + p.listBytes)).take (8 * p.instrs)

/-- The head and the padding hold R272. -/
def Program.ok (p : Program) : Bool :=
  bits p.q0 14 2 == 0 && bits p.q0 29 3 == 0 && bits p.q0 45 19 == 0 && bits p.q1 13 19 == 0 &&
  bits p.q1 48 16 == 0 && allZero (p.rest.take 48) && decide (1 ≤ p.instrs) && decide (p.instrs ≤ 8192) &&
  decide (p.entry < p.instrs) &&
  (if p.unicast then decide (1 ≤ p.count) && decide (p.count ≤ 10240) else p.count == 0) &&
  allZero ((p.rest.drop (48 + 2 * p.count)).take (p.listBytes - 2 * p.count)) &&
  allZero ((p.rest.drop (48 + p.listBytes + 8 * p.instrs)).take (roundUp (8 * p.instrs) 64 - 8 * p.instrs))

/-- A tile record. -/
structure TileRec where
  q0 : Word
  addr : Word
  q2 : Word
  rest : List Byte
  deriving DecidableEq, Repr

/-- DEST. -/
def TileRec.dest (t : TileRec) : Nat := bits t.q0 0 2
/-- TILES. -/
def TileRec.tiles (t : TileRec) : Bool := bit t.q0 2
/-- TREE. -/
def TileRec.tree (t : TileRec) : Nat := bits t.q0 8 12
/-- DLEN. -/
def TileRec.dlen (t : TileRec) : Nat := bits t.q2 0 32
/-- Bytes of the whole record. -/
def TileRec.size (t : TileRec) : Nat := 64 + roundUp t.dlen 64
/-- The data bytes. -/
def TileRec.data (t : TileRec) : List Byte := (t.rest.drop 40).take t.dlen

/-- The tile record at an offset. -/
def tileRecAt (body : List Byte) (o : Nat) : TileRec :=
  ⟨quadAt body o, quadAt body (o + 8), quadAt body (o + 16), body.drop (o + 24)⟩

/-- The bytes from an offset lie within the implemented offsets of a space (R25). -/
def offsetsIn (sp off len : Nat) : Bool :=
  if sp = 0 then decide (off + len ≤ dramEnd)
  else decide (off + len ≤ spadEnd) || (decide (0x0100_0000 ≤ off) && decide (off + len ≤ 0x0101_0000))

/-- A tile record holds R273; rgn and r give its region. -/
def TileRec.ok (t : TileRec) (rgn : List Byte) (r : Nat) : Bool :=
  let sp := if t.dest = 2 then 0 else 1
  t.dest != 3 && bits t.q0 3 5 == 0 && bits t.q0 20 44 == 0 && bits t.q2 32 32 == 0 && allZero (t.rest.take 40) &&
  (t.dest == 1 || t.tree == 0) && aLocal t.addr && aSpace t.addr == sp && decide (1 ≤ t.dlen) &&
  offsetsIn sp (aOff t.addr) t.dlen &&
  (if t.dest = 1 then aNode t.addr == 0 else isNode (aNode t.addr) && rgnHas rgn r (siteOf (aNode t.addr))) &&
  allZero ((t.rest.drop (40 + t.dlen)).take (roundUp t.dlen 64 - t.dlen))

/-- The start of the first tile from offset o of the data that fails R102 or R104, the last tile ending at
the end of the data (R274). -/
def badTile (d : List Byte) : Nat → Nat → Option Nat
  | 0, o => some o
  | fuel + 1, o =>
    let h : Tile := ⟨o, (d.drop o).take 64, []⟩
    let t : Tile := { h with data := (d.drop (o + 64)).take h.dataLen }
    let e := o + 64 + t.dataLen
    if d.length < o + 64 ∨ d.length < e ∨ !t.consistent ∨ !t.crcOk then some o
    else if e = d.length then none
    else badTile d fuel (roundUp e 64)

/-- Data cut into packets of 8,192 bytes: the offset of each within the data, and its bytes (R280). -/
def pieces (d : List Byte) : List (Nat × List Byte) :=
  (List.range (ceilDiv d.length 8192)).map fun i => (8192 * i, (d.drop (8192 * i)).take 8192)

end Sys2Proof.Machine
end

