-- ==== Sys2Proof/Machine/Image.lean ====
section
/-! DEFINITION. The image engine: the stream, the steps of a load, its checks, and the attestation report
(R266 to R287, R419). -/

namespace Sys2Proof.Machine

/-- Change the image engine. -/
def State.modImg (s : State) (f : ImgEngine → ImgEngine) : State := s.modLead fun l => { l with img := f l.img }

/-- The load fails in the section in progress (R283). -/
def State.secFail (s : State) (code : Nat) (node : Option Nat) : State := s.imgFail code s.lead.img.sec node

/-- RECEIVING or REPAIR. -/
def imgTakes (s : State) : Bool := imgState s == 1 || imgState s == 3

/-- IMG_PROGRESS.CONSUMED. -/
def consumed (s : State) : Nat := s.getField bImg 0x18 0 48

/-! ## Sending (R280) -/

/-- The H3 of the engine's n-th packet: no two share it (R338). -/
def imgKey (n : Nat) : Word := field 32 32 n ||| field 16 16 0xFFFD

/-- One more packet is addressed to each of some cores. -/
def ImgEngine.expectAll (g : ImgEngine) (ts : List Nat) : ImgEngine :=
  { g with expect := ts.foldl (fun m t => Sparse.put t (Sparse.getD 0 m t + 1) m) g.expect }

/-- A packet of the engine enters at a node of site 52; the next key is used up. -/
def State.imgOffer (s : State) (n : Nat) (p : Packet) : State :=
  (s.offer n p none).modImg fun g => { g with nextKey := g.nextKey + 1 }

/-- A packet of the engine that nothing acknowledges. -/
def State.imgLoose (s : State) (n : Nat) (p : Packet) : State :=
  (s.imgOffer n p).modImg fun g => { g with loose := g.loose ++ [(p.h3, pKind p)] }

/-- One piece of a program or scratchpad record to one core. -/
def State.sendUnicast (s : State) (cc off : Nat) (d : List Byte) (t : Nat) : State :=
  s.imgLoose leadNode
    { h0 := mkH0 kWrite 0 0 d.length cc, h1 := mkAddr 1 true 0 t off, h2 := 0,
      h3 := imgKey s.lead.img.nextKey, data := d }

/-- One piece of a program or scratchpad record on a load tree. -/
def State.sendTree (s : State) (cc off : Nat) (d : List Byte) (root t : Nat) : State :=
  s.imgLoose root
    { h0 := mkH0 kMcastWrite 0 0 d.length cc, h1 := mkAddr 1 true 0 0 off, h2 := 0,
      h3 := imgKey s.lead.img.nextKey ||| field 0 16 t, data := d }

/-- One piece to its targets: on the tree in MODE FULL, else by unicast; in a repair to short cores only. -/
def State.sendPiece (s : State) (cc off : Nat) (d : List Byte) (tree : Option (Nat × Nat)) (ts : List Nat) : State :=
  let g := s.lead.img
  if g.repairing then (ts.filter g.short.contains).foldl (fun s t => s.sendUnicast cc off d t) s
  else match tree, g.mode with
  | some (root, t), 0 => (s.sendTree cc off d root t).modImg (·.expectAll ts)
  | _, _ => ts.foldl (fun s t => (s.sendUnicast cc off d t).modImg (·.expectAll [t])) s

/-- One piece of a DRAM record: in a repair only where its WRITE is unacknowledged. -/
def State.sendDram (s : State) (n off : Nat) (d : List Byte) : State :=
  let g := s.lead.img
  let p : Packet :=
    { h0 := mkH0 kWrite 0 0 d.length 0, h1 := mkAddr 0 true 0 n off, h2 := field 17 1 1,
      h3 := imgKey g.nextKey, data := d }
  if g.repairing then
    if g.sent.any (·.h1 == p.h1) then
      (s.imgOffer leadNode p).modImg fun g => { g with sent := (g.sent.filter (·.h1 != p.h1)) ++ [p] }
    else s
  else (s.imgOffer leadNode p).modImg fun g => { g with sent := g.sent ++ [p] }

/-! ## Register records (R266, R267, R276) -/

/-- The section's records are applied in this mode (R278). -/
def sectionApplied (mode ty : Nat) : Bool := (mode == 0 && decide (ty ≤ 7)) || (mode == 2 && ty == 0x0B)

/-- The blocks of a commit record. -/
def commitBlks (c : Blk × Bool × Nat) : List Blk := if c.2.1 then siteRtrs (siteOf c.1.unit) else [c.1]

/-- Before the first record to a block in a section: DISCARD. -/
def State.touch (s : State) (applied : Bool) (k : Blk) : State :=
  if s.lead.img.touched.contains k then s
  else (if applied then s.discardBlk k else s).modImg fun g => { g with touched := k :: g.touched }

/-- A record writes one register; what it stages is noted. -/
def State.recordWrite (s : State) (off : Nat) (v : Word) (k : Blk) : State :=
  match regInfo s.birth k off with
  | some i =>
    let s1 := s.plainWrite k off i v
    if i.rws = 0 ∨ s.lead.img.staged.contains k then s1
    else s1.modImg fun g => { g with staged := k :: g.staged }
  | none => s

/-- A plan maps a site onto one in AVOID or onto one that is not usable (R276). -/
def planBad (s : State) (off : Nat) (v : Word) : Bool :=
  let b := s.lead.img.body
  let p := bits v 0 8
  inArray off 0x400 8 192 && !mapNone v &&
    (bit (quadAt b (16 + 8 * (p / 64))) (p % 64) || !siteUsable s s.lead.img.hdr p)

/-- A record is discarded with a credit: no core stands behind its space 0x4 address. -/
def recordLost (s : State) (a : Word) (n : Nat) : Bool :=
  aSpace a == 4 && ((translate s leadNode (aNode a)).isNone || siteUnpowered s (siteOf n))

/-- One register record (R266, R267). -/
def State.recordAct (s : State) (ty : Nat) (a v : Word) : State :=
  let g := s.lead.img
  let n := if aSpace a = 4 then (translate s leadNode (aNode a)).getD (aNode a) else aNode a
  match if aLocal a && isNode n then place s (aSpace a) n (aOff a) else none with
  | none => s.secFail 0x08 none
  | some pl =>
    let (ks, off, wide) := placeBlks pl
    let applied := sectionApplied g.mode ty
    let closed := g.commits.flatMap commitBlks
    if !recordAllowed ty pl || ks.any closed.contains || (off == 0 && v != 1) then s.secFail 0x08 none
    else if g.mode = 2 ∧ planBad s off v then s.secFail 0x09 (some (nodeOf (bits v 0 8) 0))
    else if applied && recordLost s a n then s.secFail 0x0D (some n)
    else
      let s1 := ks.foldl (·.touch applied ·) s
      if off = 0 then
        s1.modImg fun g => { g with commits := g.commits ++ ((ks.head?.map fun k => (k, wide, n)).toList) }
      else
        let s2 := if applied then ks.foldl (·.recordWrite off v ·) s1 else s1
        if ty = 4 then s2.modImg fun g => { g with
          trees := ks.foldl (fun m k => Sparse.put (4096 * k.unit + (off - 0x8000) / 8) v m) g.trees }
        else s2

/-- Commits in order, up to the first that reports COMMIT_ERR; IMG_LKEY0 and IMG_LKEY1 are staged before each
LGR_COMMIT (R267, R271). -/
def State.commitRecords (s : State) : List (Blk × Bool × Nat) → State
  | [] => s
  | c :: rest =>
    let s0 := if c.1.kind = .lgr then
        (s.recordWrite 0x18 (s.reg bImg 0x80) c.1).recordWrite 0x20 (s.reg bImg 0x88) c.1
      else s
    let s1 := if c.2.1 then s0.goSite (siteOf c.2.2) else s0.go c.1
    let ks := commitBlks c
    match ks.find? fun k => s1.getField k 0 4 4 == 2 with
    | some k => s1.secFail 0x0B (some (if k.kind = .rtr then k.unit else c.2.2))
    | none => (s1.modImg fun g => { g with staged := g.staged.filter fun k => !ks.contains k }).commitRecords rest

/-- Every block that a record stages into has its commit record (R267). -/
def commitsWhole (s : State) : Bool :=
  let closed := s.lead.img.commits.flatMap commitBlks
  s.lead.img.touched.all fun k => closed.contains k ||
    (k.kind == .lgr && (sectionRecords s.lead.img.body).all fun r =>
      aSpace r.1 != 4 || (translate s leadNode (aNode r.1)).getD 0 != k.unit || aOff r.1 < 0x800 || aOff r.1 == 0x828)

/-- The end of a section of register records. -/
def State.recordsEnd (s : State) (ty : Nat) : State :=
  let g := s.lead.img
  if !commitsWhole s then s.secFail 0x08 none
  else if ty = 4 ∧ bits (quadAt g.body 8) 0 13 < ((g.trees.map fun e => e.1 % 4096).eraseDups).length then
    s.secFail 0x08 none
  else if ty = 5 ∧ 2 ^ 28 < ledgerSum (sectionRecords g.body) then s.secFail 0x0A none
  else if sectionApplied g.mode ty then s.commitRecords g.commits
  else s

/-! ## SITE_MAP and REGIONS (R268, R269, R279) -/

/-- The blocks of every router. -/
def allRtr : List Blk := (List.range 12288).map bRtr

/-- Quad l of SITE_MAP. -/
def State.siteMapQuad (s : State) (l : Nat) (v : Word) : State :=
  let s1 := s.modImg fun g => { g with siteMap := g.siteMap ++ [v] }
  if s.lead.img.mode = 0 then
    allRtr.foldl (fun s k => (s.touch true k).recordWrite (0x400 + 8 * l) v k) s1
  else s1

/-- The commit of SITE_MAP at every site. -/
def State.siteMapEnd (s : State) : State :=
  if s.lead.img.mode = 0 then
    s.commitRecords ((List.range 192).map fun st => (bRtr (nodeOf st 0), true, nodeOf st 0))
  else s

/-- The regions that this load writes. -/
def loadRegions (s : State) : List Nat :=
  if s.lead.img.mode = 0 then allRegions else allRegions.filter fun r => s.lead.img.regions.getLsbD r

/-- A region's generation advances; the drain starts again (R419). -/
def State.advanceGen (s : State) (r : Nat) : State :=
  s.modReg (bStw 0) (rgnOff r) fun w =>
    let g := bits w 4 4
    setBits (setBits w 4 4 (if g = 15 then 1 else g + 1)) 32 8 (s.getField (bStw 0) 0x10 0 8)

/-- STW_RGNr as the load writes it: GEN and DRAIN_LEFT stay (R425). -/
def State.writeRegion (s : State) (r : Nat) : State :=
  let rgn := s.lead.img.rgn
  let q := rgnQuad rgn r 0
  let keep := rgnCfg s r &&& (msk 7 4 ||| msk 39 32)
  let w := if bit q 0 then
      field 0 1 1 ||| field 1 3 1 ||| field 8 3 (bits q 1 3) ||| field 11 2 (bits q 4 2) ||| field 16 16 (bits q 16 16)
    else 0
  [0, 1, 2].foldl (fun s i => s.setReg (bStw 0) (rgnOff r + 8 + 8 * i) (rgnQuad rgn r (1 + i)))
    (s.setReg (bStw 0) (rgnOff r) (keep ||| w))

/-- A node of the first site of some regions that is not usable in the live site map (R279, R291). -/
def firstUnusable (s : State) (rs : List Nat) : Option Nat :=
  ((List.range 192).filter fun l => rs.any fun r => regionHas s r l).findSome? fun l =>
    match mapSite s leadNode l with
    | none => some (nodeOf l 0)
    | some st => if siteUsable s s.lead.img.hdr st then none else some (nodeOf st 0)

/-- A region that becomes VALID for the first time takes its first generation with its entry, so that a VALID region
never shows generation 0; nothing of an earlier one can be on its way (R419; DEDUCED, assumption 91). -/
def State.firstGen (s : State) (r : Nat) : State :=
  if bits (rgnCfg s r) 4 4 = 0 then
    (s.advanceGen r).modImg fun g => { g with first := g.first ++ [r] }
  else s

/-- The end of REGIONS: the entries are checked and written, and each region waits for its advance. -/
def State.regionsEnd (s : State) : State :=
  if !rgnOk s.lead.img.rgn then s.secFail 0x08 none
  else
    let s0 := (loadRegions s).foldl State.writeRegion s
    let rs := (loadRegions s).filter (rgnValid s0)
    let s1 := rs.foldl State.firstGen s0
    match if s.lead.img.mode = 0 then firstUnusable s1 rs else none with
    | some n => s1.secFail 0x09 (some n)
    | none => s1.modImg fun g => { g with waitAdvance := rs }

/-! ## Programs, tiles and placement (R272 to R275) -/

/-- The physical node of a logical one in the live map, where a register access reaches its core. -/
def reachCore (s : State) (t : Nat) : Option Nat :=
  match translate s leadNode t with
  | some n => if isCoreNode n && coreServed s n then some n else none
  | none => none

/-- The node that an unreachable target is named by. -/
def namedNode (s : State) (t : Nat) : Nat := (translate s leadNode t).getD t

/-- CORE_ENTRY at a target. -/
def State.writeEntry (s : State) (entry t : Nat) : State :=
  match reachCore s t with
  | some n => s.setField (bCore n) 0x28 3 13 entry
  | none => if imgTakes s then s.secFail 0x0D (some (namedNode s t)) else s

/-- One program (R272, R280). -/
def State.programAct (s : State) (r : Nat) (p : Program) : State :=
  let g := s.lead.img
  if !p.ok then s.secFail 0x08 none
  else if 4096 < bits p.q1 0 13 then s.secFail 0x0A none
  else match if p.unicast then some (0, p.targets) else loadTree g.trees g.siteMap g.rgn r p.tree with
  | none => s.secFail 0x08 none
  | some (root, ts) =>
    if ts.any fun t => !isNode t || !rgnHas g.rgn r (siteOf t) || g.targets.contains t then s.secFail 0x08 none
    else
      let tree := if p.unicast then none else some (root, p.tree)
      let s1 := s.modImg fun g => { g with targets := g.targets ++ ts }
      let s2 := (pieces p.code).foldl (fun s d => s.sendPiece (rgnLoadCc g.rgn r) (0x0100_0000 + d.1) d.2 tree ts) s1
      if g.repairing then s2 else ts.foldl (·.writeEntry p.entry ·) s2

/-- One tile record: the packets before a tile that fails its check are sent (R273, R274, R280). -/
def State.tileAct (s : State) (r : Nat) (t : TileRec) : State :=
  let g := s.lead.img
  let d := t.data
  match if t.dest = 1 then loadTree g.trees g.siteMap g.rgn r t.tree else some (0, [aNode t.addr]) with
  | none => s.secFail 0x08 none
  | some (root, ts) =>
    if !t.ok g.rgn r then s.secFail 0x08 none
    else
      let bad := if t.tiles then badTile d d.length 0 else none
      let ps := (pieces d).filter fun x => match bad with
        | some o => decide (x.1 + x.2.length ≤ o)
        | none => true
      let tree := if t.dest = 1 then some (root, t.tree) else none
      let s1 := ps.foldl (fun s x =>
        if t.dest = 2 then s.sendDram (aNode t.addr) (aOff t.addr + x.1) x.2
        else s.sendPiece (rgnLoadCc g.rgn r) (aOff t.addr + x.1) x.2 tree ts) s
      if bad.isSome then s1.secFail 0x0C none else s1

/-! ## Sections as they are consumed (R265 to R276) -/

/-- The records, programs or entries that a section holds. -/
def itemCount (e : Section) (body : List Byte) : Nat :=
  let q := quadAt body 0
  if e.ty = 1 then 192 else if e.ty = 2 then 32
  else if e.ty = 8 then bits q 8 16
  else if e.ty = 9 ∨ e.ty = 0x0A then bits q 8 24
  else bits q 8 32

/-- The length that the head of a section of fixed-size items gives it. -/
def headLen (e : Section) (body : List Byte) : Nat :=
  if e.ty = 1 then 1600 else if e.ty = 2 then 2112
  else if isRecordSection e.ty then 64 + 16 * itemCount e body
  else if e.ty = 0x0A then 64 + 32 * itemCount e body
  else e.len

/-- The region of a per-region section is VALID. -/
def sectionRegionOk (s : State) (e : Section) : Bool :=
  if e.ty < 8 then true
  else if s.lead.img.mode = 2 then rgnValid s e.region
  else bit (rgnQuad s.lead.img.rgn e.region 0) 0

/-- The section head. -/
def State.headAct (s : State) (e : Section) : State :=
  let b := s.lead.img.body
  let q1 := quadAt b 8
  if bits (quadAt b 0) 0 8 ≠ e.ty ∨ !sectionRegionOk s e ∨ headLen e b ≠ e.len ∨
      (e.ty = 8 ∧ itemCount e b = 0) ∨ (e.ty = 0x0B ∧ (bits q1 0 5 ≠ e.region ∨ bits q1 8 2 ≠ e.plan)) then
    s.secFail 0x08 none
  else if e.ty = 4 ∧ 4096 < bits q1 0 13 then s.secFail 0x0A none
  else s

/-- Bytes of the item at an offset, once they are known. -/
def itemSize (e : Section) (body : List Byte) (o : Nat) : Option Nat :=
  if e.ty = 1 then some 8 else if e.ty = 2 then some 64
  else if e.ty = 0x0A then some 32
  else if isRecordSection e.ty then some 16
  else if body.length < o + 64 then none
  else if e.ty = 8 then some (programAt body o).size
  else some (tileRecAt body o).size

/-- One entry of PLACEMENT (R275). -/
def State.placementAct (s : State) (q : Word) : State :=
  if (bits q 0 4 = 1 ∨ bits q 0 4 = 2) ∧ bit (rgnQuad s.lead.img.rgn (bits q 20 5) 0) 0 then s else s.secFail 0x08 none

/-- One item of a section. -/
def State.itemAct (s : State) (e : Section) (o : Nat) : State :=
  let b := s.lead.img.body
  if e.ty = 1 then s.siteMapQuad ((o - 64) / 8) (quadAt b o)
  else if e.ty = 2 then s.modImg fun g => { g with rgn := g.rgn ++ (b.drop o).take 64 }
  else if e.ty = 8 then s.programAct e.region (programAt b o)
  else if e.ty = 9 then s.tileAct e.region (tileRecAt b o)
  else if e.ty = 0x0A then s.placementAct (quadAt b o)
  else s.recordAct e.ty (quadAt b o) (quadAt b (o + 8))

/-- The next item acts, where all its bytes have been consumed. -/
def sectionStep (s : State) (e : Section) : Option State :=
  let g := s.lead.img
  let b := g.body
  if !imgTakes s then none
  else if g.cur = 0 then
    if b.length < 64 then none else some ((s.headAct e).modImg fun g => { g with cur := 64 })
  else if g.cur = e.len then none
  else match itemSize e b g.cur with
  | none => none
  | some k =>
    if e.len < g.cur + k ∨ itemCount e b ≤ g.items then some (s.secFail 0x08 none)
    else if b.length < g.cur + k then none
    else some ((s.itemAct e g.cur).modImg fun g => { g with cur := g.cur + k, items := g.items + 1 })

/-- The items act in order, as many as the fuel allows. -/
def State.sectionRun (e : Section) : Nat → State → State
  | 0, s => s
  | n + 1, s => match sectionStep s e with
    | some t => State.sectionRun e n t
    | none => s

/-- The end of a section: its hash, then its content, then what waited for the hash (R279). -/
def State.sectionEnd (s : State) (e : Section) : State :=
  let g := s.lead.img
  if !imgTakes s then s
  else if sha512 g.body ≠ e.hash then s.secFail 0x07 none
  else if g.cur ≠ e.len ∨ g.items ≠ itemCount e g.body then s.secFail 0x08 none
  else if e.ty = 1 then s.siteMapEnd
  else if e.ty = 2 then s.regionsEnd
  else if isRecordSection e.ty then s.recordsEnd e.ty
  else s

/-! ## The stream (R277 to R279) -/

/-- At most k bytes that stand without a gap from address a, and what is left. -/
def takeRun (k a : Nat) : Sparse Byte → List Byte × Sparse Byte
  | [] => ([], [])
  | (j, b) :: rest =>
    if j = a ∧ 0 < k then
      let r := takeRun (k - 1) (a + 1) rest
      (b :: r.1, r.2)
    else ([], (j, b) :: rest)

/-- The chunk has the form of R277. -/
def chunkFormed (chunk : List Byte) : Bool :=
  decide (16 ≤ chunk.length) && decide (chunk.length ≤ 256) && chunk.length % 8 == 0 &&
    (quadAt chunk 0).toNat % 8 == 0

/-- The offset of a chunk's first data byte. -/
def chunkOff (chunk : List Byte) : Nat := (quadAt chunk 0).toNat

/-- Bytes are added to a window that begins at byte c: the first copy is kept. -/
def addBytes (c : Nat) (w : Sparse Byte) (o : Nat) : List Byte → Sparse Byte
  | [] => w
  | b :: rest =>
    addBytes c (if c ≤ o ∧ (Sparse.find o w).isNone then Sparse.put o b w else w) (o + 1) rest

/-- CONSUMED moves; bytes below it leave the window. -/
def State.setConsumed (s : State) (c : Nat) : State :=
  (s.setField bImg 0x18 0 48 c).modImg fun g => { g with window := g.window.filter fun e => decide (c ≤ e.1) }

/-- At most k bytes are consumed; none where the next byte is not present. -/
def State.eat (s : State) (k : Nat) : Option (List Byte × State) :=
  let c := consumed s
  let r := takeRun k c s.lead.img.window
  if r.1 = [] then none
  else some (r.1, (s.setField bImg 0x18 0 48 (c + r.1.length)).modImg fun g => { g with window := r.2 })

/-- The engine clears a core, with MEMBER = 0 (R279). -/
def State.imgClear (s : State) (n : Nat) : State :=
  if coreServed s n then (s.setReg (bCore n) 0x30 0).clear n else s

/-- The header has been consumed: steps 1 and 2 of R279. -/
def State.headerEnd (s : State) : State :=
  let h := s.lead.img.hdr
  match headerFails s h with
  | some c => s.imgFail c 0 none
  | none =>
    if s.lead.img.mode ≠ 0 ∧ sha512 h ≠ imgBytes s 0xC0 8 then s.imgFail 0x11 0 none
    else if s.lead.img.mode = 0 then ((poweredSites s).flatMap siteNodes).foldl State.imgClear s
    else if s.lead.img.mode = 1 then
      let rs := (loadRegions s).filter (rgnValid s)
      let s1 := ((rs.flatMap (regionSites s)).flatMap siteNodes).foldl State.imgClear s
      match firstUnusable s1 rs with
      | some n => s1.imgFail 0x09 0 (some n)
      | none => s1
    else s

/-- The section is received in the mode of the load (R278). -/
def sectionWanted (g : ImgEngine) (e : Section) : Bool :=
  let named := g.regions.getLsbD e.region
  match g.mode with
  | 0 => true
  | 1 => e.ty == 1 || e.ty == 2 || e.ty == 4 || ((e.ty == 8 || e.ty == 9) && named)
  | _ => e.ty == 0x0B && named && e.plan == g.plan

/-- The engine turns to a section. -/
def State.toSection (s : State) (i : Nat) : State :=
  s.modImg fun g => { g with sec := i, body := [], cur := 0, items := 0, commits := [], touched := [] }

/-- One step of consumption; none where the engine has nothing to do. -/
def imgStep (s : State) : Option State :=
  let g := s.lead.img
  let c := consumed s
  if !imgTakes s || !g.waitAdvance.isEmpty then none
  else if g.hdr.length < hdrBytes then
    match s.eat (hdrBytes - g.hdr.length) with
    | none => none
    | some (b, s1) =>
      let s2 := s1.modImg fun g => { g with hdr := g.hdr ++ b }
      some (if s2.lead.img.hdr.length < hdrBytes then s2 else s2.headerEnd)
  else if sectionCount g.hdr ≤ g.sec then some (s.setField bImg 0x10 0 3 2)
  else
    let e := sectionAt g.hdr g.sec
    if !sectionWanted g e then some ((s.setConsumed e.fin).toSection (g.sec + 1))
    else if c < e.off + e.len then
      match s.eat (e.off + e.len - c) with
      | none => none
      | some (b, s1) =>
        let s2 := s1.modImg fun g => { g with body := g.body ++ b }
        let s3 := s2.sectionRun e s2.lead.img.body.length
        some (if consumed s3 < e.off + e.len then s3 else s3.sectionEnd e)
    else if c < e.fin then (s.eat (e.fin - c)).map Prod.snd
    else some (s.toSection (g.sec + 1))

/-- Consumption runs on, as many steps as the fuel allows: at most a header, 256 sections, their paddings and
the turn to the next. -/
def State.imgRun : Nat → State → State
  | 0, s => s
  | n + 1, s => match imgStep s with
    | some t => State.imgRun n t
    | none => s

/-- Steps that suffice for one chunk. -/
def imgFuel : Nat := 2000

/-- A WRITE to IMG_DATA (R277). -/
def State.imgData (s : State) (chunk : List Byte) : State :=
  if imgTakes s && chunkFormed chunk && decide (chunkOff chunk < consumed s + 2 ^ 20) then
    (s.modImg fun g => { g with
      window := addBytes (consumed s) g.window (chunkOff chunk) (chunk.drop 8) }).imgRun imgFuel
  else s.countField bImg 0x18 48 16

/-- IMG_DATA (R277). -/
def execImgData (chunk : List Byte) (s : State) : Res := .next (s.imgData chunk)

/-! ## Begin and abort (R278, R283) -/

/-- A load starts in the mode that a value of IMG_CTL names. -/
def State.imgBegin (s : State) (v : Word) : State :=
  let s1 := if imgBusy s then s.imgFail 0x0F 0 none else s
  let mode := bits v 4 2
  let g := s1.lead.img
  let rs := if mode = 0 then allRegions.filter (rgnValid s1)
    else if mode = 1 then allRegions.filter fun r => bit v (32 + r) && rgnValid s1 r else []
  let fresh : ImgEngine :=
    { mode := mode, hold := bit v 6, plan := bits v 8 2, regions := BitVec.ofNat 32 (bits v 32 32)
      nextKey := g.nextKey
      prior := rs.filter fun r => rgnState s1 r == 3 || rgnState s1 r == 5 }
  let s2 := (s1.modImg fun _ => fresh).modReg bImg 0x10 fun w =>
    setBits (setBit (setBits (setBits (setBits w 0 3 1) 8 8 0) 16 9 0) 26 (bit (s1.reg bImg 0x20) 0)) 27 2 0
  let s3 := (s2.setReg bImg 0x18 0)
  let s4 := if mode = 0 then
      ((List.range 8).foldl (fun s i => s.setReg bImg (0xC0 + 8 * i) 0) s3).modLead fun l => { l with sigChecked := false }
    else s3
  if mode = 3 ∨ (mode ≠ 0 ∧ bits v 32 32 = 0) then s4.imgFail 0x12 0 none
  else rs.foldl (fun s r => s.setRgnState r 1) s4

/-- IMG_BEGIN (R278): ABORT acts alone (R292). -/
def execImgBegin (ctl : Word) (s : State) : Res :=
  .next (if bit ctl 0 && !bit ctl 1 then s.imgBegin ctl else s)

/-- A write of ABORT (R283). -/
def State.imgAbort (s : State) : State := if imgBusy s then s.imgFail 0x0F 0 none else s

/-- IMG_ABORT (R283). -/
def execImgAbort (s : State) : Res := .next s.imgAbort

/-! ## Generations (R279, R419) -/

/-- DRAIN_LEFT of a region. -/
def drainLeft (s : State) (r : Nat) : Nat := bits (rgnCfg s r) 32 8

/-- CORE_REGION of a member of region r at its generation. -/
def memberWord (s : State) (r : Nat) : Word := field 0 5 r ||| field 8 4 (bits (rgnCfg s r) 4 4) ||| field 16 1 1

/-- Registers of a core are staged and committed. -/
def State.commitCore (s : State) (n : Nat) (l : List (Nat × Word)) : State :=
  (l.foldl (fun s e => match regInfo s.birth (bCore n) e.1 with
    | some i => s.plainWrite (bCore n) e.1 i e.2
    | none => s) s).go (bCore n)

/-- A core joins the region that the load gives it (R279 step 4). -/
def State.joinCore (s : State) (r n : Nat) : State :=
  let q := rgnQuad s.lead.img.rgn r 0
  if !imgTakes s then s
  else if !coreServed s n then s.secFail 0x0D (some n)
  else
    let s1 := s.commitCore n [(0x30, memberWord s r), (0x38, field 0 2 (bits q 6 2) ||| field 8 8 (bits q 8 8))]
    if s1.getField (bCore n) 0 4 4 = 2 then s1.secFail 0x0B (some n) else s1

/-- GEN_ADVANCE of the load: once the drain of the region has ended, or where this load gave the region its first
generation (R279, R419). -/
def execGenAdvance (r : Nat) (s : State) : Res :=
  let fresh := s.lead.img.first.contains r
  .next (if imgTakes s && s.lead.img.waitAdvance.contains r && (fresh || drainLeft s r == 0) then
    let s1 := if fresh then s else s.advanceGen r
    let s2 := ((regionSites s1 r).flatMap siteNodes).foldl (·.joinCore r ·) s1
    (s2.modImg fun g => { g with waitAdvance := g.waitAdvance.filter (· != r) }).imgRun imgFuel
  else s)

/-! ## Checking and starting (R281, R282) -/

/-- The load starts the cores, or is LOADED without them (R282). -/
def State.imgStart (s : State) : State :=
  let s1 := (sortNats s.lead.img.targets).foldl (fun s t =>
    if imgState s = 6 then s
    else match reachCore s t with
    | none => s.imgFail 0x0D 0 (some (namedNode s t))
    | some n => if mayStart s n then s.start n else (s.start n).imgFail 0x10 0 (some n)) s
  if imgState s1 = 6 then s1
  else
    let s2 := allRegions.foldl (fun s r => if rgnState s r = 1 then s.setRgnState r 2 else s) s1
    let s3 := s2.lead.img.prior.foldl (fun s r => if rgnState s r = 2 then s.noticeLead 0x0A05 else s) s2
    (s3.setField bImg 0x10 0 3 5).noticeLead 0x0502

/-- Every count matches (R282). -/
def State.imgMatched (s : State) : State :=
  let s1 := if s.lead.img.mode = 0 then
      ((List.range 8).foldl (fun x i => x.setReg bImg (0xC0 + 8 * i) (quadAt (sha512 s.lead.img.hdr) (8 * i))) s).modLead
        fun l => { l with sigChecked := s.getField bImg 0x10 26 1 = 1 }
    else s
  if s1.lead.img.hold then s1.setField bImg 0x10 0 3 4 else s1.imgStart

/-- What LOAD_CHECK finds at a core: expected count, and its counter where it can be read. -/
def loadCount (s : State) (t : Nat) : Option (Nat × Nat) :=
  match reachCore s t with
  | none => none
  | some n =>
    let r := (List.range 32).find? fun r => rgnHas s.lead.img.rgn r (siteOf t)
    let cc := rgnLoadCc s.lead.img.rgn (r.getD 0)
    if (s.core n).clearing then none else some (cc, ((s.core n).cc cc).toNat)

/-- A short core: LOAD_SHORT, and its counter is set to 0 (R281). -/
def State.loadShort (s : State) (t : Nat) : State :=
  let n := namedNode s t
  let cc := ((loadCount s t).map Prod.fst).getD 0
  ((s.setField bImg 0x10 32 14 n).offer leadNode (mkNotice s n 0x0504 0 0 0) none).writeCc n cc 0

/-- The index of the first section of PROGRAMS, or of TILES where there is none. -/
def repairFrom (h : List Byte) : Nat :=
  let l := sections h
  match l.findIdx? (·.ty == 8) with
  | some i => i
  | none => (l.findIdx? (·.ty == 9)).getD l.length

/-- The load enters REPAIR (R281). -/
def State.enterRepair (s : State) (short : List Nat) : State :=
  let i := repairFrom s.lead.img.hdr
  (((s.setField bImg 0x10 0 3 3).countField bImg 0x10 27 2).setField bImg 0x18 0 48 (sectionAt s.lead.img.hdr i).off
    |>.modImg fun g => { g with window := [], short := short, repairing := true, targets := [] }).toSection i

/-- CHECKING (R281). -/
def State.loadCheck (s : State) : State :=
  let l := s.lead.img.expect
  match l.find? fun e => match loadCount s e.1 with
    | none => true
    | some c => decide (e.2 < c.2) with
  | some e => s.imgFail (if (loadCount s e.1).isSome then 0x0E else 0x0D) 0 (some (namedNode s e.1))
  | none =>
    let short := (l.filter fun e => match loadCount s e.1 with
      | some c => decide (c.2 < e.2)
      | none => false).map Prod.fst
    if short = [] ∧ s.lead.img.sent = [] then s.imgMatched
    else
      let s1 := short.foldl State.loadShort s
      if s.getField bImg 0x10 27 2 = 3 then s1.imgFail 0x0E 0 none else s1.enterRepair short

/-- LOAD_CHECK (R281). -/
def execLoadCheck (s : State) : Res := .next (if imgState s = 2 then s.loadCheck else s)

/-- A write of RELEASE (R282): ignored but in READY. -/
def State.imgRelease (s : State) : State := if imgState s = 4 then s.imgStart else s

/-- RELEASE (R282). -/
def execRelease (s : State) : Res := .next s.imgRelease

/-! ## Responses at the steward's port (R280, R338) -/

/-- The ACK of a DRAM WRITE with this H3. -/
def State.imgAck (s : State) (key : Word) : State :=
  s.modImg fun g => { g with sent := g.sent.filter (·.h3 != key) }

/-- The credit is for a packet of the load in progress: its H3 is that of an unacknowledged DRAM WRITE, or of a packet
that nothing acknowledges, and its DKIND is that packet's kind (R338). -/
def imgOwns (s : State) (p : Packet) : Bool :=
  let g := s.lead.img
  imgBusy s && ((g.sent.any fun q => q.h3 == p.h3 && pDkind p == pKind q) || g.loose.contains (p.h3, pDkind p))

/-- A FENCE_CREDIT for a load packet (R280). -/
def State.imgCredit (s : State) (p : Packet) : State := s.imgFail 0x0D 0 (some (namedNode s (pSrcNode p)))

/-! ## Attestation (R287) -/

/-- The signed part of the report, from the state at this moment. -/
def reportBody (s : State) : List Byte :=
  let st := imgState s
  let loaded := decide (st = 4) || decide (st = 5)
  quadBytes 0x444C_5441_5454_5354 ++
    quadBytes (field 0 16 1 ||| field 16 1 s.lead.sigChecked.toNat ||| field 17 1 (s.getField bImg 0x20 1 1) |||
      field 18 1 loaded.toNat) ++
    quadBytes s.birth.serial ++ List.replicate 8 0 ++ imgBytes s 0x100 4 ++ sha512 (birthRecord s.birth) ++
    (if fwState s = 3 then sha512 s.lead.fwImage else padTo 64 Config.romFwHash) ++
    imgBytes s 0xC0 8 ++ imgBytes s 0x40 8 ++ List.replicate 192 0

/-- A write of ATTEST. -/
def State.attest (s : State) : State :=
  (s.setField bImg 0x10 25 1 0).modLead fun l => { l with attBusy := true, report := reportBody s }

/-- ATTEST (R287). -/
def execAttest (s : State) : Res := .next s.attest

/-- The signature of a message under R285 with the panel identity key: RSASSA-PSS by the private exponent, which lies
at no address (R21), with a salt of the panel's choice; both are free values (assumption 13). -/
def idSign (b : Birth) (msg : List Byte) : List Byte :=
  let n := beNat (padTo 512 b.idKeyN)
  beBytes (modPowBits 4096 (beNat (pssEncode (sha512 msg) (padTo 64 (Config.attestSalt msg))))
    (Config.idKeyD b.idKeyN b.idKeyE) n) 512

/-- ATT_READY (R287): the report is signed with the panel identity key. -/
def execAttReady (s : State) : Res :=
  .next (if s.lead.attBusy then
    (s.setField bImg 0x10 25 1 1).modLead fun l =>
      { l with attBusy := false, report := l.report ++ idSign s.birth l.report }
  else s)

/-- A write of IMG_CTL (R292). -/
def State.writeImgCtl (s : State) (v : Word) : State :=
  if bit v 0 && bit v 1 then s.imgAbort
  else
    let s1 := if bit v 1 then s.imgAbort else if bit v 0 then s.imgBegin v else s
    let s2 := if bit v 2 then s1.attest else s1
    if bit v 3 then s2.imgRelease else s2

end Sys2Proof.Machine
end

