-- ==== Sys2Proof/Machine/Bringup.lean ====
section
/-! DEFINITION. Panel reset, the lead steward's ROM, steward firmware, bond and DRAM training, the watch for
progress, and compute reset (R403 to R419, R425, R434). -/

namespace Sys2Proof.Machine

/-! ## Training (R408, R411) -/

/-- SITE_TRAIN.BOND_STATE. -/
def bondState (s : State) (st : Nat) : Nat := s.getField (bSm st) 0x400 2 3

/-- SITE_TRAIN.DRAM_STATE. -/
def dramState (s : State) (st : Nat) : Nat := s.getField (bSm st) 0x400 5 3

/-- The spare wires that the birth record's repairs use at a node, by 4 × plane + lane group (R20, R186). -/
def birthSpares (b : Birth) (st loc : Nat) : Sparse Nat :=
  (b.bondRepair.filter fun e => bits (e.zeroExtend 64) 0 8 == st && bits (e.zeroExtend 64) 8 6 == loc).foldl
    (fun m e =>
      let k := 4 * bits (e.zeroExtend 64) 14 2 + bits (e.zeroExtend 64) 16 2
      Sparse.set 0 k (Sparse.getD 0 m k + 1) m) []

/-- Bond training starts: the repairs of the birth record are applied again and VDROP is cleared (R20, R411). -/
def State.bondStart (s : State) (st : Nat) : State :=
  (siteNodes st).foldl (fun s n => (s.setField (bRtr n) 0x10 2 4 0).modRouter n fun r =>
      { r with spares := birthSpares s.birth st (localOf n) })
    (s.setField (bSm st) 0x400 2 3 1)

/-- A write of SITE_TRAIN.BOND: ignored while BUSY, at guest sites and at site 52 (R411, R426). -/
def State.trainBond (s : State) (st : Nat) : State :=
  if bondState s st = 1 ∨ siteKind st = .guest ∨ st = 52 then s else s.bondStart st

/-- SITE_TRAIN_BOND (R411). -/
def execSiteTrainBond (st : Nat) (s : State) : Res := onSite st s fun s => s.trainBond st

/-- A write of SITE_TRAIN.DRAM: ignored while BUSY and at sites without powered slices (R411, R426). -/
def State.trainDram (s : State) (st : Nat) : State :=
  if dramState s st = 1 ∨ siteKind st ≠ .compute ∨ !powerEn s st then s else s.setField (bSm st) 0x400 5 3 1

/-- SITE_TRAIN_DRAM (R411). -/
def execSiteTrainDram (st : Nat) (s : State) : Res := onSite st s fun s => s.trainDram st

/-- DRAM_TRAIN_DONE (R408). -/
def execDramTrainDone (st failed : Nat) (s : State) : Res :=
  onSite st s fun s =>
    if dramState s st ≠ 1 then s
    else
      let s1 := (s.setField (bSm st) 0x400 8 7 (min failed 64)).setField (bSm st) 0x400 5 3 (if failed = 0 then 2 else 3)
      if failed = 0 then s1 else s1.flagRemap st 4

/-- SET_HOST (R412). -/
def execSetHost (st : Nat) (s : State) : Res := onSite st s fun s => s.flagRemap st 6

/-! ## The ROM (R403 to R407) -/

/-- Change the progress of the ROM. -/
def State.setRom (s : State) (r : Rom) : State := s.modLead fun l => { l with rom := r }

/-- CAL_DONE, with no calibration running. -/
def siteCalibrated (s : State) (st : Nat) : Bool := bit (s.reg (bClk st) 0x40) 2 && !(s.site st).calBusy

/-- Every site. -/
def allSites : List Nat := List.range 192

/-- The ports at which pass boot writes TRAIN: link sites whose bond is DONE. -/
def State.bootPort (s : State) (k : Nat) : State := if bondState s (linkSite k) = 2 then s.passTrain k else s

/-- The ROM's next step once what it waits for has come about (R404, R407). -/
def State.romNext (s : State) : State :=
  match s.lead.rom with
  | .startLock => if siteLocked s 52 then (s.cal 52).setRom .startCal else s
  | .startCal => if siteCalibrated s 52 then (s.bondStart 52).setRom .startBond else s
  | .startBond => if bondState s 52 = 1 then s else s.setRom .waiting
  | .bootLock => if allSites.all (siteLocked s) then (allSites.foldl State.cal s).setRom .bootCal else s
  | .bootCal =>
    if allSites.all (siteCalibrated s) then
      (((poweredSites s).foldl State.trainDram (allSites.foldl State.trainBond s))).setRom .bootTrain
    else s
  | _ => s

/-- OSC_LOCK (R357): the ROM goes on where it waits for it. -/
def execOscLock (st d : Nat) (s : State) : Res :=
  onUnit (isSite st && decide (d < 3)) s fun s => (s.oscLock st d).romNext

/-- CAL_DONE (R364). -/
def execCalDone (st : Nat) (fails : List (Nat × Nat × Port)) (offset : BitVec 8) (s : State) : Res :=
  onSite st s fun s => (s.calEnd st fails offset.toNat).romNext

/-- The planes that bond training finds failed are dropped (R186, R188, R408). -/
def State.bondFailed (s : State) (st : Nat) (l : List (Nat × Nat)) : State :=
  (l.filter fun f => f.1 < 64 && f.2 < 4).foldl (fun s f => s.dropPlane (nodeOf st f.1) f.2) s

/-- BOND_TRAIN_DONE (R5, R288, R289, R408): a compute, link or steward die of the panel reports level 1, step 0xA1 and the
mask of A1; one whose bond does not train reports nothing. -/
def execBondTrainDone (st : Nat) (r : BondResult) (s : State) : Res :=
  onSite st s fun s =>
    if bondState s st ≠ 1 then s
    else
      let s1 := (if r.ok then s.noteAgreement st 1 0xA1 a1Features true else s.noteAgreement st 0 0 0 false).setField
        (bSm st) 0x400 2 3 (if r.ok then 2 else 3)
      let s2 := if r.ok then s1.bondFailed st r.failed
        else if siteKind st = .compute then s1.flagRemap st 3 else s1
      let s3 := match portOfSite st with
        | some k => if s.lead.rom == Rom.bootTrain && fwState s != 3 then s2.bootPort k else s2
        | none => s2
      s3.romNext

/-- PANEL_RESET_N has been low for 10 µs: every regulator stops and every register takes its panel-reset value
(R22, R434). -/
def execPanelResetN (s : State) : Res := .next s.powerLoss

/-- PANEL_RESET_RELEASE: from its reset values the ROM begins step 2 of bring-up, at W3 where PWR_OK or COOL_OK is low
(R390, R403, R404, R406, R434, R435). -/
def execPanelResetRelease (s : State) : Res :=
  .next (if s.pins.resetHeld then
    let s0 := s.powerLoss
    let s1 := { s0 with pins := { s0.pins with resetHeld := false, vlink := true, vctl := true } }
    let s2 := (s1.oscEn 52 0 true).oscEn 52 1 true
    (((s2.setPort 8 1).setPort 9 1).setRom .startLock).updateLevel
  else s)

/-- Pass boot commits PWR_VNET.EN for every field. -/
def State.bootVnet (s : State) : State :=
  (s.stage bPwr 0x20 (rwsMask s bPwr 0x20) (s.reg bPwr 0x20 ||| msk 47 0)).go bPwr

/-- Pass boot commits POWER_EN = 1 with HEADERS_ON = 0 at a site. -/
def State.bootPower (s : State) (st : Nat) : State :=
  (s.stage (bSp st) 0x08 (rwsMask s (bSp st) 0x08) (setBits (s.reg (bSp st) 0x08) 0 2 1)).go (bSp st)

/-- The sites that the birth record shows as active compute sites. -/
def activeSites (s : State) : List Nat := computeSites.filter fun st => statusByte s.birth st == 0x01

/-- PASS_BOOT: no control-port pair is UP 3.2 s after release (R407). -/
def execPassBoot (s : State) : Res :=
  .next (
    let r := s.lead.rom
    if (r = .startLock ∨ r = .startCal ∨ r = .startBond ∨ r = .waiting) ∧ portState s 8 ≠ 5 ∧ portState s 9 ≠ 5 ∧
        fwState s ≠ 3 then
      let s1 := (s.setField bCtl 0x10 10 1 1).bootVnet
      let s2 := (activeSites s).foldl State.bootPower s1
      (allSites.foldl (fun s st => [0, 1, 2].foldl (fun s d => s.oscEn st d true) s) s2).setRom .bootLock
    else s)

/-- PASS_BOOT_RETRAIN: TRAIN again at every port in DOWN (R407). -/
def execPassBootRetrain (s : State) : Res :=
  .next (if s.lead.rom = Rom.bootTrain ∧ fwState s ≠ 3 then
    (List.range 8).foldl (fun s k => if portState s k = 0 then s.bootPort k else s) s
  else s)

/-! ## Steward firmware (R409, R410, R425) -/

/-- Set STW_FW_STAT.STATE and REASON. -/
def State.setFw (s : State) (st reason : Nat) : State :=
  s.modReg (bStw 0) 0x20 fun w => setBits (setBits w 0 3 st) 4 4 reason

/-- A write of STW_FW_CTL.BEGIN: ignored while RUNNING, and while PANEL_RESET_N is low (R434). -/
def State.fwBegin (s : State) : State :=
  if fwState s = 3 ∨ s.pins.resetHeld then s
  else (s.setReg (bStw 0) 0x20 (field 0 3 1)).modLead fun l => { l with fwBytes := [], fwFull := [] }

/-- FW_BEGIN (R410). -/
def execFwBegin (s : State) : Res := .next s.fwBegin

/-- A write of STW_FW_CTL.ABORT: ignored while RUNNING. -/
def State.fwAbort (s : State) : State := if fwState s = 3 then s else s.setField (bStw 0) 0x20 0 3 0

/-- FW_ABORT (R425). -/
def execFwAbort (s : State) : Res := .next s.fwAbort

/-- A write of STW_FW_CTL: ABORT acts alone. -/
def State.writeFwCtl (s : State) (v : Word) : State :=
  if bit v 1 then s.fwAbort else if bit v 0 then s.fwBegin else s

/-- Firmware bytes received so far are consumed; at LENGTH the firmware is to be verified. -/
def State.fwConsume (s : State) : State :=
  let l := s.lead
  let r := takeRun (2 ^ 25) l.fwFull.length l.fwBytes
  let all := l.fwFull ++ r.1
  let len := (quadAt all 8).toNat
  let whole := decide (16 ≤ all.length) && decide (len ≤ all.length)
  let got := if whole then all.take (max len 16) else all
  let s1 := (s.modLead fun l => { l with fwFull := got, fwBytes := r.2 }).setField (bStw 0) 0x20 16 25 got.length
  if whole then s1.setField (bStw 0) 0x20 0 3 2 else s1

/-- A WRITE to STW_FW_DATA (R277, R410). -/
def State.fwData (s : State) (chunk : List Byte) : State :=
  let c := s.lead.fwFull.length
  if fwState s = 1 && chunkFormed chunk && decide (chunkOff chunk < c + 2 ^ 20) then
    (s.modLead fun l => { l with fwBytes := addBytes c l.fwBytes (chunkOff chunk) (chunk.drop 8) }).fwConsume
  else s.countField (bStw 0) 0x20 48 16

/-- STW_FW_DATA (R410). -/
def execStwFwData (chunk : List Byte) (s : State) : Res := .next (s.fwData chunk)

/-- The reason for which firmware is rejected, 0 where every check passes (R409, R410, R425). -/
def fwReason (s : State) (f : List Byte) (started : Bool) : Nat :=
  let len := (quadAt f 8).toNat
  let key := (f.drop 0x80).take 520
  if quadAt f 0 ≠ 0x444C_5446_4952_4D57 then 1
  else if len % 64 ≠ 0 ∨ len < 2048 ∨ 2 ^ 24 < len ∨ f.length ≠ len then 2
  else if sha512 key ≠ padTo 64 s.birth.fwKeyHash then 3
  else if !pssVerify (key.take 512) (key.drop 512) (f.take 0x300) ((f.drop 0x300).take 512) then 4
  else if sha512 (f.drop 0x600) ≠ (f.drop 0x40).take 64 then 5
  else if !started then 6
  else 0

/-- FW_VERIFY; started: the other stewards start it too (R410). -/
def execFwVerify (started : Bool) (s : State) : Res :=
  .next (if fwState s ≠ 2 then s
  else
    let f := s.lead.fwFull
    let r := fwReason s f started
    if r = 0 then
      ((s.setFw 3 0).setField bCtl 0x10 9 1 1).modLead fun l => { l with fwImage := f, fwFull := [], fwBytes := [] }
    else (s.setFw 4 r).noticeLead 0x0A07)

/-! ## Compute reset (R415 to R418) -/

/-- STW_RESET_STAT.STATUS. -/
def resetStatus (s : State) : Nat := s.getField (bStw 0) 0x38 0 2

/-- The VALID regions that a value of STW_RESET_CTL selects. -/
def resetRegions (s : State) (v : Word) : List Nat :=
  allRegions.filter fun r => rgnValid s r && (bit v 32 || bit v r)

/-- The cores of every compute site whose headers are on. -/
def servedCores (s : State) : List Nat := (computeSites.flatMap siteNodes).filter (coreServed s)

/-- The cores that a reset acts on (R415). -/
def resetScope (s : State) (v : Word) : List Nat :=
  (servedCores s).filter fun n => bit v 32 || (coreMember s n && (resetRegions s v).contains (coreRegion s n))

/-- A member of a region is given its new generation. -/
def State.rejoin (s : State) (n : Nat) : State :=
  if coreMember s n then s.commitCore n [(0x30, memberWord s (coreRegion s n))] else s

/-- A write of STW_RESET_CTL (R415 to R418). -/
def State.computeReset (s : State) (v : Word) : State :=
  if !bit v 33 || resetStatus s == 1 then s
  else
    let rs := resetRegions s v
    match rs.find? fun r => decide (0 < drainLeft s r) with
    | some r =>
      (s.modReg (bStw 0) 0x38 fun w => setBits (setBits w 0 2 3) 2 5 r).noticeLead 0x0A03
    | none =>
      let s1 := s.imgInterrupt fun r => rs.contains r
      let s2 := s1.modReg (bStw 0) 0x38 fun w => wrapInc (setBits (setBits w 0 2 1) 2 5 0) 16 16
      let s3 := rs.foldl (fun s r => (s.setRgnState r 4).advanceGen r) s2
      let scope := resetScope s v
      let s4 := scope.foldl (fun s n => (s.clear n).rejoin n) s3
      s4.modLead fun l => { l with resetScope := scope, resetRegions := rs }

/-- COMPUTE_RESET (R415). -/
def execComputeReset (v : Word) (s : State) : Res := .next (s.computeReset v)

/-- RESET_DONE: every core in scope shows CLEAR_DONE (R418). -/
def execResetDone (s : State) : Res :=
  .next (if resetStatus s = 1 ∧ s.lead.resetScope.all fun n => !coreServed s n || (s.core n).clearDone then
    let s1 := s.lead.resetRegions.foldl (fun s r => s.setRgnState r 5) (s.setField (bStw 0) 0x38 0 2 2)
    (s1.modLead fun l => { l with resetScope := [], resetRegions := [] }).noticeLead 0x0A02
  else s)

/-! ## Watching for progress (R413, R414) -/

/-- Context i of core n is watched. -/
def watched (s : State) (n i : Nat) : Bool :=
  let r := coreRegion s n
  let x := s.ctx n i
  bit (s.reg (bStw 0) 0x10) 8 && coreMember s n && rgnState s r == 2 && bits (rgnCfg s r) 16 16 != 0 &&
    headerOn s n && effectiveCap s n != 0 && (x.state == .ready || x.state == .parked) && !x.idle

/-- The cores of a steward's quadrant of which anything is held. -/
def sampledCores (s : State) (q : Nat) : List Nat :=
  (s.cores.map Prod.fst).filter fun n => isCoreNode n && quadrantOf (siteOf n) == q

/-- The still count of a context at this sample. -/
def stillNow (s : State) (q n i : Nat) : Nat :=
  let w := s.steward q
  let k := 4 * n + i
  if watched s n i && Sparse.getD 0 w.seenCairn k == (s.ctx n i).cairn then Sparse.getD 0 w.still k + 1 else 0

/-- A hang or fault event of a sample. -/
structure Event where
  node : Nat
  ctx : Nat
  fault : Bool
  deriving DecidableEq, Repr

/-- A context is hung at this sample (R413). -/
def hungNow (s : State) (q n i : Nat) : Bool :=
  watched s n i && decide (bits (rgnCfg s (coreRegion s n)) 16 16 ≤ stillNow s q n i)

/-- The events of a sample, by node and context (R414). -/
def sampleEvents (s : State) (q : Nat) : List Event :=
  (sampledCores s q).flatMap fun n => [0, 1, 2, 3].flatMap fun i =>
    let k := 4 * n + i
    let fault := (s.ctx n i).state == .faulted && coreMember s n && !(s.steward q).seenFault.contains k
    let hang := hungNow s q n i && !(s.steward q).hung.contains k
    (if hang then [⟨n, i, false⟩] else []) ++ (if fault then [⟨n, i, true⟩] else [])

/-- What the steward keeps of a sample. -/
def State.noteSample (s : State) (q : Nat) : State :=
  let ks := (sampledCores s q).flatMap fun n => [0, 1, 2, 3].map fun i => (n, i)
  let key := fun (c : Nat × Nat) => 4 * c.1 + c.2
  s.modSteward q fun w => { w with
    still := ks.foldl (fun m c => Sparse.set 0 (key c) (stillNow s q c.1 c.2) m) []
    hung := (ks.filter fun c => hungNow s q c.1 c.2 ||
      (w.hung.contains (key c) && stillNow s q c.1 c.2 != 0)).map key
    seenCairn := ks.foldl (fun m c => Sparse.set 0 (key c) (s.ctx c.1 c.2).cairn m) []
    seenFault := (ks.filter fun c => (s.ctx c.1 c.2).state == .faulted).map key }

/-- An event is recorded; a hang is also reported (R414). -/
def State.noteEvent (q : Nat) (s : State) (e : Event) : State :=
  let s1 := s.countField (bStw q) 0x40 32 16
  let s2 := if bit (s1.reg (bStw q) 0x40) 0 then s1
    else s1.modReg (bStw q) 0x40 fun w => (w &&& msk 47 32) ||| field 0 1 1 ||| field 1 5 (coreRegion s e.node) |||
      field 6 14 e.node ||| field 20 2 e.ctx ||| field 22 1 e.fault.toNat
  if e.fault then s2 else s2.offer (nodeOf (stewardSite q) 0) (mkNotice s e.node 0x0A01 0 0 0) none

/-- STOP_REMAP of a region, with the nodes concerned (R414). -/
def State.stopRegion (s : State) (r : Nat) (nodes : List Nat) : State :=
  let s1 := (((regionSites s r).flatMap siteNodes).filter (coreServed s)).foldl (fun s n => s.halt n 15) s
  let s2 := nodes.foldl (fun s n => (s.setFence n true).flagRemap (siteOf n) 5) s1
  s2.setRgnState r 3

/-- The steward asks for a compute reset of a region, and asks again at the next sample where it is not
accepted. -/
def State.askReset (q : Nat) (s : State) (r : Nat) : State :=
  let busy := resetStatus s == 1
  let s1 := s.computeReset (field 33 1 1 ||| field 0 32 (2 ^ r))
  if busy || resetStatus s1 == 3 then s1.modSteward q fun w => { w with resets := w.resets ++ [r] } else s1

/-- The policy of every region with events, once each (R414). -/
def State.applyPolicies (s : State) (q : Nat) (es : List Event) : State :=
  let rs := (es.map fun e => coreRegion s e.node).eraseDups
  let policy := fun r => bits (rgnCfg s r) 11 2
  let s1 := (rs.filter fun r => policy r == 2).foldl (fun x r =>
    x.stopRegion r ((es.filter fun e => coreRegion s e.node == r).map Event.node).eraseDups) s
  let ask := allRegions.filter fun r => (s.steward q).resets.contains r || (rs.contains r && policy r == 1)
  ask.foldl (State.askReset q) (s1.modSteward q fun w => { w with resets := [] })

/-- DRAIN_LEFT of every region falls at a sample of the lead steward (R419). -/
def State.drainSample (s : State) : State :=
  allRegions.foldl (fun s r => if drainLeft s r = 0 then s else s.setField (bStw 0) (rgnOff r) 32 8 (drainLeft s r - 1)) s

/-- CAIRN_SAMPLE (R413, R414, R419). -/
def execCairnSample (q : Nat) (s : State) : Res :=
  onSteward q s fun s =>
    let s0 := if q = 0 then s.drainSample else s
    let es := sampleEvents s0 q
    (es.foldl (State.noteEvent q) (s0.noteSample q)).applyPolicies q es

end Sys2Proof.Machine
end

