-- ==== Sys2Proof/Machine/RegWrite.lean ====
section
/-! DEFINITION. What a write to each register does, accesses to several registers, and the core's local
register access (R29 to R36, R97, and the register tables of every chapter). -/

namespace Sys2Proof.Machine

/-! ## Registers whose fields have behaviour of their own -/

/-- A write whose fields only hold values, stage them or clear on one (R31). -/
def State.plain (s : State) (k : Blk) (off : Nat) (v : Word) : State :=
  match regInfo s.birth k off with
  | some i => s.plainWrite k off i v
  | none => s

/-- CORE_* (R69): CORE_TENSOR_CAP stores 8 for 9 to 15. -/
def State.writeCore (s : State) (n off : Nat) (v : Word) : State :=
  if off = 0x18 then s.writeCtl n v
  else if off = 0x40 then s.plain (bCore n) off (if 8 < bits v 0 4 then setBits v 0 4 8 else v)
  else if off = 0x50 then
    let s1 := s.plain (bCore n) off v
    if bit v 13 && !(s1.core n).flushPending then s1.flush n else s1
  else s.plain (bCore n) off v

/-- STW_* (R425): clearing STW_HANG.VALID clears the event; HANG_POLICY 3 stores 0. -/
def State.writeStw (s : State) (q off : Nat) (v : Word) : State :=
  let k := bStw q
  if off = 0x18 then s.writeFwCtl v
  else if off = 0x30 then s.computeReset v
  else if off = 0x40 then
    let s1 := s.plain k off v
    if bit v 0 then s1.modReg k off (· &&& msk 47 32) else s1
  else if off = 0x8000 then s.fwData (quadBytes v)
  else if inArray off 0x1000 32 32 then s.plain k off (if bits v 11 2 = 3 then setBits v 11 2 0 else v)
  else s.plain k off v

/-- IMG_* (R292). -/
def State.writeImg (s : State) (off : Nat) (v : Word) : State :=
  if off = 0x08 then s.writeImgCtl v else if off = 0x8000 then s.imgData (quadBytes v) else s.plain bImg off v

/-- PWR_* (R402). -/
def State.writePwr (s : State) (off : Nat) (v : Word) : State :=
  if off = 0x08 then (s.plain bPwr off v).force (bits v 28 3)
  else if off = 0x38 then s.pmbusXact v
  else s.plain bPwr off v

/-- PASS_CTL: with DOWN = 1, DOWN acts alone of the two (R330). -/
def State.writePassCtl (s : State) (k : Nat) (v : Word) : State :=
  let s1 := s.setField (bPass k) 0x10 3 1 (bits v 3 1)
  let s2 := if bit (s.reg (bPass k) 0x10) 2 == bit v 2 then s1 else s1.opticsOff k (bit v 2)
  if bit v 1 then s2.goDown k 1 else if bit v 0 then s2.passTrain k else s2

/-- The last replay register of ring u: GO starts a replay with what the same write sets (R328, R330). -/
def State.writeReplay (s : State) (u off : Nat) (v : Word) : State :=
  let s1 := s.plain (ringBlk u) off v
  if bit v 24 then s1.ringReplay u else s1

/-- CLK_* (R358, R374): a write of an oscillator's register sets its count. -/
def State.writeClk (s : State) (st off : Nat) (v : Word) : State :=
  let k := bClk st
  if off = 0x08 then
    let s1 := [0, 1, 2].foldl (fun s d => s.oscEn st d (bit v d)) s
    let s2 := if bit v 4 then s1.cal st else s1
    let s3 := if bit v 5 then s2.recal st else s2
    if bit v 6 then s3.refSwitch st else s3
  else if off = 0x40 then
    let s1 := s.plain k off v
    if bit v 0 then s1.setReg k 0x48 0 else s1
  else if off = 0x80 then
    let s1 := s.plain k off v
    if bit v 0 then s1.arm else s1
  else if inArray off 0x20 8 3 then (s.plain k off v).countStretches st ((off - 0x20) / 8)
  else s.plain k off v

/-- SITE_TRAIN and SITE_HEALTH (R426): REMAP is the OR of the causes (R412). -/
def State.writeMisc (s : State) (st off : Nat) (v : Word) : State :=
  let k := bSm st
  if off = 0x400 then
    let s1 := if bit v 0 then s.trainBond st else s
    if bit v 1 then s1.trainDram st else s1
  else if off = 0x408 then
    let s1 := (s.plain k off v).modReg k off fun w => setBit w 0 (bits w 1 6 != 0)
    if bit v 7 then s1.flagRemap st 6 else s1
  else s.plain k off v

/-- GUEST_* and FORD_* (R353). -/
def State.writeFord (s : State) (g off : Nat) (v : Word) : State :=
  if off = 0x08 then
    let s1 := s.guestEnable g (bit v 0)
    if bit v 1 then s1.guestRetrain g else s1
  else if off = 0x228 then s.writeReplay (8 + g) off v
  else s.plain (bFord g) off v

/-- The register at an offset is the commit register of its block (R36). -/
def isCommit (k : Blk) (off : Nat) : Bool := off == 0 && k.kind != .siteMisc

/-- A write to a register of a block (R31). -/
def State.writeBlk (s : State) (k : Blk) (off : Nat) (v : Word) : State :=
  if isCommit k off then s.writeCommit k v
  else match k.kind with
  | .core => s.writeCore k.unit off v
  | .rtr => if off = 0x10 then s.setFence k.unit (bit v 0) else s.plain k off v
  | .mc => s.plain k off v
  | .lgr => s.plain k off v
  | .stw => s.writeStw k.unit off v
  | .img => s.writeImg off v
  | .ctl => s.plain k off v
  | .pwr => s.writePwr off v
  | .thm => if off = 0x18 then (if k.unit = 0 ∧ bit v 0 then s.tripClear else s) else s.plain k off v
  | .pass =>
    if off = 0x10 then s.writePassCtl k.unit v
    else if off = 0xA8 then s.writeReplay k.unit off v
    else s.plain k off v
  | .dom => s.plain k off v
  | .clk => s.writeClk k.unit off v
  | .sitePwr => if off = 0x10 then s.holdClear k.unit v else s.plain k off v
  | .siteMisc => s.writeMisc k.unit off v
  | .ford => s.writeFord k.unit off v

/-- A write to a place; the birth record is read only (R20, R191). -/
def State.writePlace (s : State) (p : Place) (v : Word) : State :=
  match p with
  | .reg k off => s.writeBlk k off v
  | .site n off =>
    if off = 0 then s.writeCommitSite (siteOf n) v
    else (siteRtrs (siteOf n)).foldl (fun s k => s.writeBlk k off v) s
  | .slot n i => s.writeSlot n i v
  | .cc n c => s.writeCc n c v
  | .birth _ => s

/-! ## Several registers (R29, R30) -/

/-- Consecutive registers are written in ascending offset order; whether one of them is undefined. While PANEL_RESET_N is
low every register stays at its reset value (R434). -/
def State.writeRegs (s : State) (sp n off : Nat) : List Word → State × Bool
  | [] => (s, false)
  | v :: rest =>
    match place s sp n off with
    | some p => (if s.pins.resetHeld then s else s.writePlace p v).writeRegs sp n (off + 8) rest
    | none => ((s.writeRegs sp n (off + 8) rest).1, true)

/-- Consecutive registers as read, an undefined one as zero; whether one of them is undefined. -/
def readRegs (s : State) (sp n off : Nat) : Nat → List Byte × Bool
  | 0 => ([], false)
  | c + 1 =>
    let r := readRegs s sp n (off + 8) c
    match place s sp n off with
    | some p => (quadBytes (readPlace s p) ++ r.1, r.2)
    | none => (quadBytes 0 ++ r.1, true)

/-! ## Commands on registers -/

/-- The unit that serves a register space at a node can be reached by the command: a clearing core serves only
its registers below the slots, and none is reached while PANEL_RESET_N is low (R62, R386, R434). -/
def locServed (s : State) (l : Loc) : Bool :=
  !s.pins.resetHeld &&
    match l.space with
    | 2 => coreServed s l.node && (!(s.core l.node).clearing || decide (l.off < 0x1000))
    | 4 => !siteUnpowered s (siteOf l.node)
    | _ => true

/-- f at a register that a location names, where its unit is served. -/
def onPlace (l : Loc) (s : State) (f : Place → State) : Res :=
  onUnit (isNode l.node) s fun s =>
    match place s l.space l.node l.off with
    | some p => if locServed s l then f p else s
    | none => s

/-- REGISTER_WRITE (R31). -/
def execRegisterWrite (l : Loc) (v : Word) (s : State) : Res := onPlace l s fun p => s.writePlace p v

/-- The place is a commit register, of a block or site-wide. -/
def Place.isCommit : Place → Bool
  | .reg k off => Machine.isCommit k off
  | .site _ off => off == 0
  | _ => false

/-- COMMIT_GO (R33). -/
def execCommitGo (l : Loc) (s : State) : Res :=
  onPlace l s fun p => if p.isCommit then s.writePlace p 1 else s

/-- DISCARD (R36). -/
def execDiscard (l : Loc) (s : State) : Res :=
  onPlace l s fun p => if p.isCommit then s.writePlace p 2 else s

/-- SLOT_WRITE (R62, R202). -/
def execSlotWrite (n sl : Nat) (v : Word) (s : State) : Res :=
  onUnit (isCoreNode n && decide (sl < 64)) s fun s =>
    if coreServed s n && !(s.core n).clearing then s.writeSlot n sl v else s

/-- CC_WRITE (R62, R68). -/
def execCcWrite (n c : Nat) (v : Word) (s : State) : Res :=
  onUnit (isCoreNode n && decide (c < 4096)) s fun s =>
    if coreServed s n && !(s.core n).clearing then s.writeCc n c v else s

/-! ## RREG and WREG (R97) -/

/-- The notice of a local access to an offset that names no register of the core's space 0x2. -/
def localNotice (off : Nat) : Nat := if off % 8 = 0 then 0x0216 else 0x0215

/-- The register of the core's own space 0x2 that a local access names. -/
def localPlace (n : Nat) (s : State) (off : Nat) : Option Place := if off % 8 = 0 then corePlace s n off else none

/-- RREG (R97). It reads the state before its own retirement, so its own context's PC and Cairns are those of the
instruction before it (DESIGN CHOICE, assumption 78). -/
def execRreg (n : Nat) (s : State) : Res :=
  onCore n s fun s => issue s n (isOp 0xA0) fun s i w =>
    let off := (effAddr (s.ctx n i) w).toNat
    match localPlace n s off with
    | some p => (s.retire n i fun x => x.setG (iD w) (readPlace s p)).tick
    | none => (s.retire n i fun x => x.setG (iD w) 0).noticeDie n (localNotice off) none

/-- WREG (R97). -/
def execWreg (n : Nat) (s : State) : Res :=
  onCore n s fun s => issue s n (isOp 0xA1) fun s i w =>
    let off := (effAddr (s.ctx n i) w).toNat
    let v := (s.ctx n i).getG (iB w)
    match localPlace n s off with
    | some p => (s.retire n i id).writePlace p v
    | none => (s.retire n i id).noticeDie n (localNotice off) none

end Sys2Proof.Machine
end

