-- ==== Sys2Proof/Machine/LinkDie.lean ====
section
/-! DEFINITION. Packets parsed from the fibre: the far window, the checks of R316, the ring and injection
(R316, R320, R321, R325, R328, R338). -/

namespace Sys2Proof.Machine

/-! ## The ingress buffer -/

/-- Take a packet from the ingress buffer of link k, if it waits there; with the state, the frames that it
frees (R302; assumption 2). -/
def State.takeIngress (s : State) (k : Nat) (p : Packet) : State × Nat :=
  match takeFirst (fun q : InPkt => q.pkt == p) (s.link k).ingress with
  | some (q, rest) => (s.modLink k fun l => { l with ingress := rest }, q.frames)
  | none => (s, 0)

/-! ## The far window (R320) -/

/-- The packet crosses the fibre as an access of the far window: it keeps H1 local = 1 there
(assumption 60). -/
def farAccess (p : Packet) : Bool :=
  aLocal p.h1 && aSpace p.h1 == 6 && (pKind p == kWrite || pKind p == kReadReq) &&
    decide (0x0100_0000 ≤ aOff p.h1) && decide (aOff p.h1 ≤ 0x0110_FFFF)

/-- A response of the far die as it crosses the fibre. -/
def farMark (q : Packet) : Packet := { q with h1 := setBit q.h1 59 true }

/-- The far die's answer goes back over the same link. -/
def State.farAnswer (s : State) (k : Nat) (q : Option Packet) : State :=
  match q with
  | some q => s.modLink k fun l => { l with egress := l.egress ++ [⟨farMark q, none⟩] }
  | none => s

/-- The link die performs an access of its neighbour at its own space 0x6, offset y; a window that FAR_IN does
not open, or a misaligned access, is answered with a credit (R29, R30, R320). -/
def State.farServe (s : State) (k : Nat) (p : Packet) : State :=
  let n := linkNode k
  let y := aOff p.h1 - 0x0100_0000
  if !bit (s.reg (bPass k) 0x10) 3 then s.farAnswer k (creditFor p)
  else if y % 8 ≠ 0 ∨ pLen p % 8 ≠ 0 then (s.farAnswer k (creditFor p)).passNotice k 0x0215 (some p)
  else if pKind p = kWrite then
    let r := s.writeRegs 6 n y (pQuads p)
    (if r.2 then r.1.passNotice k 0x0216 (some p) else r.1).farAnswer k (ackFor p)
  else
    let r := readRegs s 6 n y (pLen p / 8)
    ((if r.2 then s.passNotice k 0x0216 (some p) else s).farAnswer k (some (respFor p r.1))).tick

/-- A response answers a request: by return tag and H3, or a credit by DKIND and H3 (R338). -/
def answers (p q : Packet) : Bool :=
  p.h3 == q.h3 &&
    (if pKind p = kCredit then pDkind p == pKind q
     else if pKind p = kReadResp then pKind q == kReadReq && pTag p == pTag q
     else pKind p == kAck && pKind q == kWrite && pTag p == pTag q)

/-- A response of the far die as the near die injects it: toward the requester, with H2 as the requester sent
it (R320). -/
def farReturn (p q : Packet) : Packet :=
  { p with h1 := returnAddr q (if pKind p = kReadResp then pLand q * 64 else 0)
           h2 := setBits q.h2 0 30 (pTag p) }

/-! ## LINK_DIE_INGRESS (R316) -/

/-- The partition fence of port k refuses a packet (R321). -/
def partRefuses (s : State) (k : Nat) (p : Packet) : Bool :=
  let c := s.reg (bPass k) 0x18
  let src := pSrcPanel p
  bit c 3 &&
    !((List.range 4).any fun i =>
        let w := s.reg (bPass k) (0x60 + 8 * i)
        bit w 32 && decide (bits w 0 13 ≤ src) && decide (src ≤ bits w 16 13)) &&
    !(bit c 4 && src == s.getField bDom 0x08 16 13)

/-- A packet refused from the fibre: its counter, and its notice where the counter was 0. -/
def State.refuseIn (s : State) (k : Nat) (p : Packet) (off lo len code : Nat) : State :=
  let s1 := s.countField (bPass k) off lo len
  if s.getField (bPass k) off lo len = 0 then s1.passNotice k code (some p) else s1

/-- The steps of R316; frames are those the packet frees. -/
def State.linkIngress (s : State) (k : Nat) (p : Packet) (frames : Nat) : State :=
  let put := fun (s : State) (q : Packet) => s.modLink k fun l =>
    { l with toInject := l.toInject ++ [⟨q, frames, false, false⟩] }
  let freed := s.modLink k fun l => l.free frames
  match (if aLocal p.h1 then takeFirst (answers p) (s.link k).far else none) with
  | some (q, rest) => put (s.modLink k fun l => { l with far := rest }) (farReturn p q)
  | none =>
    if farAccess p then freed.farServe k p
    else if pSrcLocal p || aLocal p.h1 then freed.refuseIn k p 0x50 56 8 0x0608
    else if partRefuses s k p then freed.refuseIn k p 0x48 32 16 0x0609
    else if !addrHere s p.h1 && egressOf s (aPanel p.h1) == some k then freed.refuseIn k p 0x50 0 16 0x060A
    else put (s.record k p) p

/-- LINK_DIE_INGRESS (R316). -/
def execLinkDieIngress (k : Nat) (p : Packet) (s : State) : Res :=
  onPort k s fun s =>
    let r := s.takeIngress k p
    r.1.linkIngress k p r.2

/-! ## Responses to a ring (R326, R328, R338) -/

/-- A response at the die that owns ring u, where it answers a request of the ring: by return tag and H3, or a credit
by DKIND and H3 (R338). -/
def State.ringResponse (s : State) (u : Nat) (p : Packet) : Option State :=
  let reads := match (s.ring u).replay with
    | some r => r.key == p.h3
    | none => false
  if pKind p == kReadResp && reads && pTag p == 0 then some (s.ringData u (pBytes p))
  else if pKind p = kAck ∧ ringOwes s u p.h3 ∧ pTag p = 2 ^ 17 then some (s.ringAck u p.h3)
  else if pKind p = kCredit ∧ pDkind p = kWrite ∧ ringOwes s u p.h3 then some (s.ringLoss u p.h3)
  else if pKind p == kCredit && pDkind p == kReadReq && reads then some (s.ringStale u)
  else none

/-- The node and plane at which packet p waits among the nodes of a site. -/
def waitsAt (s : State) (st : Nat) (p : Packet) : Option (Nat × Nat) :=
  ((siteNodes st).flatMap fun n => [(n, 0), (n, 1), (n, 2), (n, 3)]).find? fun e =>
    (s.plane e.1 e.2).vout.any fun h => h.pkt == p

/-- Take a packet from where it waits among the nodes of a site. -/
def State.takeSite (s : State) (st : Nat) (p : Packet) : State :=
  match waitsAt s st p with
  | some e => s.takeUp e.1 e.2 p
  | none => s

/-- RING_REPLAY_RECORD: the read of a record returns to the owner of ring u (R328, R352). -/
def execRingReplayRecord (u : Nat) (p : Packet) (s : State) : Res :=
  onUnit (decide (u < 12)) s fun s =>
    if pKind p ≠ kReadResp then s
    else match (s.takeSite (siteOf (ringNode u)) p).ringResponse u p with
      | some t => t
      | none => s

end Sys2Proof.Machine
end

