-- ==== Sys2Proof/Machine/Control.lean ====
section
/-! DEFINITION. The control port's packets: requests at the control bridge, their accesses and ends, notices
and the port's egress (R331 to R340, R354, R406). -/

namespace Sys2Proof.Machine

/-! ## From the fibre (R333) -/

/-- CONTROL_INGRESS: the lead steward injects a CONTROL packet of the fibre; one of another kind is discarded as
a stray. -/
def execControlIngress (p : Packet) (s : State) : Res :=
  .next (
    let r := s.takeIngress 8 p
    let s1 := r.1.modLink 8 fun l => l.free r.2
    if pKind p = kControl then s1.offer leadNode p none else s1.countStray)

/-! ## Requests (R334 to R337, R406) -/

/-- The site of the lead steward. -/
def leadSite : Nat := 52

/-- The packet is at CTL_CMD of this panel's lead steward, or on its way there. -/
def atCtlCmd (s : State) (p : Packet) : Bool :=
  addrHere s p.h1 && aSpace p.h1 == 5 && aOff p.h1 == ctlCmd && siteOf (aNode p.h1) == leadSite

/-- The operation carries DATA (R334). -/
def ctlWrites (op : Nat) : Bool := op == 2 || op == 3

/-- The packet is a request under R334. -/
def ctlFormed (p : Packet) : Bool :=
  let op := ctlOp p
  let n := ctlCount p
  pClass p == 1 && pGen p == 0 && pCid p == 0 && pGroup p == 0 && pTag p == 0 &&
    decide (1 ≤ op) && decide (op ≤ 3) && decide (1 ≤ n) && decide (n ≤ 28) &&
    onlyBits (ctlHead p) (msk 3 0 ||| msk 15 8 ||| msk 63 32) &&
    quadAt (pBytes p) 16 == 0 && quadAt (pBytes p) 24 == 0 &&
    pLen p == 32 + (if ctlWrites op then 8 * n else 0)

/-- The bridge executes a request on this TARGET now (R337). -/
def ctlAllowed (s : State) (a : Word) : Bool :=
  fwState s == 3 || (addrHere s a && (aSpace a == 5 || aSpace a == 7) && siteOf (aNode a) == leadSite)

/-- The TARGET is reached over the service wiring (R406). -/
def ctlService (s : State) (a : Word) : Bool := addrHere s a && aSpace a == 7 && decide (aNode a < 12288)

/-- An access over the service wiring, and its reply. A misaligned access makes none (R29, R30, R406;
assumption 61). The site controller's notices name its site's node with local index 0 (R339). -/
def State.serviceAccess (s : State) (p : Packet) : State :=
  let a := ctlTarget p
  let n := aNode a
  let z := nodeOf (siteOf n) 0
  if aOff a % 8 ≠ 0 then
    (s.noticePlain z 0x0215 none).bridgeReply p 0
      (if ctlOp p = 1 then List.replicate (8 * ctlCount p) 0 else [])
  else if ctlOp p = 1 then
    let r := readRegs s 7 n (aOff a) (ctlCount p)
    ((if r.2 then s.noticePlain z 0x0216 none else s).bridgeReply p 0 r.1).tick
  else
    let r := s.writeRegs 7 n (aOff a) (toQuads (ctlData p))
    (if r.2 then r.1.noticePlain z 0x0216 none else r.1).bridgeReply p 0 []

/-- The H3 of the bridge's n-th access: no two outstanding ones share it (R338). -/
def ctlKeyOf (n : Nat) : Word := field 32 32 n ||| field 16 16 0xFFFC

/-- The mesh access of a request (R335). -/
def ctlAccess (p : Packet) (key : Word) : Packet :=
  let n := 8 * ctlCount p
  if ctlOp p = 1 then { h0 := mkH0 kReadReq 1 0 n 0, h1 := ctlTarget p, h2 := 0, h3 := key, data := [] }
  else
    { h0 := mkH0 kWrite 1 0 n 0, h1 := ctlTarget p, h2 := field 17 1 (ctlOp p == 2).toNat, h3 := key,
      data := ctlData p }

/-- A request arrives at the bridge (R335 to R337). -/
def State.bridgeTake (s : State) (p : Packet) : State :=
  let a := ctlTarget p
  if !ctlFormed p || !ctlAllowed s a then (s.countField bCtl 0x20 16 16).bridgeReply p 2 []
  else if 64 ≤ s.lead.reqs.length then s.bridgeReply p 3 []
  else if ctlService s a then s.serviceAccess p
  else
    let key := ctlKeyOf s.lead.ctlKey
    (s.modLead fun l => { l with reqs := l.reqs ++ [⟨p, key⟩], ctlKey := l.ctlKey + 1 }).offer leadNode
      (ctlAccess p key) none

/-- A request of a row's OP, or of a reserved one, arrives at CTL_CMD. -/
def ctlRow (op : Nat) (p : Packet) (s : State) : Res :=
  .next (
    if pKind p = kControl ∧ atCtlCmd s p ∧ ctlOp p ≠ 8 ∧ (ctlOp p = op ∨ ctlOp p = 0 ∨ 3 < ctlOp p) then
      (s.takeSite leadSite p).bridgeTake p
    else s)

/-- REG_READ (R335). -/
def execRegRead (p : Packet) (s : State) : Res := ctlRow 1 p s
/-- REG_WRITE (R335). -/
def execRegWrite (p : Packet) (s : State) : Res := ctlRow 2 p s
/-- BLOCK_WRITE (R335). -/
def execBlockWrite (p : Packet) (s : State) : Res := ctlRow 3 p s

/-- CTL_REQUEST_TIMEOUT: no response to outstanding request i within 10 ms (R335). A BLOCK_WRITE waits for its
injection alone. -/
def execCtlRequestTimeout (i : Nat) (s : State) : Res :=
  .next (
    match s.lead.reqs[i]? with
    | some r => if ctlOp r.pkt = 3 then s else (s.bridgeEnd r 4 []).countField bCtl 0x20 32 16
    | none => s)

/-- A response at the lead steward's port (R335, R338): the bridge's, the image engine's, or a stray. -/
def State.stewardResponse (s : State) (p : Packet) : State :=
  let rd := bridgeReq s 1 p.h3
  let wr := bridgeReq s 2 p.h3
  if pKind p = kReadResp then
    match rd with
    | some r => if pTag p = 0 then s.bridgeEnd r 0 (pBytes p) else s.countStray
    | none => s.countStray
  else if pKind p = kAck then
    match wr with
    | some r => if pTag p = 2 ^ 17 then s.bridgeEnd r 0 [] else s.countStray
    | none => if s.lead.img.sent.any fun q => answers p q then s.imgAck p.h3 else s.countStray
  else if pKind p = kCredit then
    match (if pDkind p = kReadReq then rd else if pDkind p = kWrite then wr else none) with
    | some r => s.bridgeEnd r 1 []
    | none => if imgOwns s p then s.imgCredit p else s.countStray
  else s.countStray

/-! ## Replies and notices (R333, R340) -/

/-- A packet joins the control port's egress. -/
def State.ctlEgress (s : State) (p : Packet) : State := s.modLead fun l => { l with egress := l.egress ++ [p] }

/-- A CONTROL reply at CTL_CMD is forwarded on the control port, or is a stray (R333). -/
def State.takeReply (s : State) (p : Packet) : State := if ctlUp s then s.ctlEgress p else s.countStray

/-- NOTICE's CODE (R339). -/
def noticeCode (p : Packet) : Nat := bits (quadAt (pBytes p) 0) 0 16

/-- A notice with its FWD_SEQ (R340). -/
def numbered (p : Packet) (q : Nat) : Packet :=
  let b := pBytes p
  { p with data := quadBytes (setBits (quadAt b 0) 32 32 q) ++ b.drop 8 }

/-- A notice arrives at CTL_NOTICE (R340). -/
def State.takeNotice (s : State) (p : Packet) : State :=
  if bit (s.reg bCtl 0x08) (16 + noticeCode p / 256) && decide (noticeCode p / 256 < 16) then s
  else
    let q := s.getField bCtl 0x18 32 32
    let s1 := s.setField bCtl 0x18 32 32 (q + 1)
    if noticesQueued s < 1024 then s1.ctlEgress (numbered p q) else s1.countField bCtl 0x18 16 16

/-- NOTICE_FORWARD: the oldest packet of the control port's egress goes to its link (R340). -/
def execNoticeForward (s : State) : Res :=
  .next (
    match s.lead.egress with
    | p :: rest =>
      if ctlUp s then
        (s.modLead fun l => { l with egress := rest }).modLink 8 fun l =>
          { l with egress := l.egress ++ [⟨p, none⟩] }
      else s
    | [] => s)

end Sys2Proof.Machine
end

