-- ==== Sys2Proof/Machine/Deliver.lean ====
section
/-! DEFINITION. Packets delivered at a node: what each resource takes and does with them, and what becomes of
the others (R26, R29, R30, R62, R143 to R147, R195, R211, R231, R246, R253, R338, R345, R386, R421, R445,
R446). -/

namespace Sys2Proof.Machine

/-! ## Discards at the destination (R26, R145, R446, R447) -/

/-- The resource lies in the Plain beside the router: space 0x3 or 0x7. -/
def plainSpace (sp : Nat) : Bool := sp == 3 || sp == 7

/-- A packet that the resource built for packet p of input pt: it takes p's place in the router where the
resource lies in the Plain, is an injection of the slice controller for its registers, and of the die elsewhere
(R212, R447; assumption 62). A response to a tree enters at the tree's root alone, as from the vertical input (R181). -/
def State.answer (s : State) (n pl : Nat) (pt : Port) (p q : Packet) : State :=
  if plainSpace (aSpace p.h1) then
    let x := fillSource s n q
    s.rootOnly n pl pt x fun s =>
      s.modPlane n pl fun r => { r with inputs := r.inputs ++ [newHeader x (if isTree x then .v else pt)] }
  else if aSpace p.h1 = 4 then s.modSlice n fun c => { c with regOut := c.regOut ++ [⟨q, some pl⟩] }
  else s.offer n q (some pl)

/-- The answer, if there is one. -/
def State.answer? (s : State) (n pl : Nat) (pt : Port) (p : Packet) (q : Option Packet) : State :=
  match q with
  | some q => s.answer n pl pt p q
  | none => s

/-- The node that a notice of the resource at node n names: the site's node with local index 0 where the block is
die-wide or site-wide: those of spaces 0x5 to 0x8, and the response port of a steward, link or guest die (R338,
R339). -/
def raiser (n : Nat) (p : Packet) : Nat :=
  if 5 ≤ aSpace p.h1 ∨ (aSpace p.h1 = 1 ∧ siteKind (siteOf n) ≠ .compute) then nodeOf (siteOf n) 0 else n

/-- A notice of the resource that packet p reached: in the Plain for spaces 0x3, 0x7 and 0x8 (R339, R447). -/
def State.noticeAt (s : State) (n code : Nat) (p : Packet) : State :=
  if plainSpace (aSpace p.h1) || aSpace p.h1 == 8 then s.noticePlain (raiser n p) code (some p)
  else s.noticeDie (raiser n p) code (some p)

/-- Packet p is discarded at its destination with a notice. -/
def State.discardAt (s : State) (n pl : Nat) (pt : Port) (p : Packet) (code : Nat) : State :=
  (s.answer? n pl pt p (creditFor p)).noticeAt n code p

/-- The guest bridge of node n, if one lies under it. -/
def guestIdx (n : Nat) : Option Nat := guestOfSite (siteOf n)

/-- A kind that the resource does not take (R246, R345, R446). A guest bridge counts each one in KIND_DROPS, with
GUEST_KIND for the first; a LEDGER_OP and a RED_PART raise beside it the notice that R446 and R246 give them in any
such space (DEDUCED, assumption 89). -/
def State.notTaken (s : State) (n pl : Nat) (pt : Port) (p : Packet) : State :=
  let sp := aSpace p.h1
  if sp = 0 ∨ sp = 4 then s.mcKind n pl p
  else match (if sp = 8 then guestIdx n else none) with
    | some g =>
      let s1 := s.guestDrop g ⟨p, some pl⟩ n 32 0x0714
      if pKind p = kLedgerOp ∨ pKind p = kRedPart then s1.guestNotice g (absentCode p) (some p) else s1
    | none => s.discardAt n pl pt p (absentCode p)

/-! ## What stands before a core (R62, R386, R421) -/

/-- The core above node n does not take a packet: its site is unpowered, its headers are off, or it is clearing
and the packet is no access to its registers below the slots (R26, R62, R386). -/
def coreDenies (s : State) (n : Nat) (p : Packet) : Bool :=
  siteUnpowered s (siteOf n) || !headerOn s n ||
    ((s.core n).clearing &&
      !(aSpace p.h1 == 2 && (pKind p == kWrite || pKind p == kReadReq) &&
        decide (aOff p.h1 + max (pLen p) 1 ≤ 0x1000)))

/-- The packet is compared with CORE_REGION.GEN, and differs (R421). A contribution is left to R250. -/
def genDiffers (s : State) (n : Nat) (p : Packet) : Bool :=
  let k := pKind p
  coreMember s n && k != kRedPart &&
    (k == kReadResp || k == kLedgerReply || k == kAck || k == kCredit ||
      (pSrcLocal p && regionHas s (coreRegion s n) (siteOf (pSrcNode p)))) &&
    pGen p != coreGen s n

/-- A packet of another generation is dropped (R421). -/
def State.genDrop (s : State) (n : Nat) (p : Packet) : State :=
  let st := siteOf n
  let s1 := s.countField (bSm st) 0x408 16 16
  if s.getField (bSm st) 0x408 16 16 = 0 then s1.noticeDie n 0x0A04 (some p) else s1

/-- The packet goes to the core above the node, past its checks. -/
def State.atCore (s : State) (n pl : Nat) (p : Packet) (f : State → State) : State :=
  if coreDenies s n p then s.creditDie n pl p
  else if genDiffers s n p then s.genDrop n p
  else f s

/-! ## The resources -/

/-- The resources of R446, as a packet delivered at a node meets them. -/
inductive Resource where
  | slice
  | spad
  | port
  | regs
  | guest (g : Nat)
  | absent
  deriving DecidableEq, Repr

/-- The resource that serves the space of a packet at node n (R25, R345, R446). -/
def resourceAt (s : State) (n : Nat) (p : Packet) : Resource :=
  if !(inPlain s p || servedAbove s n p) then .absent
  else match aSpace p.h1 with
    | 0 => .slice
    | 1 => if siteKind (siteOf n) = .compute then .spad else .port
    | 8 =>
      match guestIdx n with
      | some g => if aOff p.h1 < 0xF000_0000 then .guest g else .regs
      | none => .absent
    | _ => .regs

/-- Packet p, of kind k, is taken from where it waits at node n and meets its resource. A packet of the far
window, or for another panel, is left to LINK_DIE_EGRESS. -/
def onDelivery (n pl k : Nat) (p : Packet) (s : State)
    (f : State → Port → Resource → State) : Res :=
  onPlane n pl s fun s =>
    if pKind p ≠ k ∨ !addrHere s p.h1 ∨ (siteKind (siteOf n) = .link ∧ inFarWindow s p.h1) then s
    else
      let pt := upPort s n pl p
      let r := resourceAt s n p
      let t := s.takeUp n pl p
      if r = .absent then t.discardAt n pl pt p 0x0213
      else if (aSpace p.h1 = 0 ∨ aSpace p.h1 = 4) ∧ siteUnpowered t (siteOf n) then t.creditDie n pl p
      else if toCore t n p then t.atCore n pl p fun t => f t pt r
      else f t pt r

/-! ## Registers (R29, R30) -/

/-- The access is no whole number of registers (R29). -/
def regMisaligned (p : Packet) : Bool := aOff p.h1 % 8 != 0 || pLen p % 8 != 0

/-- A WRITE to registers (R29, R30, R445). -/
def State.regStore (s : State) (n pl : Nat) (pt : Port) (p : Packet) : State :=
  if regMisaligned p then s.discardAt n pl pt p 0x0215
  else
    let r := s.writeRegs (aSpace p.h1) n (aOff p.h1) (pQuads p)
    (if r.2 then r.1.noticeAt n 0x0216 p else r.1).answer? n pl pt p (ackFor p)

/-- A READ_REQ of registers (R29, R30, R147). -/
def State.regLoad (s : State) (n pl : Nat) (pt : Port) (p : Packet) : State :=
  if regMisaligned p then s.discardAt n pl pt p 0x0215
  else
    let r := readRegs s (aSpace p.h1) n (aOff p.h1) (pLen p / 8)
    ((if r.2 then s.noticeAt n 0x0216 p else s).answer n pl pt p (respFor p r.1)).tick

/-- The ports of the lead steward that are no registers (R277, R354, R410). -/
def streamPort (n : Nat) (p : Packet) : Option Nat :=
  let o := aOff p.h1
  if aSpace p.h1 = 5 ∧ siteOf n = leadSite ∧ (o = 0x0020_8000 ∨ o = 0x8000 ∨ o = ctlCmd ∨ o = ctlNotice) then
    some o
  else none

/-- A WRITE to a register space, or to a port among its registers (R277, R354, R445). -/
def State.spaceStore (s : State) (n pl : Nat) (pt : Port) (p : Packet) : State :=
  match streamPort n p with
  | some o =>
    if o = 0x0020_8000 then (s.imgData (pBytes p)).answer? n pl pt p (ackFor p)
    else if o = 0x8000 then (s.fwData (pBytes p)).answer? n pl pt p (ackFor p)
    else s.notTaken n pl pt p
  | none => s.regStore n pl pt p

/-! ## A core's memories (R25, R52, R143, R144, R146) -/

/-- Bytes from an offset of space 0x1. -/
def Core.readMem (c : Core) (a n : Nat) : List Byte :=
  if a < 0x0100_0000 then c.readSpad a n else c.readImem (a - 0x0100_0000) n

/-- Write bytes from an offset of space 0x1. -/
def Core.writeMem (c : Core) (a : Nat) (b : List Byte) : Core :=
  if b = [] then c else if a < 0x0100_0000 then c.writeSpad a b else c.writeImem (a - 0x0100_0000) b

/-- A parity error among the words read (R52). -/
def Core.memBad (c : Core) (a n : Nat) : Bool :=
  (if a < 0x0100_0000 then firstBad c.badSpad a n else firstBad c.badImem (a - 0x0100_0000) n).isSome

/-- The offset or a byte of the packet lies outside space 0x1 (R26, R146). -/
def memOutside (p : Packet) (len : Nat) : Bool := !offsetsIn 1 (aOff p.h1) (max len 1)

/-- A WRITE or MCAST_WRITE: written, counted, acknowledged (R143, R144, R445). -/
def State.memStore (s : State) (n pl : Nat) (p : Packet) : State :=
  if memOutside p (pLen p) then s.discardDie n pl p 0x0214
  else
    ((s.modCore n fun c => c.writeMem (aOff p.h1) (pBytes p)).addCount n (pCid p)).ackDie n pl p

/-- A READ_REQ: the data as read; a parity error is told by a notice (R52, R147). -/
def State.memLoad (s : State) (n pl : Nat) (p : Packet) : State :=
  if memOutside p (pLen p) then s.discardDie n pl p 0x0214
  else
    let c := s.core n
    let s1 := s.offer n (respFor p (c.readMem (aOff p.h1) (pLen p))) (some pl)
    if c.memBad (aOff p.h1) (pLen p) then s1.noticeDie n 0x0106 (some p) else s1

/-- A response that brings data: written, then counted; a ledger reply frees its place first (R143, R231,
R253). -/
def State.memLand (s : State) (n pl : Nat) (p : Packet) : State :=
  if memOutside p (pLen p) then s.discardDie n pl p 0x0214
  else
    let s1 := s.modCore n fun c => c.writeMem (aOff p.h1) (pBytes p)
    (if pKind p = kLedgerReply then s1.lopDone n (pSeq p) else s1).addCount n (pCid p)

/-- A FENCE_CREDIT: one for a ledger request writes the LOST head before the count (R143, R231). -/
def State.coreCredit (s : State) (n : Nat) (p : Packet) : State :=
  if pDkind p = kLedgerOp then ((s.lopLost n (pSeq p)).lopDone n (pSeq p)).addCount n (pCid p)
  else s.addCount n (pCid p)

/-- A contribution at a core's record (R246, R249 to R253). -/
def State.coreReduce (s : State) (n pl : Nat) (p : Packet) : State :=
  if aOff p.h1 % 64 ≠ 0 ∨ memOutside p (pLen p) then s.discardDie n pl p 0x0214
  else
    let o := redApply p ((s.core n).readMem (aOff p.h1) (max 64 (pLen p)))
    let s1 := s.modCore n fun c => c.writeMem (aOff p.h1) o.write
    let s2 := match o.notice with
      | some c => s1.noticeDie n c (some p)
      | none => s1
    match o.done with
    | some d => s2.offer n d (some pl)
    | none => s2

/-! ## The response port (R338) -/

/-- A response at a steward, link or guest die: one that a link die or another steward does not own is a stray, and
counts at that die (assumption 90). -/
def State.portResponse (s : State) (n pl : Nat) (p : Packet) : State :=
  let st := siteOf n
  if st = leadSite then s.stewardResponse p
  else match portOfSite st with
    | some k => (s.ringResponse k p).getD (s.modLink k fun l => { l with strays := l.strays + 1 })
    | none =>
      match guestOfSite st with
      | some g => (s.ringResponse (8 + g) p).getD (s.guestTake g pl p)
      | none =>
        match stewardOfSite st with
        | some q => s.modSteward q fun x => { x with strays := x.strays + 1 }
        | none => s

/-! ## The commands -/

/-- WRITE (R29, R143, R146, R215, R345, R445). -/
def execWrite (n pl : Nat) (p : Packet) (s : State) : Res :=
  onDelivery n pl kWrite p s fun s pt r =>
    match r with
    | .slice => s.toDram n pl p
    | .spad => s.memStore n pl p
    | .regs => s.spaceStore n pl pt p
    | .guest g => s.guestTake g pl p
    | _ => s.notTaken n pl pt p

/-- READ_REQ (R29, R147, R215). -/
def execReadReq (n pl : Nat) (p : Packet) (s : State) : Res :=
  onDelivery n pl kReadReq p s fun s pt r =>
    match r with
    | .slice => s.toDram n pl p
    | .spad => s.memLoad n pl p
    | .regs => s.regLoad n pl pt p
    | _ => s.notTaken n pl pt p

/-- READ_RESP (R143, R147, R338). -/
def execReadResp (n pl : Nat) (p : Packet) (s : State) : Res :=
  onDelivery n pl kReadResp p s fun s pt r =>
    match r with
    | .spad => s.memLand n pl p
    | .port => s.portResponse n pl p
    | _ => s.notTaken n pl pt p

/-- The first word of a packet for the inbox chain is offered on a plane below pl (R159). -/
def lowerOffered (s : State) (n pl : Nat) : Bool :=
  (List.range pl).any fun q => (s.plane n q).vout.any fun h => toInbox s n h.pkt

/-- MSG and CELL: the inbox chain accepts the packet, or it waits on at the vertical output: the lowest plane
that offers a first word is taken first (R158, R159). -/
def inboxRow (n pl k : Nat) (p : Packet) (s : State) : Res :=
  if toInbox s n p && (!(s.core n).accepts || lowerOffered s n pl) && !coreDenies s n p && !genDiffers s n p then
    onPlane n pl s id
  else
    onDelivery n pl k p s fun s pt r =>
      match r with
      | .spad => admitPacket s n pl p
      | .guest g => s.guestTake g pl p
      | _ => s.notTaken n pl pt p

/-- MSG (R158). -/
def execMsg (n pl : Nat) (p : Packet) (s : State) : Res := inboxRow n pl kMsg p s

/-- CELL (R158). -/
def execCell (n pl : Nat) (p : Packet) (s : State) : Res := inboxRow n pl kCell p s

/-- The slot that a SIGNAL's offset names (R195). -/
def signalSlot (off : Nat) : Option Nat :=
  if off % 8 = 0 ∧ 0x1000 ≤ off ∧ off < 0x1200 then some ((off - 0x1000) / 8) else none

/-- SIGNAL (R139, R194, R195). -/
def execSignal (n pl : Nat) (p : Packet) (s : State) : Res :=
  onDelivery n pl kSignal p s fun s pt r =>
    match r with
    | .regs =>
      if aSpace p.h1 = 2 then
        match signalSlot (aOff p.h1) with
        | some sl => s.signal n sl (bits (quadAt (pBytes p) 0) 0 32)
        | none => s.discardDie n pl p 0x0105
      else s.notTaken n pl pt p
    | .guest g => s.guestTake g pl p
    | _ => s.notTaken n pl pt p

/-- MCAST_WRITE: a copy reaches a member (R143, R182, R211). -/
def execMcastWrite (n pl : Nat) (p : Packet) (s : State) : Res :=
  onDelivery n pl kMcastWrite p s fun s pt r =>
    match r with
    | .slice => s.toDram n pl p
    | .spad => s.memStore n pl p
    | _ => s.notTaken n pl pt p

/-- ACK (R143, R338). -/
def execAck (n pl : Nat) (p : Packet) (s : State) : Res :=
  onDelivery n pl kAck p s fun s pt r =>
    match r with
    | .spad => s.addCount n (pCid p)
    | .port => s.portResponse n pl p
    | _ => s.notTaken n pl pt p

/-- FENCE_CREDIT (R143, R145, R231, R338). -/
def execFenceCredit (n pl : Nat) (p : Packet) (s : State) : Res :=
  onDelivery n pl kCredit p s fun s pt r =>
    match r with
    | .spad => s.coreCredit n p
    | .port => s.portResponse n pl p
    | _ => s.notTaken n pl pt p

/-- RED_PART (R246, R250). -/
def execRedPart (n pl : Nat) (p : Packet) (s : State) : Res :=
  onDelivery n pl kRedPart p s fun s pt r =>
    match r with
    | .slice => s.toDram n pl p
    | .spad => s.coreReduce n pl p
    | _ => s.notTaken n pl pt p

/-- RED_DONE (R253, R254, R338). -/
def execRedDone (n pl : Nat) (p : Packet) (s : State) : Res :=
  onDelivery n pl kRedDone p s fun s pt r =>
    match r with
    | .spad => s.memLand n pl p
    | .port => s.portResponse n pl p
    | _ => s.notTaken n pl pt p

/-- LEDGER_REPLY (R231, R234, R338). -/
def execLedgerReply (n pl : Nat) (p : Packet) (s : State) : Res :=
  onDelivery n pl kLedgerReply p s fun s pt r =>
    match r with
    | .spad => s.memLand n pl p
    | .port => s.portResponse n pl p
    | _ => s.notTaken n pl pt p

/-- LEDGER_OP (R211, R212). -/
def execLedgerOp (n pl : Nat) (p : Packet) (s : State) : Res :=
  onDelivery n pl kLedgerOp p s fun s pt r =>
    if r = .regs ∧ aSpace p.h1 = 4 then s.acceptReq n pl p else s.notTaken n pl pt p

/-- NOTICE: taken at CTL_NOTICE, discarded silently elsewhere (R141, R340, R446). -/
def execNotice (n pl : Nat) (p : Packet) (s : State) : Res :=
  onDelivery n pl kNotice p s fun s pt r =>
    if r = .regs ∧ aSpace p.h1 = 5 ∧ siteOf n = leadSite ∧ aOff p.h1 = ctlNotice then s.takeNotice p
    else s.notTaken n pl pt p

/-- The plane at node n on which packet p waits, 0 where it waits on none. -/
def planeOf (s : State) (n : Nat) (p : Packet) : Nat :=
  ([0, 1, 2, 3].find? fun pl =>
    ((s.plane n pl).vout ++ (s.plane n pl).served).any fun h => h.pkt == p).getD 0

/-- CONTROL_REPLY: a reply at CTL_CMD is forwarded on the control port; a CONTROL packet at any other place is
discarded (R333, R354, R446). A request at CTL_CMD is left to its own rows. -/
def execControlReply (n : Nat) (p : Packet) (s : State) : Res :=
  let pl := planeOf s n p
  if siteOf n = leadSite ∧ atCtlCmd s p ∧ ctlOp p ≠ 8 then onPlane n pl s id
  else
    onDelivery n pl kControl p s fun s pt r =>
      if r = .regs ∧ siteOf n = leadSite ∧ aSpace p.h1 = 5 ∧ aOff p.h1 = ctlCmd then s.takeReply p
      else s.notTaken n pl pt p

end Sys2Proof.Machine
end

