-- ==== Sys2Proof/Machine/Scalar.lean ====
section
/-! DEFINITION. Scalar and branch instructions (R80 to R82). -/

namespace Sys2Proof.Machine

/-- Leading zeros among the low n bits of v. -/
def clz : Nat → Nat → Nat
  | 0, _ => 0
  | n + 1, v => if v.testBit n then 0 else clz n v + 1

/-- Trailing zeros of v, at most n. -/
def ctz : Nat → Nat → Nat
  | 0, _ => 0
  | n + 1, v => if v % 2 = 1 then 0 else ctz n (v / 2) + 1

/-- The ALU function table (R80). -/
def aluFn (f : Nat) (a b : Word) : Word :=
  match f with
  | 0x00 => a + b
  | 0x01 => a - b
  | 0x02 => a &&& b
  | 0x03 => a ||| b
  | 0x04 => a ^^^ b
  | 0x05 => a <<< (b.toNat % 64)
  | 0x06 => a >>> (b.toNat % 64)
  | 0x07 => a.sshiftRight (b.toNat % 64)
  | 0x08 => a.rotateRight (b.toNat % 64)
  | 0x09 => a * b
  | 0x0A => BitVec.ofNat 64 (a.toNat * b.toNat / 2 ^ 64)
  | 0x0B => BitVec.ofInt 64 (a.toInt * b.toInt / 2 ^ 64)
  | 0x0C => if a.slt b then a else b
  | 0x0D => if a.slt b then b else a
  | 0x0E => if a.ult b then a else b
  | 0x0F => if a.ult b then b else a
  | 0x10 => BitVec.ofNat 64 (popCount a.toNat 64)
  | 0x11 => BitVec.ofNat 64 (clz 64 a.toNat)
  | 0x12 => BitVec.ofNat 64 (ctz 64 a.toNat)
  | 0x13 => BitVec.ofNat 64 (beNat (quadBytes a))
  | 0x14 => if b = 0 then allBits else a / b
  | 0x15 => if b = 0 then a else a % b
  | _ => 0

/-- The compare table (R80). -/
def cmpFn (f : Nat) (a b : Word) : Bool :=
  match f with
  | 0 => a == b
  | 1 => a != b
  | 2 => a.slt b
  | 3 => !a.slt b
  | 4 => a.ult b
  | 5 => !a.ult b
  | 6 => (a &&& b) != 0
  | _ => (a &&& b) == 0

/-- The predicate table (R80). -/
def plogFn (f : Nat) (a b : Bool) : Bool :=
  match f with
  | 0 => a && b
  | 1 => a || b
  | 2 => a ^^ b
  | 3 => a && !b
  | 4 => !a
  | 5 => a
  | 6 => true
  | _ => false

/-- The condition of SEL and BRP: p(MODE[2:0]) XOR MODE[3] (R80, R81). -/
def predCond (x : Ctx) (w : Word) : Bool := x.getP (iMode w % 8) ^^ decide (iMode w / 8 % 2 = 1)

/-- The byte offset of the target index IMM[12:0] (R81). -/
def targetOf (w : Word) : Nat := iImm w % 8192 * 8

/-- ALU (R80). -/
def execAlu (n : Nat) (s : State) : Res :=
  onCore n s fun s => issue s n (isOp 0x10) fun s i w =>
    s.retire n i fun x => x.setG (iD w) (aluFn (iMode w) (x.getG (iA w)) (x.getG (iB w)))

/-- ALUI (R80). -/
def execAlui (n : Nat) (s : State) : Res :=
  onCore n s fun s => issue s n (isOp 0x11) fun s i w =>
    s.retire n i fun x => x.setG (iD w) (aluFn (iMode w) (x.getG (iA w)) (iSext w))

/-- CMP (R80). -/
def execCmp (n : Nat) (s : State) : Res :=
  onCore n s fun s => issue s n (isOp 0x12) fun s i w =>
    s.retire n i fun x => x.setP (iD w) (cmpFn (iMode w) (x.getG (iA w)) (x.getG (iB w)))

/-- CMPI (R80). -/
def execCmpi (n : Nat) (s : State) : Res :=
  onCore n s fun s => issue s n (isOp 0x13) fun s i w =>
    s.retire n i fun x => x.setP (iD w) (cmpFn (iMode w) (x.getG (iA w)) (iSext w))

/-- LI (R80). -/
def execLi (n : Nat) (s : State) : Res :=
  onCore n s fun s => issue s n (isOp 0x14) fun s i w =>
    s.retire n i fun x => x.setG (iD w) (iSext w)

/-- LIH (R80). -/
def execLih (n : Nat) (s : State) : Res :=
  onCore n s fun s => issue s n (isOp 0x15) fun s i w =>
    s.retire n i fun x => x.setG (iD w) (setBits (x.getG (iD w)) 32 32 (iImm w))

/-- PLOG (R80). -/
def execPlog (n : Nat) (s : State) : Res :=
  onCore n s fun s => issue s n (isOp 0x16) fun s i w =>
    s.retire n i fun x => x.setP (iD w) (plogFn (iMode w) (x.getP (iA w)) (x.getP (iB w)))

/-- SEL (R80). -/
def execSel (n : Nat) (s : State) : Res :=
  onCore n s fun s => issue s n (isOp 0x17) fun s i w =>
    s.retire n i fun x => x.setG (iD w) (if predCond x w then x.getG (iA w) else x.getG (iB w))

/-- BR (R81). -/
def execBr (n : Nat) (s : State) : Res :=
  onCore n s fun s => issue s n (isOp 0x20) fun s i w => s.retireTo n i (targetOf w) id

/-- BRP (R81). -/
def execBrp (n : Nat) (s : State) : Res :=
  onCore n s fun s => issue s n (isOp 0x21) fun s i w =>
    if predCond (s.ctx n i) w then s.retireTo n i (targetOf w) id else s.retire n i id

/-- CALL (R81): gD is the offset of the next instruction. -/
def execCall (n : Nat) (s : State) : Res :=
  onCore n s fun s => issue s n (isOp 0x22) fun s i w =>
    s.retireTo n i (targetOf w) fun x => x.setG (iD w) (BitVec.ofNat 64 (x.pc + 8))

/-- JR (R81, R82). -/
def execJr (n : Nat) (s : State) : Res :=
  onCore n s fun s => issue s n (isOp 0x23) fun s i w =>
    let t := (s.ctx n i).getG (iA w)
    if 0x1_0000 ≤ t.toNat then s.issueFault n i 0x01 0 0x1_0000
    else if t.toNat % 8 ≠ 0 then s.issueFault n i 0x01 0 t
    else s.retireTo n i t.toNat id

/-- LOOP (R81, R82). -/
def execLoop (n : Nat) (s : State) : Res :=
  onCore n s fun s => issue s n (isOp 0x24) fun s i w =>
    let v := (s.ctx n i).getG (iD w) - 1
    if v = 0 then s.retire n i fun x => x.setG (iD w) v
    else s.retireTo n i (targetOf w) fun x => x.setG (iD w) v

end Sys2Proof.Machine
end

