-- ==== Sys2Proof/Machine/Dispatch.lean ====
section
/-! DEFINITION. The meaning of each command: one arm for each constructor of Instr. -/

namespace Sys2Proof.Machine

/-- The effect of a command on everything but the queue. -/
def exec (i : Instr) (s : State) : Host.Outcome State Fault Refusal :=
  match i with
  | .alu n => Sys2Proof.Machine.execAlu n s
  | .alui n => Sys2Proof.Machine.execAlui n s
  | .cmp n => Sys2Proof.Machine.execCmp n s
  | .cmpi n => Sys2Proof.Machine.execCmpi n s
  | .li n => Sys2Proof.Machine.execLi n s
  | .lih n => Sys2Proof.Machine.execLih n s
  | .plog n => Sys2Proof.Machine.execPlog n s
  | .sel n => Sys2Proof.Machine.execSel n s
  | .br n => Sys2Proof.Machine.execBr n s
  | .brp n => Sys2Proof.Machine.execBrp n s
  | .call n => Sys2Proof.Machine.execCall n s
  | .jr n => Sys2Proof.Machine.execJr n s
  | .loop n => Sys2Proof.Machine.execLoop n s
  | .ld n => Sys2Proof.Machine.execLd n s
  | .st n => Sys2Proof.Machine.execSt n s
  | .vop n => Sys2Proof.Machine.execVop n s
  | .vld n => Sys2Proof.Machine.execVld n s
  | .vst n => Sys2Proof.Machine.execVst n s
  | .vbcast n => Sys2Proof.Machine.execVbcast n s
  | .vget n => Sys2Proof.Machine.execVget n s
  | .vput n => Sys2Proof.Machine.execVput n s
  | .vred n => Sys2Proof.Machine.execVred n s
  | .vsort n => Sys2Proof.Machine.execVsort n s
  | .vxadd n => Sys2Proof.Machine.execVxadd n s
  | .vtld n => Sys2Proof.Machine.execVtld n s
  | .tissue n => Sys2Proof.Machine.execTissue n s
  | .msend n => Sys2Proof.Machine.execMsend n s
  | .lop n => Sys2Proof.Machine.execLop n s
  | .inmv n => Sys2Proof.Machine.execInmv n s
  | .waitSlot n => Sys2Proof.Machine.execWaitSlot n s
  | .waitCount n => Sys2Proof.Machine.execWaitCount n s
  | .sig n => Sys2Proof.Machine.execSig n s
  | .spawn n => Sys2Proof.Machine.execSpawn n s
  | .endCtx n => Sys2Proof.Machine.execEndCtx n s
  | .park n => Sys2Proof.Machine.execPark n s
  | .self n => Sys2Proof.Machine.execSelf n s
  | .rreg n => Sys2Proof.Machine.execRreg n s
  | .wreg n => Sys2Proof.Machine.execWreg n s
  | .fence n => Sys2Proof.Machine.execFence n s
  | .breakCtx n => Sys2Proof.Machine.execBreakCtx n s
  | .nop n => Sys2Proof.Machine.execNop n s
  | .vtldDone n => Sys2Proof.Machine.execVtldDone n s
  | .dot n => Sys2Proof.Machine.execDot n s
  | .forest n => Sys2Proof.Machine.execForest n s
  | .convert n => Sys2Proof.Machine.execConvert n s
  | .sealTile n => Sys2Proof.Machine.execSealTile n s
  | .msendWrite n => Sys2Proof.Machine.execMsendWrite n s
  | .msendTile n => Sys2Proof.Machine.execMsendTile n s
  | .msendRead n => Sys2Proof.Machine.execMsendRead n s
  | .msendMsg n => Sys2Proof.Machine.execMsendMsg n s
  | .msendSignal n => Sys2Proof.Machine.execMsendSignal n s
  | .msendMcastWrite n => Sys2Proof.Machine.execMsendMcastWrite n s
  | .msendMcastTile n => Sys2Proof.Machine.execMsendMcastTile n s
  | .msendCell n => Sys2Proof.Machine.execMsendCell n s
  | .msendRed n => Sys2Proof.Machine.execMsendRed n s
  | .ledgerPortRequest n => Sys2Proof.Machine.execLedgerPortRequest n s
  | .injection n pl p => Sys2Proof.Machine.execInjection n pl p s
  | .injectionGateEval n pl => Sys2Proof.Machine.execInjectionGateEval n pl s
  | .arbitrationPass n pl => Sys2Proof.Machine.execArbitrationPass n pl s
  | .linkCrcFailure n pl pt sl => Sys2Proof.Machine.execLinkCrcFailure n pl pt sl s
  | .linkNak n pl pt sl => Sys2Proof.Machine.execLinkNak n pl pt sl s
  | .bondLaneRepaired n pl wires check => Sys2Proof.Machine.execBondLaneRepaired n pl wires check s
  | .inboxRefusal n pl p => Sys2Proof.Machine.execInboxRefusal n pl p s
  | .combineRelease n pl j => Sys2Proof.Machine.execCombineRelease n pl j s
  | .write n pl p => Sys2Proof.Machine.execWrite n pl p s
  | .readReq n pl p => Sys2Proof.Machine.execReadReq n pl p s
  | .readResp n pl p => Sys2Proof.Machine.execReadResp n pl p s
  | .msg n pl p => Sys2Proof.Machine.execMsg n pl p s
  | .cell n pl p => Sys2Proof.Machine.execCell n pl p s
  | .signal n pl p => Sys2Proof.Machine.execSignal n pl p s
  | .mcastWrite n pl p => Sys2Proof.Machine.execMcastWrite n pl p s
  | .ack n pl p => Sys2Proof.Machine.execAck n pl p s
  | .fenceCredit n pl p => Sys2Proof.Machine.execFenceCredit n pl p s
  | .redPart n pl p => Sys2Proof.Machine.execRedPart n pl p s
  | .redDone n pl p => Sys2Proof.Machine.execRedDone n pl p s
  | .ledgerReply n pl p => Sys2Proof.Machine.execLedgerReply n pl p s
  | .notice n pl p => Sys2Proof.Machine.execNotice n pl p s
  | .noticeForward => Sys2Proof.Machine.execNoticeForward s
  | .sliceAccess n j => Sys2Proof.Machine.execSliceAccess n j s
  | .mergeSetClose n line => Sys2Proof.Machine.execMergeSetClose n line s
  | .dramThermalSample st temps => Sys2Proof.Machine.execDramThermalSample st temps s
  | .find n => Sys2Proof.Machine.execFind n s
  | .findOrInsert n => Sys2Proof.Machine.execFindOrInsert n s
  | .update n => Sys2Proof.Machine.execUpdate n s
  | .remove n => Sys2Proof.Machine.execRemove n s
  | .scan n => Sys2Proof.Machine.execScan n s
  | .shardInitDone n => Sys2Proof.Machine.execShardInitDone n s
  | .registerWrite l v => Sys2Proof.Machine.execRegisterWrite l v s
  | .commitGo l => Sys2Proof.Machine.execCommitGo l s
  | .discard l => Sys2Proof.Machine.execDiscard l s
  | .start n => Sys2Proof.Machine.execStart n s
  | .clear n => Sys2Proof.Machine.execClear n s
  | .clearDone n => Sys2Proof.Machine.execClearDone n s
  | .halt n bits => Sys2Proof.Machine.execHalt n bits s
  | .clearFault n bits => Sys2Proof.Machine.execClearFault n bits s
  | .flush n => Sys2Proof.Machine.execFlush n s
  | .flushComplete n => Sys2Proof.Machine.execFlushComplete n s
  | .slotWrite n sl v => Sys2Proof.Machine.execSlotWrite n sl v s
  | .ccWrite n c v => Sys2Proof.Machine.execCcWrite n c v s
  | .vfence n close => Sys2Proof.Machine.execVfence n close s
  | .vfenceEffect n pl out => Sys2Proof.Machine.execVfenceEffect n pl out s
  | .imgBegin ctl => Sys2Proof.Machine.execImgBegin ctl s
  | .imgAbort => Sys2Proof.Machine.execImgAbort s
  | .attest => Sys2Proof.Machine.execAttest s
  | .attReady => Sys2Proof.Machine.execAttReady s
  | .release => Sys2Proof.Machine.execRelease s
  | .imgData chunk => Sys2Proof.Machine.execImgData chunk s
  | .loadCheck => Sys2Proof.Machine.execLoadCheck s
  | .genAdvance r => Sys2Proof.Machine.execGenAdvance r s
  | .passTrain k => Sys2Proof.Machine.execPassTrain k s
  | .passCtlDown k => Sys2Proof.Machine.execPassCtlDown k s
  | .opticsOff k off => Sys2Proof.Machine.execOpticsOff k off s
  | .passOpticsDone k => Sys2Proof.Machine.execPassOpticsDone k s
  | .passLaneLockDone k light good => Sys2Proof.Machine.execPassLaneLockDone k light good s
  | .passAlignDone k locked => Sys2Proof.Machine.execPassAlignDone k locked s
  | .passExchangeDone k far => Sys2Proof.Machine.execPassExchangeDone k far s
  | .passTrainTimeout k => Sys2Proof.Machine.execPassTrainTimeout k s
  | .frameData k f => Sys2Proof.Machine.execFrameData k f s
  | .frameIdle k f => Sys2Proof.Machine.execFrameIdle k f s
  | .frameNak k f => Sys2Proof.Machine.execFrameNak k f s
  | .frameCells k f => Sys2Proof.Machine.execFrameCells k f s
  | .passRetryTimeout k => Sys2Proof.Machine.execPassRetryTimeout k s
  | .passAckStall k => Sys2Proof.Machine.execPassAckStall k s
  | .laneErrCheck k errs => Sys2Proof.Machine.execLaneErrCheck k errs s
  | .remapDone k farGood => Sys2Proof.Machine.execRemapDone k farGood s
  | .linkDieEgress k pl p => Sys2Proof.Machine.execLinkDieEgress k pl p s
  | .linkDieIngress k p => Sys2Proof.Machine.execLinkDieIngress k p s
  | .linkInject k n pl => Sys2Proof.Machine.execLinkInject k n pl s
  | .ringReplay u => Sys2Proof.Machine.execRingReplay u s
  | .ringReplayRecord u p => Sys2Proof.Machine.execRingReplayRecord u p s
  | .controlIngress p => Sys2Proof.Machine.execControlIngress p s
  | .regRead p => Sys2Proof.Machine.execRegRead p s
  | .regWrite p => Sys2Proof.Machine.execRegWrite p s
  | .blockWrite p => Sys2Proof.Machine.execBlockWrite p s
  | .ctlRequestTimeout j => Sys2Proof.Machine.execCtlRequestTimeout j s
  | .ctlPairRetrain b up => Sys2Proof.Machine.execCtlPairRetrain b up s
  | .guestEnable g on => Sys2Proof.Machine.execGuestEnable g on s
  | .guestRetrain g => Sys2Proof.Machine.execGuestRetrain g s
  | .guestTrainDone g modules level step feat timeout => Sys2Proof.Machine.execGuestTrainDone g modules level step feat timeout s
  | .fordCheck g m p => Sys2Proof.Machine.execFordCheck g m p s
  | .guestHold g m => Sys2Proof.Machine.execGuestHold g m s
  | .guestGo g m => Sys2Proof.Machine.execGuestGo g m s
  | .fordTokenRefill g => Sys2Proof.Machine.execFordTokenRefill g s
  | .guestOvercurrent g => Sys2Proof.Machine.execGuestOvercurrent g s
  | .guestRailReady g => Sys2Proof.Machine.execGuestRailReady g s
  | .oscEn st d on => Sys2Proof.Machine.execOscEn st d on s
  | .oscLock st d => Sys2Proof.Machine.execOscLock st d s
  | .cal st => Sys2Proof.Machine.execCal st s
  | .calDone st fails offset => Sys2Proof.Machine.execCalDone st fails offset s
  | .recal st => Sys2Proof.Machine.execRecal st s
  | .recalDone st => Sys2Proof.Machine.execRecalDone st s
  | .refSwitch st => Sys2Proof.Machine.execRefSwitch st s
  | .referenceLoss st b => Sys2Proof.Machine.execReferenceLoss st b s
  | .refGood st b => Sys2Proof.Machine.execRefGood st b s
  | .xingSlip st loc pl port lead => Sys2Proof.Machine.execXingSlip st loc pl port lead s
  | .arm => Sys2Proof.Machine.execArm s
  | .fstepArrive st => Sys2Proof.Machine.execFstepArrive st s
  | .fstepQuiet st => Sys2Proof.Machine.execFstepQuiet st s
  | .fstepSwitch st => Sys2Proof.Machine.execFstepSwitch st s
  | .fstepRecal st fails => Sys2Proof.Machine.execFstepRecal st fails s
  | .fstepResume st => Sys2Proof.Machine.execFstepResume st s
  | .fstepDone => Sys2Proof.Machine.execFstepDone s
  | .phaseOcTrip st ph t => Sys2Proof.Machine.execPhaseOcTrip st ph t s
  | .phaseImbalance st ph => Sys2Proof.Machine.execPhaseImbalance st ph s
  | .openBondCheck st mv amps => Sys2Proof.Machine.execOpenBondCheck st mv amps s
  | .railRegulation st => Sys2Proof.Machine.execRailRegulation st s
  | .headerGroupStep st g => Sys2Proof.Machine.execHeaderGroupStep st g s
  | .holdClear st v => Sys2Proof.Machine.execHoldClear st v s
  | .vinSample mv => Sys2Proof.Machine.execVinSample mv s
  | .shedStep => Sys2Proof.Machine.execShedStep s
  | .watershedForce f => Sys2Proof.Machine.execWatershedForce f s
  | .pwrOk high => Sys2Proof.Machine.execPwrOk high s
  | .coolOk high => Sys2Proof.Machine.execCoolOk high s
  | .stewardThermalSample q => Sys2Proof.Machine.execStewardThermalSample q s
  | .tripClear => Sys2Proof.Machine.execTripClear s
  | .pmbusPoll answers => Sys2Proof.Machine.execPmbusPoll answers s
  | .pmbusXact v => Sys2Proof.Machine.execPmbusXact v s
  | .pmbusXactDone ok data => Sys2Proof.Machine.execPmbusXactDone ok data s
  | .panelResetN => Sys2Proof.Machine.execPanelResetN s
  | .panelResetRelease => Sys2Proof.Machine.execPanelResetRelease s
  | .passBoot => Sys2Proof.Machine.execPassBoot s
  | .passBootRetrain => Sys2Proof.Machine.execPassBootRetrain s
  | .fwBegin => Sys2Proof.Machine.execFwBegin s
  | .fwAbort => Sys2Proof.Machine.execFwAbort s
  | .stwFwData chunk => Sys2Proof.Machine.execStwFwData chunk s
  | .fwVerify started => Sys2Proof.Machine.execFwVerify started s
  | .siteTrainBond st => Sys2Proof.Machine.execSiteTrainBond st s
  | .siteTrainDram st => Sys2Proof.Machine.execSiteTrainDram st s
  | .bondTrainDone st r => Sys2Proof.Machine.execBondTrainDone st r s
  | .dramTrainDone st failed => Sys2Proof.Machine.execDramTrainDone st failed s
  | .setHost st => Sys2Proof.Machine.execSetHost st s
  | .cairnSample q => Sys2Proof.Machine.execCairnSample q s
  | .computeReset v => Sys2Proof.Machine.execComputeReset v s
  | .resetDone => Sys2Proof.Machine.execResetDone s
  | .opcodeReserved n => Sys2Proof.Machine.execOpcodeReserved n s
  | .phaseSwitchFault st ph => Sys2Proof.Machine.execPhaseSwitchFault st ph s
  | .controlReply n p => Sys2Proof.Machine.execControlReply n p s
  | .ledgerOp n pl p => Sys2Proof.Machine.execLedgerOp n pl p s
  | .guestOcClear g => Sys2Proof.Machine.execGuestOcClear g s
  | .frameSend k => Sys2Proof.Machine.execFrameSend k s

end Sys2Proof.Machine
end

