-- ==== Sys2Proof/WellFormed.lean ====
section
/-! DEFINITION. When a command can be given: the units it names exist on the panel and its lists have the
number of entries that their source produces (R14, R15, R17, R18, R69, R164, R363, R390, R392, R394). -/

namespace Sys2Proof

open Sys2Proof.Machine

/-- The unit a command is addressed to. -/
inductive UnitRef where
  | core (n : Nat)
  | node (n : Nat)
  | plane (n pl : Nat)
  | link (n pl : Nat) (pt : Port)
  | site (st : Nat)
  | computeSite (st : Nat)
  | domain (st d : Nat)
  | port (k : Nat)
  | portOrPair (k : Nat)
  | guest (g : Nat)
  | steward (q : Nat)
  | ringOwner (u : Nat)
  | loc (l : Loc)
  | panel
  deriving DecidableEq, Repr

/-- The node has a link on that side, or the port is its vertical port (R18, R164). -/
def linkExists (n : Nat) : Port → Bool
  | .n => (neighbour n 0).isSome
  | .e => (neighbour n 1).isSome
  | .s => (neighbour n 2).isSome
  | .w => (neighbour n 3).isSome
  | .v => true
  | .x => true

/-- The panel has the unit. -/
def UnitRef.present : UnitRef → Bool
  | .core n => isCoreNode n
  | .node n => isNode n
  | .plane n pl => isNode n && decide (pl < 4)
  | .link n pl pt => isNode n && decide (pl < 4) && linkExists n pt
  | .site st => isSite st
  | .computeSite st => isComputeSite st
  | .domain st d => isSite st && decide (d < 3)
  | .port k => decide (k < 8)
  | .portOrPair k => decide (k < 10)
  | .guest g => decide (g < 4)
  | .steward q => decide (q < 4)
  | .ringOwner u => decide (u < 12)
  | .loc l => isNode l.node
  | .panel => true

/-- The unit each command is addressed to. -/
def Instr.unit : Instr → UnitRef
  | .alu n | .alui n | .cmp n | .cmpi n | .li n | .lih n | .plog n | .sel n | .br n | .brp n | .call n
  | .jr n | .loop n | .ld n | .st n | .vop n | .vld n | .vst n | .vbcast n | .vget n | .vput n
  | .vred n | .vsort n | .vxadd n | .vtld n | .tissue n | .msend n | .lop n | .inmv n | .waitSlot n
  | .waitCount n | .sig n | .spawn n | .endCtx n | .park n | .self n | .rreg n | .wreg n | .fence n
  | .breakCtx n | .nop n | .vtldDone n | .dot n | .forest n | .convert n | .sealTile n | .msendWrite n
  | .msendTile n | .msendRead n | .msendMsg n | .msendSignal n | .msendMcastWrite n
  | .msendMcastTile n | .msendCell n | .msendRed n | .ledgerPortRequest n | .opcodeReserved n
  | .start n | .clear n | .clearDone n | .halt n _ | .clearFault n _ | .flush n | .flushComplete n
  | .slotWrite n _ _ | .ccWrite n _ _ | .sliceAccess n _ | .mergeSetClose n _ | .find n
  | .findOrInsert n | .update n | .remove n | .scan n | .shardInitDone n => .core n
  | .injection n pl _ | .injectionGateEval n pl | .arbitrationPass n pl | .bondLaneRepaired n pl _ _
  | .inboxRefusal n pl _ | .combineRelease n pl _ | .write n pl _ | .readReq n pl _
  | .readResp n pl _ | .msg n pl _ | .cell n pl _ | .signal n pl _ | .mcastWrite n pl _
  | .ack n pl _ | .fenceCredit n pl _ | .redPart n pl _ | .redDone n pl _ | .ledgerReply n pl _
  | .notice n pl _ | .ledgerOp n pl _ | .vfenceEffect n pl _ | .linkInject _ n pl => .plane n pl
  | .linkCrcFailure n pl pt _ | .linkNak n pl pt _ => .link n pl pt
  | .vfence n _ | .controlReply n _ => .node n
  | .openBondCheck z _ _ | .railRegulation z | .headerGroupStep z _ =>
    .computeSite z
  | .phaseOcTrip z _ _ | .phaseImbalance z _ | .phaseSwitchFault z _ | .dramThermalSample z _
  | .cal z | .calDone z _ _ | .recal z | .recalDone z | .refSwitch z | .referenceLoss z _
  | .refGood z _ | .xingSlip z _ _ _ _ | .fstepArrive z | .fstepQuiet z | .fstepSwitch z
  | .fstepRecal z _ | .fstepResume z | .holdClear z _ | .siteTrainBond z | .siteTrainDram z
  | .bondTrainDone z _ | .dramTrainDone z _ | .setHost z => .site z
  | .oscEn z d _ | .oscLock z d => .domain z d
  | .passTrain k | .passCtlDown k | .opticsOff k _ | .laneErrCheck k _ | .remapDone k _
  | .linkDieEgress k _ _ | .linkDieIngress k _ => .port k
  | .passOpticsDone k | .passLaneLockDone k _ _ | .passAlignDone k _ | .passExchangeDone k _
  | .passTrainTimeout k | .frameData k _ | .frameIdle k _ | .frameNak k _ | .frameCells k _
  | .passRetryTimeout k | .passAckStall k | .frameSend k => .portOrPair k
  | .ringReplay u | .ringReplayRecord u _ => .ringOwner u
  | .guestEnable g _ | .guestRetrain g | .guestTrainDone g _ _ _ _ _ | .fordCheck g _ _
  | .guestHold g _ | .guestGo g _ | .fordTokenRefill g | .guestOvercurrent g | .guestRailReady g
  | .guestOcClear g => .guest g
  | .stewardThermalSample q | .cairnSample q => .steward q
  | .registerWrite l _ | .commitGo l | .discard l => .loc l
  | .noticeForward | .imgBegin _ | .imgAbort | .attest | .attReady | .release | .imgData _
  | .loadCheck | .genAdvance _ | .controlIngress _ | .regRead _ | .regWrite _ | .blockWrite _
  | .ctlRequestTimeout _ | .ctlPairRetrain _ _ | .arm | .fstepDone | .vinSample _ | .shedStep
  | .watershedForce _ | .pwrOk _ | .coolOk _ | .tripClear | .pmbusPoll _ | .pmbusXact _
  | .pmbusXactDone _ _ | .panelResetN | .panelResetRelease | .passBoot | .passBootRetrain
  | .fwBegin | .fwAbort | .stwFwData _ | .fwVerify _ | .computeReset _ | .resetDone => .panel

/-- The operands beside the unit are in range. -/
def Instr.operandsOk : Instr → Bool
  | .slotWrite _ sl _ => decide (sl < 64)
  | .linkCrcFailure _ _ _ sl | .linkNak _ _ _ sl => decide (sl.word.length = 64)
  | .ccWrite _ c _ => decide (c < 4096)
  | .dramThermalSample _ temps => decide (temps.length = 64)
  | .openBondCheck _ mv _ => decide (mv.length = 64)
  | .phaseOcTrip _ ph _ | .phaseImbalance _ ph | .phaseSwitchFault _ ph => decide (ph < 16)
  | .headerGroupStep _ g => decide (g < 8)
  | .vinSample mv => decide (mv.length = 48)
  | .fordCheck _ m _ => decide (m < 16)
  | .guestHold _ m | .guestGo _ m => decide (m.lane < 16) && decide (m.slot.word.length = 64)
  | .linkDieEgress _ pl _ => decide (pl < 4)
  | .linkInject k _ _ => decide (k < 8)
  | .xingSlip z loc pl port _ =>
    decide (loc < 64) && decide (pl < 4) &&
      (if port < 4 then
        match neighbour (nodeOf z loc) port with
        | some m => siteOf m != z
        | none => false
      else decide (port < 6))
  | _ => true

/-- The command can be given. -/
def Instr.wellFormed (c : Instr) : Bool := c.unit.present && c.operandsOk

end Sys2Proof
end

