-- ==== Sys2Proof/Laws/PerInstr.lean ====
section
/-! SUPPORT. What holds of each command as syntax: a command that can be given names a unit that the panel has. -/

namespace Sys2Proof.Laws.Families

open Sys2Proof

/-- A command that can be given is addressed to a unit that the panel has. -/
def Statement (i : Instr) : Prop := i.wellFormed = true → i.unit.present = true

/-- Well-formedness asks for the unit. -/
theorem holds (i : Instr) : Statement i := fun h => (Bool.and_eq_true_iff.mp h).1

theorem alu : ∀ n, Statement (.alu n) := fun n => holds (.alu n)
theorem alui : ∀ n, Statement (.alui n) := fun n => holds (.alui n)
theorem cmp : ∀ n, Statement (.cmp n) := fun n => holds (.cmp n)
theorem cmpi : ∀ n, Statement (.cmpi n) := fun n => holds (.cmpi n)
theorem li : ∀ n, Statement (.li n) := fun n => holds (.li n)
theorem lih : ∀ n, Statement (.lih n) := fun n => holds (.lih n)
theorem plog : ∀ n, Statement (.plog n) := fun n => holds (.plog n)
theorem sel : ∀ n, Statement (.sel n) := fun n => holds (.sel n)
theorem br : ∀ n, Statement (.br n) := fun n => holds (.br n)
theorem brp : ∀ n, Statement (.brp n) := fun n => holds (.brp n)
theorem call : ∀ n, Statement (.call n) := fun n => holds (.call n)
theorem jr : ∀ n, Statement (.jr n) := fun n => holds (.jr n)
theorem loop : ∀ n, Statement (.loop n) := fun n => holds (.loop n)
theorem ld : ∀ n, Statement (.ld n) := fun n => holds (.ld n)
theorem st : ∀ n, Statement (.st n) := fun n => holds (.st n)
theorem vop : ∀ n, Statement (.vop n) := fun n => holds (.vop n)
theorem vld : ∀ n, Statement (.vld n) := fun n => holds (.vld n)
theorem vst : ∀ n, Statement (.vst n) := fun n => holds (.vst n)
theorem vbcast : ∀ n, Statement (.vbcast n) := fun n => holds (.vbcast n)
theorem vget : ∀ n, Statement (.vget n) := fun n => holds (.vget n)
theorem vput : ∀ n, Statement (.vput n) := fun n => holds (.vput n)
theorem vred : ∀ n, Statement (.vred n) := fun n => holds (.vred n)
theorem vsort : ∀ n, Statement (.vsort n) := fun n => holds (.vsort n)
theorem vxadd : ∀ n, Statement (.vxadd n) := fun n => holds (.vxadd n)
theorem vtld : ∀ n, Statement (.vtld n) := fun n => holds (.vtld n)
theorem tissue : ∀ n, Statement (.tissue n) := fun n => holds (.tissue n)
theorem msend : ∀ n, Statement (.msend n) := fun n => holds (.msend n)
theorem lop : ∀ n, Statement (.lop n) := fun n => holds (.lop n)
theorem inmv : ∀ n, Statement (.inmv n) := fun n => holds (.inmv n)
theorem waitSlot : ∀ n, Statement (.waitSlot n) := fun n => holds (.waitSlot n)
theorem waitCount : ∀ n, Statement (.waitCount n) := fun n => holds (.waitCount n)
theorem sig : ∀ n, Statement (.sig n) := fun n => holds (.sig n)
theorem spawn : ∀ n, Statement (.spawn n) := fun n => holds (.spawn n)
theorem endCtx : ∀ n, Statement (.endCtx n) := fun n => holds (.endCtx n)
theorem park : ∀ n, Statement (.park n) := fun n => holds (.park n)
theorem self : ∀ n, Statement (.self n) := fun n => holds (.self n)
theorem rreg : ∀ n, Statement (.rreg n) := fun n => holds (.rreg n)
theorem wreg : ∀ n, Statement (.wreg n) := fun n => holds (.wreg n)
theorem fence : ∀ n, Statement (.fence n) := fun n => holds (.fence n)
theorem breakCtx : ∀ n, Statement (.breakCtx n) := fun n => holds (.breakCtx n)
theorem nop : ∀ n, Statement (.nop n) := fun n => holds (.nop n)
theorem vtldDone : ∀ n, Statement (.vtldDone n) := fun n => holds (.vtldDone n)
theorem dot : ∀ n, Statement (.dot n) := fun n => holds (.dot n)
theorem forest : ∀ n, Statement (.forest n) := fun n => holds (.forest n)
theorem convert : ∀ n, Statement (.convert n) := fun n => holds (.convert n)
theorem sealTile : ∀ n, Statement (.sealTile n) := fun n => holds (.sealTile n)
theorem msendWrite : ∀ n, Statement (.msendWrite n) := fun n => holds (.msendWrite n)
theorem msendTile : ∀ n, Statement (.msendTile n) := fun n => holds (.msendTile n)
theorem msendRead : ∀ n, Statement (.msendRead n) := fun n => holds (.msendRead n)
theorem msendMsg : ∀ n, Statement (.msendMsg n) := fun n => holds (.msendMsg n)
theorem msendSignal : ∀ n, Statement (.msendSignal n) := fun n => holds (.msendSignal n)
theorem msendMcastWrite : ∀ n, Statement (.msendMcastWrite n) := fun n => holds (.msendMcastWrite n)
theorem msendMcastTile : ∀ n, Statement (.msendMcastTile n) := fun n => holds (.msendMcastTile n)
theorem msendCell : ∀ n, Statement (.msendCell n) := fun n => holds (.msendCell n)
theorem msendRed : ∀ n, Statement (.msendRed n) := fun n => holds (.msendRed n)
theorem ledgerPortRequest : ∀ n, Statement (.ledgerPortRequest n) := fun n => holds (.ledgerPortRequest n)
theorem injection : ∀ n pl p, Statement (.injection n pl p) := fun n pl p => holds (.injection n pl p)
theorem injectionGateEval : ∀ n pl, Statement (.injectionGateEval n pl) := fun n pl => holds (.injectionGateEval n pl)
theorem arbitrationPass : ∀ n pl, Statement (.arbitrationPass n pl) := fun n pl => holds (.arbitrationPass n pl)
theorem linkCrcFailure : ∀ n pl pt sl, Statement (.linkCrcFailure n pl pt sl) := fun n pl pt sl => holds (.linkCrcFailure n pl pt sl)
theorem linkNak : ∀ n pl pt sl, Statement (.linkNak n pl pt sl) := fun n pl pt sl => holds (.linkNak n pl pt sl)
theorem bondLaneRepaired : ∀ n pl wires check, Statement (.bondLaneRepaired n pl wires check) := fun n pl wires check => holds (.bondLaneRepaired n pl wires check)
theorem inboxRefusal : ∀ n pl p, Statement (.inboxRefusal n pl p) := fun n pl p => holds (.inboxRefusal n pl p)
theorem combineRelease : ∀ n pl j, Statement (.combineRelease n pl j) := fun n pl j => holds (.combineRelease n pl j)
theorem write : ∀ n pl p, Statement (.write n pl p) := fun n pl p => holds (.write n pl p)
theorem readReq : ∀ n pl p, Statement (.readReq n pl p) := fun n pl p => holds (.readReq n pl p)
theorem readResp : ∀ n pl p, Statement (.readResp n pl p) := fun n pl p => holds (.readResp n pl p)
theorem msg : ∀ n pl p, Statement (.msg n pl p) := fun n pl p => holds (.msg n pl p)
theorem cell : ∀ n pl p, Statement (.cell n pl p) := fun n pl p => holds (.cell n pl p)
theorem signal : ∀ n pl p, Statement (.signal n pl p) := fun n pl p => holds (.signal n pl p)
theorem mcastWrite : ∀ n pl p, Statement (.mcastWrite n pl p) := fun n pl p => holds (.mcastWrite n pl p)
theorem ack : ∀ n pl p, Statement (.ack n pl p) := fun n pl p => holds (.ack n pl p)
theorem fenceCredit : ∀ n pl p, Statement (.fenceCredit n pl p) := fun n pl p => holds (.fenceCredit n pl p)
theorem redPart : ∀ n pl p, Statement (.redPart n pl p) := fun n pl p => holds (.redPart n pl p)
theorem redDone : ∀ n pl p, Statement (.redDone n pl p) := fun n pl p => holds (.redDone n pl p)
theorem ledgerReply : ∀ n pl p, Statement (.ledgerReply n pl p) := fun n pl p => holds (.ledgerReply n pl p)
theorem notice : ∀ n pl p, Statement (.notice n pl p) := fun n pl p => holds (.notice n pl p)
theorem noticeForward : Statement .noticeForward := holds .noticeForward
theorem sliceAccess : ∀ n j, Statement (.sliceAccess n j) := fun n j => holds (.sliceAccess n j)
theorem mergeSetClose : ∀ n line, Statement (.mergeSetClose n line) := fun n line => holds (.mergeSetClose n line)
theorem dramThermalSample : ∀ st temps, Statement (.dramThermalSample st temps) := fun st temps => holds (.dramThermalSample st temps)
theorem find : ∀ n, Statement (.find n) := fun n => holds (.find n)
theorem findOrInsert : ∀ n, Statement (.findOrInsert n) := fun n => holds (.findOrInsert n)
theorem update : ∀ n, Statement (.update n) := fun n => holds (.update n)
theorem remove : ∀ n, Statement (.remove n) := fun n => holds (.remove n)
theorem scan : ∀ n, Statement (.scan n) := fun n => holds (.scan n)
theorem shardInitDone : ∀ n, Statement (.shardInitDone n) := fun n => holds (.shardInitDone n)
theorem registerWrite : ∀ l v, Statement (.registerWrite l v) := fun l v => holds (.registerWrite l v)
theorem commitGo : ∀ l, Statement (.commitGo l) := fun l => holds (.commitGo l)
theorem discard : ∀ l, Statement (.discard l) := fun l => holds (.discard l)
theorem start : ∀ n, Statement (.start n) := fun n => holds (.start n)
theorem clear : ∀ n, Statement (.clear n) := fun n => holds (.clear n)
theorem clearDone : ∀ n, Statement (.clearDone n) := fun n => holds (.clearDone n)
theorem halt : ∀ n bits, Statement (.halt n bits) := fun n bits => holds (.halt n bits)
theorem clearFault : ∀ n bits, Statement (.clearFault n bits) := fun n bits => holds (.clearFault n bits)
theorem flush : ∀ n, Statement (.flush n) := fun n => holds (.flush n)
theorem flushComplete : ∀ n, Statement (.flushComplete n) := fun n => holds (.flushComplete n)
theorem slotWrite : ∀ n sl v, Statement (.slotWrite n sl v) := fun n sl v => holds (.slotWrite n sl v)
theorem ccWrite : ∀ n c v, Statement (.ccWrite n c v) := fun n c v => holds (.ccWrite n c v)
theorem vfence : ∀ n close, Statement (.vfence n close) := fun n close => holds (.vfence n close)
theorem vfenceEffect : ∀ n pl out, Statement (.vfenceEffect n pl out) := fun n pl out => holds (.vfenceEffect n pl out)
theorem imgBegin : ∀ ctl, Statement (.imgBegin ctl) := fun ctl => holds (.imgBegin ctl)
theorem imgAbort : Statement .imgAbort := holds .imgAbort
theorem attest : Statement .attest := holds .attest
theorem attReady : Statement .attReady := holds .attReady
theorem release : Statement .release := holds .release
theorem imgData : ∀ chunk, Statement (.imgData chunk) := fun chunk => holds (.imgData chunk)
theorem loadCheck : Statement .loadCheck := holds .loadCheck
theorem genAdvance : ∀ r, Statement (.genAdvance r) := fun r => holds (.genAdvance r)
theorem passTrain : ∀ k, Statement (.passTrain k) := fun k => holds (.passTrain k)
theorem passCtlDown : ∀ k, Statement (.passCtlDown k) := fun k => holds (.passCtlDown k)
theorem opticsOff : ∀ k off, Statement (.opticsOff k off) := fun k off => holds (.opticsOff k off)
theorem passOpticsDone : ∀ k, Statement (.passOpticsDone k) := fun k => holds (.passOpticsDone k)
theorem passLaneLockDone : ∀ k light good, Statement (.passLaneLockDone k light good) := fun k light good => holds (.passLaneLockDone k light good)
theorem passAlignDone : ∀ k locked, Statement (.passAlignDone k locked) := fun k locked => holds (.passAlignDone k locked)
theorem passExchangeDone : ∀ k far, Statement (.passExchangeDone k far) := fun k far => holds (.passExchangeDone k far)
theorem passTrainTimeout : ∀ k, Statement (.passTrainTimeout k) := fun k => holds (.passTrainTimeout k)
theorem frameData : ∀ k f, Statement (.frameData k f) := fun k f => holds (.frameData k f)
theorem frameIdle : ∀ k f, Statement (.frameIdle k f) := fun k f => holds (.frameIdle k f)
theorem frameNak : ∀ k f, Statement (.frameNak k f) := fun k f => holds (.frameNak k f)
theorem frameCells : ∀ k f, Statement (.frameCells k f) := fun k f => holds (.frameCells k f)
theorem passRetryTimeout : ∀ k, Statement (.passRetryTimeout k) := fun k => holds (.passRetryTimeout k)
theorem passAckStall : ∀ k, Statement (.passAckStall k) := fun k => holds (.passAckStall k)
theorem laneErrCheck : ∀ k errs, Statement (.laneErrCheck k errs) := fun k errs => holds (.laneErrCheck k errs)
theorem remapDone : ∀ k farGood, Statement (.remapDone k farGood) := fun k farGood => holds (.remapDone k farGood)
theorem linkDieEgress : ∀ k pl p, Statement (.linkDieEgress k pl p) := fun k pl p => holds (.linkDieEgress k pl p)
theorem linkDieIngress : ∀ k p, Statement (.linkDieIngress k p) := fun k p => holds (.linkDieIngress k p)
theorem linkInject : ∀ k n pl, Statement (.linkInject k n pl) := fun k n pl => holds (.linkInject k n pl)
theorem ringReplay : ∀ u, Statement (.ringReplay u) := fun u => holds (.ringReplay u)
theorem ringReplayRecord : ∀ u p, Statement (.ringReplayRecord u p) := fun u p => holds (.ringReplayRecord u p)
theorem controlIngress : ∀ p, Statement (.controlIngress p) := fun p => holds (.controlIngress p)
theorem regRead : ∀ p, Statement (.regRead p) := fun p => holds (.regRead p)
theorem regWrite : ∀ p, Statement (.regWrite p) := fun p => holds (.regWrite p)
theorem blockWrite : ∀ p, Statement (.blockWrite p) := fun p => holds (.blockWrite p)
theorem ctlRequestTimeout : ∀ j, Statement (.ctlRequestTimeout j) := fun j => holds (.ctlRequestTimeout j)
theorem ctlPairRetrain : ∀ b up, Statement (.ctlPairRetrain b up) := fun b up => holds (.ctlPairRetrain b up)
theorem guestEnable : ∀ g on, Statement (.guestEnable g on) := fun g on => holds (.guestEnable g on)
theorem guestRetrain : ∀ g, Statement (.guestRetrain g) := fun g => holds (.guestRetrain g)
theorem guestTrainDone : ∀ g modules level step feat timeout, Statement (.guestTrainDone g modules level step feat timeout) := fun g modules level step feat timeout => holds (.guestTrainDone g modules level step feat timeout)
theorem fordCheck : ∀ g m p, Statement (.fordCheck g m p) := fun g m p => holds (.fordCheck g m p)
theorem guestHold : ∀ g m, Statement (.guestHold g m) := fun g m => holds (.guestHold g m)
theorem guestGo : ∀ g m, Statement (.guestGo g m) := fun g m => holds (.guestGo g m)
theorem fordTokenRefill : ∀ g, Statement (.fordTokenRefill g) := fun g => holds (.fordTokenRefill g)
theorem guestOvercurrent : ∀ g, Statement (.guestOvercurrent g) := fun g => holds (.guestOvercurrent g)
theorem guestRailReady : ∀ g, Statement (.guestRailReady g) := fun g => holds (.guestRailReady g)
theorem oscEn : ∀ st d on, Statement (.oscEn st d on) := fun st d on => holds (.oscEn st d on)
theorem oscLock : ∀ st d, Statement (.oscLock st d) := fun st d => holds (.oscLock st d)
theorem cal : ∀ st, Statement (.cal st) := fun st => holds (.cal st)
theorem calDone : ∀ st fails offset, Statement (.calDone st fails offset) := fun st fails offset => holds (.calDone st fails offset)
theorem recal : ∀ st, Statement (.recal st) := fun st => holds (.recal st)
theorem recalDone : ∀ st, Statement (.recalDone st) := fun st => holds (.recalDone st)
theorem refSwitch : ∀ st, Statement (.refSwitch st) := fun st => holds (.refSwitch st)
theorem referenceLoss : ∀ st b, Statement (.referenceLoss st b) := fun st b => holds (.referenceLoss st b)
theorem refGood : ∀ st b, Statement (.refGood st b) := fun st b => holds (.refGood st b)
theorem xingSlip : ∀ st loc pl port lead, Statement (.xingSlip st loc pl port lead) := fun st loc pl port lead => holds (.xingSlip st loc pl port lead)
theorem arm : Statement .arm := holds .arm
theorem fstepArrive : ∀ st, Statement (.fstepArrive st) := fun st => holds (.fstepArrive st)
theorem fstepQuiet : ∀ st, Statement (.fstepQuiet st) := fun st => holds (.fstepQuiet st)
theorem fstepSwitch : ∀ st, Statement (.fstepSwitch st) := fun st => holds (.fstepSwitch st)
theorem fstepRecal : ∀ st fails, Statement (.fstepRecal st fails) := fun st fails => holds (.fstepRecal st fails)
theorem fstepResume : ∀ st, Statement (.fstepResume st) := fun st => holds (.fstepResume st)
theorem fstepDone : Statement .fstepDone := holds .fstepDone
theorem phaseOcTrip : ∀ st ph t, Statement (.phaseOcTrip st ph t) := fun st ph t => holds (.phaseOcTrip st ph t)
theorem phaseImbalance : ∀ st ph, Statement (.phaseImbalance st ph) := fun st ph => holds (.phaseImbalance st ph)
theorem openBondCheck : ∀ st mv amps, Statement (.openBondCheck st mv amps) := fun st mv amps => holds (.openBondCheck st mv amps)
theorem railRegulation : ∀ st, Statement (.railRegulation st) := fun st => holds (.railRegulation st)
theorem headerGroupStep : ∀ st g, Statement (.headerGroupStep st g) := fun st g => holds (.headerGroupStep st g)
theorem holdClear : ∀ st v, Statement (.holdClear st v) := fun st v => holds (.holdClear st v)
theorem vinSample : ∀ mv, Statement (.vinSample mv) := fun mv => holds (.vinSample mv)
theorem shedStep : Statement .shedStep := holds .shedStep
theorem watershedForce : ∀ f, Statement (.watershedForce f) := fun f => holds (.watershedForce f)
theorem pwrOk : ∀ high, Statement (.pwrOk high) := fun high => holds (.pwrOk high)
theorem coolOk : ∀ high, Statement (.coolOk high) := fun high => holds (.coolOk high)
theorem stewardThermalSample : ∀ q, Statement (.stewardThermalSample q) := fun q => holds (.stewardThermalSample q)
theorem tripClear : Statement .tripClear := holds .tripClear
theorem pmbusPoll : ∀ answers, Statement (.pmbusPoll answers) := fun answers => holds (.pmbusPoll answers)
theorem pmbusXact : ∀ v, Statement (.pmbusXact v) := fun v => holds (.pmbusXact v)
theorem pmbusXactDone : ∀ ok data, Statement (.pmbusXactDone ok data) := fun ok data => holds (.pmbusXactDone ok data)
theorem panelResetN : Statement .panelResetN := holds .panelResetN
theorem panelResetRelease : Statement .panelResetRelease := holds .panelResetRelease
theorem passBoot : Statement .passBoot := holds .passBoot
theorem passBootRetrain : Statement .passBootRetrain := holds .passBootRetrain
theorem fwBegin : Statement .fwBegin := holds .fwBegin
theorem fwAbort : Statement .fwAbort := holds .fwAbort
theorem stwFwData : ∀ chunk, Statement (.stwFwData chunk) := fun chunk => holds (.stwFwData chunk)
theorem fwVerify : ∀ started, Statement (.fwVerify started) := fun started => holds (.fwVerify started)
theorem siteTrainBond : ∀ st, Statement (.siteTrainBond st) := fun st => holds (.siteTrainBond st)
theorem siteTrainDram : ∀ st, Statement (.siteTrainDram st) := fun st => holds (.siteTrainDram st)
theorem bondTrainDone : ∀ st r, Statement (.bondTrainDone st r) := fun st r => holds (.bondTrainDone st r)
theorem dramTrainDone : ∀ st failed, Statement (.dramTrainDone st failed) := fun st failed => holds (.dramTrainDone st failed)
theorem setHost : ∀ st, Statement (.setHost st) := fun st => holds (.setHost st)
theorem cairnSample : ∀ q, Statement (.cairnSample q) := fun q => holds (.cairnSample q)
theorem computeReset : ∀ v, Statement (.computeReset v) := fun v => holds (.computeReset v)
theorem resetDone : Statement .resetDone := holds .resetDone
theorem opcodeReserved : ∀ n, Statement (.opcodeReserved n) := fun n => holds (.opcodeReserved n)
theorem phaseSwitchFault : ∀ st ph, Statement (.phaseSwitchFault st ph) := fun st ph => holds (.phaseSwitchFault st ph)
theorem controlReply : ∀ n p, Statement (.controlReply n p) := fun n p => holds (.controlReply n p)
theorem ledgerOp : ∀ n pl p, Statement (.ledgerOp n pl p) := fun n pl p => holds (.ledgerOp n pl p)
theorem guestOcClear : ∀ g, Statement (.guestOcClear g) := fun g => holds (.guestOcClear g)
theorem frameSend : ∀ k, Statement (.frameSend k) := fun k => holds (.frameSend k)

end Sys2Proof.Laws.Families
end

