-- ==== Sys2Proof/Safety.lean ====
section
/-! DEFINITION. The terms that claims use: the canonical form of all memory, what a command leaves as it
was, and how an instruction issues and retires. -/

namespace Sys2Proof.Machine

/-! ## The form of memory -/

/-- General registers and vector lanes list nothing that is zero, in rising order (R39). -/
def Ctx.wf (x : Ctx) : Bool := Sparse.canonical 0 x.gr && Sparse.canonical 0 x.vr

/-- Scratchpad, instruction memory, slots, counters and contexts of a core are in canonical form. -/
def Core.wf (c : Core) : Bool :=
  Sparse.canonical 0 c.spad && Sparse.canonical 0 c.imem && Sparse.canonical 0 c.slots &&
    Sparse.canonical 0 c.ccs && c.ctxs.all (fun e => e.2.wf)

/-- The written bytes of a slice's DRAM are listed in rising order. -/
def Slice.wf (c : Slice) : Bool := Sparse.rising c.dram

/-- Every memory of the panel is in canonical form: equal contents are equal lists. -/
def Memory.wf (s : State) : Bool :=
  Sparse.rising s.cores && s.cores.all (fun e => e.2.wf) &&
    Sparse.rising s.slices && s.slices.all (fun e => e.2.wf) &&
    Sparse.rising s.regs && Sparse.rising s.staged

/-- Every program counter is the offset of a word, or the offset after the last one (R53). -/
def PcWf (s : State) : Prop := ∀ n i, (s.ctx n i).pc % 8 = 0 ∧ (s.ctx n i).pc ≤ 0x1_0000

/-! ## What a command leaves as it was -/

/-- The listed registers are as before, but for those under the keys of L. -/
def RegsSame (s t : State) (L : List Nat) : Prop :=
  ∀ key, key ∉ L → Sparse.find key t.regs = Sparse.find key s.regs

/-- The cores are as before, but for those over the nodes of L. -/
def CoresSame (s t : State) (L : List Nat) : Prop := ∀ n, n ∉ L → t.core n = s.core n

/-- The routers are as before, but for those of the nodes of L. -/
def RoutersSame (s t : State) (L : List Nat) : Prop := ∀ n, n ∉ L → t.router n = s.router n

/-- The slices are as before, but for those over the nodes of L. -/
def SlicesSame (s t : State) (L : List Nat) : Prop := ∀ n, n ∉ L → t.slice n = s.slice n

/-- The site controllers are as before, but for those of the sites of L. -/
def SitesSame (s t : State) (L : List Nat) : Prop := ∀ st, st ∉ L → t.site st = s.site st

/-- The link layers are as before, but for those of L. -/
def LinksSame (s t : State) (L : List Nat) : Prop := ∀ k, k ∉ L → t.link k = s.link k

/-- The guest bridges are as before, but for those of L. -/
def GuestsSame (s t : State) (L : List Nat) : Prop := ∀ g, g ∉ L → t.guest g = s.guest g

/-- The stewards are as before, but for those of L. -/
def StewardsSame (s t : State) (L : List Nat) : Prop := ∀ q, q ∉ L → t.steward q = s.steward q

/-! ## Issue (R41, R42, R74) -/

/-- Context i of core n issues word w of opcode op, and decode finds no fault in it. -/
structure Issues (s : State) (n i : Nat) (w : Word) (op : Nat) : Prop where
  node : isCoreNode n = true
  word : issuing s n = some (i, .word w)
  opcode : iOp w = op
  fine : decodeFault w = none

/-- What the issue of an instruction of context i at core n leaves as it was, where c is the core with what the
instruction changes beside the contexts: everything but core n and the registers; in core n everything but
what c gives, its contexts, and which one issued last; in the other contexts everything but HELD_AT_ISSUE. -/
structure OnlyIssued (s t : State) (c : Core) (n i : Nat) : Prop where
  rest : t = { s with cores := t.cores, regs := t.regs }
  others : CoresSame s t [n]
  core : t.core n = { c with ctxs := (t.core n).ctxs, lastIssued := some i }
  ctxs : ∀ j, j ≠ i → t.ctx n j = { s.ctx n j with held := (t.ctx n j).held }

/-- Context i of core n has retired an instruction and goes on at pc' with one Cairn event more, which
CORE_CAIRN counts too (R53, R59). Its other fields are as before but for its register banks. -/
structure Retired (s t : State) (c : Core) (n i pc' : Nat) : Prop where
  only : OnlyIssued s t c n i
  regs : RegsSame s t [(bCore n).key 0x48]
  cairn : t.reg (bCore n) 0x48 = wrapInc (s.reg (bCore n) 0x48) 0 32
  ctx : t.ctx n i = { s.ctx n i with
    held := false, pc := pc', cairn := (s.ctx n i).cairn + 1,
    gr := (t.ctx n i).gr, pr := (t.ctx n i).pr, vr := (t.ctx n i).vr }

/-- The general registers are as before, but that gd holds v where d is not 0 (R39, R72). -/
def GeneralSet (s t : State) (n i d : Nat) (v : Word) : Prop :=
  ∀ r, (t.ctx n i).getG r = if r = d ∧ d ≠ 0 then v else (s.ctx n i).getG r

/-- The general registers are as before. -/
def GeneralSame (s t : State) (n i : Nat) : Prop := ∀ r, (t.ctx n i).getG r = (s.ctx n i).getG r

/-- The predicate registers are as before, but that pd holds b. -/
def PredSet (s t : State) (n i d : Nat) (b : Bool) : Prop :=
  ∀ r, r < 8 → (t.ctx n i).getP r = if r = d then b else (s.ctx n i).getP r

/-- The predicate registers are as before. -/
def PredSame (s t : State) (n i : Nat) : Prop := (t.ctx n i).pr = (s.ctx n i).pr

/-- Lane l of vd holds f l, for each of the 64 lanes, and every other lane is as before. -/
def VectorSet (s t : State) (n i d : Nat) (f : Nat → Lane) : Prop :=
  ∀ r l, l < 64 → (t.ctx n i).lane r l = if r = d then f l else (s.ctx n i).lane r l

/-- The vector registers are as before. -/
def VectorSame (s t : State) (n i : Nat) : Prop := (t.ctx n i).vr = (s.ctx n i).vr

/-- The program counter of a context. -/
def pcOf (s : State) (n i : Nat) : Nat := (s.ctx n i).pc

/-- An instruction that retires at pc' having written v to general register d and no other register. -/
structure WritesG (s t : State) (c : Core) (n i pc' d : Nat) (v : Word) : Prop where
  retired : Retired s t c n i pc'
  general : GeneralSet s t n i d v
  preds : PredSame s t n i
  lanes : VectorSame s t n i

/-- An instruction that retires at pc' having written b to predicate register d and no other register. -/
structure WritesP (s t : State) (c : Core) (n i pc' d : Nat) (b : Bool) : Prop where
  retired : Retired s t c n i pc'
  general : GeneralSame s t n i
  preds : PredSet s t n i d b
  lanes : VectorSame s t n i

/-- An instruction that retires at pc' having written f to vector register d and no other register. -/
structure WritesV (s t : State) (c : Core) (n i pc' d : Nat) (f : Nat → Lane) : Prop where
  retired : Retired s t c n i pc'
  general : GeneralSame s t n i
  preds : PredSame s t n i
  lanes : VectorSet s t n i d f

/-- An instruction that retires at pc' and writes no register. -/
structure WritesNone (s t : State) (c : Core) (n i pc' : Nat) : Prop where
  retired : Retired s t c n i pc'
  general : GeneralSame s t n i
  preds : PredSame s t n i
  lanes : VectorSame s t n i

/-- Context i of core n parks on a wait: the instruction after it is next, and no Cairn counts (R45, R59, R60,
R94). -/
structure Parks (s t : State) (n i : Nat) (wait : WaitFor) (idle : Bool) : Prop where
  only : OnlyIssued s t (s.core n) n i
  regs : t.regs = s.regs
  ctx : t.ctx n i = { s.ctx n i with
    state := .parked, wait := wait, idle := idle, held := false, pc := (s.ctx n i).pc + 8 }

/-- Context i of core n faults at issue with a code, a unit number and an address (R54, R76): it is
FAULTED with its registers, program counter and Cairn as they were, the fault registers tell of it, and the core
raises CTX_FAULT (0x0101), which waits to be injected at the node. Nothing else changes but which context
issued last and HELD_AT_ISSUE of the others. -/
structure FaultsAtIssue (s t : State) (n i code unit : Nat) (addr : Word) : Prop where
  rest : t = { s with cores := t.cores, routers := t.routers }
  others : CoresSame s t [n]
  core : t.core n = { s.core n with ctxs := (t.core n).ctxs, lastIssued := some i }
  ctxs : ∀ j, j ≠ i → t.ctx n j = { s.ctx n j with held := (t.ctx n j).held }
  ctx : t.ctx n i = { s.ctx n i with
    state := .faulted, held := false, faultAddr := addr,
    faultInfo := faultWord code false unit (s.ctx n i).pc }
  routers : RoutersSame s t [n]
  raised : t.router n = { s.router n with
    offers := (s.router n).offers ++ [⟨mkNotice s n 0x0101 0 0 0, none⟩] }

/-- Context i of core n has handed descriptor op to its unit and goes on (R42, R87). -/
structure HandsOver (s t : State) (n i : Nat) (op : UnitOp) : Prop where
  only : OnlyIssued s t { s.core n with ops := (s.core n).ops ++ [op] } n i
  regs : RegsSame s t [(bCore n).key 0x48]
  cairn : t.reg (bCore n) 0x48 = wrapInc (s.reg (bCore n) 0x48) 0 32
  ctx : t.ctx n i = { s.ctx n i with
    held := false, pc := (s.ctx n i).pc + 8, cairn := (s.ctx n i).cairn + 1,
    outstanding := (s.ctx n i).outstanding + 1 }

/-- A SLOT-form wait on a slot with a counter holds (R196, R197). -/
def SlotHolds (sw : Word) (cc : Lane) : Prop :=
  if bits sw 32 2 = 2 then bits sw 48 16 ≤ bits sw 0 32
  else 1 ≤ bits sw 0 32 ∧
    (bit sw 34 = true → (cc.toNat % 65536 + 65536 - bits sw 48 16) % 65536 ≤ 32767)

/-- A context that waits is released: READY, or WAKE_PENDING where it is HALTED, with one Cairn event (R45, R60; that
its wait shows none then is assumption 75). -/
def AfterRelease (x : Ctx) : Ctx :=
  if x.state = .halted then { x with wait := .nothing, wake := true, idle := false, cairn := x.cairn + 1 }
  else { x with state := .ready, wait := .nothing, idle := false, cairn := x.cairn + 1 }

/-- Context i of core n is released when a test for the waits of sel reaches it and the slots hold w (R196 to R198,
R203): it is PARKED or HALTED on such a wait, and its condition holds. -/
def ReleasedAt (s : State) (n : Nat) (sel : WaitFor → Prop) (w : Nat → Word) (i : Nat) : Prop :=
  let x := s.ctx n i
  (x.state = .parked ∨ x.state = .halted) ∧ sel x.wait ∧
    ((∃ sl k, x.wait = .slot sl k ∧ SlotHolds (w sl) ((s.core n).cc k)) ∨
      ∃ k thr, x.wait = .count k thr ∧ thr ≤ ((s.core n).cc k).toNat)

/-- One test for release at core n, of the waits of sel, leads from s to t (R198, R201). The contexts are taken from c0 to
c3, slots i is what the slots hold when context i is reached, and links are the counters that releases from a slot
with LINK_EN count on. -/
structure Tested (s t : State) (n : Nat) (sel : WaitFor → Prop) (slots : Nat → Nat → Word) (links : List Nat) : Prop where
  rest : t = { s with cores := t.cores, regs := t.regs }
  others : CoresSame s t [n]
  core : t.core n = { s.core n with ctxs := (t.core n).ctxs, slots := (t.core n).slots }
  first : slots 0 = (s.core n).slot
  last : (t.core n).slot = slots 4
  ctxs : ∀ i, (i < 4 → ReleasedAt s n sel (slots i) i → t.ctx n i = AfterRelease (s.ctx n i)) ∧
    (4 ≤ i ∨ ¬ ReleasedAt s n sel (slots i) i → t.ctx n i = s.ctx n i)
  consumed : ∀ i, i < 4 → ∀ sl, slots (i + 1) sl = match (s.ctx n i).wait with
    | .slot sl' _ => if sl' = sl ∧ t.ctx n i ≠ s.ctx n i ∧ bits (slots i sl) 32 2 = 0
        then setBits (slots i sl) 0 32 (bits (slots i sl) 0 32 - 1) else slots i sl
    | _ => slots i sl
  counted : links = (List.range 4).filterMap fun i => match (s.ctx n i).wait with
    | .slot sl _ => if t.ctx n i ≠ s.ctx n i ∧ bit (slots i sl) 35 then some (bits (slots i sl) 36 12) else none
    | _ => none
  regs : RegsSame s t [(bCore n).key 0x48]
  cairn : let k := ((List.range 4).filter fun i => decide (t.ctx n i ≠ s.ctx n i)).length
    bits (t.reg (bCore n) 0x48) 0 32 = (bits (s.reg (bCore n) 0x48) 0 32 + k) % 2 ^ 32 ∧
      bits (t.reg (bCore n) 0x48) 32 32 = bits (s.reg (bCore n) 0x48) 32 32

/-- One is added modulo 2^32 to counter k of core n, and a wrap shows in CORE_STAT (R69, R203). -/
structure Counted (s t : State) (n k : Nat) : Prop where
  rest : t = { s with cores := t.cores, regs := t.regs }
  others : CoresSame s t [n]
  core : t.core n = { s.core n with ccs := (t.core n).ccs }
  counters : ∀ c, (t.core n).cc c = if c = k then (s.core n).cc k + 1 else (s.core n).cc c
  regs : RegsSame s t [(bCore n).key 0x20]
  wrapped : t.reg (bCore n) 0x20 =
    if (s.core n).cc k = 0xFFFF_FFFF then setBit (s.reg (bCore n) 0x20) 14 true else s.reg (bCore n) 0x20

/-- One is added to each counter of a list at core n, the first first; each is followed by a test of the waits that name
the counter, and the counts that its releases add come last (R144, R198, R201, R203; that the test ends before them is
assumption 111). -/
inductive CountsAdded (n : Nat) : State → List Nat → State → Prop where
  | none (s : State) : CountsAdded n s [] s
  | one (s u v t : State) (k : Nat) (rest links : List Nat) (slots : Nat → Nat → Word) (added : Counted s u n k)
      (tested : Tested u v n (fun x => (∃ sl, x = .slot sl k) ∨ ∃ thr, x = .count k thr) slots links)
      (more : CountsAdded n v (rest ++ links) t) : CountsAdded n s (k :: rest) t

/-- The test after slot sl of core n has changed, with the counts that its releases add (R198, R201). -/
def SlotTested (s t : State) (n sl : Nat) : Prop :=
  ∃ u slots links, Tested s u n (fun x => ∃ k, x = .slot sl k) slots links ∧ CountsAdded n u links t

/-- The rows of the instructions of core n whose opcode is defined (R73, R92). -/
def coreRows (n : Nat) : List Instr :=
  [.alu n, .alui n, .cmp n, .cmpi n, .li n, .lih n, .plog n, .sel n, .br n, .brp n, .call n, .jr n,
   .loop n, .ld n, .st n, .vop n, .vld n, .vst n, .vbcast n, .vget n, .vput n, .vred n, .vsort n,
   .vxadd n, .vtld n, .tissue n, .msend n, .inmv n, .waitSlot n, .waitCount n, .sig n, .lop n,
   .spawn n, .endCtx n, .park n, .self n, .rreg n, .wreg n, .fence n, .breakCtx n, .nop n]

/-- The row that a word names (R73, R92). -/
def rowOf (n : Nat) (w : Word) : Instr :=
  match iOp w with
  | 0x10 => .alu n
  | 0x11 => .alui n
  | 0x12 => .cmp n
  | 0x13 => .cmpi n
  | 0x14 => .li n
  | 0x15 => .lih n
  | 0x16 => .plog n
  | 0x17 => .sel n
  | 0x20 => .br n
  | 0x21 => .brp n
  | 0x22 => .call n
  | 0x23 => .jr n
  | 0x24 => .loop n
  | 0x30 => .ld n
  | 0x31 => .st n
  | 0x40 => .vop n
  | 0x41 => .vld n
  | 0x42 => .vst n
  | 0x43 => .vbcast n
  | 0x44 => .vget n
  | 0x45 => .vput n
  | 0x46 => .vred n
  | 0x47 => .vsort n
  | 0x48 => .vxadd n
  | 0x49 => .vtld n
  | 0x50 => .tissue n
  | 0x60 => .msend n
  | 0x61 => .inmv n
  | 0x70 => if bit w 33 then .waitCount n else .waitSlot n
  | 0x71 => .sig n
  | 0x80 => .lop n
  | 0x90 => .spawn n
  | 0x91 => .endCtx n
  | 0x92 => .park n
  | 0x93 => .self n
  | 0xA0 => .rreg n
  | 0xA1 => .wreg n
  | 0xA2 => .fence n
  | 0xA3 => .breakCtx n
  | 0xA4 => .nop n
  | _ => .opcodeReserved n

/-- The reduction of 2^h lanes from lane 2^h × k on: adjacent halves combine, lower index first (R85). -/
def reduceTree (f : Lane → Lane → Lane) (v : Nat → Lane) : Nat → Nat → Lane
  | 0, k => v k
  | h + 1, k => f (reduceTree f v h (2 * k)) (reduceTree f v h (2 * k + 1))

/-- ps holds the pairs of l by descending key of the first, pairs of equal keys in the order of l (R85). -/
structure SortedFrom (key : Lane → Int) (l ps : List (Lane × Lane)) : Prop where
  falling : ps.Pairwise (fun p q => key q.1 ≤ key p.1)
  stable : ∀ c, ps.filter (fun p => key p.1 = c) = l.filter (fun p => key p.1 = c)

/-- k lanes from lane l on as one number, lowest first (R135). -/
def lanesValue (v : Nat → Lane) (l : Nat) : Nat → Nat
  | 0 => 0
  | k + 1 => (v l).toNat + 2 ^ 32 * lanesValue v (l + 1) k

/-- A byte of a core's scratchpad. -/
def Core.spadByte (c : Core) (a : Nat) : Byte := Sparse.getD 0 c.spad a

/-- The scratchpad words of n bytes at offset a hold no parity error. -/
def Core.parityOk (c : Core) (a n : Nat) : Prop := ∀ w ∈ c.badSpad, 8 * w + 8 ≤ a / 8 * 8 ∨ a + n ≤ 8 * w

/-! ## Values and rounding -/

/-- A finite value as a number of units of 2^lo, where lo is at most its exponent. -/
def Num.times (lo : Int) : Num → Int
  | .fin neg m e => (if neg then -1 else 1) * (m * 2 ^ (e - lo).toNat : Nat)
  | _ => 0

/-- The exponent of the smallest subnormal of a format (R108). -/
def FFmt.least (f : FFmt) : Int := 1 - (f.bias : Int) - f.mbits

/-- x units of 2^lo, rounded to nearest, exceed the largest finite value of a format (R117). -/
def FFmt.Over (f : FFmt) (lo x : Int) : Prop :=
  let v := fun k => ((f.decode k).times lo).natAbs
  let top := v f.maxFinite
  let ulp := top - v (f.maxFinite - 1)
  2 * top + ulp < 2 * x.natAbs ∨ (2 * top + ulp = 2 * x.natAbs ∧ f.maxFinite % 2 = 1)

/-- Code c is x units of 2^lo rounded to the nearest value of a format, ties to the even code, with sign neg; where
that exceeds the largest finite value its magnitude code is cap (R116, R117). Here lo is at most the exponent of the
smallest subnormal. -/
def FFmt.RoundsTo (f : FFmt) (cap : Nat) (lo x : Int) (neg : Bool) (c : Nat) : Prop :=
  let mag := c % 2 ^ f.width
  let off := fun k => ((x.natAbs : Int) - ((f.decode k).times lo).natAbs).natAbs
  c < 2 ^ (f.width + 1) ∧ c.testBit f.width = neg ∧ (f.Over lo x → mag = cap) ∧
  (¬ f.Over lo x → mag ≤ f.maxFinite ∧
    ∀ k, k ≤ f.maxFinite → k ≠ mag → off mag ≤ off k ∧ (off mag = off k → c % 2 = 0))

/-- v is x units of 2^lo rounded to the nearest integer, ties to the even one (R116). -/
def NearestInt (lo x v : Int) : Prop :=
  if 0 ≤ lo then v = x * 2 ^ lo.toNat
  else
    let d : Int := 2 ^ (-lo).toNat
    2 * (x - v * d).natAbs ≤ d ∧ (2 * ((x - v * d).natAbs : Int) = d → v % 2 = 0)

/-- FP32 value of a lane that is finite, in units of 2^−149 (R108). -/
def fpUnits (a : Lane) : Int :=
  let e := a.toNat / 2 ^ 23 % 256
  let m := a.toNat % 2 ^ 23
  let u : Int := (if e = 0 then m else (m + 2 ^ 23) * 2 ^ (e - 1) : Nat)
  if a.getLsbD 31 then -u else u

/-- An FP32 lane is finite, an infinity or NaN, by its exponent field (R108). -/
def FpFinite (a : Lane) : Prop := a.toNat / 2 ^ 23 % 256 ≠ 255
/-- An FP32 lane is NaN (R108). -/
def FpNan (a : Lane) : Prop := a.toNat / 2 ^ 23 % 256 = 255 ∧ a.toNat % 2 ^ 23 ≠ 0

/-- Lane r is the FP32 lane of x units of 2^lo with sign neg (R132). -/
def FpRounds (lo x : Int) (neg : Bool) (r : Lane) : Prop := fmtFp32.RoundsTo 0x7F80_0000 lo x neg r.toNat

/-! ## Tiles -/

/-- A reader of these bytes finds a tile of the format, shape, sequence, origin and anchor code, with a good
checksum, RB as its row stride, and element (r, k) at code r k (R98 to R105, R124). Its header is consistent but
in INT4 with an odd number of columns (assumption 79). -/
def TileIs (out : List Byte) (f rows cols seq node ctx anchor : Nat) (code : Nat → Nat → Nat) : Prop :=
  ∀ (c : Core) (o : Nat), c.readSpad o out.length = out →
    let t := readTile c o
    out.length = 64 + t.dataLen ∧ t.fmt = f ∧ t.rows = rows ∧ t.cols = cols ∧
    bits (t.q 2) 0 32 = seq ∧ bits (t.q 2) 32 14 = node % 2 ^ 14 ∧ bits (t.q 2) 46 2 = ctx % 4 ∧
    bits (t.q 3) 0 16 = anchor ∧ t.crcOk = true ∧
    (f ≠ 0x07 ∨ cols % 2 = 0 → t.consistent = true) ∧
    (rows ≠ 0 → cols ≠ 0 → t.stride = rowBytes f cols ∧ ∀ r k, r < rows → k < cols → t.code r k = code r k)

/-- The status word's bits: LOSS, SAT and INVALID of the accumulators and OUT_OVF, OUT_INEXACT and OUT_NAN of the
converted elements, over the elements of the result (R125). -/
def StatusIs (status rows cols : Nat) (flag : Nat → Nat → Nat → Bool) : Prop :=
  status < 64 ∧ ∀ k, k < 6 → (status.testBit k = true ↔ ∃ r c, r < rows ∧ c < cols ∧ flag r c k = true)

/-- x is the first entry of l of which p holds. -/
def FirstOf {α : Type} (l : List α) (p : α → Prop) (x : α) : Prop :=
  ∃ i : Nat, l[i]? = some x ∧ p x ∧ ∀ (j : Nat) y, j < i → l[j]? = some y → ¬ p y

/-- The bytes that the first two checks of R106 take for a tile: header and data, or its header alone where DATA_LEN
exceeds 8,192. -/
def tileLen (t : Tile) : Nat := 64 + if t.dataLen ≤ 8192 then t.dataLen else 0

/-- The bytes that the same checks take for a result of a format: a tile without elements, or one of more than 8,192
data bytes, is its header alone (R102, R106, R124; assumption 17). -/
def resultLen (f rows cols : Nat) : Nat :=
  64 + if outBytes f rows cols ≤ 8192 then outBytes f rows cols else 0

/-- A header is consistent: the conditions of R102 for a format of b bits an element. -/
def HeaderConsistent (t : Tile) (b : Nat) : Prop :=
  t.dataLen ≤ 8192 ∧
    if t.rows = 0 ∨ t.cols = 0 then t.dataLen = 0
    else
      let mx := 0x10 ≤ t.fmt ∧ t.fmt ≤ 0x15
      (t.fmt = 0x07 → t.cols % 2 = 0) ∧ (mx → t.cols % 32 = 0) ∧ (t.cols * b + 7) / 8 ≤ t.stride ∧
      (16 ≤ b → t.stride % (b / 8) = 0) ∧
      (¬ mx → t.scaleOff = 0 ∧ t.scaleStride = 0 ∧ t.dataLen = t.rows * t.stride) ∧
      (mx → t.rows * t.stride ≤ t.scaleOff ∧ t.cols / 32 ≤ t.scaleStride ∧
        t.dataLen = t.scaleOff + t.rows * t.scaleStride)

/-- The checks of R106 on core c fail first with a fault code and an address. A place is an offset that the
descriptor names with its bytes and its alignment; tiles are the offsets of the tiles read; bad says that the
descriptor or the agreement of the tiles is wrong; verify, that checksums are tested. -/
inductive UseFails (c : Core) (desc : Nat) (places : List (Nat × Nat × Nat)) (tiles : List Nat) (bad : Prop)
    (verify : Bool) : Nat → Nat → Prop where
  | range (p : Nat × Nat × Nat) (first : FirstOf places (fun p => 0x20_0000 < p.1 + p.2.1) p) :
      UseFails c desc places tiles bad verify 0x06 p.1
  | align (p : Nat × Nat × Nat) (inside : ∀ p ∈ places, p.1 + p.2.1 ≤ 0x20_0000)
      (first : FirstOf places (fun p => p.1 % p.2.2 ≠ 0) p) : UseFails c desc places tiles bad verify 0x07 p.1
  | parity (o w : Nat) (placed : ∀ p ∈ places, p.1 + p.2.1 ≤ 0x20_0000 ∧ p.1 % p.2.2 = 0)
      (first : FirstOf tiles (fun o => ¬ c.parityOk o (tileLen (readTile c o))) o)
      (hit : w ∈ c.badSpad ∧ o ≤ 8 * w + 7 ∧ 8 * w < o + tileLen (readTile c o))
      (least : ∀ x ∈ c.badSpad, o ≤ 8 * x + 7 → w ≤ x) : UseFails c desc places tiles bad verify 0x08 (8 * w)
  | desc (placed : ∀ p ∈ places, p.1 + p.2.1 ≤ 0x20_0000 ∧ p.1 % p.2.2 = 0)
      (parity : ∀ o ∈ tiles, c.parityOk o (tileLen (readTile c o))) (wrong : bad) :
      UseFails c desc places tiles bad verify 0x09 desc
  | header (o : Nat) (placed : ∀ p ∈ places, p.1 + p.2.1 ≤ 0x20_0000 ∧ p.1 % p.2.2 = 0)
      (parity : ∀ o ∈ tiles, c.parityOk o (tileLen (readTile c o))) (fine : ¬ bad)
      (first : FirstOf tiles (fun o => (readTile c o).consistent = false) o) :
      UseFails c desc places tiles bad verify 0x0B o
  | checksum (o : Nat) (placed : ∀ p ∈ places, p.1 + p.2.1 ≤ 0x20_0000 ∧ p.1 % p.2.2 = 0)
      (parity : ∀ o ∈ tiles, c.parityOk o (tileLen (readTile c o))) (fine : ¬ bad)
      (shaped : ∀ o ∈ tiles, (readTile c o).consistent = true) (tested : verify = true)
      (first : FirstOf tiles (fun o => (readTile c o).crcOk = false) o) :
      UseFails c desc places tiles bad verify 0x0C o

/-- A tensor descriptor is wrong whatever its operation: an unnamed bit or a quad from D4 on is not zero, or STATUS
without STATUS_EN or ACC_IN without ACC is not (R121). -/
def DescWrong (d : Desc) : Prop :=
  let pair := fun i => i ≤ 20 ∨ (32 ≤ i ∧ i ≤ 52)
  (∃ i, i < 64 ∧ ((¬ pair i ∧ (bit d.d0 i = true ∨ bit d.d1 i = true)) ∨
    (¬ (i ≤ 28 ∨ (32 ≤ i ∧ i ≤ 52) ∨ (56 ≤ i ∧ i ≤ 61)) ∧ bit d.d2 i = true) ∨
    (¬ (i ≤ 31 ∨ (32 ≤ i ∧ i ≤ 52)) ∧ bit d.d3 i = true))) ∨
  ¬ (d.d4 = 0 ∧ d.d5 = 0 ∧ d.d6 = 0 ∧ d.d7 = 0) ∨
  (bit d.d2 26 = false ∧ bits d.d2 32 21 ≠ 0) ∨ (bit d.d2 24 = false ∧ bits d.d3 32 21 ≠ 0)

/-- A tile of accumulators does not agree: format, shape or anchor (R123, R129). -/
def AccWrong (t : Tile) (f rows cols : Nat) (anchor : Int) : Prop :=
  t.fmt ≠ f ∨ t.rows ≠ rows ∨ t.cols ≠ cols ∨ t.anchor ≠ anchor

/-! ## Packets at a node -/

/-- A byte of a core's instruction memory. -/
def Core.imemByte (c : Core) (a : Nat) : Byte := Sparse.getD 0 c.imem a

/-- The byte at an offset of space 0x1: scratchpad, or from 0x0100_0000 on instruction memory (R25). -/
def Core.memByte (c : Core) (a : Nat) : Byte :=
  if a < 0x0100_0000 then c.spadByte a else c.imemByte (a - 0x0100_0000)

/-- The n bytes at offset a lie in scratchpad or in instruction memory (R25). -/
def InMem (a n : Nat) : Prop := a + n ≤ 0x20_0000 ∨ (0x0100_0000 ≤ a ∧ a + n ≤ 0x0101_0000)

/-- The words of n bytes at offset a of space 0x1 hold no parity error. -/
def Core.memParityOk (c : Core) (a n : Nat) : Prop :=
  if a < 0x0100_0000 then c.parityOk a n
  else ∀ w ∈ c.badImem, 8 * w + 8 ≤ (a - 0x0100_0000) / 8 * 8 ∨ a - 0x0100_0000 + n ≤ 8 * w

/-- Bytes a to a + n − 1 of space 0x1 of core n0 hold what byte gives, every other byte of its memories is as
before, a word written whole has lost a parity error, and nothing else has changed (R52, R146). -/
structure MemWritten (s t : State) (n0 a n : Nat) (byte : Nat → Byte) : Prop where
  rest : t = { s with cores := t.cores }
  others : CoresSame s t [n0]
  core : t.core n0 = { s.core n0 with
    spad := (t.core n0).spad, imem := (t.core n0).imem,
    badSpad := (t.core n0).badSpad, badImem := (t.core n0).badImem }
  spad : ∀ x, x < 0x20_0000 → (t.core n0).spadByte x =
    if a ≤ x ∧ x < a + n then byte (x - a) else (s.core n0).spadByte x
  imem : ∀ x, x < 0x1_0000 → (t.core n0).imemByte x =
    if a ≤ 0x0100_0000 + x ∧ 0x0100_0000 + x < a + n then byte (0x0100_0000 + x - a)
    else (s.core n0).imemByte x
  spadParity : ∀ w, w < 0x4_0000 → (w ∈ (t.core n0).badSpad ↔
    w ∈ (s.core n0).badSpad ∧ ¬ (a ≤ 8 * w ∧ 8 * w + 8 ≤ a + n))
  imemParity : ∀ w, w < 0x2000 → (w ∈ (t.core n0).badImem ↔
    w ∈ (s.core n0).badImem ∧ ¬ (a ≤ 0x0100_0000 + 8 * w ∧ 0x0100_0000 + 8 * w + 8 ≤ a + n))

/-- Packet p of kind k for this panel is delivered at node n from plane pl, and is none of the far window. -/
structure Delivered (s : State) (n pl k : Nat) (p : Packet) : Prop where
  node : isNode n = true
  plane : pl < 4
  kind : pKind p = k
  here : addrHere s p.h1 = true
  near : siteKind (siteOf n) = .link → inFarWindow s p.h1 = false

/-- Packet p of kind k, in space sp of this panel, is delivered at core n from plane pl, and nothing that stands
before a core turns it away: the site is on, the headers of the core are on, the core is not clearing, and the
packet is not of another generation (R26, R62, R386, R421). -/
structure Reaches (s : State) (n pl k sp : Nat) (p : Packet) : Prop where
  core : isCoreNode n = true
  plane : pl < 4
  kind : pKind p = k
  space : aSpace p.h1 = sp
  here : addrHere s p.h1 = true
  powered : siteUnpowered s (siteOf n) = false
  headers : headerOn s n = true
  open_ : (s.core n).clearing = false
  gen : genDiffers s n p = false

/-- Byte k of a payload. -/
def payloadByte (p : Packet) (k : Nat) : Byte := p.data.getD k 0

/-- The byte at offset a of the slice c above node nd: a byte not written since the contents were lost is a free
value (R210; assumption 6). -/
def Slice.dramByte (c : Slice) (nd a : Nat) : Byte := (Sparse.find a c.dram).getD (Config.dramFill c.fill nd a)

/-- What the slice above node n changes beside its bytes when it performs an access that reads some lines: the slice and
its registers, of which READS and the two counts of errors rise; and each line with an uncorrected error raises
DRAM_UNCORRECTED (0x0301) (R215, R216). -/
structure SliceReads (s t : State) (n : Nat) (lines : List Nat) : Prop where
  rest : t = { s with slices := t.slices, regs := t.regs, routers := t.routers }
  others : SlicesSame s t [n]
  routers : RoutersSame s t [n]
  notices : let bad := (lines.filter fun l => decide (l ∈ (s.slice n).badLines)).length
    t.router n = (if bad = 0 then s.router n else { s.router n with
      offers := (s.router n).offers ++ List.replicate bad ⟨mkNotice s n 0x0301 0 0 0, none⟩ })
  regs : RegsSame s t ([0x20, 0x28, 0x30].map (bMc n).key ++ [(bLgr n).key 0x38])
  reads : bits (t.reg (bMc n) 0x20) 0 32 = min (2 ^ 32 - 1) (bits (s.reg (bMc n) 0x20) 0 32 + lines.length)
  errors : let was := s.reg (bMc n) 0x30
    let now := t.reg (bMc n) 0x30
    let corrected := (lines.filter fun l => decide (l ∈ (s.slice n).corrLines)).length
    let bad := (lines.filter fun l => decide (l ∈ (s.slice n).badLines)).length
    bits now 0 16 = min 65535 (bits was 0 16 + corrected) ∧ bits now 16 16 = min 65535 (bits was 16 16 + bad) ∧
      bits now 32 32 = bits was 32 32
  ledger : t.reg (bLgr n) 0x38 = s.reg (bLgr n) 0x38

/-- The slice with its queue, its bytes and the errors of its lines changed: lines that are stored whole have none any
longer (R215, R216). -/
def Slice.Stored (c x : Slice) (queue : List Req) (lines : List Nat) : Prop :=
  x = { c with queue := queue, dram := x.dram
               badLines := c.badLines.filter fun l => decide (l ∉ lines)
               corrLines := c.corrLines.filter fun l => decide (l ∉ lines) }

/-! ## Agreement conditions (R28, R69, R192, R245, R292, R330, R353, R354, R373, R402, R425) -/

/-- Map entry l is wrong: map gives the words (R28, R192). -/
def MapBreaks (map : Nat → Word) (l : Nat) : Prop :=
  let phys := fun i => bits (map i) 0 8
  let none' := fun i => bit (map i) 8 = true
  192 ≤ phys l ∨ (none' l ∧ phys l ≠ 0) ∨
    (siteKind l ≠ .compute ∧ (none' l ∨ phys l ≠ l)) ∨
    (siteKind l = .compute ∧ ¬ none' l ∧ siteKind (phys l) ≠ .compute) ∨
    (¬ none' l ∧ ∃ i, i < l ∧ ¬ none' i ∧ phys i = phys l)

/-- A detour entry of node n is wrong, by its CLOSED word (R192). -/
def DetourBreaks (n : Nat) (closed w : Word) : Prop :=
  let a := bits w 36 3
  6 ≤ a ∨ bits w 8 7 < bits w 0 7 ∨ bits w 24 7 < bits w 16 7 ∨ 95 < bits w 24 7 ∨
    ∃ d, a = d + 1 ∧ d < 4 ∧ (facesEdge n d = true ∨
      ∃ p, p < 4 ∧ bit w (32 + p) = true ∧ bit closed (4 * p + d) = true)

/-- A tree entry of node n is wrong, by its CLOSED word (R192). -/
def TreeBreaks (n : Nat) (closed w : Word) : Prop :=
  let par := bits w 1 3
  (bit w 0 = false ∧ bits w 1 8 ≠ 0) ∨ (bit w 0 = true ∧ (5 ≤ par ∨
    ∃ d, d < 4 ∧ ((par = d ∧ bit w (4 + d) = true) ∨ ((par = d ∨ bit w (4 + d) = true) ∧
      (facesEdge n d = true ∨ ∃ p, p < 4 ∧ bit closed (4 * p + d) = true)))))

/-- A ring with CFG at offset c is wrong (R330). A bad AREA is reported at AREA where that is staged, else at CFG
(the model's choice, assumption 52). -/
def RingBreaks (s : State) (k : Blk) (c o : Nat) : Prop :=
  let cfg := eff s k c
  let area := eff s k (c + 8)
  let busy := (s.ring (if k.kind = .pass then k.unit else 8 + k.unit)).replay.isSome = true
  let badArea := bits area 32 16 = 0 ∨ 0x2000_0000 < bits area 0 17 * 4096 + bits area 32 16 * 8320
  (o = c ∧ ((bit cfg 0 = true ∧ (bits cfg 1 7 = 0 ∨ 64 < bits cfg 1 7 ∨
      12287 < bits cfg 16 14 + bits cfg 1 7 - 1 ∨ bits cfg 48 16 < bits cfg 32 16 ∨
      (badArea ∧ isStaged s k (c + 8) = false))) ∨ (busy ∧ cfg ≠ s.reg k c))) ∨
  (o = c + 8 ∧ ((bit cfg 0 = true ∧ badArea ∧ isStaged s k (c + 8) = true) ∨ (busy ∧ area ≠ s.reg k (c + 8))))

/-- The register at offset o breaks an agreement condition of its block. -/
def Breaks (s : State) (k : Blk) (o : Nat) : Prop :=
  let e := eff s k
  match k.kind with
  | .core =>
    (o = 0x30 ∧ bit (e 0x30) 16 = false ∧ (bits (e 0x30) 0 5 ≠ 0 ∨ bits (e 0x30) 8 4 ≠ 0)) ∨
      (o = 0x38 ∧ (bits (e 0x38) 0 2 = 3 ∨ (bits (e 0x38) 0 2 = 1 ∧ bits (e 0x38) 8 8 = 0)))
  | .rtr =>
    (o = 0x18 ∧ ∃ p d, p < 4 ∧ d < 4 ∧ facesEdge k.unit d = true ∧ bit (e 0x18) (4 * p + d) = false) ∨
      (o = 0x28 ∧ (1300 < bits (e 0x28) 0 11 ∨ bits (e 0x28) 0 11 < bits (e 0x28) 16 11 ∨
        bits (e 0x28) 32 8 < bits (e 0x28) 40 8)) ∨
      (∃ i, i < 16 ∧ o = 0x100 + 8 * i ∧ DetourBreaks k.unit (e 0x18) (e o)) ∨
      (∃ l, l < 192 ∧ o = 0x400 + 8 * l ∧ MapBreaks (fun i => e (0x400 + 8 * i)) l) ∨
      (∃ i, i < 4096 ∧ o = 0x8000 + 8 * i ∧ TreeBreaks k.unit (e 0x18) (e o))
  | .mc => False
  | .lgr =>
    let b := bits (e 0x08) 32 5
    bit (e 0x08) 0 = true ∧
      ((o = 0x08 ∧ (13 < bits (e 0x08) 8 4 ∨ 2 ^ bits (e 0x08) 8 4 ≤ bits (e 0x08) 16 13 ∨ b < 4 ∨ 19 < b ∨
          0x2000_0000 < bits (e 0x08) 40 17 * 4096 + 2 ^ b * 576 + 73728)) ∨
        (o = 0x10 ∧ (bits (e 0x10) 0 23 = 0 ∨ 2 ^ b * 8 + 1024 < bits (e 0x10) 0 23)))
  | .stw => o = 0x10 ∧ bits (e 0x10) 0 8 = 0
  | .img =>
    (o = 0x20 ∧ (bit (s.reg k 0x20) 1 = true ∨ imgState s ∈ [1, 2, 3])) ∨
      (o = 0x40 ∧ isStaged s k 0x20 = true ∧ bit (e 0x20) 0 = true ∧ ∀ i, i < 8 → e (0x40 + 8 * i) = 0)
  | .ctl => o = 0x08 ∧ ∃ i, 16 ≤ i ∧ i < 32 ∧ ¬ (17 ≤ i ∧ i ≤ 26) ∧ bit (e 0x08) i = true
  | .pwr =>
    (o = 0x08 ∧ (bits (e 0x08) 0 8 = 0 ∨ bits (e 0x08) 8 8 = 0 ∨ bits (e 0x08) 16 10 = 0)) ∨
      (o = 0x20 ∧ (bits (e 0x20) 48 10 < 700 ∨ 900 < bits (e 0x20) 48 10 ∨ bit (e 0x20) 10 = false)) ∨
      (o = 0x28 ∧ bits (e 0x28) 16 8 = 0 ∧ bits (e 0x28) 8 4 ≠ 0)
  | .thm =>
    let limit := bits (e 0x08) 0 8
    let siteOff := bits (e 0x08) 16 8
    let warm := bits (e 0x08) 24 8
    o = 0x08 ∧ (limit < 85 ∨ siteOff < limit ∨ 114 < siteOff ∨ bits (e 0x08) 8 4 = 0 ∨
      (warm ≠ 0 ∧ (warm < 30 ∨ 70 < warm)))
  | .pass =>
    (∃ i, i < 4 ∧ o = 0x60 + 8 * i ∧ bit (e o) 32 = true ∧ bits (e o) 16 13 < bits (e o) 0 13) ∨
      (∃ i, i < 8 ∧ o = 0x100 + 8 * i ∧ bit (e o) 58 = true ∧
        (bits (e o) 16 16 < bits (e o) 0 16 ∨ 12287 < bits (e o) 32 14)) ∨
      RingBreaks s k 0x80 o
  | .dom =>
    let role := bits (e 0x08) 14 2
    let own := bit (e 0x08) 13 = true
    let same := bits (e 0x08) 16 13 = bits (e 0x08) 0 13
    (o = 0x08 ∧ (role = 3 ∨ (role = 1 ∧ ¬ (own ∧ same)) ∨ (role = 2 ∧ ¬ (own ∧ ¬ same)))) ∨
      (0x1000 ≤ o ∧ isStaged s k o = true ∧ ∃ j, j < 16 ∧ 9 ≤ bits (e o) (4 * j) 4)
  | .clk =>
    (o = 0 ∧ stepUnderWay s = true) ∨
      ∃ d, d < 3 ∧ o = 0x20 + 8 * d ∧
        let n := bits (e o) 0 7
        let gain := bits (e o) 8 3
        let range := domainRange (domainKind k.unit d)
        if domainKind k.unit d = 0 then n ≠ 0 ∨ gain ≠ 0
        else n < range.1 ∨ range.2 < n ∨ gain = 0 ∨ (n < 56 ∧ 5 < gain)
  | .sitePwr =>
    let w := e 0x08
    let guestMv := bits w 26 10
    o = 0x08 ∧ match siteKind k.unit with
      | .compute => bits w 16 10 < 550 ∨ 950 < bits w 16 10 ∨ bits w 8 8 = 0 ∨
          (bit w 1 = true ∧ bit w 0 = false) ∨ bit w 2 = true ∨ guestMv ≠ 0
      | .guest => bit w 0 = true ∨ bit w 1 = true ∨ (bit w 2 = true ∧ (guestMv < 650 ∨ 1000 < guestMv))
      | _ => (isStaged s k 0x08 = true ∧ (bits w 0 3 ≠ 0 ∨ bits w 8 8 ≠ 0 ∨ bits w 16 10 ≠ 0 ∨ guestMv ≠ 0)) ∨
          bits (e 0x18) 0 16 ≠ 0
  | .siteMisc => False
  | .ford =>
    let kinds := [0x01, 0x02, 0x04, 0x05, 0x06, 0x08, 0x0C, 0x14]
    (o = 0x20 ∧ ∃ i, i < 64 ∧ i ∉ kinds ∧ bit (e 0x20) i = true) ∨
      (o = 0x28 ∧ bits (e 0x28) 0 16 ≠ 0 ∧ bits (e 0x28) 16 16 < 130) ∨
      (∃ i, i < 16 ∧ o = 0x100 + 16 * i ∧ bit (e o) 63 = true ∧
        (bits (e o) 8 7 < bits (e o) 0 7 ∨ bits (e o) 24 7 < bits (e o) 16 7 ∨ 95 < bits (e o) 24 7 ∨
          9 ≤ bits (e o) 32 4)) ∨
      (∃ i, i < 16 ∧ o = 0x108 + 16 * i ∧ bit (e (0x100 + 16 * i)) 63 = true ∧
        2 ^ 32 < bits (e o) 0 32 + bits (e o) 32 21 * 4096) ∨
      RingBreaks s k 0x200 o

/-! ## Fields that follow from other state -/

/-- What CORE_STAT of core n reads (R46 to R50, R58, R61 to R65, R69). A core whose headers are off shows neither
spin field; MATCH_LEVEL is 0 while clearing runs, while the array has not fired since its average was reset, and with
MATCH_WINDOW 0 outside MATCH (assumption 77). -/
structure CoreStatReads (s : State) (n : Nat) (r : Word) : Prop where
  clearing : bit r 0 = (s.core n).clearing
  done : bit r 1 = (s.core n).clearDone
  spinning : bit r 2 = true ↔ headerOn s n = true ∧ ∀ i, i < 4 → (s.ctx n i).state ≠ .ready
  mode : bits r 3 2 = if headerOn s n = false then 0
    else if bit (s.reg (bCore n) 0x30) 16 = false ∨ 1 ≤ bits (s.reg bPwr 0x10) 0 3 then 2
    else bits (s.reg (bCore n) 0x38) 0 2
  cap : bits r 5 4 = if 1 ≤ bits (s.reg bPwr 0x10) 0 3 then min (bits (s.reg (bCore n) 0x40) 0 4) 4
    else bits (s.reg (bCore n) 0x40) 0 4
  faulted : ∀ i, i < 4 → (bit r (9 + i) = true ↔ (s.ctx n i).state = .faulted)
  causes : bits r 13 2 = bits (s.reg (bCore n) 0x20) 13 2
  w1 : bit r 15 = true ↔ 1 ≤ bits (s.reg bPwr 0x10) 0 3
  still : (s.core n).clearing = true ∨
    ((s.core n).fired = false ∧ ¬ (headerOn s n = true ∧ bit (s.reg (bCore n) 0x30) 16 = true ∧
      bits (s.reg (bCore n) 0x38) 0 2 = 0 ∧ bits (s.reg bPwr 0x10) 0 3 = 0)) ∨
    (bits (s.reg (bCore n) 0x38) 8 8 = 0 ∧ bits (s.reg (bCore n) 0x38) 0 2 ≠ 1) → bits r 16 8 = 0
  rest : bits r 24 40 = 0

/-- The rail that SITE_PWR_MEAS shows at site st is off: VDRAM, or VGUEST at a guest site (R375, R377, R388). -/
def AuxOff (s : State) (st : Nat) : Prop :=
  (powerEn s st = false ∨ siteState s st = 4) ∧
    (bit (s.reg (bSp st) 0x08) 2 = false ∨ bit (s.reg (bSp st) 0x10) 15 = true ∨ isBlank s.birth st = true)

/-- What reads of registers give for the fields that follow from other state (R178, R222, R224, R330, R340, R353,
R375, R384, R401, R402, R425). -/
structure ReadsFollow (s : State) : Prop where
  core : ∀ n, CoreStatReads s n (readPlace s (.reg (bCore n) 0x20))
  gate : ∀ n p, p < 4 → bit (readPlace s (.reg (bRtr n) (0x30 + 8 * p))) 0 =
    ((s.plane n p).gate && !siteQuiet s (siteOf n))
  therm : ∀ n, let r := readPlace s (.reg (bMc n) 0x18)
    bits r 0 2 = (s.site (siteOf n)).dramLevel % 4 ∧ bit r 2 = selfRefresh s ∧
      bits r 8 8 = (s.site (siteOf n)).dramTemp.toNat
  passDown : ∀ k, bits (s.reg (bPass k) 0x20) 0 3 ≠ 5 →
    let r := fun off => readPlace s (.reg (bPass k) off)
    r 0x20 = setBits (setBits (s.reg (bPass k) 0x20) 8 6 0) 16 6 0 ∧
      r 0x28 = setBits (s.reg (bPass k) 0x28) 4 4 0 ∧ r 0x30 = 0
  passUp : ∀ k off, bits (s.reg (bPass k) 0x20) 0 3 = 5 → off ∈ [0x20, 0x28, 0x30] →
    readPlace s (.reg (bPass k) off) = s.reg (bPass k) off
  groups : ∀ st, let r := readPlace s (.reg (bSp st) 0x10)
    (∀ g, g < 8 → (bit r (4 + g) = true ↔ banksOn s st g = 4)) ∧ (bit r 3 = true ↔ ∀ g, g < 8 → banksOn s st g = 4) ∧
      bits r 0 3 = bits (s.reg (bSp st) 0x10) 0 3 ∧ bits r 12 52 = bits (s.reg (bSp st) 0x10) 12 52
  meas : ∀ st, let r := readPlace s (.reg (bSp st) 0x20)
    bits r 0 32 = bits (s.reg (bSp st) 0x20) 0 32 ∧ (AuxOff s st → bits r 32 10 = 0 ∧ bits r 48 10 = 0) ∧
    (powerEn s st = true → siteState s st ≠ 4 → (s.site st).railOk = true → 1050 - 2 * bits r 48 10 < 1024 →
      bits r 32 10 = 1050 - 2 * bits r 48 10) ∧
    (powerEn s st = false → ¬ AuxOff s st → (s.site st).guestRail = true →
      bits r 32 10 = (4 * bits (s.reg (bSp st) 0x08) 26 10 - bits r 48 10) / 4)
  heat : ∀ q, let r := readPlace s (.reg (bThm q) 0x10)
    bits r 0 22 = bits (s.reg (bThm q) 0x10) 0 22 ∧ bits r 22 12 = (s.steward q).caps.length % 4096 ∧
      bit r 34 = bit (s.reg bPwr 0x10) 8 ∧
      bits r 40 8 = ((quadrantSites q).filter fun st => bit (s.reg (bSp st) 0x10) 13).length
  firmware : ∀ q, readPlace s (.reg (bStw q) 0x28) =
    if bits (s.reg (bStw 0) 0x20) 0 3 = 3 then quadAt s.lead.fwImage 0x10 else 0
  notices : bits (readPlace s (.reg bCtl 0x18)) 0 11 = (s.lead.egress.filter fun p => pKind p == kNotice).length % 2048
  inputs : let r := readPlace s (.reg bPwr 0x10)
    bit r 6 = s.pins.pwrOk ∧ bit r 7 = s.pins.coolOk
  blank : ∀ g, bit (readPlace s (.reg (bFord g) 0x10)) 3 = isBlank s.birth (guestSite g)

/-! ## Links and crossings (R189, R363 to R366) -/

/-- The lost links of site st return, those to other sites where cross holds, else those within it, but for the crossings
listed in fails: neither of their routers marks them lost any longer (R189). -/
structure LinksReturn (s t : State) (st : Nat) (cross : Bool) (fails : List (Nat × Nat × Port)) : Prop where
  rest : t = { s with regs := t.regs }
  regs : ∀ key, (∀ n, n < 12288 → key ≠ (bRtr n).key 0x20) → Sparse.find key t.regs = Sparse.find key s.regs
  lost : ∀ n pl d, n < 12288 → pl < 4 → d < 4 →
    let back := fun a e => siteOf a = st ∧ bit (s.reg (bRtr a) 0x20) (4 * pl + e) = true ∧
      (∃ m, neighbour a e = some m ∧ (siteOf m ≠ st ↔ cross = true)) ∧ (localOf a, pl, portOfNum e) ∉ fails
    (bit (t.reg (bRtr n) 0x20) (4 * pl + d) = true ↔ bit (s.reg (bRtr n) 0x20) (4 * pl + d) = true ∧
      ¬ back n d ∧ ∀ m, neighbour n d = some m → ¬ back m (opposite d))
  high : ∀ n i, n < 12288 → 16 ≤ i → bit (t.reg (bRtr n) 0x20) i = bit (s.reg (bRtr n) 0x20) i

/-- Every crossing of site st has a latency of 3 to 5, and N_MIN and N_MAX are the least and the greatest of them
(R363, R364, R373). -/
structure LatenciesRead (t : State) (st : Nat) : Prop where
  each : ∀ loc pl port, isXing st loc pl port = true →
    let n := crossingN (t.site st) (xingKey loc pl port)
    3 ≤ n ∧ n ≤ 5 ∧ bits (t.reg (bClk st) 0x50) 0 3 ≤ n ∧ n ≤ bits (t.reg (bClk st) 0x50) 3 3
  least : ∃ loc pl port, isXing st loc pl port = true ∧
    crossingN (t.site st) (xingKey loc pl port) = bits (t.reg (bClk st) 0x50) 0 3
  greatest : ∃ loc pl port, isXing st loc pl port = true ∧
    crossingN (t.site st) (xingKey loc pl port) = bits (t.reg (bClk st) 0x50) 3 3

/-- Site st is calibrated: every latency is measured anew and holds no extra cycle, and CAL_DONE shows it, with CAL_FAIL
where failed holds (R364). -/
structure Calibrated (s t : State) (st : Nat) (failed : Bool) : Prop where
  rest : t = { s with regs := t.regs, sites := t.sites, free := s.free + 1 }
  others : SitesSame s t [st]
  site : t.site st = { s.site st with
    calAt := some s.free, recalAt := [], crossed := true, extra := [], early := [], calBusy := false }
  regs : RegsSame s t [(bClk st).key 0x40, (bClk st).key 0x50]
  stat : t.reg (bClk st) 0x40 = setBits (setBit (setBit (s.reg (bClk st) 0x40) 2 true) 3 failed) 48 2 0
  offset : bits (t.reg (bClk st) 0x50) 8 8 = bits (s.reg (bClk st) 0x50) 8 8
  latencies : LatenciesRead t st

/-! ## Panel images (R263 to R276) -/

/-- The section table of a header holds R263 to R265. -/
structure SectionTable (h : List Byte) : Prop where
  length : imageLength h % 64 = 0 ∧ 25728 ≤ imageLength h ∧ imageLength h ≤ 2 ^ 48 - 64
  count : 1 ≤ sectionCount h ∧ sectionCount h ≤ 256
  zeros : bits (quadAt h 0x28) 9 55 = 0 ∧ quadAt h 0x38 = 0 ∧ (∀ i, i < 56 → h.getD (0x6248 + i) 0 = 0) ∧
    ∀ i, 0x40 + 96 * sectionCount h ≤ i → i < 0x6040 → h.getD i 0 = 0
  entries : ∀ i, i < sectionCount h → let e := sectionAt h i
    bits (quadAt h (0x40 + 96 * i)) 15 49 = 0 ∧ quadAt h (0x58 + 96 * i) = 0 ∧ 1 ≤ e.ty ∧ e.ty ≤ 0x0B ∧ 64 ≤ e.len ∧
      (e.ty < 8 → e.region = 0) ∧ (e.ty ≠ 0x0B → e.plan = 0)
  first : (sectionAt h 0).off = 0x6480
  next : ∀ i, i + 1 < sectionCount h → let e := sectionAt h i
    let f := sectionAt h (i + 1)
    f.off = roundUp (e.off + e.len) 64 ∧ e.ty ≤ f.ty
  last : let e := sectionAt h (sectionCount h - 1)
    roundUp (e.off + e.len) 64 = imageLength h
  needed : ∀ ty, ty = 1 ∨ ty = 2 → ∃ i, i < sectionCount h ∧ (sectionAt h i).ty = ty
  once : ∀ i j, i < j → j < sectionCount h → let e := sectionAt h i
    let f := sectionAt h j
    e.ty = f.ty → e.region = f.region → e.plan = f.plan → e.ty = 9

/-- The 32 region entries hold R269. -/
structure RegionEntries (rgn : List Byte) : Prop where
  some' : ∃ r, r < 32 ∧ bit (rgnQuad rgn r 0) 0 = true
  empty : ∀ r, r < 32 → bit (rgnQuad rgn r 0) 0 = false → ∀ i, i < 64 → rgn.getD (64 * r + i) 0 = 0
  fields : ∀ r, r < 32 → let q := rgnQuad rgn r 0
    bit q 0 = true → bits q 4 2 ≠ 3 ∧ bits q 6 2 ≠ 3 ∧ (bits q 6 2 = 1 → bits q 8 8 ≠ 0) ∧
      bits q 44 20 = 0 ∧ ∀ j, 4 ≤ j → j < 8 → rgnQuad rgn r j = 0
  sites : ∀ r, r < 32 → bit (rgnQuad rgn r 0) 0 = true → (∃ l, l < 192 ∧ rgnHas rgn r l = true) ∧
    ∀ l, l < 192 → rgnHas rgn r l = true → siteKind l = .compute
  apart : ∀ r r' l, r < 32 → r' < 32 → l < 192 → rgnHas rgn r l = true → rgnHas rgn r' l = true → r = r'

/-- A section of a type may write the register at an offset of a kind of block (the table of R266, with the loadable
registers of R329 and R353). -/
def MayWrite (ty : Nat) (k : BlkKind) (off : Nat) : Prop :=
  let within := fun base step count => ∃ i, i < count ∧ off = base + step * i
  match k with
  | .rtr =>
    (ty = 3 ∧ (off ∈ [0, 0x18, 0x28, 0x80] ∨ within 0x100 8 16)) ∨ (ty = 4 ∧ (off = 0 ∨ within 0x8000 8 4096)) ∨
      (ty = 0x0B ∧ (off ∈ [0, 0x18] ∨ within 0x100 8 16 ∨ within 0x400 8 192 ∨ within 0x8000 8 4096))
  | .mc => ty = 5 ∧ off ∈ [0, 0x10]
  | .lgr => ty = 5 ∧ off ∈ [0, 0x08, 0x10, 0x28]
  | .pass => ty = 6 ∧ (off ∈ [0, 0x18, 0x80, 0x88] ∨ within 0x60 8 4 ∨ within 0x100 8 8)
  | .dom => ty = 6 ∧ (off = 0 ∨ within 0x1000 8 512)
  | .ford => ty = 7 ∧ (off ∈ [0, 0x18, 0x20, 0x28, 0x200, 0x208] ∨ within 0x100 8 32)
  | _ => False

/-- A program holds R272. -/
structure ProgramHolds (p : Program) : Prop where
  instrs : 1 ≤ bits p.q0 0 14 ∧ bits p.q0 0 14 ≤ 8192 ∧ bits p.q0 16 13 < bits p.q0 0 14
  count : if bit p.q0 44 = true then 1 ≤ bits p.q1 32 16 ∧ bits p.q1 32 16 ≤ 10240 else bits p.q1 32 16 = 0
  head : bits p.q0 14 2 = 0 ∧ bits p.q0 29 3 = 0 ∧ bits p.q0 45 19 = 0 ∧ bits p.q1 13 19 = 0 ∧ bits p.q1 48 16 = 0 ∧
    ∀ i, i < 48 → p.rest.getD i 0 = 0
  list : ∀ i, 2 * bits p.q1 32 16 ≤ i → i < roundUp (2 * bits p.q1 32 16) 64 → p.rest.getD (48 + i) 0 = 0
  code : ∀ i, 8 * bits p.q0 0 14 ≤ i → i < roundUp (8 * bits p.q0 0 14) 64 →
    p.rest.getD (48 + roundUp (2 * bits p.q1 32 16) 64 + i) 0 = 0

/-- From offset o on, data holds tiles back to back, each good under R102 and R104, and the last ends with the data
(R274). -/
inductive TilesFrom (d : List Byte) : Nat → Prop where
  | last (o : Nat) (t : Tile) (h : t.data = (d.drop (o + 64)).take t.dataLen) (h' : t.hdr = (d.drop o).take 64)
      (ok : t.consistent = true ∧ t.crcOk = true) (fin : o + 64 + t.dataLen = d.length) : TilesFrom d o
  | more (o : Nat) (t : Tile) (h : t.data = (d.drop (o + 64)).take t.dataLen) (h' : t.hdr = (d.drop o).take 64)
      (ok : t.consistent = true ∧ t.crcOk = true) (inside : o + 64 + t.dataLen < d.length)
      (rest : TilesFrom d (roundUp (o + 64 + t.dataLen) 64)) : TilesFrom d o

/-- A tile record of region r holds R273. -/
structure TileRecHolds (t : TileRec) (rgn : List Byte) (r : Nat) : Prop where
  head : bits t.q0 3 5 = 0 ∧ bits t.q0 20 44 = 0 ∧ bits t.q2 32 32 = 0 ∧ ∀ i, i < 40 → t.rest.getD i 0 = 0
  dest : bits t.q0 0 2 ≠ 3 ∧ (bits t.q0 0 2 ≠ 1 → bits t.q0 8 12 = 0)
  addr : aLocal t.addr = true ∧ aSpace t.addr = if bits t.q0 0 2 = 2 then 0 else 1
  bytes : 1 ≤ bits t.q2 0 32 ∧
    if bits t.q0 0 2 = 2 then aOff t.addr + bits t.q2 0 32 ≤ 0x2000_0000 else InMem (aOff t.addr) (bits t.q2 0 32)
  target : if bits t.q0 0 2 = 1 then aNode t.addr = 0
    else isNode (aNode t.addr) = true ∧ rgnHas rgn r (siteOf (aNode t.addr)) = true
  padding : ∀ i, bits t.q2 0 32 ≤ i → i < roundUp (bits t.q2 0 32) 64 → t.rest.getD (40 + i) 0 = 0

/-- A load stops with an error code (R282, R283, R425): the engine is FAILED and empty, the regions being loaded are
CLEARED, and IMG_FAILED (0x0503) goes out. -/
structure LoadFails (s t : State) (code : Nat) : Prop where
  rest : t = { s with regs := t.regs, staged := t.staged, lead := t.lead, routers := t.routers }
  state : bits (t.reg bImg 0x10) 0 3 = 6 ∧ bits (t.reg bImg 0x10) 8 8 = code
  routers : t.routers = (s.offer leadNode (mkNotice s leadNode 0x0503 0 0 0) none).routers
  lead : t.lead = { s.lead with img := t.lead.img }
  empty : t.lead.img.staged = [] ∧ t.lead.img.sent = [] ∧ t.lead.img.waitAdvance = [] ∧ t.lead.img.window = []
  regions : ∀ r, r < 32 → rgnState t r = if rgnState s r = 1 then 5 else rgnState s r

/-! ## Pass ports -/

/-- Pass port k goes to DOWN with a reason (R306, R310). A port that was in another state sends PASS_DOWN
(0x0602) and gives up its queue: each packet of the egress queue is discarded with its credit at the node where
it left the mesh, and what the retry buffer holds is counted in UNCERTAIN. -/
structure GoesDown (s t : State) (k reason : Nat) : Prop where
  rest : t = { s with regs := t.regs, links := t.links, routers := t.routers }
  regs : RegsSame s t [(bPass k).key 0x20, (bPass k).key 0x50]
  stat : t.reg (bPass k) 0x20 = setBits (setBits (s.reg (bPass k) 0x20) 0 3 0) 4 4 reason
  others : LinksSame s t [k]
  already : portState s k = 0 →
    t.link k = s.link k ∧ t.routers = s.routers ∧ t.reg (bPass k) 0x50 = s.reg (bPass k) 0x50
  lost : portState s k ≠ 0 →
    t.reg (bPass k) 0x50 = satAdd (s.reg (bPass k) 0x50) 32 16 (s.link k).uncertain
  link : portState s k ≠ 0 → t.link k = { s.link k with
    egress := [], txWords := [], retry := [], resend := [], rxWords := [], rxFrames := 0, resuming := false, far := []
    txFailing := false }
  sent : portState s k ≠ 0 → ∀ n, t.router n = { s.router n with offers := (s.router n).offers ++
    (if n = linkNode k then [⟨mkNotice s n 0x0602 0 0 0, none⟩] else []) ++
    ((s.link k).egress.filterMap fun o =>
      if exitNode s k o.pkt = n then (creditFor o.pkt).map (fun c => ⟨c, some (o.plane.getD 0)⟩) else none) }

/-- The owner of ring u sends packets in this order, each with whether the die originates it, and nothing changes
beside them but the ring and its six registers (R302, R314, R328, R352). -/
structure RingSends (s t : State) (u : Nat) (ps : List (Packet × Bool)) : Prop where
  rest : t = { s with regs := t.regs, links := t.links, guests := t.guests, routers := t.routers }
  regs : RegsSame s t ((List.range 6).map fun i => (ringBlk u).key (ringOff u + 8 * i))
  links : ∀ j, t.link j = if j = u ∧ u < 8 then { s.link j with
      ring := t.ring u, toInject := (s.link j).toInject ++ ps.map fun p => ⟨p.1, 0, p.2, false⟩ } else s.link j
  guests : ∀ g, t.guest g = if 8 + g = u then { s.guest g with ring := t.ring u } else s.guest g
  offers : ∀ n, t.router n = if n = ringNode u ∧ 8 ≤ u then { s.router n with
      offers := (s.router n).offers ++ ps.map fun p => ⟨p.1, none⟩ } else s.router n

end Sys2Proof.Machine
end

