-- ==== Sys2Proof/Certificates/Slice0/Obligations.lean ====
section
/-! DEFINITION. The statements for the provers. Unless a docstring says otherwise a statement holds in every
state, whether a run reaches it or not. -/

open Sys2Proof Sys2Proof.Machine

/-! ## Core instructions -/

/-- R80, R39, R53, R59, R72, R95: the instructions that write a general register from registers and the
immediate retire at the next word with the result of their table in gD, and change nothing else.
And R80: the instructions that write a predicate register retire at the next word with the result of their
table in pD, and change nothing else. -/
def Obligations.ScalarInstructionsWriteTheirResult : Prop :=
  (∀ s n i w,
  let g := fun r => (s.ctx n i).getG r
  let next := pcOf s n i + 8
  let sx : Word := sext32 (w.truncate 32)
  (Issues s n i w 0x10 → ∃ t, exec (.alu n) s = .next t ∧
    WritesG s t (s.core n) n i next (iD w) (aluFn (iMode w) (g (iA w)) (g (iB w)))) ∧
  (Issues s n i w 0x11 → ∃ t, exec (.alui n) s = .next t ∧
    WritesG s t (s.core n) n i next (iD w) (aluFn (iMode w) (g (iA w)) sx)) ∧
  (Issues s n i w 0x14 → ∃ t, exec (.li n) s = .next t ∧ WritesG s t (s.core n) n i next (iD w) sx) ∧
  (Issues s n i w 0x15 → ∃ t, exec (.lih n) s = .next t ∧
    WritesG s t (s.core n) n i next (iD w) (w.truncate 32 ++ (g (iD w)).truncate 32)) ∧
  (Issues s n i w 0x17 → ∃ t, exec (.sel n) s = .next t ∧
    WritesG s t (s.core n) n i next (iD w)
      (if (s.ctx n i).getP (bits w 32 3) ≠ bit w 35 then g (iA w) else g (iB w))) ∧
  (Issues s n i w 0x93 → ∃ t, exec (.self n) s = .next t ∧
    WritesG s t (s.core n) n i next (iD w) (BitVec.ofNat 64 i))) ∧
  (∀ s n i w,
  let g := fun r => (s.ctx n i).getG r
  let p := fun r => (s.ctx n i).getP r
  let next := pcOf s n i + 8
  let c := fun (a b : Word) =>
    if iMode w = 0 then decide (a = b)
    else if iMode w = 1 then decide (a ≠ b)
    else if iMode w = 2 then decide (a.toInt < b.toInt)
    else if iMode w = 3 then decide (b.toInt ≤ a.toInt)
    else if iMode w = 4 then decide (a.toNat < b.toNat)
    else if iMode w = 5 then decide (b.toNat ≤ a.toNat)
    else if iMode w = 6 then decide (a &&& b ≠ 0)
    else decide (a &&& b = 0)
  let l := fun (a b : Bool) =>
    if iMode w = 0 then a && b
    else if iMode w = 1 then a || b
    else if iMode w = 2 then a != b
    else if iMode w = 3 then a && !b
    else if iMode w = 4 then !a
    else if iMode w = 5 then a
    else decide (iMode w = 6)
  (Issues s n i w 0x12 → ∃ t, exec (.cmp n) s = .next t ∧
    WritesP s t (s.core n) n i next (iD w) (c (g (iA w)) (g (iB w)))) ∧
  (Issues s n i w 0x13 → ∃ t, exec (.cmpi n) s = .next t ∧
    WritesP s t (s.core n) n i next (iD w) (c (g (iA w)) (sext32 (w.truncate 32)))) ∧
  (Issues s n i w 0x16 → ∃ t, exec (.plog n) s = .next t ∧
    WritesP s t (s.core n) n i next (iD w) (l (p (iA w)) (p (iB w)))))

/-- R80, R84: the function table of ALU, and the INT32 and bitwise functions of VOP with ABS and NEG of FP32, each
entry by what its result satisfies. And R84, R132, R133, R134: the FP32 functions of VOP. ADD, SUB, MUL, FMA, SQRT and
CVT give the exact result rounded once to nearest even, or the special result of its rule; MIN and MAX order by
value with −0 below +0. RCP and RSQRT lie within one ulp of the exact result, in the binade of that result, up to 2^−39
of an ulp (assumption 9); of EXP and LOG the special cases are stated and that no other operand gives NaN, not their
bound. -/
def Obligations.AluAndVectorFunctionsGiveTheTableResults : Prop :=
  (∀ a b : Word,
  aluFn 0x00 a b = BitVec.ofNat 64 (a.toNat + b.toNat) ∧
  aluFn 0x01 a b + b = a ∧
  (∀ j, j < 64 →
    (aluFn 0x02 a b).getLsbD j = (a.getLsbD j && b.getLsbD j) ∧
    (aluFn 0x03 a b).getLsbD j = (a.getLsbD j || b.getLsbD j) ∧
    (aluFn 0x04 a b).getLsbD j = (a.getLsbD j != b.getLsbD j) ∧
    (aluFn 0x05 a b).getLsbD j = (decide (b.toNat % 64 ≤ j) && a.getLsbD (j - b.toNat % 64)) ∧
    (aluFn 0x06 a b).getLsbD j = (decide (j + b.toNat % 64 < 64) && a.getLsbD (j + b.toNat % 64)) ∧
    (aluFn 0x07 a b).getLsbD j = a.getLsbD (min 63 (j + b.toNat % 64)) ∧
    (aluFn 0x08 a b).getLsbD j = a.getLsbD ((j + b.toNat % 64) % 64) ∧
    (aluFn 0x13 a b).getLsbD j = a.getLsbD (8 * (7 - j / 8) + j % 8)) ∧
  (aluFn 0x0A a b).toNat * 2 ^ 64 + (aluFn 0x09 a b).toNat = a.toNat * b.toNat ∧
  (aluFn 0x0B a b).toInt * 2 ^ 64 + (aluFn 0x09 a b).toNat = a.toInt * b.toInt ∧
  (aluFn 0x0C a b).toInt = min a.toInt b.toInt ∧
  (aluFn 0x0D a b).toInt = max a.toInt b.toInt ∧
  (aluFn 0x0E a b).toNat = min a.toNat b.toNat ∧
  (aluFn 0x0F a b).toNat = max a.toNat b.toNat ∧
  (aluFn 0x10 a b).toNat = ((List.range 64).filter (fun j => a.getLsbD j)).length ∧
  (a ≠ 0 → 2 ^ (63 - (aluFn 0x11 a b).toNat) ≤ a.toNat ∧ a.toNat < 2 ^ (64 - (aluFn 0x11 a b).toNat) ∧
    (aluFn 0x11 a b).toNat < 64) ∧
  aluFn 0x11 0 b = 64 ∧
  (a ≠ 0 → a.getLsbD (aluFn 0x12 a b).toNat = true ∧
    ∀ j, j < (aluFn 0x12 a b).toNat → a.getLsbD j = false) ∧
  aluFn 0x12 0 b = 64 ∧
  (b ≠ 0 → (aluFn 0x14 a b).toNat * b.toNat + (aluFn 0x15 a b).toNat = a.toNat ∧
    (aluFn 0x15 a b).toNat < b.toNat) ∧
  aluFn 0x14 a 0 = 0xFFFF_FFFF_FFFF_FFFF ∧ aluFn 0x15 a 0 = a) ∧
  (∀ a b d : Lane,
  let f := fun m => vopFn m a b d
  (f 0x20).toNat = (a.toNat + b.toNat) % 2 ^ 32 ∧
  f 0x21 + b = a ∧
  (f 0x22).toNat = a.toNat * b.toNat % 2 ^ 32 ∧
  (f 0x23).toNat = (a.toNat * b.toNat + d.toNat) % 2 ^ 32 ∧
  (f 0x24).toInt = min a.toInt b.toInt ∧ (f 0x25).toInt = max a.toInt b.toInt ∧
  (a ≠ 0x8000_0000 → (f 0x26).toInt = a.toInt.natAbs) ∧ (a = 0x8000_0000 → f 0x26 = a) ∧
  f 0x27 + a = 0 ∧
  (∀ m, m = 0x08 ∨ m = 0x28 → f m = a &&& b) ∧
  (∀ m, m = 0x09 ∨ m = 0x29 → f m = a ||| b) ∧
  (∀ m, m = 0x0A ∨ m = 0x2A → f m = a ^^^ b) ∧
  (∀ j, j < 32 →
    (f 0x2B).getLsbD j = (decide (b.toNat % 32 ≤ j) && a.getLsbD (j - b.toNat % 32)) ∧
    (f 0x2C).getLsbD j = (decide (j + b.toNat % 32 < 32) && a.getLsbD (j + b.toNat % 32)) ∧
    (f 0x2D).getLsbD j = a.getLsbD (min 31 (j + b.toNat % 32)) ∧
    (f 0x06).getLsbD j = (decide (j < 31) && a.getLsbD j) ∧
    (f 0x07).getLsbD j = (a.getLsbD j != decide (j = 31)))) ∧
  (∀ a b d : Lane,
  let f := fun m => vopFn m a b d
  let inf := fun x : Lane => ¬ FpFinite x ∧ ¬ FpNan x
  let neg := fun x : Lane => x.getLsbD 31
  let zero := fun x : Lane => x = 0 ∨ x = 0x8000_0000
  let nan : Lane := 0x7FC0_0000
  let infOf := fun s : Bool => if s then (0xFF80_0000 : Lane) else 0x7F80_0000
  let zeroOf := fun s : Bool => if s then (0x8000_0000 : Lane) else 0
  let signOf := fun (x : Int) (s : Bool) => if x = 0 then s else decide (x < 0)
  let A := fpUnits a
  let B := fpUnits b
  let D := fpUnits d
  let sum := fun (r y : Lane) => -- r is a + y
    (FpNan a ∨ FpNan y ∨ (inf a ∧ inf y ∧ neg a ≠ neg y) → r = nan) ∧
    (inf a → FpFinite y ∨ (inf y ∧ neg a = neg y) → r = a) ∧ (FpFinite a → inf y → r = y) ∧
    (FpFinite a → FpFinite y →
      FpRounds (-149) (A + fpUnits y) (signOf (A + fpUnits y) (neg a && neg y)) r)
  sum (f 0x00) b ∧ sum (f 0x01) (b ^^^ 0x8000_0000) ∧
  (FpNan a ∨ FpNan b ∨ (inf a ∧ zero b) ∨ (zero a ∧ inf b) → f 0x02 = nan ∧ f 0x03 = nan) ∧
  ((inf a ∨ inf b) → ¬ FpNan a → ¬ FpNan b → ¬ zero a → ¬ zero b → f 0x02 = infOf (neg a != neg b) ∧
    (FpFinite d ∨ (inf d ∧ neg d = (neg a != neg b)) → f 0x03 = infOf (neg a != neg b)) ∧
    (FpNan d ∨ (inf d ∧ neg d ≠ (neg a != neg b)) → f 0x03 = nan)) ∧
  (FpFinite a → FpFinite b → FpRounds (-298) (A * B) (neg a != neg b) (f 0x02) ∧
    (FpNan d → f 0x03 = nan) ∧ (inf d → f 0x03 = d) ∧
    (FpFinite d → FpRounds (-298) (A * B + D * 2 ^ 149)
      (signOf (A * B + D * 2 ^ 149) ((neg a != neg b) && neg d)) (f 0x03))) ∧
  (FpNan a → FpNan b → f 0x04 = nan ∧ f 0x05 = nan) ∧
  (FpNan a → ¬ FpNan b → f 0x04 = b ∧ f 0x05 = b) ∧ (¬ FpNan a → FpNan b → f 0x04 = a ∧ f 0x05 = a) ∧
  (¬ FpNan a → ¬ FpNan b →
    (A < B → f 0x04 = a ∧ f 0x05 = b) ∧ (B < A → f 0x04 = b ∧ f 0x05 = a) ∧
    (A = B → f 0x04 = (if neg a then a else b) ∧ f 0x05 = (if neg a then b else a))) ∧
  FpRounds (-149) (a.toInt * 2 ^ 149) (decide (a.toInt < 0)) (f 0x0E) ∧
  (FpNan a → f 0x2E = 0) ∧ (inf a → f 0x2E = if neg a then 0x8000_0000 else 0x7FFF_FFFF) ∧
  (FpFinite a → (f 0x2E).toInt = max (-(2 ^ 31)) (min (2 ^ 31 - 1) (A.tdiv (2 ^ 149)))) ∧
  (FpNan a → ∀ m, 0x0F ≤ m → m ≤ 0x13 → f m = nan) ∧
  (zero a → f 0x0F = infOf (neg a) ∧ f 0x10 = infOf (neg a) ∧ f 0x11 = 0x3F80_0000 ∧ f 0x12 = infOf true ∧
    f 0x13 = a) ∧
  (inf a → f 0x0F = zeroOf (neg a) ∧ f 0x10 = (if neg a then nan else 0) ∧
    f 0x11 = (if neg a then 0 else a) ∧ f 0x12 = (if neg a then nan else a) ∧
    f 0x13 = (if neg a then nan else a)) ∧
  (FpFinite a → A < 0 → f 0x10 = nan ∧ f 0x12 = nan ∧ f 0x13 = nan) ∧
  (a = 0x3F80_0000 → f 0x12 = 0) ∧ (FpFinite a → 0x42B1_7218 ≤ a.toNat → neg a = false → f 0x11 = infOf false) ∧
  (FpFinite a → ¬ FpNan (f 0x11) ∧ (0 < A → ¬ FpNan (f 0x12))) ∧
  (FpFinite a → 0 < A → FpFinite (f 0x13) ∧ neg (f 0x13) = false ∧
    ∀ x, FpFinite x → neg x = false →
      let S := fpUnits (f 0x13)
      (S < fpUnits x → 4 * (A * 2 ^ 149) ≤ (S + fpUnits x) ^ 2) ∧
      (fpUnits x < S → (S + fpUnits x) ^ 2 ≤ 4 * (A * 2 ^ 149))) ∧
  (FpFinite a → A ≠ 0 →
    let q := 2 ^ 149 * 2 ^ 149 / A.natAbs
    let ulp : Nat := if q.log2 < 23 then 2 else 2 ^ (q.log2 - 23)
    neg (f 0x0F) = neg a ∧ ¬ FpNan (f 0x0F) ∧
    (inf (f 0x0F) → (2 ^ 25 - 1) * 2 ^ 252 * A.natAbs ≤ 2 ^ 298) ∧
    (FpFinite (f 0x0F) →
      2 ^ 39 * (fpUnits (f 0x0F) * A - 2 ^ 298).natAbs ≤ (2 ^ 39 + 1) * ulp * A.natAbs)) ∧
  (FpFinite a → 0 < A → ∀ j, 2 ^ (2 * j) * A ≤ 2 ^ 447 → 2 ^ 447 < 2 ^ (2 * j + 2) * A →
    FpFinite (f 0x10) ∧ 23 ≤ j ∧
    let R := fpUnits (f 0x10)
    let u : Int := (2 ^ 39 + 1) * 2 ^ (j - 23)
    u < 2 ^ 39 * R ∧ (2 ^ 39 * R - u) ^ 2 * A ≤ 2 ^ 525 ∧ 2 ^ 525 ≤ (2 ^ 39 * R + u) ^ 2 * A))

/-- R81, R82: each branch retires at the target that the rules give it; CALL also writes the offset of the
next instruction, LOOP the decremented register. JR of a target that is no word's offset faults with
PC_RANGE and reports it. -/
def Obligations.BranchesGoToTheirTarget : Prop := ∀ s n i w,
  let g := fun r => (s.ctx n i).getG r
  let next := pcOf s n i + 8
  let target := bits w 0 13 * 8
  (Issues s n i w 0x20 → ∃ t, exec (.br n) s = .next t ∧ WritesNone s t (s.core n) n i target) ∧
  (Issues s n i w 0x21 → ∃ t, exec (.brp n) s = .next t ∧
    WritesNone s t (s.core n) n i (if (s.ctx n i).getP (bits w 32 3) ≠ bit w 35 then target else next)) ∧
  (Issues s n i w 0x22 → ∃ t, exec (.call n) s = .next t ∧
    WritesG s t (s.core n) n i target (iD w) (BitVec.ofNat 64 next)) ∧
  (Issues s n i w 0x23 → (g (iA w)).toNat < 0x1_0000 → (g (iA w)).toNat % 8 = 0 →
    ∃ t, exec (.jr n) s = .next t ∧ WritesNone s t (s.core n) n i (g (iA w)).toNat) ∧
  (Issues s n i w 0x23 → (0x1_0000 ≤ (g (iA w)).toNat ∨ (g (iA w)).toNat % 8 ≠ 0) →
    ∃ t, exec (.jr n) s = .next t ∧
      FaultsAtIssue s t n i 0x01 0 (if 0x1_0000 ≤ (g (iA w)).toNat then 0x1_0000 else g (iA w))) ∧
  (Issues s n i w 0x24 → ∃ t, exec (.loop n) s = .next t ∧
    WritesG s t (s.core n) n i (if g (iD w) = 1 then next else target) (iD w) (g (iD w) - 1))

/-- R52, R75, R83, R84: a load that meets no fault writes the value of its bytes, lowest address lowest, zero-
or sign-extended (LD), or 64 lanes of four bytes each (VLD), and changes nothing else.

R52, R75, R83, R84: a store that meets no fault writes the low bytes of gB (ST) or the 64 lanes of vB (VST)
at ea and nowhere else; a word that it covers whole loses a parity error, and every other word keeps its own.
No register changes. -/
def Obligations.LoadsAndStoresMoveScratchpadBytes : Prop :=
  (∀ s n i w,
  let ea := ((s.ctx n i).getG (iA w) + sext32 (w.truncate 32)).toNat
  let size := 2 ^ bits w 32 2
  let byte := fun k => (s.core n).spadByte (ea + k)
  let next := pcOf s n i + 8
  (Issues s n i w 0x30 → ea + size ≤ 0x20_0000 → ea % size = 0 → (s.core n).parityOk ea size →
    ∃ t v, exec (.ld n) s = .next t ∧ WritesG s t (s.core n) n i next (iD w) v ∧
      ∀ j, j < 64 → v.getLsbD j =
        if j < 8 * size then (byte (j / 8)).getLsbD (j % 8)
        else bit w 34 && (byte (size - 1)).getLsbD 7) ∧
  (Issues s n i w 0x41 → ea + 256 ≤ 0x20_0000 → ea % 64 = 0 → (s.core n).parityOk ea 256 →
    ∃ t, exec (.vld n) s = .next t ∧ WritesV s t (s.core n) n i next (iD w)
      (fun l => byte (4 * l + 3) ++ byte (4 * l + 2) ++ byte (4 * l + 1) ++ byte (4 * l)))) ∧
  (∀ s n i w,
  let ea := ((s.ctx n i).getG (iA w) + sext32 (w.truncate 32)).toNat
  let next := pcOf s n i + 8
  let stored := fun (t : State) (size : Nat) (byte : Nat → Byte) =>
    WritesNone s t { s.core n with spad := (t.core n).spad, badSpad := (t.core n).badSpad } n i next ∧
    (∀ a, (t.core n).spadByte a =
      if ea ≤ a ∧ a < ea + size then byte (a - ea) else (s.core n).spadByte a) ∧
    ∀ x, x ∈ (t.core n).badSpad ↔
      x ∈ (s.core n).badSpad ∧ ¬ (ea ≤ 8 * x ∧ 8 * x + 8 ≤ ea + size)
  (Issues s n i w 0x31 → ea + 2 ^ bits w 32 2 ≤ 0x20_0000 → ea % 2 ^ bits w 32 2 = 0 →
    ∃ t, exec (.st n) s = .next t ∧
      stored t (2 ^ bits w 32 2) fun k => ((s.ctx n i).getG (iB w)).extractLsb' (8 * k) 8) ∧
  (Issues s n i w 0x42 → ea + 256 ≤ 0x20_0000 → ea % 64 = 0 →
    ∃ t, exec (.vst n) s = .next t ∧
      stored t 256 fun k => ((s.ctx n i).lane (iB w) (k / 4)).extractLsb' (8 * (k % 4)) 8))

/-- R74, R75, R76: where an instruction names scratchpad at an offset that leaves it or is not aligned, it
faults with SPAD_RANGE first and else with SPAD_ALIGN, under the unit number of its class, and reports bits
20 to 0 of the offset; a load that finds a parity error in a word faults with SPAD_PARITY. That TISSUE's number
is 4 is the model's choice (assumption 16). -/
def Obligations.ScratchpadFaultsAtIssueInOrder : Prop := ∀ s n i w,
  let ea : Word := (s.ctx n i).getG (iA w) + sext32 (w.truncate 32)
  let uea : Word := (s.ctx n i).getG (iA w) + BitVec.ofNat 64 (bits w 0 20)
  let faults := fun (c : Instr) (e : Word) (len align unit : Nat) =>
    (0x20_0000 < e.toNat + len → ∃ t, exec c s = .next t ∧
      FaultsAtIssue s t n i 0x06 unit (BitVec.ofNat 64 (e.toNat % 2 ^ 21))) ∧
    (e.toNat + len ≤ 0x20_0000 → e.toNat % align ≠ 0 → ∃ t, exec c s = .next t ∧
      FaultsAtIssue s t n i 0x07 unit (BitVec.ofNat 64 (e.toNat % 2 ^ 21)))
  let parity := fun (c : Instr) (len align unit : Nat) =>
    ea.toNat + len ≤ 0x20_0000 → ea.toNat % align = 0 → ¬ (s.core n).parityOk ea.toNat len →
      ∃ t x, exec c s = .next t ∧ FaultsAtIssue s t n i 0x08 unit (BitVec.ofNat 64 (8 * x)) ∧
        x ∈ (s.core n).badSpad ∧ ea.toNat / 8 ≤ x ∧ 8 * x < ea.toNat + len
  (Issues s n i w 0x30 → faults (.ld n) ea (2 ^ bits w 32 2) (2 ^ bits w 32 2) 2 ∧
    parity (.ld n) (2 ^ bits w 32 2) (2 ^ bits w 32 2) 2) ∧
  (Issues s n i w 0x31 → faults (.st n) ea (2 ^ bits w 32 2) (2 ^ bits w 32 2) 2) ∧
  (Issues s n i w 0x41 → faults (.vld n) ea 256 64 3 ∧ parity (.vld n) 256 64 3) ∧
  (Issues s n i w 0x42 → faults (.vst n) ea 256 64 3) ∧
  (Issues s n i w 0x61 → faults (.inmv n) ea 64 64 5) ∧
  (Issues s n i w 0x49 → faults (.vtld n) uea 64 64 3) ∧
  (Issues s n i w 0x50 → faults (.tissue n) uea 64 64 4) ∧
  (Issues s n i w 0x60 → faults (.msend n) uea 64 64 5) ∧
  (Issues s n i w 0x80 → faults (.lop n) uea 64 64 6)

/-- R84, R85, R135: the vector instructions retire with their lanes or their general register as the tables
say, and change nothing else. VRED combines neighbours level by level; VSORT orders the pairs by key,
descending, equal keys in lane order, keys to vD and partners to vD+1. What VRED combines with is the VOP function of its mode; an INT32 sort key orders as the
signed lane, an FP32 one by value with −0 equal to +0, and NaN after every other, in their order.
Where the rules leave a choice, it is that of assumption 9. -/
def Obligations.VectorInstructionsWriteTheirResult : Prop :=
  (∀ s n i w,
  let x := s.ctx n i
  let c := s.core n
  let next := pcOf s n i + 8
  (Issues s n i w 0x40 → ∃ t, exec (.vop n) s = .next t ∧ WritesV s t c n i next (iD w)
    (fun l => vopFn (iMode w) (x.lane (iA w) l) (x.lane (iB w) l) (x.lane (iD w) l))) ∧
  (Issues s n i w 0x43 → ∃ t, exec (.vbcast n) s = .next t ∧ WritesV s t c n i next (iD w)
    (fun _ => (x.getG (iA w)).truncate 32)) ∧
  (Issues s n i w 0x44 → ∃ t, exec (.vget n) s = .next t ∧ WritesG s t c n i next (iD w)
    ((x.lane (iA w) (bits w 0 6)).zeroExtend 64)) ∧
  (Issues s n i w 0x45 → ∃ t, exec (.vput n) s = .next t ∧ WritesV s t c n i next (iD w)
    (fun l => if l = bits w 0 6 then (x.getG (iA w)).truncate 32 else x.lane (iD w) l)) ∧
  (Issues s n i w 0x46 → ∃ t, exec (.vred n) s = .next t ∧ WritesG s t c n i next (iD w)
    ((reduceTree (vredFn (iMode w)) (x.lane (iA w)) 6 0).zeroExtend 64)) ∧
  (Issues s n i w 0x47 → ∃ t ps, exec (.vsort n) s = .next t ∧ Retired s t c n i next ∧
    GeneralSame s t n i ∧ PredSame s t n i ∧
    SortedFrom (sortKey (bit w 37)) ((List.range 64).map fun l => (x.lane (iA w) l, x.lane (iB w) l)) ps ∧
    ∀ r l, l < 64 → (t.ctx n i).lane r l =
      if r = iD w then (ps.getD l (0, 0)).1
      else if r = iD w + 1 then (ps.getD l (0, 0)).2 else x.lane r l) ∧
  (Issues s n i w 0x48 → ∃ t, exec (.vxadd n) s = .next t ∧ WritesV s t c n i next (iD w)
    (fun l => BitVec.ofNat 32 (
      let k := if bit w 32 then 4 else 2
      let val := fun r => lanesValue (x.lane r) (l / k * k) k
      let a := val (iA w)
      let b := val (iB w)
      ((a / 16 + b / 16) % 2 ^ (32 * k - 4) * 16 + ((a % 8) ||| (b % 8))) / 2 ^ (32 * (l % k)))))) ∧
  (∀ m a b, vredFn m a b =
    vopFn (32 * (m / 32) + (if m % 32 = 0 then 0x00 else if m % 32 = 1 then 0x04 else 0x05)) a b 0) ∧
  ∀ a b : Lane,
    (sortKey true a ≤ sortKey true b ↔ a.toInt ≤ b.toInt) ∧
    (¬ FpNan a → ¬ FpNan b → (sortKey false a ≤ sortKey false b ↔ fpUnits a ≤ fpUnits b)) ∧
    (FpNan a → ¬ FpNan b → sortKey false a < sortKey false b) ∧
    (FpNan a → FpNan b → sortKey false a = sortKey false b)

/-- R56, R87, R90: a unit opcode whose descriptor address is good takes one of its unit's places: the unit's
queue of the core ends with the descriptor, the context has one operation more outstanding and goes on. No
register changes and nothing else of the panel does. -/
def Obligations.UnitOpcodesHandOverTheDescriptor : Prop := ∀ s n i w,
  let uea := ((s.ctx n i).getG (iA w) + BitVec.ofNat 64 (bits w 0 20)).toNat
  let hands := fun (c : Instr) (u : UnitKind) => uea + 64 ≤ 0x20_0000 → uea % 64 = 0 →
    ∃ t, exec c s = .next t ∧
      HandsOver s t n i { unit := u, ctx := i, pc := pcOf s n i, desc := uea, lcount := bit w 40,
                          cc := bits w 20 12, reg := iD w, fn := bits w 36 4 }
  (Issues s n i w 0x49 → hands (.vtld n) .vector) ∧
  (Issues s n i w 0x50 → hands (.tissue n) .tensor) ∧
  (Issues s n i w 0x60 → hands (.msend n) .message) ∧
  (Issues s n i w 0x80 → hands (.lop n) .ledger)

/-- R92, R94, R196, R197, R200, R201, R203: a WAIT that holds at once retires; in the SLOT form it is a
release, which lowers COUNT of a CONSUME_ONE slot by one and then, with LINK_EN, counts on the slot's counter. A
WAIT that does not hold parks its context on the slot and counter, or on the counter and the threshold of
gB. -/
def Obligations.WaitsHoldOrPark : Prop := ∀ s n i w,
  let sl := bits w 0 6
  let c := bits w 6 12
  let sw := (s.core n).slot sl
  let cc := (s.core n).cc c
  let thr := bits ((s.ctx n i).getG (iB w)) 0 32
  let next := pcOf s n i + 8
  (Issues s n i w 0x70 → bit w 33 = false → SlotHolds sw cc → ∃ u,
    exec (.waitSlot n) s = .next (if bit sw 35 then u.addCount n (bits sw 36 12) else u) ∧
    WritesNone s u { s.core n with slots := (u.core n).slots } n i next ∧
    ∀ q, (u.core n).slot q =
      if q = sl ∧ bits sw 32 2 = 0 then setBits sw 0 32 (bits sw 0 32 - 1) else (s.core n).slot q) ∧
  (Issues s n i w 0x70 → bit w 33 = false → ¬ SlotHolds sw cc → ∃ t,
    exec (.waitSlot n) s = .next t ∧ Parks s t n i (.slot sl c) (bit w 32)) ∧
  (Issues s n i w 0x70 → bit w 33 = true → thr ≤ cc.toNat → ∃ t,
    exec (.waitCount n) s = .next t ∧ WritesNone s t (s.core n) n i next) ∧
  (Issues s n i w 0x70 → bit w 33 = true → cc.toNat < thr → ∃ t,
    exec (.waitCount n) s = .next t ∧ Parks s t n i (.count c thr) (bit w 32))

/-- R44, R94, R95, R96, R161: PARK holds at once while a complete packet is in the inbox chain; FENCE and END
hold at once when the context has no outstanding operation, and END frees it; otherwise the context parks.
NOP retires and does nothing.

R43, R46, R93, R95: SIG retires and applies one signal with the expect count of gB to its slot. SPAWN starts
the lowest FREE context with a zeroed bank, its entry and g1, HALTED where its HALT bit is set, and writes
its number; with no FREE context it writes NO_CONTEXT and changes no context. -/
def Obligations.ParkFenceEndSignalAndSpawn : Prop :=
  (∀ s n i w,
  let x := s.ctx n i
  let next := pcOf s n i + 8
  (Issues s n i w 0x92 → (∃ h ∈ (s.core n).inbox, h.last = true) → ∃ t,
    exec (.park n) s = .next t ∧ WritesNone s t (s.core n) n i next) ∧
  (Issues s n i w 0x92 → (∀ h ∈ (s.core n).inbox, h.last = false) → ∃ t,
    exec (.park n) s = .next t ∧ Parks s t n i .inbox (bit w 32)) ∧
  (Issues s n i w 0xA2 → x.outstanding = 0 → ∃ t,
    exec (.fence n) s = .next t ∧ WritesNone s t (s.core n) n i next) ∧
  (Issues s n i w 0xA2 → x.outstanding ≠ 0 → ∃ t,
    exec (.fence n) s = .next t ∧ Parks s t n i .fence false) ∧
  (Issues s n i w 0x91 → x.outstanding = 0 → ∃ t, exec (.endCtx n) s = .next t ∧
    OnlyIssued s t (s.core n) n i ∧ RegsSame s t [(bCore n).key 0x48] ∧
    t.reg (bCore n) 0x48 = wrapInc (s.reg (bCore n) 0x48) 0 32 ∧
    t.ctx n i = { x with state := .free, wait := .nothing, idle := false, held := false,
                         wake := false, clearPending := false, pc := x.pc + 8, cairn := x.cairn + 1 }) ∧
  (Issues s n i w 0x91 → x.outstanding ≠ 0 → ∃ t,
    exec (.endCtx n) s = .next t ∧ Parks s t n i .ending false) ∧
  (Issues s n i w 0xA4 → ∃ t, exec (.nop n) s = .next t ∧ WritesNone s t (s.core n) n i next)) ∧
  (∀ s n i w,
  let g := fun r => (s.ctx n i).getG r
  let next := pcOf s n i + 8
  (Issues s n i w 0x71 → ∃ u, WritesNone s u (s.core n) n i next ∧
    exec (.sig n) s = .next (u.signal n (bits w 0 6) (bits (g (iB w)) 0 32))) ∧
  (∀ j, Issues s n i w 0x90 → j < 4 → (s.ctx n j).state = .free →
    (∀ m, m < j → (s.ctx n m).state ≠ .free) →
    let u := s.setCtx n j { s.ctx n j with
      state := if bit (s.reg (bCore n) 0x18) (4 + j) then .halted else .ready
      wait := .nothing, idle := false, held := false, wake := false, clearPending := false
      pc := bits w 0 13 * 8, gr := if g (iA w) = 0 then [] else [(1, g (iA w))], pr := 0, vr := []
      outstanding := 0 }
    ∃ t, exec (.spawn n) s = .next t ∧ WritesG u t (u.core n) n i next (iD w) (BitVec.ofNat 64 j)) ∧
  (Issues s n i w 0x90 → (∀ m, m < 4 → (s.ctx n m).state ≠ .free) →
    ∃ t, exec (.spawn n) s = .next t ∧ WritesG s t (s.core n) n i next (iD w) 0x100))

/-- R53, R54, R57, R73, R74, R96: what faults at issue whatever its operands. A fetch past instruction memory
faults with PC_RANGE, a word with a parity error with IMEM_PARITY, a reserved opcode with OPCODE_RESERVED, a
reserved mode or field with MODE_RESERVED, a register field out of range with REG_RANGE, and BREAK with BREAK,
all under unit 0 with the instruction's offset as the address. And R71, R72, R80 to R96: which words hold accepted
MODE, IMM and unused fields, and which hold register fields in range. -/
def Obligations.FetchDecodeAndBreakFault : Prop :=
  (∀ s n i,
  isCoreNode n = true →
  let x := s.ctx n i
  let pc := BitVec.ofNat 64 x.pc
  (∀ f, issuing s n = some (i, f) → 0x1_0000 ≤ x.pc → ∃ t,
    exec (.opcodeReserved n) s = .next t ∧ FaultsAtIssue s t n i 0x01 0 pc) ∧
  (∀ f, issuing s n = some (i, f) → x.pc < 0x1_0000 → x.pc / 8 ∈ (s.core n).badImem → ∃ t,
    exec (.opcodeReserved n) s = .next t ∧ FaultsAtIssue s t n i 0x02 0 pc) ∧
  (∀ w, issuing s n = some (i, .word w) → iOp w ∉ opcodes → ∃ t,
    exec (.opcodeReserved n) s = .next t ∧ FaultsAtIssue s t n i 0x03 0 pc) ∧
  (∀ w, issuing s n = some (i, .word w) → iOp w ∈ opcodes → modeOk w = false → ∃ t,
    exec (rowOf n w) s = .next t ∧ FaultsAtIssue s t n i 0x04 0 pc) ∧
  (∀ w, issuing s n = some (i, .word w) → iOp w ∈ opcodes → modeOk w = true → regOk w = false → ∃ t,
    exec (rowOf n w) s = .next t ∧ FaultsAtIssue s t n i 0x05 0 pc) ∧
  (∀ w, Issues s n i w 0xA3 → ∃ t, exec (.breakCtx n) s = .next t ∧ FaultsAtIssue s t n i 0x0D 0 pc)) ∧
  (∀ w, iOp w ∈ opcodes →
  let op := iOp w
  let m := iMode w
  let im := iImm w
  let f := m % 32
  -- the opcodes that use D, A, B and IMM
  let usesD := [0x10, 0x11, 0x12, 0x13, 0x14, 0x15, 0x16, 0x17, 0x22, 0x24, 0x30, 0x40, 0x41, 0x43, 0x44, 0x45, 0x46,
    0x47, 0x48, 0x49, 0x61, 0x90, 0x93, 0xA0]
  let usesA := [0x10, 0x11, 0x12, 0x13, 0x16, 0x17, 0x23, 0x30, 0x31, 0x40, 0x41, 0x42, 0x43, 0x44, 0x45, 0x46, 0x47,
    0x48, 0x49, 0x50, 0x60, 0x61, 0x80, 0x90, 0xA0, 0xA1]
  let usesB := [0x10, 0x12, 0x16, 0x17, 0x31, 0x40, 0x42, 0x47, 0x48, 0x70, 0x71, 0xA1]
  let anyImm := [0x11, 0x13, 0x14, 0x15, 0x30, 0x31, 0x41, 0x42, 0x61, 0xA0, 0xA1, 0xA3, 0xA4]
  (modeOk w = true ↔
    (op ∉ usesD → iD w = 0) ∧
    ((op ∉ usesA ∨ (op = 0x16 ∧ 6 ≤ m)) → iA w = 0) ∧
    ((op ∉ usesB ∨ (op = 0x10 ∧ 0x10 ≤ m ∧ m ≤ 0x13) ∨ (op = 0x16 ∧ 4 ≤ m) ∨
      (op = 0x40 ∧ (f = 0x06 ∨ f = 0x07 ∨ f = 0x0E)) ∨ (op = 0x70 ∧ m < 2)) → iB w = 0) ∧
    (if op ∈ anyImm then True
     else if op = 0x20 ∨ op = 0x21 ∨ op = 0x22 ∨ op = 0x24 ∨ op = 0x90 then im < 2 ^ 13
     else if op = 0x44 ∨ op = 0x45 ∨ op = 0x71 then im < 64
     else if op = 0x70 then im < 2 ^ 18 ∧ (2 ≤ m → im % 64 = 0)
     else if op = 0x49 ∨ op = 0x50 ∨ op = 0x60 ∨ op = 0x80 then bit w 40 = true ∨ im < 2 ^ 20
     else im = 0) ∧
    (if op = 0x10 then m ≤ 0x15
     else if op = 0x11 then m ≤ 0x0F ∨ m = 0x14 ∨ m = 0x15
     else if op = 0x12 ∨ op = 0x13 ∨ op = 0x16 then m < 8
     else if op = 0x17 ∨ op = 0x21 then m < 16
     else if op = 0x30 then m < 7
     else if op = 0x31 ∨ op = 0x70 then m < 4
     else if op = 0x40 then m < 64 ∧ f ≤ 0x13 ∧ (f = 0x0B ∨ f = 0x0C ∨ f = 0x0D → 32 ≤ m) ∧ (0x0F ≤ f → m < 32)
     else if op = 0x46 then m < 64 ∧ f < 3
     else if op = 0x47 then m = 0 ∨ m = 32
     else if op = 0x48 ∨ op = 0x92 then m < 2
     else if op = 0x50 then m % 256 = 0x00 ∨ m % 256 = 0x10 ∨ m % 256 = 0x20
     else if op = 0x49 ∨ op = 0x60 ∨ op = 0x80 then m % 256 = 0
     else m = 0)) ∧
  (regOk w = true ↔
    (op = 0x40 ∨ op = 0x41 ∨ op = 0x43 ∨ op = 0x45 ∨ op = 0x47 ∨ op = 0x48 ∨ op = 0x49 → iD w < 16) ∧
    (op = 0x40 ∨ op = 0x44 ∨ op = 0x46 ∨ op = 0x47 ∨ op = 0x48 → iA w < 16) ∧
    (op = 0x40 ∨ op = 0x42 ∨ op = 0x47 ∨ op = 0x48 → iB w < 16) ∧
    (op = 0x12 ∨ op = 0x13 ∨ op = 0x16 → iD w < 8) ∧ (op = 0x16 → iA w < 8 ∧ iB w < 8) ∧
    (op = 0x47 → iD w % 2 = 0)))

/-- R41, R74: of the rows of core n's instructions the one that the word of the issuing context names acts; in
the model every other row then leaves the panel as it was, and while the core may not issue (headers off, or
clearing: R62, R387) every row does.
Where the rules leave a choice, it is that of assumption 1. -/
def Obligations.OnlyTheRowOfTheWordActs : Prop := ∀ s n, isCoreNode n = true →
  (∀ i w c, issuing s n = some (i, .word w) → iOp w ∈ opcodes → c ∈ .opcodeReserved n :: coreRows n →
    c ≠ rowOf n w →
    exec c s = .next s) ∧
  (∀ c, mayIssue s n = false → c ∈ .opcodeReserved n :: coreRows n → exec c s = .next s) ∧
  (∀ i w op, Issues s n i w op → rowOf n w ∈ coreRows n)

/-- R67, R96, R97, R29, R30: RREG writes to gD what the register of the core's own space 0x2 reads, in
particular a slot or a counter; WREG does to the register what a write does. At an offset that names no
register RREG writes 0, WREG changes nothing, and the notice of the offset is raised: REG_ALIGN (0x0215) where
it is no multiple of 8, else REG_UNMAPPED (0x0216). That an RREG of CORE_CAIRN, of CORE_CTX_CAIRNn or of the PC of its own
CORE_CTX_STATn sees the state before the instruction itself retires is the model's choice (assumption 78). -/
def Obligations.LocalRegisterAccess : Prop := ∀ s n i w,
  let off := ((s.ctx n i).getG (iA w) + sext32 (w.truncate 32)).toNat
  let next := pcOf s n i + 8
  let code := if off % 8 = 0 then 0x0216 else 0x0215
  (∀ p, Issues s n i w 0xA0 → off % 8 = 0 → corePlace s n off = some p → ∃ t,
    exec (.rreg n) s = .next { t with free := s.free + 1 } ∧
    WritesG s t (s.core n) n i next (iD w) (readPlace (beginIssue s n (some i)) p)) ∧
  (∀ sl, Issues s n i w 0xA0 → sl < 64 → off = 0x1000 + 8 * sl → ∃ t,
    exec (.rreg n) s = .next { t with free := s.free + 1 } ∧
    WritesG s t (s.core n) n i next (iD w) ((s.core n).slot sl)) ∧
  (∀ c, Issues s n i w 0xA0 → c < 4096 → off = 0x1_0000 + 8 * c → ∃ t,
    exec (.rreg n) s = .next { t with free := s.free + 1 } ∧
    WritesG s t (s.core n) n i next (iD w) (((s.core n).cc c).zeroExtend 64)) ∧
  (Issues s n i w 0xA0 → (off % 8 ≠ 0 ∨ corePlace s n off = none) → ∃ t,
    exec (.rreg n) s = .next (t.offer n (mkNotice s n code 0 0 0) none) ∧
    WritesG s t (s.core n) n i next (iD w) 0) ∧
  (∀ p, Issues s n i w 0xA1 → off % 8 = 0 → corePlace s n off = some p → ∃ t,
    exec (.wreg n) s = .next (t.writePlace p ((s.ctx n i).getG (iB w))) ∧
    WritesNone s t (s.core n) n i next) ∧
  (Issues s n i w 0xA1 → (off % 8 ≠ 0 ∨ corePlace s n off = none) → ∃ t,
    exec (.wreg n) s = .next (t.offer n (mkNotice s n code 0 0 0) none) ∧
    WritesNone s t (s.core n) n i next)

/-- R59, R91, R161, R162: INMV moves the word at the head of the chain to scratchpad and tells in gD whether it
ended its packet, in which case one Cairn event more is counted; then words of the packet being admitted
enter. On an empty chain it writes again the word read last, sets UNDERRUN and tells of it. -/
def Obligations.InmvMovesTheHeadWord : Prop := ∀ s n i w,
  let ea := ((s.ctx n i).getG (iA w) + sext32 (w.truncate 32)).toNat
  let next := pcOf s n i + 8
  let wrote := fun (u : State) (bs : List Byte) => ∀ a, (u.core n).spadByte a =
    if ea ≤ a ∧ a < ea + bs.length then bs.getD (a - ea) 0 else (s.core n).spadByte a
  (∀ h rest, Issues s n i w 0x61 → ea + 64 ≤ 0x20_0000 → ea % 64 = 0 →
    (s.core n).flushPending = false → (s.core n).inbox = h :: rest → ∃ u,
    exec (.inmv n) s = .next (feed (if h.last then u.cairn n i else u) n) ∧ wrote u h.bytes ∧
    WritesG s u { s.core n with spad := (u.core n).spad, badSpad := (u.core n).badSpad, inbox := rest,
                                lastRead := h.bytes } n i next (iD w) (if h.last then 1 else 0)) ∧
  (Issues s n i w 0x61 → ea + 64 ≤ 0x20_0000 → ea % 64 = 0 →
    ((s.core n).flushPending = true ∨ (s.core n).inbox = []) → ∃ t,
    exec (.inmv n) s = .next t ∧ wrote t (s.core n).lastRead ∧
    WritesG (s.setField (bCore n) 0x50 12 1 1) t
      { s.core n with spad := (t.core n).spad, badSpad := (t.core n).badSpad } n i next (iD w) 2) ∧
  ((s.core n).admitting = none → feed s n = s)

/-! ## Counters, slots and the units of a core -/

/-- R194: what one signal with expect count e does to its slot: COUNT rises by one and saturates; outside MODE 2
the guard and its expect count follow the rule's cases; no other field changes.
And R45, R59, R196, R198, R199: a signal that fills an empty CONSUME_ONE slot releases the lowest-numbered parked
waiter whose guard is met: it is READY with one Cairn event, the slot is empty again, every other context
stays as it was, and nothing else of the panel changes but the slot and CORE_CAIRN. A signal to a slot on
which no context waits changes the slot alone.

R69, R144, R203: a count added to a counter on which no context waits adds one modulo 2^32 to that counter and,
when it wraps, sets CORE_STAT.CC_WRAP; nothing else changes. With one context parked in a COUNT-form wait
whose threshold the count reaches, that context alone is released.

R45, R60, R196 to R201, R203: whatever waits, a signal and a count release these and no others: the contexts are taken
from c0 to c3, and each PARKED or HALTED one whose condition holds when it is reached is READY, or WAKE_PENDING where it
is HALTED, with one Cairn event; a release from a slot in MODE 0 takes one from COUNT, in MODE 1 and 2 none; one from a
slot with LINK_EN adds one to the slot's LINK counter, which is tested in the same way. That a wait ends with its release
is assumption 75, that a test ends before the counts of its releases are added assumption 111. -/
def Obligations.SignalsAndCountsReleaseWaiters : Prop :=
  ((∀ (w : Word) (e : Nat), e < 2 ^ 32 →
  let r := applySignal w e
  bits r 0 32 = min (bits w 0 32 + 1) (2 ^ 32 - 1) ∧
  bits r 32 2 = bits w 32 2 ∧ bits r 35 13 = bits w 35 13 ∧
  (bits w 32 2 = 2 → bits r 48 16 = bits w 48 16 ∧ bit r 34 = bit w 34) ∧
  (bits w 32 2 ≠ 2 → bits w 0 32 = 0 → bit r 34 = decide (e ≠ 0) ∧ bits r 48 16 = e % 2 ^ 16) ∧
  (bits w 32 2 ≠ 2 → bits w 0 32 ≠ 0 → e = 0 → bit r 34 = bit w 34 ∧ bits r 48 16 = bits w 48 16) ∧
  (bits w 32 2 ≠ 2 → bits w 0 32 ≠ 0 → e ≠ 0 → bit w 34 = false →
    bit r 34 = true ∧ bits r 48 16 = e % 2 ^ 16) ∧
  (bits w 32 2 ≠ 2 → bits w 0 32 ≠ 0 → e ≠ 0 → bit w 34 = true →
    bit r 34 = true ∧ bits r 48 16 =
      if 1 ≤ (e + 2 ^ 16 - bits w 48 16) % 2 ^ 16 ∧ (e + 2 ^ 16 - bits w 48 16) % 2 ^ 16 ≤ 32767
      then e % 2 ^ 16 else bits w 48 16)) ∧
  (∀ s n sl e,
  let w := applySignal ((s.core n).slot sl) e
  let t := s.signal n sl e
  let waitsOn := fun j => (s.ctx n j).waits = true ∧ ∃ k, (s.ctx n j).wait = .slot sl k
  (∀ i k, i < 4 → (s.ctx n i).state = .parked → (s.ctx n i).wait = .slot sl k →
    (∀ j, j < i → ¬ waitsOn j) → bits w 32 2 = 0 → bits w 0 32 = 1 → bit w 35 = false →
    SlotHolds w ((s.core n).cc k) →
    t = { s with cores := t.cores, regs := t.regs } ∧ CoresSame s t [n] ∧
    t.core n = { s.core n with ctxs := (t.core n).ctxs, slots := (t.core n).slots } ∧
    (∀ q, (t.core n).slot q = if q = sl then setBits w 0 32 0 else (s.core n).slot q) ∧
    t.ctx n i = { s.ctx n i with state := .ready, wait := .nothing, idle := false,
                                 cairn := (s.ctx n i).cairn + 1 } ∧
    (∀ j, j ≠ i → t.ctx n j = s.ctx n j) ∧
    RegsSame s t [(bCore n).key 0x48] ∧
    t.reg (bCore n) 0x48 = wrapInc (s.reg (bCore n) 0x48) 0 32) ∧
  ((∀ j, j < 4 → ¬ waitsOn j) → t = s.setCore n ((s.core n).setSlot sl w)))) ∧
  (∀ (s : State) n sl e, SlotTested (s.setCore n ((s.core n).setSlot sl (applySignal ((s.core n).slot sl) e)))
    (s.signal n sl e) n sl) ∧
  (∀ (s : State) n k, CountsAdded n s [k] (s.addCount n k)) ∧
  (∀ s n k,
  let v := (s.core n).cc k
  let t := s.addCount n k
  let waitsOn := fun j => (s.ctx n j).waits = true ∧ waitsCounter k (s.ctx n j).wait = true
  let counted := fun (u : State) => u = { s with cores := u.cores, regs := u.regs } ∧ CoresSame s u [n] ∧
    (u.core n) = { s.core n with ctxs := (u.core n).ctxs, ccs := (u.core n).ccs } ∧
    (∀ c, (u.core n).cc c = if c = k then v + 1 else (s.core n).cc c) ∧
    RegsSame s u [(bCore n).key 0x20, (bCore n).key 0x48] ∧
    u.reg (bCore n) 0x20 =
      if v = 0xFFFF_FFFF then setBit (s.reg (bCore n) 0x20) 14 true else s.reg (bCore n) 0x20
  ((∀ j, j < 4 → ¬ waitsOn j) → counted t ∧ (∀ j, t.ctx n j = s.ctx n j) ∧
    t.reg (bCore n) 0x48 = s.reg (bCore n) 0x48) ∧
  (∀ i thr, i < 4 → (s.ctx n i).state = .parked → (s.ctx n i).wait = .count k thr →
    (∀ j, j < 4 → j ≠ i → ¬ waitsOn j) → thr ≤ (v + 1).toNat →
    counted t ∧ (∀ j, j ≠ i → t.ctx n j = s.ctx n j) ∧
    t.ctx n i = { s.ctx n i with state := .ready, wait := .nothing, idle := false,
                                 cairn := (s.ctx n i).cairn + 1 } ∧
    t.reg (bCore n) 0x48 = wrapInc (s.reg (bCore n) 0x48) 0 32))

/-- R42, R44, R45, R56, R58, R90: when an operation of a unit ends, its place is free, its context has one
operation less outstanding, and its local count is added where it asked for one and did not fault; then, where
none is outstanding, a drained FENCE is released, a drained END frees its context, and a pending CLEAR_FAULT
frees a faulted one with its fault records zeroed.
And R56, R57, R76: a fault that a unit finds: the context is FAULTED with ASYNC and the instruction's offset and
CTX_FAULT (0x0101) is raised; where it is FAULTED already only MORE is set. A context that END drains keeps its wait,
so that it is freed once its operations have completed or faulted; its fault is recorded and raised.
HELD_AT_ISSUE stays where the context is still held. Where the rules leave a choice, it is that of assumption 15. -/
def Obligations.UnitOperationsEndOrFault : Prop :=
  (∀ s n,
  (∀ op ok, ∃ u, s.opEnd n op ok = (if ok && op.lcount then u.addCount n op.cc else u).drain n op.ctx ∧
    u = { s with cores := u.cores } ∧ CoresSame s u [n] ∧
    u.core n = { s.core n with ctxs := (u.core n).ctxs, ops := (s.core n).ops.erase op } ∧
    ∀ j, u.ctx n j = { s.ctx n j with
      held := (s.ctx n j).held && heldAt { s.core n with ops := (s.core n).ops.erase op } j
      outstanding := if j = op.ctx then (s.ctx n j).outstanding - 1 else (s.ctx n j).outstanding }) ∧
  ∀ i, let x := s.ctx n i
    let t := s.drain n i
    let cairnOne := fun (y : Ctx) => t.ctx n i = y ∧ (∀ j, j ≠ i → t.ctx n j = s.ctx n j) ∧
      RegsSame s t [(bCore n).key 0x48] ∧ t.reg (bCore n) 0x48 = wrapInc (s.reg (bCore n) 0x48) 0 32
    (x.outstanding ≠ 0 → t = s) ∧
    (x.outstanding = 0 → x.state = .parked → x.wait = .fence →
      cairnOne { x with state := .ready, wait := .nothing, idle := false, cairn := x.cairn + 1 }) ∧
    (x.outstanding = 0 → x.state = .halted → x.wait = .fence →
      cairnOne { x with wait := .nothing, idle := false, wake := true, cairn := x.cairn + 1 }) ∧
    (x.outstanding = 0 → x.state = .parked ∨ x.state = .halted → x.wait = .ending →
      cairnOne { x with state := .free, wait := .nothing, idle := false, held := false, wake := false,
                        clearPending := false, cairn := x.cairn + 1 }) ∧
    (x.outstanding = 0 → x.state = .faulted → x.clearPending = true →
      t.ctx n i = { x with state := .free, wait := .nothing, idle := false, held := false,
                           wake := false, clearPending := false, faultInfo := 0, faultAddr := 0 } ∧
      t.regs = s.regs)) ∧
  (∀ s n i code unit pc addr,
  let x := s.ctx n i
  let t := s.asyncFault n i code unit pc addr
  (∀ j, j ≠ i → t.ctx n j = s.ctx n j) ∧ t.regs = s.regs ∧ CoresSame s t [n] ∧
  t.core n = { s.core n with ctxs := (t.core n).ctxs } ∧
  (x.state = .faulted → t.ctx n i = { x with faultInfo := setBit x.faultInfo 9 true } ∧
    t.routers = s.routers) ∧
  (x.state ≠ .faulted → (t.router n).offers = (s.router n).offers ++ [⟨mkNotice s n 0x0101 0 0 0, none⟩]) ∧
  (x.state = .parked ∨ x.state = .halted → x.wait = .ending →
    t.ctx n i = { x with faultInfo := faultWord code true unit pc, faultAddr := addr }) ∧
  (x.state ≠ .faulted → ¬ ((x.state = .parked ∨ x.state = .halted) ∧ x.wait = .ending) →
    t.ctx n i = { x with state := .faulted, wait := .nothing, idle := false, wake := false, held := false,
                         faultInfo := faultWord code true unit pc, faultAddr := addr }) ∧
  (code < 256 → unit < 8 → pc < 2 ^ 16 →
    bits (faultWord code true unit pc) 0 8 = code ∧ bit (faultWord code true unit pc) 8 = true ∧
    bits (faultWord code true unit pc) 10 3 = unit ∧ bits (faultWord code true unit pc) 16 16 = pc))

/-- R49, R74, R122 to R125, R128, R130, R131: the tensor engine takes the oldest descriptor of its queue where
the effective cap is not 0: a parity error of its words faults it; a result is written, output first and
status word after it, and the operation finishes; a fault of the operation writes nothing.

R112, R114: a finite term's integer is its value over 2^anchor cut toward zero and clamped at L, with LOSS and
SAT as the rule says; and the sum of at most 2^16 terms in EXACT64, or 2^32 in EXACT128, holds the exact sum of
their integers.

R101, R104, R108, R110, R116, R117, R119, R120, R123 to R125, R128, R130, R131: what a tensor operation that does
not fault writes. DOT, FOREST and CONVERT make a whole tile with its header, its checksum and its elements, and the
status word ORs the flags; SEAL makes the checksum that its tile passes with. An element of a floating-point format is
its value rounded once to nearest even, one of an integer format the nearest integer clamped, with the table's codes
for overflow, infinities and NaN; an MX block takes its scale from its largest magnitude; an accumulator is
re-aligned by cutting toward zero and clamping, and one with INVALID becomes 0 (assumption 81).

R100, R102, R106, R121, R123, R129, R130, R131: an operation faults just where one of the checks fails, in their order,
with its code and the address of the first failing tile, the lowest bad word, or the descriptor.
Where the rules leave a choice, it is that of assumptions 11, 17, 79 to 84 and 109. -/
def Obligations.TensorEngineRunsTheOldestDescriptor : Prop :=
  (∀ s n op,
  isCoreNode n = true → (s.core n).clearing = false → headerOn s n = true → effectiveCap s n ≠ 0 →
  (s.core n).oldest .tensor = some op →
  let c := s.core n
  let d := readDesc c op.desc
  let runs := fun (row : Instr) (at_ : Nat) (r : TResult) =>
    (∀ out status, c.parityOk op.desc 64 → r = .ok out status → ∃ u,
      exec row s = .next (u.opEnd n op true) ∧ u = { s with cores := u.cores } ∧ CoresSame s u [n] ∧
      u.core n = { c with spad := (u.core n).spad, badSpad := (u.core n).badSpad, fired := true } ∧
      ∀ a, (u.core n).spadByte a =
        if d.statusEn = true ∧ d.status ≤ a ∧ a < d.status + 8 then (leBytes status 8).getD (a - d.status) 0
        else if at_ ≤ a ∧ a < at_ + out.length then out.getD (a - at_) 0 else c.spadByte a) ∧
    (∀ code addr, c.parityOk op.desc 64 → r = .fault code addr →
      exec row s = .next (s.opFault n op code addr)) ∧
    (¬ c.parityOk op.desc 64 → ∃ x, x ∈ c.badSpad ∧ op.desc / 8 ≤ x ∧ 8 * x < op.desc + 64 ∧
      exec row s = .next (s.opFault n op 0x08 (8 * x)))
  (op.fn = 0 → runs (.dot n) d.out (dotRun c n op.ctx op.desc d)) ∧
  (op.fn = 1 → runs (.forest n) d.out (forestRun c n op.ctx op.desc d)) ∧
  (op.fn = 2 → d.isSeal = false → runs (.convert n) d.out (convertRun c n op.ctx op.desc d)) ∧
  (op.fn = 2 → d.isSeal = true → runs (.sealTile n) (d.in0 + 56) (sealRun c op.desc d))) ∧
  ((∀ (wide neg : Bool) (anchor : Int) (m k : Nat),
    let L := termMax wide
    let up := term wide anchor (.fin neg m (anchor + k))
    let down := term wide anchor (.fin neg m (anchor - k))
    (accN wide up).natAbs = min (m * 2 ^ k) L ∧ up.testBit 0 = false ∧
    up.testBit 1 = decide (L < m * 2 ^ k) ∧
    (accN wide down).natAbs = min (m / 2 ^ k) L ∧ down.testBit 0 = decide (m % 2 ^ k ≠ 0) ∧
    down.testBit 1 = decide (L < m / 2 ^ k) ∧
    (neg = false → 0 ≤ accN wide up ∧ 0 ≤ accN wide down) ∧
    (neg = true → accN wide up ≤ 0 ∧ accN wide down ≤ 0)) ∧
  ∀ (wide : Bool) (anchor : Int) (ts : List Machine.Num), ts.length ≤ (if wide then 2 ^ 32 else 2 ^ 16) →
    accN wide ((ts.map (term wide anchor)).foldl (exactAdd (accBits wide)) 0) =
      (ts.map fun x => accN wide (term wide anchor x)).sum) ∧
  (∀ (c : Core) (n ctx desc : Nat) (d : Desc) (out : List Byte) (status : Nat),
  let anchorOf := fun f => if isExact f = true then bits d.d2 0 16 else 0
  let src := readTile c d.in0
  let acc := readTile c d.accIn
  (dotRun c n ctx desc d = .ok out status →
    let b := readTile c d.in1
    let e := fun i j => dotElem d.wide d.anchor src b (if d.acc then startAcc d.wide (acc.code i j) else 0) i j
    let v := fun i j => convElem d.outFmt (accNum d.wide d.anchor (e i j))
    TileIs out d.outFmt src.rows b.rows d.outSeq n ctx (anchorOf d.outFmt)
      (fun i j => if isExact d.outFmt then e i j else (v i j).code) ∧
    StatusIs status src.rows b.rows
      (fun i j k => if k < 3 then (e i j).testBit k else !isExact d.outFmt && (v i j).status.testBit k)) ∧
  (forestRun c n ctx desc d = .ok out status →
    let e := fun r k => forestElem src (readTile c d.in1) (readTile c d.in2) d.depth (2 ^ d.log2L) d.anchor
      (if d.acc then startAcc false (acc.code r k) else 0) r k
    TileIs out 0x20 src.rows (2 ^ d.log2L) d.outSeq n ctx (anchorOf 0x20) e ∧
    StatusIs status src.rows (2 ^ d.log2L) (fun r k b => decide (b < 3) && (e r k).testBit b)) ∧
  (convertRun c n ctx desc d = .ok out status →
    let f := d.outFmt
    let rows := if d.transpose then src.cols else src.rows
    let cols := if d.transpose then src.rows else src.cols
    let num := fun r k => if d.transpose then srcNum src k r else srcNum src r k
    let a := fun r k => if d.transpose then srcAcc src (f == 0x21) d.anchor k r else srcAcc src (f == 0x21) d.anchor r k
    let st := fun r k => if d.transpose then exactStatus src (f == 0x21) d.anchor k r
      else exactStatus src (f == 0x21) d.anchor r k
    let blk := fun r b => mxBlock f ((List.range 32).map fun q => num r (32 * b + q))
    TileIs out f rows cols d.outSeq n ctx (anchorOf f) (fun r k =>
      if isExact f then a r k else if isMx f then (blk r (k / 32)).2.1.getD (k % 32) 0 else (convElem f (num r k)).code) ∧
    StatusIs status rows cols (fun r k b =>
      if isExact f then (if b < 3 then (a r k).testBit b else (st r k).testBit b)
      else if isMx f then (blk r (k / 32)).2.2.testBit b else (convElem f (num r k)).status.testBit b) ∧
    (isMx f = true → ∀ (c' : Core) o, c'.readSpad o out.length = out → ∀ r k, r < rows → k < cols →
      (readTile c' o).scale r k = (blk r (k / 32)).1)) ∧
  (sealRun c desc d = .ok out status → status = 0 ∧ out.length = 4 ∧ src.consistent = true ∧
    ({ src with hdr := patch src.hdr 56 out } : Tile).crcOk = true)) ∧
  (∀ wide a, startAcc wide a % 16 = a % 8 ∧ startAcc wide a / 16 = a / 16 % 2 ^ accBits wide) ∧
  -- when an operation faults, and with which code and address
  (∀ (c : Core) (n ctx desc : Nat) (d : Desc) code addr,
  let in0 := bits d.d0 0 21
  let in1 := bits d.d0 32 21
  let in2 := bits d.d1 0 21
  let out := bits d.d1 32 21
  let f := bits d.d2 16 8
  let acc := bit d.d2 24 = true
  let wide := bit d.d2 25 = true
  let depth := bits d.d2 56 4
  let lw := 2 ^ bits d.d2 60 2
  let x := readTile c in0
  let y := readTile c in1
  let z := readTile c in2
  let turned := bit d.d2 27 = true
  let rows := if turned then x.cols else x.rows
  let cols := if turned then x.rows else x.cols
  let accs := if acc then [bits d.d3 32 21] else []
  let accBad := fun f rows cols =>
    acc ∧ AccWrong (readTile c (bits d.d3 32 21)) f rows cols (intOf 16 (bits d.d2 0 16))
  let places := fun (tiles : List Nat) (len : Nat) => tiles.map (fun o => (o, tileLen (readTile c o), 64)) ++
    [(out, len, 64)] ++ (if bit d.d2 26 then [(bits d.d2 32 21, 8, 8)] else [])
  let only0 := in1 ≠ 0 ∨ in2 ≠ 0 ∨ acc ∨ wide ∨ bits d.d2 56 6 ≠ 0
  (dotRun c n ctx desc d = .fault code addr ↔
    UseFails c desc (places ([in0, in1] ++ accs) (resultLen f x.rows y.rows)) ([in0, in1] ++ accs)
      (DescWrong d ∨ in2 ≠ 0 ∨ bits d.d2 27 2 ≠ 0 ∨ bits d.d2 56 6 ≠ 0 ∨
        (∃ t ∈ [x, y], t.fmt ∉ [0x02, 0x03, 0x04, 0x05, 0x06, 0x07, 0x10, 0x11, 0x12, 0x13, 0x14, 0x15]) ∨
        x.cols ≠ y.cols ∨ f ∉ [0x01, 0x02, 0x03, 0x04, 0x05, 0x06, 0x09, 0x20, 0x21] ∨ (f = 0x20 ∧ wide) ∨
        (f = 0x21 ∧ ¬ wide) ∨ 8192 < outBytes f x.rows y.rows ∨
        accBad (if wide then 0x21 else 0x20) x.rows y.rows) true code addr) ∧
  (forestRun c n ctx desc d = .fault code addr ↔
    UseFails c desc (places ([in0, in1, in2] ++ accs) (resultLen 0x20 x.rows lw)) ([in0, in1, in2] ++ accs)
      (DescWrong d ∨ f ≠ 0x20 ∨ wide ∨ bits d.d2 27 2 ≠ 0 ∨ depth = 0 ∨ 12 < depth ∨
        x.fmt ∉ [0x01, 0x02, 0x08] ∨ y.fmt ≠ 0x3F ∨ z.fmt ∉ [0x01, 0x02, 0x09, 0x08, 0x06] ∨
        x.cols = 0 ∨ 256 < x.cols ∨ y.cols ≠ 8 * depth ∨ y.rows ≠ z.rows ∨ z.cols ≠ 2 ^ depth * lw ∨
        8192 < 8 * x.rows * lw ∨ accBad 0x20 x.rows lw ∨
        ∃ t l, t < y.rows ∧ l < depth ∧ let e := quadAt y.data (t * y.stride + 8 * l)
          x.cols ≤ bits e 0 8 ∨ bits e 8 24 ≠ 0 ∨ (x.fmt ≠ 0x01 ∧ bits e 48 16 ≠ 0)) true code addr) ∧
  (convertRun c n ctx desc d = .fault code addr ↔
    UseFails c desc (places [in0] (resultLen f rows cols)) [in0]
      (DescWrong d ∨ only0 ∨ (f ∉ [0x20, 0x21] ∧ bits d.d2 0 16 ≠ 0) ∨
        (∃ g ∈ [x.fmt, f], ¬ ((1 ≤ g ∧ g ≤ 9) ∨ (0x10 ≤ g ∧ g ≤ 0x15) ∨ g = 0x20 ∨ g = 0x21)) ∨
        8192 < outBytes f rows cols ∨ (0x10 ≤ f ∧ f ≤ 0x15 ∧ cols % 32 ≠ 0)) true code addr) ∧
  (sealRun c desc d = .fault code addr ↔
    UseFails c desc (places [in0] 64) [in0]
      (DescWrong d ∨ only0 ∨ bits d.d2 0 16 ≠ 0 ∨ f ≠ 0 ∨ out ≠ in0) false code addr)) ∧
  (∀ c o i, i < 8 → let d := readDesc c o
    [d.d0, d.d1, d.d2, d.d3, d.d4, d.d5, d.d6, d.d7].getD i 0 = quadAt (c.readSpad o 64) (8 * i)) ∧
  (∀ t, t.consistent = true ↔ ∃ b, fmtBits t.fmt = some b ∧ HeaderConsistent t b) ∧
  (∀ f b, fmtBits f = some b ↔ (f, b) ∈ [(0x01, 32), (0x02, 16), (0x03, 16), (0x04, 8), (0x05, 8), (0x06, 8), (0x07, 4),
    (0x08, 16), (0x09, 32), (0x10, 8), (0x11, 8), (0x12, 6), (0x13, 6), (0x14, 4), (0x15, 8), (0x20, 64), (0x21, 128),
    (0x3F, 8)]) ∧
  (∀ f rows cols, outBytes f rows cols = rows * ((cols * (fmtBits f).getD 0 + 7) / 8 +
    if 0x10 ≤ f ∧ f ≤ 0x15 then cols / 32 else 0)) ∧
  -- the codes of the floating-point element formats: exponent and mantissa bits, bias
  (∀ f g, floatFmt f = some g →
    (f, g.ebits, g.mbits, g.bias) ∈ [(0x01, 8, 23, 127), (0x02, 5, 10, 15), (0x03, 8, 7, 127), (0x04, 4, 3, 7),
      (0x05, 5, 2, 15), (0x10, 4, 3, 7), (0x11, 5, 2, 15), (0x12, 3, 2, 3), (0x13, 2, 3, 1), (0x14, 2, 1, 1)] ∧
    ∀ c, c < 2 ^ (g.width + 1) →
      let s := c.testBit g.width
      let e := c / 2 ^ g.mbits % 2 ^ g.ebits
      let m := c % 2 ^ g.mbits
      let ieee := f = 0x01 ∨ f = 0x02 ∨ f = 0x03 ∨ f = 0x05 ∨ f = 0x11
      let e4m3 := f = 0x04 ∨ f = 0x10
      if ieee ∧ e = 2 ^ g.ebits - 1 then g.decode c = (if m = 0 then .inf s else .nan)
      else if e4m3 ∧ e = 15 ∧ m = 7 then g.decode c = .nan
      else (g.decode c).mag ≠ none ∧ (g.decode c).times g.least =
        (if s then -1 else 1) * (if e = 0 then m else (m + 2 ^ g.mbits) * 2 ^ (e - 1) : Nat)) ∧
  -- conversion to an element that is neither EXACT nor MX
  (∀ f g cap nanCode, floatFmt f = some g →
    (f, cap, nanCode) ∈ [(0x01, 0x7F80_0000, 0x7FC0_0000), (0x02, 0x7C00, 0x7E00), (0x03, 0x7F80, 0x7FC0),
      (0x04, 0x7E, 0x7F), (0x05, 0x7C, 0x7E)] →
    (let r := convElem f .nan
     r.code = nanCode ∧ r.nan = true ∧ r.ovf = false ∧ r.inexact = false) ∧
    (∀ s, let r := convElem f (.inf s)
      r.code = (if s then 2 ^ g.width else 0) + cap ∧ r.nan = false ∧ r.ovf = decide (f = 0x04) ∧ r.inexact = false) ∧
    ∀ s m e, let r := convElem f (.fin s m e)
      let lo := min e g.least
      let x := (Machine.Num.fin s m e).times lo
      g.RoundsTo cap lo x s r.code ∧ r.nan = false ∧ (r.ovf = true ↔ g.Over lo x) ∧
      (r.inexact = true ↔ (g.decode r.code).times lo ≠ x)) ∧
  (∀ f w, (f, w) ∈ [(0x06, 8), (0x07, 4), (0x08, 16), (0x09, 32)] →
    let hi : Int := 2 ^ (w - 1) - 1
    let lowest : Int := -(2 ^ (w - 1))
    (let r := convElem f .nan
     r.code = 0 ∧ r.nan = true ∧ r.ovf = false ∧ r.inexact = false) ∧
    (∀ s, let r := convElem f (.inf s)
      intOf w r.code = (if s then lowest else hi) ∧ r.nan = false ∧ r.ovf = true ∧ r.inexact = false) ∧
    ∀ s m e, let r := convElem f (.fin s m e)
      let lo := min e 0
      let x := (Machine.Num.fin s m e).times lo
      ∃ v, NearestInt lo x v ∧ r.code < 2 ^ w ∧ intOf w r.code = max lowest (min hi v) ∧ r.nan = false ∧
        (r.ovf = true ↔ hi < v ∨ v < lowest) ∧ (r.inexact = true ↔ intOf w r.code * 2 ^ (-lo).toNat ≠ x)) ∧
  -- a block of 32 elements of an MX result
  (∀ f emax (l : List Machine.Num), l.length = 32 →
    (f, emax) ∈ [(0x10, (8 : Int)), (0x11, 15), (0x12, 4), (0x13, 2), (0x14, 2), (0x15, 0)] →
    let r := mxBlock f l
    ((∃ x ∈ l, x.mag = none) → r = (0xFF, List.replicate 32 0, 32)) ∧
    ((∀ x ∈ l, ∃ s e, x = .fin s 0 e) → r = (0x7F, List.replicate 32 0, 0)) ∧
    ∀ k : Int, (∀ x ∈ l, ∃ s m e, x = .fin s m e ∧ (m = 0 ∨ (m.log2 : Int) + e ≤ k)) →
      (∃ x ∈ l, ∃ s m e, x = .fin s m e ∧ m ≠ 0 ∧ (m.log2 : Int) + e = k) →
      let X := max (-127) (min 127 (k - emax))
      (r.1 : Int) = X + 127 ∧ r.2.1.length = 32 ∧
      ∀ q s m e, l[q]? = some (.fin s m e) →
        let c := r.2.1.getD q 0
        (∀ g, floatFmt f = some g →
          let lo := min (e - X) g.least
          g.RoundsTo g.maxFinite lo ((Machine.Num.fin s m (e - X)).times lo) s c) ∧
        (f = 0x15 →
          let lo := min (e - X + 6) 0
          ∃ v, NearestInt lo ((Machine.Num.fin s m (e - X + 6)).times lo) v ∧ c < 256 ∧
            intOf 8 c = max (-128) (min 127 v))) ∧
  -- re-alignment of an accumulator
  (∀ wi wo (ai ao : Int) a,
    let v := accN wi a
    let cut := if ao ≤ ai then v * 2 ^ (ai - ao).toNat else v.tdiv (2 ^ (ao - ai).toNat)
    let r := realign wi wo ai ao a
    let top : Int := 2 ^ (accBits wo - 1)
    (a.testBit 2 = true → accN wo r = 0 ∧ r % 16 = a % 8) ∧
    (a.testBit 2 = false → accN wo r = max (-top) (min (top - 1) cut) ∧
      (r.testBit 0 = true ↔ a.testBit 0 = true ∨ (ai < ao ∧ cut * 2 ^ (ao - ai).toNat ≠ v)) ∧
      (r.testBit 1 = true ↔ a.testBit 1 = true ∨ cut < -top ∨ top ≤ cut) ∧ r.testBit 2 = false ∧
      r.testBit 3 = false)) ∧
  -- OUT_OVF, OUT_INEXACT and OUT_NAN of an element that becomes an accumulator
  (∀ (t : Tile) (wide : Bool) (ao : Int) r k,
    let st := exactStatus t wide ao r k
    let top : Int := 2 ^ (accBits wide - 1)
    (isExact t.fmt = true →
      let a := t.code r k
      let v := accN (t.fmt == 0x21) a
      let cut := if ao ≤ t.anchor then v * 2 ^ (t.anchor - ao).toNat else v.tdiv (2 ^ (ao - t.anchor).toNat)
      let out := cut < -top ∨ top ≤ cut
      (st.testBit 3 = true ↔ a.testBit 2 = false ∧ out) ∧
      (st.testBit 4 = true ↔ a.testBit 1 = false ∧ a.testBit 2 = false ∧
        (out ∨ (t.anchor < ao ∧ cut * 2 ^ (ao - t.anchor).toNat ≠ v))) ∧
      st.testBit 5 = a.testBit 2 ∧ st < 64) ∧
    (isExact t.fmt = false → (t.value r k = .nan → st = 32) ∧ (∀ s, t.value r k = .inf s → st = 0) ∧
      ∀ s m e, t.value r k = .fin s m e →
        let q : Int := if ao ≤ e then m * 2 ^ (e - ao).toNat else m / 2 ^ (ao - e).toNat
        (st.testBit 3 = true ↔ if s then top < q else top ≤ q) ∧
        (st.testBit 4 = true ↔ termMax wide < q ∨ (e < ao ∧ q * 2 ^ (ao - e).toNat ≠ m)) ∧ st.testBit 5 = false) ∧
    st % 8 = 0)

/-- R113: two accumulators are added as their N fields modulo 2^60 or 2^124 and their flags by OR; a term is added as the
accumulator that holds it alone; so a set of terms gives the same bits whatever the order and the grouping. It is this
addition that the tensor engine makes (DOT and FOREST), that VXADD makes, and that router combining and
reduce-into-memory make, whose sum of two data areas is one function. -/
def Obligations.ExactSumsDoNotDependOnOrder : Prop :=
  let bitsOf := fun wide : Bool => if wide = true then 124 else 60
  let sum := fun (wide : Bool) (l : List Nat) (start : Nat) => l.foldl (exactAdd (bitsOf wide)) start
  (∀ wide a b, let c := exactAdd (bitsOf wide) a b
    c / 16 = (a / 16 + b / 16) % 2 ^ bitsOf wide ∧
    ∀ i, i < 4 → (c.testBit i = true ↔ i < 3 ∧ (a.testBit i = true ∨ b.testBit i = true))) ∧
  (∀ wide anchor x, exactAdd (bitsOf wide) 0 (term wide anchor x) = term wide anchor x) ∧
  (∀ wide start (l l' : List Nat), l.Perm l' → sum wide l start = sum wide l' start) ∧
  (∀ wide (l l' : List Nat), sum wide (l ++ l') 0 = exactAdd (bitsOf wide) (sum wide l 0) (sum wide l' 0)) ∧
  (∀ wide anchor (a b : Tile) start i j, dotElem wide anchor a b start i j =
    sum wide ((List.range a.cols).map fun k => term wide anchor ((a.value i k).mul (b.value j k))) start) ∧
  (∀ (ft sp lf : Tile) depth lw anchor start r k, forestElem ft sp lf depth lw anchor start r k =
    sum false ((List.range sp.rows).map fun t =>
      term false anchor (lf.value t (leafIndex ft sp depth r t * lw + k))) start) ∧
  (∀ (wide : Bool) (a b : List Lane) i, let k := if wide = true then 4 else 2
    i < 64 / k → lanesNat (vxaddFn wide a b) (k * i) k =
      exactAdd (bitsOf wide) (lanesNat a (k * i) k) (lanesNat b (k * i) k)) ∧
  (∀ (wide : Bool) (a b : List Byte) i, let z := if wide = true then 16 else 8
    let at_ := fun l : List Byte => leNat ((l.drop (z * i)).take z)
    i < a.length / z → at_ (redSum wide.toNat a b).1 = exactAdd (bitsOf wide) (at_ a) (at_ b))

/-- R88, R90, R106, R136: the vector unit ends its oldest VTLD. Where no check fails, register vD + i takes at lane l
the four data bytes of the tile from START + 256 i + 4 l on, bytes past DATA_LEN as zero, for COUNT registers, or for
COUNT = 0 as many as hold the data from START on; the operation finishes and its context changes in nothing else. A bad
word of the descriptor faults with SPAD_PARITY. Else SPAD_RANGE, SPAD_ALIGN, SPAD_PARITY, DESC_BAD, TILE_FORMAT and
TILE_CHECK are given in the order of the checks; DESC_BAD for a bit that no field names, a START that is no multiple of
256 or lies above DATA_LEN, a COUNT above 16, and a load past v15. A fault writes no register. -/
def Obligations.VtldLoadsConsecutiveRegisters : Prop := ∀ s n op,
  isCoreNode n = true → (s.core n).clearing = false → headerOn s n = true →
  (s.core n).oldest .vector = some op →
  let c := s.core n
  let q := fun i => quadAt (c.readSpad op.desc 64) (8 * i)
  let off := bits (q 0) 0 21
  let t := readTile c off
  let start := bits (q 0) 32 14
  let count := bits (q 0) 48 5
  let regs := if count = 0 then (t.dataLen - start + 255) / 256 else count
  let fails := UseFails c op.desc [(off, tileLen t, 64)] [off]
    ((∃ i, i < 64 ∧ bit (q 0) i = true ∧ ¬ (i ≤ 20 ∨ (32 ≤ i ∧ i ≤ 45) ∨ (48 ≤ i ∧ i ≤ 52))) ∨
      (∃ i, 1 ≤ i ∧ i < 8 ∧ q i ≠ 0) ∨ start % 256 ≠ 0 ∨ t.dataLen < start ∨ 16 < count ∨ 16 < op.reg + regs) true
  (c.parityOk op.desc 64 → (∀ code addr, ¬ fails code addr) → t.data.length = t.dataLen ∧ ∃ u,
    exec (.vtldDone n) s = .next (u.opEnd n op true) ∧ u = { s with cores := u.cores } ∧
    CoresSame s u [n] ∧ u.core n = { c with ctxs := (u.core n).ctxs } ∧
    (∀ j, j ≠ op.ctx → u.ctx n j = s.ctx n j) ∧
    u.ctx n op.ctx = { s.ctx n op.ctx with vr := (u.ctx n op.ctx).vr } ∧
    ∀ v l, l < 64 → (u.ctx n op.ctx).lane v l =
      if op.reg ≤ v ∧ v < op.reg + regs then
        let byte := fun k => t.data.getD (start + 256 * (v - op.reg) + 4 * l + k) 0
        byte 3 ++ byte 2 ++ byte 1 ++ byte 0
      else (s.ctx n op.ctx).lane v l) ∧
  (∀ code addr, c.parityOk op.desc 64 → fails code addr →
    exec (.vtldDone n) s = .next (s.opFault n op code addr)) ∧
  (¬ c.parityOk op.desc 64 → ∃ x, x ∈ c.badSpad ∧ op.desc / 8 ≤ x ∧ 8 * x < op.desc + 64 ∧
    exec (.vtldDone n) s = .next (s.opFault n op 0x08 (8 * x)))

/-- R74, R151, R155, R156: the message engine takes its oldest descriptor when every packet of the one before has
been injected. A parity error of its words faults it. Otherwise its packets wait at the core for their plane and
the descriptor is the current one; where a fault ends it, the packets built before the fault are sent first and the
operation faults when the last of them has been injected, or at once where there is none.

R74, R106, R153, R155: a range past scratchpad is SPAD_RANGE, whatever the descriptor says; then the conditions of
R155 are DESC_BAD and, where none of them holds, a PKT_SIZE above 8,256 is MSG_LEN, before any packet is sent. Of a tile
they follow its alignment and its parity. Which descriptors hold one of those conditions is said field by field.

R142, R153, R154, R155: what packets a good message descriptor makes. WRITE, READ, MSG and MCAST_WRITE cut
LEN bytes into packets of PKT_SIZE; CELL into packets of 32 bytes; SIGNAL, RED and the tile operations make
one. Packet i has sequence SEQ + i; all but MSG and CELL have an offset of its own at the destination.
Where the rules leave a choice, it is that of assumptions 7, 38. -/
def Obligations.MessageEngineSendsWhatTheDescriptorSays : Prop :=
  (∀ s n op,
  isCoreNode n = true → (s.core n).clearing = false → headerOn s n = true →
  (s.core n).oldest .message = some op → (s.core n).msgCur = none → (s.core n).msgOut = [] →
  let c := s.core n
  let d := readMDesc c op.desc
  let plane := if bits d.m0 8 3 < 4 then some (bits d.m0 8 3) else none
  let rows : List Instr := [.msendWrite n, .msendTile n, .msendRead n, .msendMsg n, .msendSignal n,
    .msendMcastWrite n, .msendMcastTile n, .msendCell n, .msendRed n]
  let sends := fun (u : State) (ps : List Packet) (fault : Option (Nat × Nat)) =>
    u = { s with cores := u.cores } ∧ CoresSame s u [n] ∧
      u.core n = { c with msgOut := ps.map fun p => ⟨p, plane⟩, msgCur := some op, msgFault := fault }
  ∀ k row, rows[k]? = some row → (bits d.m0 0 4 = k ∨ 9 ≤ bits d.m0 0 4) →
    (∀ ps fault, c.parityOk op.desc 64 → msgRun c op.desc (coreGen s n) op.ctx d = (ps, fault) →
      (fault = none ∨ ps ≠ []) → ∃ t, exec row s = .next t ∧ sends t ps fault) ∧
    (∀ code addr, c.parityOk op.desc 64 →
      msgRun c op.desc (coreGen s n) op.ctx d = ([], some (code, addr)) →
      exec row s = .next (s.opFault n op code addr)) ∧
    (¬ c.parityOk op.desc 64 → ∃ x, x ∈ c.badSpad ∧ op.desc / 8 ≤ x ∧ 8 * x < op.desc + 64 ∧
      exec row s = .next (s.opFault n op 0x08 (8 * x)))) ∧
  (∀ c desc gen ctx (d : MDesc),
  let r := msgRun c desc gen ctx d
  let head := fun (p : Packet) (i : Nat) =>
    pLevel p = 1 ∧ pClass p = d.cls ∧ pGen p = gen % 16 ∧ pAge p = 0 ∧ pSrcCtx p = ctx % 4 ∧
    pSeq p = (d.seq + i) % 2 ^ 32 ∧ pStream p = d.stream ∧ pGroup p = d.group ∧ pRetCc p = d.retCc
  let ownOffset := fun (p : Packet) (i : Nat) =>
    aOff p.h1 = aOff d.m1 + i * d.size ∧ bits p.h1 32 32 = bits d.m1 32 32
  let payload := fun (p : Packet) (a len : Nat) =>
    pLen p = len ∧ p.data.length = len ∧ ∀ k, k < len → p.data.getD k 0 = c.spadByte (a + k)
  d.local_ + d.len ≤ 0x20_0000 → d.size ≤ 8256 →
  (d.ok 0 = true → (d.op = 0 ∨ d.op = 2 ∨ d.op = 3 ∨ d.op = 5) →
    (d.op ≠ 2 → c.parityOk d.local_ d.len) → r.2 = none ∧ r.1.length = max 1 (ceilDiv d.len d.size) ∧
    ∀ i p, r.1[i]? = some p → head p i ∧ pCid p = d.destCc ∧
      pKind p = (if d.op = 0 then 0x01 else if d.op = 2 then 0x02 else if d.op = 3 then 0x04 else 0x06) ∧
      (d.op = 3 → p.h1 = d.m1) ∧ (d.op ≠ 3 → ownOffset p i) ∧
      (d.op = 2 → p.data = [] ∧ pLen p = min d.size (d.len - i * d.size) ∧ pMc p = d.respMc ∧
        pLand p = (d.local_ + i * d.size) / 64) ∧
      (d.op ≠ 2 → pAckReq p = d.ack ∧
        payload p (d.local_ + i * d.size) (min d.size (d.len - i * d.size)))) ∧
  (d.ok 0 = true → d.op = 7 → c.parityOk d.local_ d.len → r.2 = none ∧ r.1.length = d.len / 32 ∧
    ∀ i p, r.1[i]? = some p → head p i ∧ pKind p = 0x14 ∧ pCid p = d.destCc ∧ p.h1 = d.m1 ∧
      payload p (d.local_ + 32 * i) 32) ∧
  (d.ok 0 = true → d.op = 4 → ∃ p, r = ([p], none) ∧ head p 0 ∧ pKind p = 0x05 ∧ ownOffset p 0 ∧
    pLen p = 8 ∧ leNat p.data = d.expect) ∧
  (d.ok 0 = true → d.op = 8 → c.parityOk d.local_ d.len → ∃ p, r = ([p], none) ∧ head p 0 ∧
    pKind p = 0x08 ∧ pCid p = 0 ∧ ownOffset p 0 ∧ payload p d.local_ d.len) ∧
  (let t := readTile c d.local_
   (d.op = 1 ∨ d.op = 6) → d.ok (64 + t.checkLen) = true → d.local_ % 64 = 0 →
    d.local_ + 64 + t.checkLen ≤ 0x20_0000 → c.parityOk d.local_ (64 + t.checkLen) →
    t.consistent = true → t.crcOk = true → ∃ p, r = ([p], none) ∧ head p 0 ∧ pCid p = d.destCc ∧
      pKind p = (if d.op = 1 then 0x01 else 0x06) ∧ ownOffset p 0 ∧ payload p d.local_ (64 + t.dataLen))) ∧
  (∀ s n pl op q f, (s.core n).msgOut = [q] → (s.core n).msgCur = some op → (s.core n).msgFault = f →
    ∃ u, u = { s with cores := u.cores } ∧ CoresSame s u [n] ∧
      u.core n = { s.core n with msgOut := [], msgCur := none, msgFault := none, usedPlane := pl } ∧
      s.msgInjected n pl = match f with
        | some a => u.opFault n op a.1 a.2
        | none => u.opFinish n op) ∧
  (∀ c desc gen ctx (d : MDesc),
  let r := msgRun c desc gen ctx d
  let t := readTile c d.local_
  (0x20_0000 < d.local_ + d.len → r = ([], some (0x06, d.local_))) ∧
  (d.local_ + d.len ≤ 0x20_0000 → d.op ≠ 1 → d.op ≠ 6 →
    (d.ok 0 = false → r = ([], some (0x09, desc))) ∧
    (d.ok 0 = true → 8256 < d.size → r = ([], some (0x0A, desc)))) ∧
  (d.local_ + d.len ≤ 0x20_0000 → (d.op = 1 ∨ d.op = 6) →
    (0x20_0000 < d.local_ + 64 + t.checkLen → r = ([], some (0x06, d.local_))) ∧
    (d.local_ + 64 + t.checkLen ≤ 0x20_0000 → d.local_ % 64 ≠ 0 → r = ([], some (0x07, d.local_))) ∧
    (d.local_ + 64 + t.checkLen ≤ 0x20_0000 → d.local_ % 64 = 0 → c.parityOk d.local_ (64 + t.checkLen) →
      (d.ok (64 + t.checkLen) = false → r = ([], some (0x09, desc))) ∧
      (d.ok (64 + t.checkLen) = true → t.consistent = false → r = ([], some (0x0B, d.local_))) ∧
      (d.ok (64 + t.checkLen) = true → t.consistent = true → t.crcOk = false → r = ([], some (0x0C, d.local_)))))) ∧
  (∀ (d : MDesc) tileLen,
  let cuts := d.op = 0 ∨ d.op = 2 ∨ d.op = 3 ∨ d.op = 5
  let packets := max 1 (ceilDiv d.len d.size)
  let most := if d.op = 1 ∨ d.op = 6 then tileLen else if cuts then min d.size d.len
    else if d.op = 7 then 32 else if d.op = 4 then 8 else d.len
  (d.ok tileLen = true ↔
    d.op ≤ 8 ∧ bits d.m0 8 3 ≤ 4 ∧
    -- the fields of R153, and the bits without a name
    (d.op ≠ 2 ∧ d.op ≠ 5 ∧ d.op ≠ 6 ∧ d.op ≠ 8 → d.group = 0) ∧ (d.op ≠ 4 → d.expect = 0) ∧
    (d.op ≠ 2 → d.respMc = false) ∧ (d.op ≠ 0 ∧ d.op ≠ 1 → d.ack = false) ∧
    (d.op = 1 ∨ d.op = 4 ∨ d.op = 6 → d.len = 0 ∧ d.size = 0) ∧ (d.op = 4 → d.local_ = 0) ∧ (d.op = 8 → d.size = 0) ∧
    ((d.op = 2 ∧ d.respMc = false) ∨ d.op = 4 ∨ d.op = 8 → d.destCc = 0) ∧
    bit d.m0 7 = false ∧ bits d.m0 11 5 = 0 ∧ bits d.m2 21 11 = 0 ∧ bits d.m2 53 11 = 0 ∧ bits d.m3 14 2 = 0 ∧
    bits d.m3 28 4 = 0 ∧ bits d.m3 44 4 = 0 ∧ bits d.m4 32 32 = 0 ∧ (∀ q ∈ d.rest, q = 0) ∧
    -- the bullets of R155
    (cuts → 0 < d.len → d.size ≠ 0) ∧
    (d.cls = 1 → most ≤ 256 ∧ d.op < 5) ∧
    (d.op = 7 → d.len ≠ 0 ∧ d.len % 32 = 0 ∧ d.size = 32) ∧
    (d.op = 8 → d.len ≠ 0 ∧ d.len ≤ 8256 ∧ d.group ≤ 16383) ∧
    (d.op = 2 → d.local_ % 64 = 0 ∧ (1 < packets → d.size % 64 = 0) ∧ (d.respMc = true → d.group ≤ 4095)) ∧
    (d.op = 5 ∨ d.op = 6 → aLocal d.m1 = true ∧ aSpace d.m1 ≤ 1 ∧ d.group ≤ 4095) ∧
    (d.op = 3 ∨ d.op = 7 → aSpace d.m1 = 1) ∧ (d.op = 4 → aSpace d.m1 = 2) ∧ aOff d.m1 + d.len ≤ 2 ^ 32))

/-- R74, R230: the ledger port builds one LEDGER_OP from the oldest descriptor that has none: its 96 bytes of
request, its destination, its counter, its landing place, and a sequence number that no request outstanding
has. The packet waits at the core, the request is outstanding, and nothing else changes.
Where the rules leave a choice, it is that of assumptions 7, 38. -/
def Obligations.LedgerPortBuildsOneRequest : Prop := ∀ s n op,
  isCoreNode n = true → (s.core n).clearing = false → headerOn s n = true →
  (s.core n).nextLop = some op → (s.core n).lopWait.length ≤ 7 →
  let c := s.core n
  let q := fun k => quadAt (c.readSpad op.desc 24) (8 * k)
  let req := bits (q 0) 0 21
  let land := bits (q 0) 32 21
  (∀ code addr, c.parityOk op.desc 64 → lopFault c req land = some (code, addr) →
    exec (.ledgerPortRequest n) s = .next (s.opFault n op code addr)) ∧
  (¬ c.parityOk op.desc 64 → ∃ x, x ∈ c.badSpad ∧
    exec (.ledgerPortRequest n) s = .next (s.opFault n op 0x08 (8 * x))) ∧
  (c.parityOk op.desc 64 → lopFault c req land = none → ∃ t p w,
    exec (.ledgerPortRequest n) s = .next t ∧ t = { s with cores := t.cores } ∧ CoresSame s t [n] ∧
    t.core n = { c with
      lopOut := c.lopOut ++ [⟨p, if bits (q 0) 56 3 < 4 then some (bits (q 0) 56 3) else none⟩],
      lopWait := c.lopWait ++ [w], lopSeq := (pSeq p + 1) % 2 ^ 32 } ∧
    pKind p = 0x0C ∧ pLen p = 96 ∧ pGen p = coreGen s n % 16 ∧ p.h1 = q 1 ∧ pStream p = 0xFFFF ∧
    pSrcCtx p = op.ctx % 4 ∧ pRetCc p = bits (q 2) 0 12 ∧ pLand p = land / 64 ∧
    p.data.length = 96 ∧ (∀ k, k < 96 → p.data.getD k 0 = c.spadByte (req + k)) ∧
    w.op = op ∧ w.seq = pSeq p ∧ w.land = land ∧ ∀ v ∈ c.lopWait, v.seq ≠ w.seq)

/-! ## The mesh -/

/-- R138, R141, R157, R178, R212, R447: an injection. While the gate of the plane is closed, its input has no room, or
words of the packet before or a replay are still to come, nothing happens. A packet from the die above enters as it is
offered (assumption 2); one that waits at the router, at a slice, at the ledger port or at the message engine leaves the
place where it waits, and with the last packet of a message descriptor its operation finishes or takes the fault found
behind that packet; the planes of the two ports of a core take turns together (assumption 38). The ACK of a WRITE frees
its place. At a site that is no compute site, what is offered without a plane enters in the order in which it was
offered (assumption 93).

R138, R165, R168, R175, R355, R363: the packet's header enters with its first word, which the vertical port numbers and
keeps as any sender does; the other words follow it. From the core they pass no crossing. -/
def Obligations.InjectionTakesThePacketFromItsPlace : Prop :=
  (∀ s n pl p,
  isNode n = true → pl < 4 →
  let c := s.core n
  let r := s.plane n pl
  let rows := exec (.injection n pl p) s
  let open_ := gateOpen s n pl = true ∧ r.hasRoom .v = true ∧ Sparse.find 5 r.transit = none ∧ (r.endOf 5).again = [] ∧
    (r.endOf 4).wire = [] ∧ (r.endOf 4).awaiting = none
  let notMsg := ∀ o ∈ c.msgOut.head?, o.pkt ≠ p
  let notLop := ∀ o ∈ c.lopOut, o.pkt ≠ p
  let notSlice := ∀ o ∈ (s.slice n).outs, o.pkt ≠ p
  let here := fun plane start => plane = some pl ∨ plane = none ∧ openPlane s n start = some pl
  let die := decide (siteKind (siteOf n) ≠ .compute)
  (¬ open_ → rows = .next s) ∧
  (open_ → notMsg → notLop → notSlice → (∀ o ∈ (s.router n).offers, o.pkt ≠ p) →
    rows = .next (if siteKind (siteOf n) = .guest then s else s.injectFrom n pl p die false)) ∧
  (∀ rest plane, open_ → notMsg → notLop → notSlice → (s.router n).offers = ⟨p, plane⟩ :: rest → here plane 0 →
    let u := s.setRouter n { s.router n with offers := rest }
    rows = .next ((if n = leadNode then u.bridgeInjected p else u).injectFrom n pl p die false)) ∧
  (∀ q rest, open_ → isComputeSite (siteOf n) = false → notMsg → notLop → notSlice →
    (s.router n).offers = ⟨q, none⟩ :: rest → q ≠ p → (∃ o ∈ rest, o.pkt = p) →
    (∀ o ∈ rest, o.pkt = p → o.plane = none) → rows = .next s) ∧
  (∀ rest plane, open_ → notMsg → notLop → (s.slice n).respOut = ⟨p, plane⟩ :: rest → here plane 0 →
    rows = .next ((s.setSlice n { s.slice n with respOut := rest }).injectFrom n pl p true false)) ∧
  (∀ rest plane, open_ → notMsg → notLop → (∀ o ∈ (s.slice n).respOut, o.pkt ≠ p) →
    (s.slice n).ackOut = ⟨p, plane⟩ :: rest → here plane 0 → ∃ q,
    rows = .next ((s.setSlice n { s.slice n with ackOut := rest, queue := q }).injectFrom n pl p true false) ∧
    let due := fun x : Req => x.acked = false ∧ ackFor x.pkt = some p ∧ plane = some x.plane
    let waiting := ((s.slice n).queue.filter fun x => decide (due x)).length
    (waiting ≤ rest.count ⟨p, plane⟩ → q = (s.slice n).queue) ∧
    (rest.count ⟨p, plane⟩ < waiting → ∃ a x b, (s.slice n).queue = a ++ x :: b ∧ (∀ y ∈ a, ¬ due y) ∧ due x ∧
      q = a ++ { x with acked := true } :: b)) ∧
  (∀ rest plane, open_ → notMsg → notLop → (∀ o ∈ (s.slice n).respOut ++ (s.slice n).ackOut, o.pkt ≠ p) →
    (s.slice n).regOut = ⟨p, plane⟩ :: rest → here plane 0 →
    rows = .next ((s.setSlice n { s.slice n with regOut := rest }).injectFrom n pl p true false)) ∧
  (∀ rest plane, open_ → notMsg → c.lopOut = ⟨p, plane⟩ :: rest → here plane (c.usedPlane + 1) →
    rows = .next ((s.setCore n { c with lopOut := rest, usedPlane := pl }).injectFrom n pl p false false)) ∧
  (∀ rest plane, open_ → c.msgOut = ⟨p, plane⟩ :: rest → here plane (c.usedPlane + 1) →
    rows = .next ((s.msgInjected n pl).injectFrom n pl p false false) ∧
    (rest ≠ [] → s.msgInjected n pl = s.setCore n { c with msgOut := rest, usedPlane := pl }))) ∧
  ∀ (s : State) n pl p cross keep, ∃ u,
    s.injectFrom n pl p cross keep = (s.setPlane n pl u).inject n pl .v p keep ∧
    let r := s.plane n pl
    let ws := slotsOf p cross
    u = { r with transit := u.transit, ends := u.ends } ∧
    (∀ d, Sparse.find d u.transit =
      if d = 5 ∧ 1 < ws.length then some ⟨p, ws.drop 1, .x, 0⟩ else Sparse.find d r.transit) ∧
    (∀ d, u.endOf d = if d = 5 then (r.endOf 5).send (ws.take 1) else r.endOf d)

/-- R26, R138, R141, R177, R181, R290: what the injecting router does with a packet. One of a level the site does not
take is discarded with notice PKT_LEVEL (0x0501) and nothing else; one that fails a header check is
counted and noticed without a credit; one whose address names no space or node is counted, credited and
noticed; a good packet that is no tree packet waits at the input with the source fields that the router
writes, and has its other words still to come, where the plane does not combine; a tree packet enters only at the root of its tree, else, or where its group
names no tree entry, it is discarded with MCAST_NOT_ROOT (0x0203) and no credit. A notice that the Plain raised enters without a level check.
And R139, R140, R141: the header checks in their order, each with its notice: kind, class, length, group,
multicast to another panel.
Where the rules leave a choice, it is that of assumptions 37, 39. -/
def Obligations.InjectingRouterChecksAndFillsTheHeader : Prop :=
  (∀ s n pl pt p,
  let r := s.plane n pl
  let q := fillSource s n p
  let more := if pt = .v then linkSlots q - 1 else 0
  let levelOk := pLevel p ≠ 0 ∧ pLevel p ≤ siteLevel s (siteOf n)
  (¬ levelOk → s.inject n pl pt p false = s.noticePlain n 0x0501 (some p)) ∧
  (∀ c, levelOk → headerCheck p = some c →
    s.inject n pl pt p false = (s.countField (bRtr n) (0x50 + 8 * pl) 16 16).noticePlain n c (some p)) ∧
  (levelOk → headerCheck p = none → 9 ≤ aSpace p.h1 →
    s.inject n pl pt p false = s.routerDrop n pl pt q true (some 0x0210)) ∧
  (levelOk → headerCheck p = none → aSpace p.h1 < 9 → 12288 ≤ aNode p.h1 →
    s.inject n pl pt p false = s.routerDrop n pl pt q true (some 0x0211)) ∧
  (levelOk → headerCheck p = none → aSpace p.h1 < 9 → aNode p.h1 < 12288 → isTree p = false →
    bit (s.reg (bRtr n) 0x80) pl = false →
    s.inject n pl pt p false =
      s.setPlane n pl { r with inputs := r.inputs ++ [⟨q, pt, 0, false, none, decide (pt = .v), more⟩] }) ∧
  (levelOk → headerCheck p = none → aSpace p.h1 < 9 → aNode p.h1 < 12288 → isTree p = true →
    let e := if pGroup p < 4096 then s.reg (bRtr n) (0x8000 + 8 * pGroup p) else 0
    let drop := fun credit code => s.routerDrop n pl pt q credit (some code)
    s.inject n pl pt p false =
      if (s.router n).badTree.contains (pGroup p) then drop true 0x0202
      else if bit e 0 = true ∧ bits e 1 3 = 4 then
        s.setPlane n pl { r with inputs := r.inputs ++ [⟨q, pt, 0, false, none, decide (pt = .v), more⟩] }
      else drop false 0x0203) ∧
  ((s.router n).plain = [p] → pl = n % 4 → headerCheck p = none → aSpace p.h1 < 9 → aNode p.h1 < 12288 →
    isTree p = false → bit (s.reg (bRtr n) 0x80) pl = false →
    s.enterPlain n pl = (s.setRouter n { s.router n with plain := [] }).setPlane n pl { r with
      inputs := r.inputs ++ [⟨q, .x, 0, false, none, false, 0⟩] }) ∧
  (q.h0 = p.h0 ∧ q.h1 = p.h1 ∧ q.h3 = p.h3 ∧ q.data = p.data ∧ pSrcLocal q = true ∧ pSrcPanel q = 0 ∧
    pSrcNode q = logicalNode s n % 2 ^ 14 ∧ bits q.h2 0 32 = bits p.h2 0 32 ∧ bits q.h2 60 4 = bits p.h2 60 4)) ∧
  (∀ p,
  let k := pKind p
  let kindOk := k ∈ [0x01, 0x02, 0x03, 0x04, 0x05, 0x06, 0x07, 0x08, 0x09, 0x0C, 0x0D, 0x10, 0x11, 0x14, 0x18]
  let classOk := if k ∈ [0x06, 0x08, 0x0C, 0x0D, 0x14] then pClass p = 0
    else if k ∈ [0x07, 0x09, 0x10, 0x11, 0x18] then pClass p = 1 else pClass p ≤ 1
  let lenOk := pLen p ≤ 8256 ∧ (pClass p = 1 → pLen p ≤ 256) ∧ (k = 0x05 → pLen p = 8) ∧
    (k = 0x14 → pLen p = 32) ∧ (k = 0x07 ∨ k = 0x18 → pLen p = 0)
  let mc := k = 0x06 ∨ k = 0x02 ∧ bit p.h2 17 = true
  let groupOk := (mc → pGroup p ≤ 4095) ∧ (k = 0x08 ∨ k = 0x09 → pGroup p ≤ 16383)
  (¬ kindOk → headerCheck p = some 0x0220) ∧
  (kindOk → ¬ classOk → headerCheck p = some 0x0221) ∧
  (kindOk → classOk → ¬ lenOk → headerCheck p = some 0x0222) ∧
  (kindOk → classOk → lenOk → ¬ groupOk → headerCheck p = some 0x0223) ∧
  (kindOk → classOk → lenOk → groupOk → mc → aLocal p.h1 = false → headerCheck p = some 0x0224) ∧
  (kindOk → classOk → lenOk → groupOk → (¬ mc ∨ aLocal p.h1 = true) → headerCheck p = none))

/-- R145, R177, R339, R447: a router that discards a packet counts it in RTR_ERRp.DISCARDS, puts the credit of a
kind that has one in the packet's place, and queues the notice unless eight wait or the packet is itself a
NOTICE. The credit goes to the counter that the packet's return tag names, at its source.
Where the rules leave a choice, it is that of assumption 37. -/
def Obligations.RouterDiscardsCountCreditAndNotice : Prop := ∀ s n pl pt p code,
  isNode n = true → pl < 4 →
  let t := s.routerDrop n pl pt p true (some code)
  let r := s.plane n pl
  let err := (bRtr n).key (0x50 + 8 * pl)
  t = { s with routers := t.routers, regs := t.regs } ∧ RoutersSame s t [n] ∧ RegsSame s t [err] ∧
  t.reg (bRtr n) (0x50 + 8 * pl) = satInc (s.reg (bRtr n) (0x50 + 8 * pl)) 16 16 ∧
  (∀ q, q ≠ pl → t.plane n q = s.plane n q) ∧
  (pKind p ∉ [0x01, 0x02, 0x04, 0x05, 0x06, 0x14, 0x08, 0x0C] → creditFor p = none ∧ t.plane n pl = r) ∧
  (pKind p ∈ [0x01, 0x02, 0x04, 0x05, 0x06, 0x14, 0x08, 0x0C] → ∃ c, creditFor p = some c ∧
    pKind c = 0x18 ∧ pClass c = 1 ∧ pLen c = 0 ∧ pCid c = pRetCc p ∧ pDkind c = pKind p ∧ c.h3 = p.h3 ∧
    pGen c = pGen p ∧ aSpace c.h1 = 1 ∧ aNode c.h1 = pSrcNode p ∧ aOff c.h1 = 0 ∧ c.data = [] ∧
    aLocal c.h1 = pSrcLocal p ∧ aPanel c.h1 = pSrcPanel p ∧
    t.plane n pl = { r with inputs := r.inputs ++ [⟨fillSource s n c, pt, 0, false, none, false, 0⟩] }) ∧
  (t.router n).plain = (if pKind p = 0x11 ∨ 8 ≤ (s.router n).plain.length then (s.router n).plain
    else (s.router n).plain ++ [mkNotice s n code p.h0 p.h1 p.h3])

/-- R164, R165, R168, R169, R178, R256, R363, R370: one router cycle of a plane. The gate closes when a criterion in use
passes its high mark and opens when every criterion in use is below its low mark; every waiting header has waited one
cycle more, and a held packet's window runs down by one. Then every port, the die's side of the vertical port with them,
receives: every entry on its way is one cycle nearer, and the oldest is read when its cycles are over, unless a replay is
awaited. Then every output sends: two word slots, as far as its input has received them, or one where a NAK is due,
which goes first; slots to be sent again come first; each slot is numbered, stays among the last 16 of the retry buffer,
and is on its way for one cycle or a crossing's latency. An output sends nothing across a clock boundary in a quiet
period, nor while its crossing holds eight entries, its far input no room, a NAK for the twelfth slot before is due, or
the inbox chain has its packet to accept. A plane whose router does not run does nothing.
Where the rules leave a choice, it is that of assumptions 3 and 87. -/
def Obligations.RouterCycleEvaluatesTheGate : Prop :=
  (∀ s n pl, isNode n = true → pl < 4 →
  let r := s.plane n pl
  let thr := s.reg (bRtr n) 0x28
  let occHi := bits thr 0 11
  let occLo := bits thr 16 11
  let deflHi := bits thr 32 8
  let deflLo := bits thr 40 8
  let window := bits thr 48 8
  let occ := min 1300 (r.inputWords .n + r.inputWords .e + r.inputWords .s + r.inputWords .w + r.inputWords .v)
  let defl := min 255 (r.defls.take (64 * window)).sum
  (routerLive s n = false → exec (.injectionGateEval n pl) s = .next s) ∧
  (routerLive s n = true → ∃ x,
    exec (.injectionGateEval n pl) s = .next
      ([0, 1, 2, 3, 4, 5].foldl (State.drainPort n pl)
        ([0, 1, 2, 3, 4, 5].foldl (State.receive n pl) (s.setPlane n pl x))) ∧
    x = { r with gate := x.gate, defls := 0 :: r.defls.take 16319, half := []
                 inputs := r.inputs.map fun h => { h with waited := h.waited + 1 }
                 held := r.held.map fun h => { h with left := h.left - 1 } } ∧
    (x.gate = true ↔ if r.gate = true then ¬ (occHi ≠ 0 ∧ occHi < occ) ∧ ¬ (window ≠ 0 ∧ deflHi < defl)
      else (occHi = 0 ∨ occ < occLo) ∧ (window = 0 ∨ defl < deflLo)))) ∧
  -- what a port receives
  (∀ (s : State) n pl e,
  let r := s.plane n pl
  let x := r.endOf e
  (x.wire = [] → s.receive n pl e = s) ∧
  (∀ i rest, x.wire = i :: rest →
    let nearer := rest.map fun j : InFlight => { j with left := j.left - 1 }
    let u := fun w => s.modEnd n pl e fun x => { x with wire := w }
    (2 ≤ i.left → State.receive n pl s e = u ({ i with left := i.left - 1 } :: nearer)) ∧
    (i.left ≤ 1 → x.awaiting ≠ none ∨ 5 ≤ e → State.receive n pl s e = u nearer) ∧
    (i.left ≤ 1 → x.awaiting = none → e < 5 →
      State.receive n pl s e = i.words.foldl (State.takeWord n pl e) (u nearer)))) ∧
  -- what an output sends
  (∀ (s : State) n pl d, isNode n = true → d < 6 → (d < 4 → ∃ m, neighbour n d = some m) →
  let r := s.plane n pl
  let e := r.endOf d
  let f := farEnd n d
  let x := (s.plane f.1 pl).endOf f.2
  let unsent := (Sparse.find d r.transit).elim [] Transit.words
  let ws := e.again ++ unsent
  let due := e.nak ≠ none ∧ e.nakSent = false ∧ ¬ (siteQuiet s (siteOf n) = true ∧ crosses n d = true)
  let still := (siteQuiet s (siteOf n) = true ∧ ∃ w ∈ ws, w.cross = true) ∨ 8 ≤ x.wire.length ∨
    (d ≠ 4 ∧ (s.plane f.1 pl).hasRoom (portOfNum f.2) = false) ∨
    (∃ sl, x.awaiting = some sl ∧ 12 ≤ (e.txSlot - sl).toNat) ∨ (d = 4 ∧ ∃ h ∈ r.vout, toInbox s n h.pkt = true)
  let t := State.drainPort n pl s d
  ∃ k, (still → k = 0) ∧ (¬ still → ¬ due → k = min 2 (ws.length - r.unread d)) ∧
    (¬ still → due → k = min 1 (ws.length - r.unread d)) ∧
    t = { s with routers := t.routers } ∧ RoutersSame s t [n, f.1] ∧
    (∀ m, t.router m = { s.router m with planes := (t.router m).planes }) ∧
    (∀ m q, q ≠ pl → t.plane m q = s.plane m q) ∧
    (∀ m c, t.plane m pl = { s.plane m pl with
      ends := (t.plane m pl).ends, transit := (t.plane m pl).transit, half := (t.plane m pl).half } ∧
      (m ≠ n → (t.plane m pl).transit = (s.plane m pl).transit ∧ (t.plane m pl).half = (s.plane m pl).half) ∧
      ((m, c) ≠ (n, d) → (m, c) ≠ f → (t.plane m pl).endOf c = (s.plane m pl).endOf c)) ∧
    (t.plane n pl).endOf d = { e with
      sent := e.sent + k
      retry := if k = 0 then e.retry else (e.retry ++ ws.take k).drop ((e.retry ++ ws.take k).length - 16)
      again := e.again.drop k, nakSent := e.nakSent || decide due } ∧
    (t.plane f.1 pl).endOf f.2 = { x with wire := x.wire ++
      if k = 0 then [] else [⟨linkLatency s f.1 pl f.2 ((ws.take k).any WordSlot.cross), ws.take k⟩] } ∧
    (∀ c, Sparse.find c (t.plane n pl).transit = if c = d ∧ unsent.length ≤ k - e.again.length ∧ 0 < k then none
      else (Sparse.find c r.transit).map fun u =>
        if c = d then { u with words := u.words.drop (k - e.again.length) } else u) ∧
    (∀ c, c ∈ (t.plane n pl).half ↔ c ∈ r.half ∨ (c = d ∧ ws.length = 1 ∧ k = 1 ∧ ¬ due))) ∧
  (∀ s m pl e cross, linkLatency s m pl e cross =
    if cross = true then crossingLatency (s.site (siteOf m)) (xingKey (localOf m) pl e) else 1) ∧
  -- the words that an input holds
  ∀ (r : RPlane) pt,
    let waiting := ((r.inputs.filter fun h => h.port == pt).map fun h => linkSlots h.pkt - h.toCome).sum +
      ((r.gather.filter fun h => h.port == pt).map fun h => linkSlots h.pkt - h.left).sum
    (r.transit = [] → r.inputWords pt = waiting) ∧
    (∀ d u, d < 5 → r.transit = [(d, u)] → u.port = pt → (∀ h ∈ r.inputs, h.port = pt → h.pkt ≠ u.pkt) →
      r.inputWords pt = waiting + (u.words.length - u.toCome)) ∧
    (r.hasRoom pt = true ↔ r.inputWords pt + ((r.endOf (portNum pt)).wire.map fun i => i.words.length).sum + 2 ≤ 260)

/-- R172: the rank order holds the same headers, no header stands before one that ranks above it, and headers
of which neither ranks above the other keep their order.
And R17, R171: without a detour the productive outputs are the open ones that are not lost and lead one hop nearer to
the destination, each once, the x output first where it is one of them; at every node, an edge node too, there is one
unless every port toward the destination is closed or lost.

R165, R169, R173, R175, R177, R178, R180, R183: one arbitration pass with one waiting header h. Toward another node it
takes its first free productive output; else, when it may deflect, the first free output after its input port, with age
one higher; else it waits, or is discarded with ROUTE_NONE when no output is productive. An output is free where it is
open, not lost, carries no packet, and in a quiet period leads to no other site; a header may deflect at another node, or
once it has been taken back, where its age is not 255 and it is neither an injection nor a copy or packet of a tree; the
search goes N, E, S, W from the port after its own. At its destination it goes to the vertical output when that is free,
or, once its last word has come, to the registers of the Plain. An injection waits while the gate is closed, the fence
holds it back or the site is quiet.
Where the rules leave a choice, it is that of assumptions 3, 39, 85, 87. -/
def Obligations.ArbitrationRanksAndServesHeaders : Prop :=
  ((∀ l : List Header,
  (rankOrder l).Perm l ∧ (rankOrder l).Pairwise (fun a b => ranksAbove b a = false) ∧
  (∀ a b, ranksAbove a b = true ↔
    (64 ≤ a.waited ∧ b.waited < 64) ∨ (64 ≤ a.waited ∧ 64 ≤ b.waited ∧ b.waited < a.waited) ∨
    ((64 ≤ a.waited ↔ 64 ≤ b.waited) ∧ (64 ≤ a.waited → a.waited = b.waited) ∧
      (pClass b.pkt < pClass a.pkt ∨ pClass a.pkt = pClass b.pkt ∧
        (pAge b.pkt < pAge a.pkt ∨ pAge a.pkt = pAge b.pkt ∧
          (b.waited < a.waited ∨ a.waited = b.waited ∧ portNum a.port < portNum b.port)))))) ∧
  (∀ s n pl d,
  isNode n = true → isNode d = true → n ≠ d →
  let dist := fun m => (nodeX m - nodeX d) + (nodeX d - nodeX m) + ((nodeY m - nodeY d) + (nodeY d - nodeY m))
  let open_ := fun o => closedPort s n pl o = false ∧ lostPort s n pl o = false
  let nearer := fun o => o < 4 ∧ ∃ m, neighbour n o = some m ∧ dist m + 1 = dist n
  let outs := productive s n pl d 0
  let x := if nodeX n < nodeX d then 1 else 3
  (∀ o, o ∈ outs ↔ nearer o ∧ open_ o) ∧ outs.Nodup ∧
  (nodeX n ≠ nodeX d → open_ x → outs.head? = some x) ∧ (nodeX n ≠ nodeX d → nearer x) ∧
  (∃ o, nearer o) ∧ (outs = [] ↔ ∀ o, nearer o → ¬ open_ o) ∧
  ∀ act, act ≠ 0 → productive s n pl d act =
    if closedPort s n pl (act - 1) = false ∧ lostPort s n pl (act - 1) = false then [act - 1] else [])) ∧
  (∀ s n pl h,
  isNode n = true → pl < 4 → routerLive s n = true → (s.router n).plain = [] →
  (s.plane n pl).inputs = [h] → isTree h.pkt = false →
  let t := exec (.arbitrationPass n pl) s
  let r := s.plane n pl
  let left := s.setPlane n pl { r with inputs := [] }
  let shut := h.gated = true ∧ (r.gate = false ∨ closedOut s n pl = true ∨ siteQuiet s (siteOf n) = true)
  (shut → t = .next s) ∧
  (∀ d prod, ¬ shut → route s n h.pkt = .node d → d ≠ n → detour s n pl d ≠ 5 →
    prod = productive s n pl d (detour s n pl d) →
    (∀ o, prod.find? (outFree s n pl) = some o → t = .next (left.forward n pl o h)) ∧
    (prod.find? (outFree s n pl) = none → mayDeflect h false = true → siteQuiet s (siteOf n) = false →
      (∀ o, (deflectOrder h.port).find? (outFree s n pl) = some o → ∃ u,
        t = .next (u.forward n pl o { h with pkt := { h.pkt with h0 := setBits h.pkt.h0 40 8 (pAge h.pkt + 1) } }) ∧
        u = { s with routers := u.routers, regs := u.regs } ∧ RoutersSame s u [n] ∧
        RegsSame s u [(bRtr n).key (0x30 + 8 * pl)] ∧ (u.plane n pl).inputs = [] ∧
        (u.plane n pl).defls = (r.defls.headD 0 + 1) :: r.defls.tail ∧
        u.reg (bRtr n) (0x30 + 8 * pl) = satInc (s.reg (bRtr n) (0x30 + 8 * pl)) 20 32) ∧
      ((deflectOrder h.port).find? (outFree s n pl) = none → t = .next s)) ∧
    (prod.find? (outFree s n pl) = none → mayDeflect h false = true → siteQuiet s (siteOf n) = true → t = .next s) ∧
    (prod.find? (outFree s n pl) = none → mayDeflect h false = false → prod ≠ [] → t = .next s) ∧
    (mayDeflect h false = false → prod = [] →
      t = .next (left.routerDrop n pl h.port h.pkt true (some 0x0201)))) ∧
  (∀ d, ¬ shut → route s n h.pkt = .node d → d ≠ n → detour s n pl d = 5 →
    t = .next (left.routerDrop n pl h.port h.pkt true none)) ∧
  (∀ code, ¬ shut → route s n h.pkt = .drop code → t = .next (left.routerDrop n pl h.port h.pkt true code)) ∧
  (¬ shut → route s n h.pkt = .node n → h.takenBack = false → delivery s n pl h.pkt = .deliver →
    (inPlain s h.pkt = true → t = .next (if h.toCome = 0 then
      s.setPlane n pl { r with inputs := [], served := r.served ++ [h] } else s)) ∧
    (inPlain s h.pkt = false → vertBusy s n pl = false →
      let u := left.occupy n pl 4 h (!toCore s n h.pkt)
      t = .next (u.setPlane n pl { u.plane n pl with vout := r.vout ++ [h] })) ∧
    (inPlain s h.pkt = false → vertBusy s n pl = true → t = .next s))) ∧
  (∀ s n pl o, outFree s n pl o = true ↔ (∃ m, neighbour n o = some m ∧ ¬ (siteQuiet s (siteOf n) = true ∧ siteOf m ≠ siteOf n)) ∧
    closedPort s n pl o = false ∧ lostPort s n pl o = false ∧ Sparse.find o (s.plane n pl).transit = none ∧
    ((s.plane n pl).endOf o).again = []) ∧
  (∀ h away, mayDeflect h away = true ↔ (away = false ∨ h.takenBack = true) ∧ pAge h.pkt ≠ 255 ∧ h.kids = none ∧
    pKind h.pkt ≠ 0x06 ∧ ¬ (pKind h.pkt = 0x03 ∧ bit h.pkt.h2 17 = true) ∧ h.port ≠ .v) ∧
  (∀ d, d < 4 → deflectOrder (portOfNum d) = [(d + 1) % 4, (d + 2) % 4, (d + 3) % 4, d]) ∧
  (∀ pt, pt = .v ∨ pt = .x → deflectOrder pt = [0, 1, 2, 3])

/-- R165, R168, R169, R185, R256, R363: a packet forwarded on port o of node n is in transit there as its DATA slots of 64
bytes each of its header and payload; it crosses a clock boundary where the link leads to another site, and the first
slot passes in slot 1 of the present cycle where another packet ended in slot 0. No other plane, router or register
changes. Its first word makes it wait at the facing input of the neighbour, with its other words still to come, where
that port is open and the plane does not combine it; a closed port discards it there with its credit. Every word after
the first brings the packet on its way at that port one word nearer, and one that may combine meets the buffers with the
last. Each slot that passes is numbered modulo 16 and the last 16 stay in the retry buffer.
Where the rules leave a choice, it is that of assumption 3. -/
def Obligations.ForwardCarriesThePacketToTheNeighbour : Prop :=
  (∀ (s : State) n pl o m h,
  isNode n = true → o < 4 → neighbour n o = some m →
  let r := s.plane n pl
  let ws := slotsOf h.pkt (decide (siteOf m ≠ siteOf n))
  let t := s.forward n pl o h
  let u := t.plane n pl
  m ≠ n ∧ neighbour m (opposite o) = some n ∧
  t = { s with routers := t.routers } ∧ RoutersSame s t [n, m] ∧
  t.router n = (s.router n).setPlane pl u ∧ u = { r with transit := u.transit, half := u.half, ends := u.ends } ∧
  (∀ d, d ≠ o → Sparse.find d u.transit = Sparse.find d r.transit ∧ u.endOf d = r.endOf d) ∧
  (o ∉ r.half → Sparse.find o u.transit = some ⟨h.pkt, ws, h.port, h.toCome⟩ ∧ u.endOf o = r.endOf o ∧ u.half = r.half ∧
    t.plane m pl = s.plane m pl) ∧
  (o ∈ r.half → (1 < ws.length → Sparse.find o u.transit = some ⟨h.pkt, ws.drop 1, h.port, h.toCome⟩) ∧
    (ws.length = 1 → Sparse.find o u.transit = Sparse.find o r.transit) ∧
    u.endOf o = (r.endOf o).send (ws.take 1) ∧ u.half = r.half.erase o ∧
    t.router m = (s.router m).setPlane pl (t.plane m pl) ∧
    let x := s.plane m pl
    let y := t.plane m pl
    let lat := linkLatency s m pl (opposite o) (decide (siteOf m ≠ siteOf n))
    y = { x with ends := y.ends } ∧ (∀ d, d ≠ opposite o → y.endOf d = x.endOf d) ∧
    ∃ wire, y.endOf (opposite o) = { x.endOf (opposite o) with wire := wire } ∧
      (∀ l w, (x.endOf (opposite o)).wire = l ++ [⟨lat, [w]⟩] → wire = l ++ [⟨lat, [w] ++ ws.take 1⟩]) ∧
      ((∀ l w, (x.endOf (opposite o)).wire ≠ l ++ [⟨lat, [w]⟩]) →
        wire = (x.endOf (opposite o)).wire ++ [⟨lat, ws.take 1⟩]))) ∧
  (∀ (s : State) n pl e w, e < 5 →
  let r := s.plane n pl
  let pt := portOfNum e
  let t := State.takeWord n pl e s w
  (w.first = true → e < 4 → closedPort s n pl e = true → t = s.routerDrop n pl pt w.pkt true none) ∧
  (w.first = true → (e < 4 → closedPort s n pl e = false) → bit (s.reg (bRtr n) 0x80) pl = false →
    t = s.setPlane n pl { r with
      inputs := r.inputs ++ [⟨w.pkt, pt, 0, false, none, decide (e = 4), linkSlots w.pkt - 1⟩] }) ∧
  (w.first = false → ∃ x : RPlane, t = (x.gather.filter fun g => decide (g.port = pt ∧ g.left = 0)).foldl (State.meet n pl)
      (s.setPlane n pl x) ∧
    let less := fun h : Header => if h.port = pt then { h with toCome := h.toCome - 1 } else h
    x = { r with inputs := r.inputs.map less, vout := r.vout.map less, transit := x.transit
                 gather := r.gather.map fun g : Held => if g.port = pt then { g with left := g.left - 1 } else g } ∧
    ∀ d, Sparse.find d x.transit = (Sparse.find d r.transit).map fun u =>
      if u.port = pt then { u with toCome := u.toCome - 1 } else u)) ∧
  (∀ p cross, (slotsOf p cross).length = linkSlots p ∧ ∀ k w, (slotsOf p cross)[k]? = some w →
    w.pkt = p ∧ w.first = decide (k = 0) ∧ w.cross = cross ∧ w.bytes.length = 64 ∧
    ∀ b, b < 64 → w.bytes.getD b 0 = (headerBytes p ++ pBytes p).getD (64 * k + b) 0) ∧
  ∀ (e : LinkEnd) ws,
    let f := e.send ws
    f = { e with sent := e.sent + ws.length, retry := f.retry } ∧ f.txSlot = e.txSlot + BitVec.ofNat 4 ws.length ∧
    f.retry.length = min 16 (e.retry.length + ws.length) ∧ f.retry <:+ e.retry ++ ws

/-- R255, R256, R257: where the plane combines, an eligible contribution is kept until its last word has arrived; then,
where the plane still combines, it is added into the held packet that it matches and fits, and ceases to exist, COMBINED
counting one; one that matches none is held while a buffer is free; any other waits as a header. A held packet whose
window has run out becomes a header of the input it arrived on, behind its gate where that is the vertical one.
And R247, R248, R250, R255, R256: which packets are eligible, with test 1 of R250 written out, which match, and which fit.
And R248, R256: a packet that absorbs another keeps its header, and its head but for CONTRIB, which is the sum,
and SAT and NONREPRO, which are ORed with those of the other and of the sum; its elements are added one by one;
INT32_SAT sums stop at the ends of the range and say so.

R181, R182: at a router of its tree, a copy that arrived from the parent port goes out in one pass on every output in
CHILDREN, N, E, S, W and the vertical one, that can take it; its header waits for the others alone and is gone when
there are none; a copy that arrives on another port is discarded with TREE_PORT and no credit; one whose child output
is lost is discarded for that child with TREE_LINK_LOST. -/
def Obligations.RoutersCombineAndCopyAlongTrees : Prop :=
  ((∀ s n pl, isNode n = true → pl < 4 →
  let r := s.plane n pl
  let cfg := s.reg (bRtr n) 0x80
  let combining := bit cfg pl = true ∧ bits cfg 8 8 ≠ 0
  (∀ h : Header, combining → combinable h.pkt = true →
    let g : Held := ⟨h.pkt, h.port, h.toCome⟩
    let u := s.setPlane n pl { r with gather := r.gather ++ [g] }
    s.enter n pl h = if h.toCome = 0 then State.meet n pl u g else u) ∧
  (∀ g gs, r.gather = g :: gs →
    let p := g.pkt
    let t := State.meet n pl s g
    let waits := s.setPlane n pl { r with
      gather := gs, inputs := r.inputs ++ [⟨p, g.port, 0, false, none, decide (g.port = .v), 0⟩] }
    (¬ combining → t = waits) ∧ (combining →
    (∀ l h rest, r.held = l ++ h :: rest →
      (∀ x ∈ l, combineMatch x.pkt p = false ∨ combineFits x.pkt p = false) →
      combineMatch h.pkt p = true → combineFits h.pkt p = true →
      t = (s.setPlane n pl { r with gather := gs, held := l ++ { h with pkt := combinePair h.pkt p } :: rest }).setReg
        (bRtr n) 0x80 (satInc cfg 16 32)) ∧
    (r.held.length < 16 → (∀ h ∈ r.held, combineMatch h.pkt p = false) →
      t = s.setPlane n pl { r with gather := gs, held := r.held ++ [⟨p, g.port, bits cfg 8 8⟩] }) ∧
    ((∀ h ∈ r.held, combineMatch h.pkt p = false ∨ combineFits h.pkt p = false) →
      (16 ≤ r.held.length ∨ ∃ h ∈ r.held, combineMatch h.pkt p = true) → t = waits))) ∧
  (∀ i h, r.held[i]? = some h → h.left = 0 → routerLive s n = true →
    exec (.combineRelease n pl i) s = .next (s.setPlane n pl { r with
      held := r.held.eraseIdx i
      inputs := r.inputs ++ [⟨h.pkt, h.port, 0, false, none, decide (h.port = .v), 0⟩] })) ∧
  (∀ i h, r.held[i]? = some h → h.left ≠ 0 → exec (.combineRelease n pl i) s = .next s)) ∧
  (∀ (h : RedHead) len, redFormed h len = true ↔
    64 ≤ len ∧ (∃ z, redSize h.fmt = some z ∧ (len - 64) % z = 0) ∧
    (bits h.e0 6 2 = 0 ∧ bits h.e0 36 28 = 0 ∧ h.e3 = 0 ∧ bits h.e4 0 6 = 0 ∧ bits h.e4 8 56 = 0 ∧ ∀ q ∈ h.rest, q = 0) ∧
    (2 ≤ h.fmt → bits h.e0 8 16 = 0) ∧
    (bit h.e0 4 = true → bits h.e1 32 32 = 0 ∧ bit h.e0 5 = false) ∧
    (bit h.e0 4 = false → (bits h.e1 0 32 = 0 ↔ bits h.e1 32 32 = 0)) ∧
    (bit h.e0 5 = true → aSpace h.e2 = 1 ∧ aOff h.e2 % 64 = 0)) ∧
  (∀ f z, redSize f = some z ↔ (f, z) ∈ [(0, 8), (1, 16), (2, 4), (3, 4), (4, 4)]) ∧
  (∀ a b : Packet, let x := readHead (pBytes a)
    let y := readHead (pBytes b)
    (combinable a = true ↔ pKind a = 0x08 ∧ pClass a = 0 ∧ pAge a = 0 ∧ 64 ≤ pLen a ∧ pLen a ≤ 320 ∧
      redFormed x (pLen a) = true) ∧
    (combineMatch a b = true ↔ a.h1 = b.h1 ∧ pGroup a = pGroup b ∧ pGen a = pGen b ∧ pLen a = pLen b ∧
      bits x.e0 0 4 = bits y.e0 0 4 ∧ bit x.e0 4 = bit y.e0 4 ∧ bit x.e0 5 = bit y.e0 5 ∧
      bits x.e0 8 16 = bits y.e0 8 16 ∧ bits x.e0 24 12 = bits y.e0 24 12 ∧ bits x.e1 32 32 = bits y.e1 32 32 ∧
      x.e2 = y.e2) ∧
    (combineFits a b = true ↔ bit x.e0 4 = true ∨ bits x.e1 0 32 + bits y.e1 0 32 ≤ bits x.e1 32 32)) ∧
  ((∀ a b : Packet, let x := readHead (pBytes a)
    let y := readHead (pBytes b)
    let q := combinePair a b
    let z := readHead q.data
    let sum := redSum x.fmt ((pBytes a).drop 64) ((pBytes b).drop 64)
    q.h0 = a.h0 ∧ q.h1 = a.h1 ∧ q.h2 = a.h2 ∧ q.h3 = a.h3 ∧ z.e0 = x.e0 ∧ z.e2 = x.e2 ∧ z.e3 = x.e3 ∧
    z.rest = x.rest ∧ z.expected = x.expected ∧ z.contrib = min (2 ^ 32 - 1) (x.contrib + y.contrib) ∧
    q.data.drop 64 = sum.1 ∧ bits z.e4 0 6 = bits x.e4 0 6 ∧ bits z.e4 8 56 = bits x.e4 8 56 ∧
    (bit z.e4 6 = true ↔ bit x.e4 6 = true ∨ bit y.e4 6 = true ∨ sum.2 = true) ∧
    (bit z.e4 7 = true ↔ bit x.e4 7 = true ∨ bit y.e4 7 = true ∨ x.fmt = 4)) ∧
  (∀ f z (a b : List Byte), redSize f = some z → a.length = b.length →
    let k := a.length / z
    let at_ := fun (l : List Byte) i => leNat ((l.drop (z * i)).take z)
    let sum := redSum f a b
    sum.1.length = z * k ∧ (∀ i, i < k → at_ sum.1 i = (redAdd f (at_ a i) (at_ b i)).1) ∧
    (sum.2 = true ↔ ∃ i, i < k ∧ (redAdd f (at_ a i) (at_ b i)).2 = true)) ∧
  (∀ a b : Nat, a < 2 ^ 32 → b < 2 ^ 32 →
    (redAdd 2 a b).1 = (a + b) % 2 ^ 32 ∧ (redAdd 2 a b).2 = false ∧
    intOf 32 (redAdd 3 a b).1 = max (-2 ^ 31) (min (2 ^ 31 - 1) (intOf 32 a + intOf 32 b)) ∧
    ((redAdd 3 a b).2 = true ↔ intOf 32 a + intOf 32 b < -2 ^ 31 ∨ 2 ^ 31 - 1 < intOf 32 a + intOf 32 b)) ∧
  (∀ a b : Lane, let r := redAdd 4 a.toNat b.toNat
    let sum := fpUnits a + fpUnits b
    let c : Lane := BitVec.ofNat 32 r.1
    r.1 < 2 ^ 32 ∧ r.2 = false ∧ (FpNan a ∨ FpNan b → c = 0x7FC0_0000) ∧
    (¬ FpFinite a → ¬ FpNan a → (FpFinite b ∨ b = a → c = a) ∧ (¬ FpFinite b → b ≠ a → c = 0x7FC0_0000)) ∧
    (FpFinite a → ¬ FpFinite b → ¬ FpNan b → c = b) ∧
    (FpFinite a → FpFinite b → FpRounds (-149) sum
      (if sum = 0 then a.getLsbD 31 && b.getLsbD 31 else decide (sum < 0)) c)) ∧
  ∀ f a b, f < 3 → redAdd f a b = redAdd f b a)) ∧
  (∀ s n pl h,
  isNode n = true → pl < 4 → routerLive s n = true → (s.router n).plain = [] →
  (s.plane n pl).inputs = [h] → isTree h.pkt = true → h.kids = none →
  (h.gated = true → (s.plane n pl).gate = true ∧ closedOut s n pl = false ∧ siteQuiet s (siteOf n) = false) →
  (s.router n).badTree.contains (pGroup h.pkt) = false →
  let t := exec (.arbitrationPass n pl) s
  let r := s.plane n pl
  let left := s.setPlane n pl { r with inputs := [] }
  let e := if pGroup h.pkt < 4096 then s.reg (bRtr n) (0x8000 + 8 * pGroup h.pkt) else 0
  let goes := fun d => bit e (4 + d) && if d = 4 then !vertBusy s n pl else outFree s n pl d
  let waits := [0, 1, 2, 3, 4].filter fun d => bit e (4 + d) && !goes d
  ((bit e 0 = false ∨ bits e 1 3 ≠ portNum h.port) →
    t = .next (left.routerDrop n pl h.port h.pkt false (some 0x0204))) ∧
  (∀ d, bit e 0 = true → bits e 1 3 = portNum h.port → d < 4 → bits e 4 5 = 2 ^ d → lostPort s n pl d = true →
    t = .next (left.routerDrop n pl h.port h.pkt false (some 0x0205))) ∧
  (bit e 0 = true → bits e 1 3 = portNum h.port →
    (∀ d, d < 4 → bit e (4 + d) = true → lostPort s n pl d = false) →
    (bit e 8 = true → delivery s n pl h.pkt = .deliver ∧ inPlain s h.pkt = false) →
    ∃ u, t = .next u ∧ u = { s with routers := u.routers } ∧
      (u.plane n pl).inputs = (if waits = [] then [] else [{ h with kids := some (waits.map portOfNum) }]) ∧
      (u.plane n pl).vout = r.vout ++ (if goes 4 = true then [h] else []) ∧
      (∀ d, d < 5 →
        let ws := slotsOf h.pkt (if d = 4 then !toCore s n h.pkt else crosses n d)
        let slot1 := if d ∈ r.half then 1 else 0
        Sparse.find d (u.plane n pl).transit =
          if goes d = true ∧ slot1 < ws.length then some ⟨h.pkt, ws.drop slot1, h.port, h.toCome⟩
          else Sparse.find d r.transit) ∧
      ∀ m, m ≠ n → u.plane m pl = { s.plane m pl with ends := (u.plane m pl).ends }))

/-- R159, R160, R161: where the inbox chain does not accept the first word of a MSG or CELL that waits at the
vertical output, REFUSALS counts one; the packet goes back to the input it came from, marked so that it
deflects, or, with age 255, is discarded with its credit and INBOX_DROP (0x0104). That what is taken back begins to wait
anew is assumption 86. -/
def Obligations.InboxRefusalTakesThePacketBack : Prop := ∀ s n pl p h rest,
  isCoreNode n = true → pl < 4 → toInbox s n p = true → (s.core n).accepts = false →
  (s.plane n pl).vout = h :: rest → h.pkt = p → siteQuiet s (siteOf n) = false →
  let r := s.plane n pl
  let s1 := s.setReg (bCore n) 0x50 (satInc (s.reg (bCore n) 0x50) 16 32)
  (pAge p ≠ 255 → exec (.inboxRefusal n pl p) s = .next (s1.setPlane n pl { r with
    vout := rest, transit := Sparse.del 4 r.transit, inputs := r.inputs ++ [⟨p, h.port, 0, true, none, false, h.toCome⟩] })) ∧
  (pAge p = 255 → ∃ c, creditFor p = some c ∧ ∃ u, exec (.inboxRefusal n pl p) s = .next u ∧
    u = { s with regs := u.regs, routers := u.routers } ∧ RoutersSame s u [n] ∧
    RegsSame s u [(bCore n).key 0x50, (bRtr n).key (0x50 + 8 * pl)] ∧
    u.reg (bCore n) 0x50 = satInc (s.reg (bCore n) 0x50) 16 32 ∧
    u.reg (bRtr n) (0x50 + 8 * pl) = satInc (s.reg (bRtr n) (0x50 + 8 * pl)) 16 16 ∧
    u.plane n pl = { r with vout := rest, transit := Sparse.del 4 r.transit
                            inputs := r.inputs ++ [⟨fillSource s n c, h.port, 0, false, none, false, 0⟩] } ∧
    (u.router n).offers = (s.router n).offers ++ [⟨mkNotice s n 0x0104 p.h0 p.h1 p.h3, none⟩])

/-- R166, R168, R177, R186, R189: a slot whose tracks are no valid DATA, IDLE or NAK slot, where it is on its way or the
next to come, makes the receiver discard it and all later ones, wait for its replay and send a NAK; the slots before it
have arrived. A slot of a valid kind does nothing here, and none does while a replay is awaited. A NAK makes the sender
send again from the slot it names and counts a retry there (assumption 26), and the receiver takes the slots again. The
eighth failure in succession of one word makes both routers of a link mark it lost and the lower-numbered one raise
LINK_LOST (0x0206), and puts a vertical port under repair. Of what is in transit on a lost link, in either direction, a
packet whose header the far router holds leaves that router, and every output it has gone on, and is discarded there with
its credit; any other is discarded with its credit at the sender, where the credit enters by the plane-transfer path
(assumption 101). Words on their way are as assumption 3 says.

R186, R187, R188: the wire test of a vertical port under repair. With a spare for every failing wire the port
works again, the spares are used, and BOND_LANE_REPAIRED (0x0207) is raised where a wire was switched; with
none left in a lane group, or a failing check wire, the plane is dropped with BOND_PLANE_DROPPED (0x0208).

R183, R184: a change of VFENCE acts at once on every plane and direction through which no packet is in
transit; VFENCE_ACTIVE follows when all eight are closed, or all open. VFENCE_EFFECT brings one plane and
direction in line when it reaches a packet boundary.
Where the rules leave a choice, it is that of assumptions 3, 26, 73 and 101. -/
def Obligations.LinksReplayRepairAndFence : Prop :=
  (∀ (w : List Byte) (ctl : BitVec 16), w.length = 64 →
    (slotKind w ctl = .data ↔ ctl = crc16 w) ∧
    (slotKind w ctl = .idle ↔ ctl = ~~~ crc16 w ∧ w = List.replicate 64 0) ∧
    (∀ q, slotKind w ctl = .nak q ↔
      ctl = ~~~ crc16 w ∧ w = 0x4E :: BitVec.ofNat 8 q.toNat :: List.replicate 62 0)) ∧
  (∀ s n pl pt (sl : SlotSeen),
  isNode n = true → pl < 4 → hasPort n pt = true →
  let d := portNum pt
  let f := farEnd n d
  let x := (s.plane n pl).endOf d
  let tx := (s.plane f.1 pl).endOf f.2
  let words := x.wire.flatMap InFlight.words
  let i := (sl.number - BitVec.ofNat 4 (tx.sent - words.length)).toNat
  let word := tx.sent - (words.length - i)
  let failed := if x.failWord = word then x.fails + 1 else 1
  let bad := slotKind sl.word sl.ctl = .failed
  let came := if d < 5 then (words.take i).foldl (State.takeWord n pl d) s else s
  let marked := fun k => came.modEnd n pl d fun x => { x with
    wire := [], awaiting := some sl.number, failWord := word, fails := k, nak := some sl.number, nakSent := false }
  (¬ bad ∨ x.awaiting ≠ none ∨ words.length < i → exec (.linkCrcFailure n pl pt sl) s = .next s) ∧
  (bad → x.awaiting = none → i ≤ words.length →
    (failed < 8 → exec (.linkCrcFailure n pl pt sl) s = .next (marked failed)) ∧
    (8 ≤ failed → d < 4 → exec (.linkCrcFailure n pl pt sl) s = .next ((marked 0).linkLost n pl d)) ∧
    (8 ≤ failed → 4 ≤ d → ∃ t, exec (.linkCrcFailure n pl pt sl) s = .next t ∧
      let v := (marked 0).reg (bRtr n) 0x10
      t = { marked 0 with regs := t.regs } ∧ RegsSame (marked 0) t [(bRtr n).key 0x10] ∧
      (bit v (2 + pl) = true → t = marked 0) ∧
      (bit v (2 + pl) = false → t.reg (bRtr n) 0x10 = setBit v (6 + pl) true))) ∧
  (∀ q, slotKind sl.word sl.ctl = .nak q →
    (tx.nak = some q → exec (.linkNak n pl pt sl) s = .next
      (((s.setReg (bRtr n) (0x50 + 8 * pl) (satInc (s.reg (bRtr n) (0x50 + 8 * pl)) 0 16)).modEnd n pl d
        fun x => x.replay q).modEnd f.1 pl f.2 fun x =>
          { x with wire := [], awaiting := none, nak := none, nakSent := false })) ∧
    (tx.nak ≠ some q → exec (.linkNak n pl pt sl) s = .next s)) ∧
  ((∀ q, slotKind sl.word sl.ctl ≠ .nak q) → exec (.linkNak n pl pt sl) s = .next s)) ∧
  (∀ (e : LinkEnd) q,
    let k := (e.txSlot - q).toNat
    let x := e.replay q
    k ≤ e.retry.length → e.retry.length ≤ e.sent → x.txSlot = q ∧ x = { e with
      sent := e.sent - k, retry := e.retry.take (e.retry.length - k)
      again := e.retry.drop (e.retry.length - k) ++ e.again }) ∧
  -- a lost link
  (∀ s n pl d m, isNode n = true → pl < 4 → d < 4 → neighbour n d = some m →
  let e := opposite d
  let low := min n m
  (lostPort s n pl d = true → s.linkLost n pl d = s) ∧
  (lostPort s n pl d = false → ∃ u, s.linkLost n pl d = (u.cutLink n pl d).cutLink m pl e ∧
    u = { s with regs := u.regs, routers := u.routers } ∧ RoutersSame s u [low] ∧
    RegsSame s u [(bRtr n).key 0x20, (bRtr m).key 0x20] ∧
    u.reg (bRtr n) 0x20 = setBit (s.reg (bRtr n) 0x20) (4 * pl + d) true ∧
    u.reg (bRtr m) 0x20 = setBit (s.reg (bRtr m) 0x20) (4 * pl + e) true ∧
    u.router low = { s.router low with plain := (s.router low).plain ++
      if (s.router low).plain.length < 8 then [mkNotice s low 0x0206 0 0 0] else [] }) ∧
  let r := s.plane n pl
  let tx := r.endOf d
  let rx := (s.plane m pl).endOf e
  let away := match rx.awaiting with
    | some sl => (tx.txSlot - sl).toNat
    | none => (rx.wire.flatMap InFlight.words).length
  let behind := tx.retry.drop (tx.retry.length - away) ++ tx.again ++ (Sparse.find d r.transit).elim [] Transit.words
  let quiet := ((s.setPlane n pl { r with transit := Sparse.del d r.transit }).modEnd n pl d
    fun x => { x with again := [] }).modEnd m pl e fun x =>
      { x with wire := [], awaiting := none, fails := 0, nak := none, nakSent := false }
  let atSender := ((behind.filter WordSlot.first).map WordSlot.pkt).foldl
    (fun u p => u.routerDrop n pl .x p true none) quiet
  s.cutLink n pl d = match (s.plane m pl).coming (portOfNum e) with
    | some p => (atSender.cutOff 130 m pl (portOfNum e)).routerDrop m pl (portOfNum e) p true none
    | none => atSender) ∧
  (∀ (r : RPlane) pt,
    let part := fun p : Packet => (∃ h ∈ r.inputs ++ r.vout, h.port = pt ∧ h.toCome ≠ 0 ∧ h.pkt = p) ∨
      (∃ g ∈ r.gather, g.port = pt ∧ g.left ≠ 0 ∧ g.pkt = p) ∨
      ∃ x ∈ r.transit, x.1 < 4 ∧ x.2.port = pt ∧ x.2.toCome ≠ 0 ∧ x.2.pkt = p
    (∀ p, r.coming pt = some p → part p) ∧ (r.coming pt = none → ∀ p, ¬ part p)) ∧
  (∀ (s : State) f n pl pt,
    let r := s.plane n pl
    let t := s.cutOff (f + 1) n pl pt
    let x := t.plane n pl
    t = { s with routers := t.routers } ∧
    (∀ h ∈ x.inputs ++ x.vout, ¬ (h.port = pt ∧ h.toCome ≠ 0)) ∧ (∀ g ∈ x.gather, ¬ (g.port = pt ∧ g.left ≠ 0)) ∧
    (∀ o u, o < 5 → Sparse.find o x.transit = some u → ¬ (u.port = pt ∧ u.toCome ≠ 0)) ∧
    ((∀ o u, o < 5 → Sparse.find o r.transit = some u → ¬ (u.port = pt ∧ u.toCome ≠ 0)) →
      t = s.setPlane n pl { r with
        inputs := r.inputs.filter fun h => decide (¬ (h.port = pt ∧ h.toCome ≠ 0))
        vout := r.vout.filter fun h => decide (¬ (h.port = pt ∧ h.toCome ≠ 0))
        gather := r.gather.filter fun g => decide (¬ (g.port = pt ∧ g.left ≠ 0)) })) ∧
  (∀ s n pl wires check,
  isNode n = true → pl < 4 → bit (s.reg (bRtr n) 0x10) (6 + pl) = true → (s.router n).plain.length < 7 →
  let used := fun g => Sparse.getD 0 (s.router n).spares (4 * pl + g)
  let enough := ∀ g, g < 4 → used g + wires.getD g 0 ≤ 8
  let some1 := ∃ g, g < 4 ∧ 0 < wires.getD g 0
  ∃ t, exec (.bondLaneRepaired n pl wires check) s = .next t ∧
    (check = false → enough →
      t = { s with regs := t.regs, routers := t.routers } ∧ RoutersSame s t [n] ∧
      RegsSame s t [(bRtr n).key 0x10] ∧
      t.reg (bRtr n) 0x10 = setBit (s.reg (bRtr n) 0x10) (6 + pl) false ∧
      (∀ g, g < 4 → Sparse.getD 0 (t.router n).spares (4 * pl + g) = used g + wires.getD g 0) ∧
      (some1 → (t.router n).plain = (s.router n).plain ++ [mkNotice s n 0x0207 0 0 0]) ∧
      (¬ some1 → (t.router n).plain = (s.router n).plain)) ∧
    ((check = true ∨ ¬ enough) → bit (t.reg (bRtr n) 0x10) (2 + pl) = true ∧
      bit (t.reg (bRtr n) 0x10) (6 + pl) = false ∧ mkNotice s n 0x0208 0 0 0 ∈ (t.router n).plain)) ∧
  (∀ s n, isNode n = true →
  let busy := fun pl (fromDie : Bool) => if fromDie then vertEntering s n pl else vertBusy s n pl
  (∀ close, (∀ pl x, pl < 4 → busy pl x = false) → ∃ t, exec (.vfence n close) s = .next t ∧
    t = { s with regs := t.regs, routers := t.routers } ∧ RoutersSame s t [n] ∧
    t.router n = { s.router n with vclosed := if close then 0xFF else 0 } ∧
    RegsSame s t [(bRtr n).key 0x10] ∧
    t.reg (bRtr n) 0x10 = setBits (setBits (s.reg (bRtr n) 0x10) 0 1 close.toNat) 1 1 close.toNat) ∧
  (∀ close, ∃ t, exec (.vfence n close) s = .next t ∧ bit (t.reg (bRtr n) 0x10) 0 = close ∧
    ∀ pl, pl < 4 → closedIn t n pl = (if busy pl false = true then closedIn s n pl else close) ∧
      closedOut t n pl = (if busy pl true = true then closedOut s n pl else close)) ∧
  (∀ pl, vertBusy s n pl = true ↔ Sparse.find 4 (s.plane n pl).transit ≠ none ∨ ((s.plane n pl).endOf 4).again ≠ [] ∨
    (s.plane n pl).vout ≠ [] ∨ ∃ a, (s.core n).admitting = some a ∧ a.plane = pl) ∧
  (∀ pl, vertEntering s n pl = true ↔ Sparse.find 5 (s.plane n pl).transit ≠ none ∨ ((s.plane n pl).endOf 5).again ≠ [] ∨
    ((s.plane n pl).endOf 4).wire ≠ []) ∧
  (∀ pl out close, pl < 4 → close = bit (s.reg (bRtr n) 0x10) 0 → busy pl (!out) = false →
    ∃ t, exec (.vfenceEffect n pl out) s = .next t ∧ RoutersSame s t [n] ∧
      t = { s with regs := t.regs, routers := t.routers } ∧
      (if out = true then closedIn t n pl else closedOut t n pl) = close ∧
      (∀ q d, q < 4 → (q ≠ pl ∨ d ≠ !out) →
        (t.router n).vclosed.getLsbD (2 * q + d.toNat) = (s.router n).vclosed.getLsbD (2 * q + d.toNat)) ∧
      ((t.router n).vclosed = 0xFF → bit (t.reg (bRtr n) 0x10) 1 = true) ∧
      ((t.router n).vclosed = 0 → bit (t.reg (bRtr n) 0x10) 1 = false)))


/-! ## Packets at their destination -/

/-- R26, R52, R142 to R147, R182, R253, R445: the packets that bring data to a core's memories, or ask for
some. A WRITE and a MCAST_WRITE write their bytes, then count on completion_id, and a WRITE with ACK_REQ is
acknowledged; a READ_RESP and a RED_DONE write and count; a READ_REQ is answered with the bytes, and a parity
error in them is told with PARITY_READ (0x0106). A packet with a byte outside the memories is discarded whole
with its credit and ADDR_OFFSET (0x0214). The packet leaves the vertical output where it waits; one that waits
nowhere comes from outside (assumption 2).
Where the rules leave a choice, it is that of assumptions 32, 49. -/
def Obligations.DataPacketsAtACore : Prop := ∀ s n pl p,
  let t := s.takeUp n pl p
  let off := aOff p.h1
  let len := pLen p
  (∀ pre h post, (s.plane n pl).vout = pre ++ h :: post → (∀ q ∈ pre, q.pkt ≠ p) → h.pkt = p →
    t = s.setPlane n pl { s.plane n pl with vout := pre ++ post }) ∧
  ((∀ h ∈ (s.plane n pl).vout, h.pkt ≠ p) → (∀ h ∈ (s.plane n pl).served, h.pkt ≠ p) → t = s) ∧
  (Reaches s n pl 0x01 1 p → InMem off (max len 1) → ∃ u, MemWritten t u n off len (payloadByte p) ∧
    exec (.write n pl p) s = .next ((u.addCount n (pCid p)).ackDie n pl p)) ∧
  (Reaches s n pl 0x06 1 p → InMem off (max len 1) → ∃ u, MemWritten t u n off len (payloadByte p) ∧
    exec (.mcastWrite n pl p) s = .next (u.addCount n (pCid p))) ∧
  (Reaches s n pl 0x03 1 p → InMem off (max len 1) → ∃ u, MemWritten t u n off len (payloadByte p) ∧
    exec (.readResp n pl p) s = .next (u.addCount n (pCid p))) ∧
  (Reaches s n pl 0x09 1 p → InMem off (max len 1) → ∃ u, MemWritten t u n off len (payloadByte p) ∧
    exec (.redDone n pl p) s = .next (u.addCount n (pCid p))) ∧
  (Reaches s n pl 0x02 1 p → InMem off (max len 1) → ∃ data, data.length = len ∧
    (∀ k, k < len → data.getD k 0 = (s.core n).memByte (off + k)) ∧
    ((s.core n).memParityOk off len →
      exec (.readReq n pl p) s = .next (t.offer n (respFor p data) (some pl))) ∧
    (0 < len → ¬ (s.core n).memParityOk off len → exec (.readReq n pl p) s =
      .next ((t.offer n (respFor p data) (some pl)).offer n (mkNotice s n 0x0106 p.h0 p.h1 p.h3) none))) ∧
  (∀ k row, (k, row) ∈ [(0x01, Instr.write n pl p), (0x02, .readReq n pl p), (0x03, .readResp n pl p),
      (0x06, .mcastWrite n pl p), (0x09, .redDone n pl p), (0x0D, .ledgerReply n pl p)] →
    Reaches s n pl k 1 p → ¬ InMem off (max len 1) → exec row s = .next (t.discardDie n pl p 0x0214)) ∧
  (∀ u : State, pKind p = 0x01 → pAckReq p = false → u.ackDie n pl p = u) ∧
  (∀ u : State, pKind p = 0x01 → pAckReq p = true → ∃ a, u.ackDie n pl p = u.offer n a (some pl) ∧
    pKind a = 0x07 ∧ pClass a = 1 ∧ pLen a = 0 ∧ pGen a = pGen p ∧ pCid a = pRetCc p ∧ pTag a = pTag p ∧
    a.h3 = p.h3 ∧ aSpace a.h1 = 1 ∧ aOff a.h1 = 0 ∧ aNode a.h1 = pSrcNode p ∧ aLocal a.h1 = pSrcLocal p ∧
    aPanel a.h1 = pSrcPanel p) ∧
  (∀ data, let a := respFor p data
    pKind a = 0x03 ∧ pClass a = pClass p ∧ pLen a = len ∧ pGen a = pGen p ∧ pTag a = pTag p ∧ a.h3 = p.h3 ∧
    pCid a = (if pMc p = true then pCid p else pRetCc p) ∧ a.data = data ∧ aSpace a.h1 = 1 ∧
    aOff a.h1 = 64 * pLand p ∧ aNode a.h1 = pSrcNode p ∧ aLocal a.h1 = pSrcLocal p ∧ aPanel a.h1 = pSrcPanel p)

/-- R143, R144, R194, R195, R230, R231: the packets that only count or signal at a core. An ACK and a FENCE_CREDIT
count on completion_id; a SIGNAL signals the slot of its offset, or at another offset is discarded with its
credit and SIG_OFFSET (0x0105). A LEDGER_REPLY is written and ends the request of its sequence number before it
counts; a FENCE_CREDIT for a request writes the head LOST at the request's landing place in the reply's
stead. -/
def Obligations.CountsSignalsAndRepliesAtACore : Prop := ∀ s n pl p,
  let t := s.takeUp n pl p
  let off := aOff p.h1
  (Reaches s n pl 0x07 1 p → exec (.ack n pl p) s = .next (t.addCount n (pCid p))) ∧
  (Reaches s n pl 0x18 1 p → pDkind p ≠ 0x0C →
    exec (.fenceCredit n pl p) s = .next (t.addCount n (pCid p))) ∧
  (∀ sl, Reaches s n pl 0x05 2 p → sl < 64 → off = 0x1000 + 8 * sl → pLen p = 8 → p.data.length = 8 →
    exec (.signal n pl p) s = .next (t.signal n sl (leNat (p.data.take 4)))) ∧
  (Reaches s n pl 0x05 2 p → (off < 0x1000 ∨ 0x1200 ≤ off ∨ off % 8 ≠ 0) →
    exec (.signal n pl p) s = .next (t.discardDie n pl p 0x0105)) ∧
  (∀ pre w post, (s.core n).lopWait = pre ++ w :: post → (∀ v ∈ pre, v.seq ≠ pSeq p) → w.seq = pSeq p →
    let freed := fun (u : State) =>
      (u.setCore n { u.core n with lopWait := pre ++ post }).opEnd n w.op true
    (Reaches s n pl 0x0D 1 p → InMem off (max (pLen p) 1) → ∃ u,
      MemWritten t u n off (pLen p) (payloadByte p) ∧
      exec (.ledgerReply n pl p) s = .next ((freed u).addCount n (pCid p))) ∧
    (Reaches s n pl 0x18 1 p → pDkind p = 0x0C → w.land + 64 ≤ 0x20_0000 → ∃ u head,
      MemWritten t u n w.land 64 (fun k => head.getD k 0) ∧ head.length = 64 ∧ bits (quadAt head 0) 0 8 = 0x08 ∧
      bits (quadAt head 0) 8 4 = w.opcode % 16 ∧ bits (quadAt head 0) 12 4 = w.ledger % 16 ∧
      exec (.fenceCredit n pl p) s = .next ((freed u).addCount n (pCid p)))) ∧
  (Reaches s n pl 0x0D 1 p → InMem off (max (pLen p) 1) → (∀ w ∈ (s.core n).lopWait, w.seq ≠ pSeq p) → ∃ u,
    MemWritten t u n off (pLen p) (payloadByte p) ∧
    exec (.ledgerReply n pl p) s = .next (u.addCount n (pCid p)))

/-- R246, R249 to R253: a contribution at a core's record: what it writes, the notice it causes, and the RED_DONE
of the record it completes. The tests stand in their order; a refusal counts in DROPPED unless the record is
IDLE; where ACCUM and EXPECTED are 0 the record's data is 0, whoever opened it.
Where the rules leave a choice, it is that of assumption 49. -/
def Obligations.ContributionsUpdateTheirRecord : Prop :=
  (∀ s n pl p rec, Reaches s n pl 0x08 1 p →
    let t := s.takeUp n pl p
    let off := aOff p.h1
    let o := redApply p rec
    (off % 64 = 0 → InMem off (max (pLen p) 1) → rec.length = max 64 (pLen p) →
      (∀ k, k < rec.length → rec.getD k 0 = (s.core n).memByte (off + k)) → ∃ u v,
      MemWritten t u n off o.write.length (fun k => o.write.getD k 0) ∧
      (o.notice = none → v = u) ∧
      (∀ c, o.notice = some c → v = u.offer n (mkNotice s n c p.h0 p.h1 p.h3) none) ∧
      (o.done = none → exec (.redPart n pl p) s = .next v) ∧
      (∀ d, o.done = some d → exec (.redPart n pl p) s = .next (v.offer n d (some pl)))) ∧
    (off % 64 ≠ 0 → exec (.redPart n pl p) s = .next (t.discardDie n pl p 0x0214))) ∧
  ∀ p rec, pKind p = 0x08 → pLen p ≤ 8256 →
    let h := readHead (pBytes p)
    let r := readHead rec
    let o := redApply p rec
    let z := readHead o.write
    let size := pLen p - 64
    let formed := redFormed h (pLen p) = true
    let same := h.fmt = r.fmt ∧ h.accum = r.accum ∧ h.doneEn = r.doneEn ∧ h.anchor = r.anchor ∧
      h.doneCc = r.doneCc ∧ h.expected = r.expected ∧ h.e2 = r.e2 ∧ r.dlen = size ∧ r.gen = pGen p
    let excess := h.accum = false ∧ h.expected < (if r.state = 1 then r.contrib else 0) + h.contrib
    let refused := fun code : Nat => o.done = none ∧
      (r.state = 0 → o.write = [] ∧ o.notice = some code) ∧
      (r.state ≠ 0 → o.write.length = 64 ∧ o.notice = (if r.dropped = 0 then some code else none) ∧
        z = { r with e4 := z.e4 } ∧ bits z.e4 0 32 = bits r.e4 0 32 ∧ z.dropped = min (2 ^ 32 - 1) (r.dropped + 1))
    let applied := o.notice = none ∧
      z.state = (if z.accum = false ∧ z.contrib = z.expected then 2 else 1) ∧
      (z.state = 2 ∧ z.doneEn = true → ∃ d, o.done = some d ∧ pKind d = 0x09 ∧ pClass d = 1 ∧ pLen d = 64 ∧
        pGen d = z.gen ∧ pCid d = z.doneCc ∧ d.h1 = z.e2 ∧ pTag d = 0 ∧ d.h3 = p.h3 ∧ d.data = o.write.take 64) ∧
      (¬ (z.state = 2 ∧ z.doneEn = true) → o.done = none)
    (¬ formed → refused 0x0401) ∧
    (formed → 2 ≤ r.state → refused 0x0403) ∧
    (formed → r.state = 1 → ¬ same → refused 0x0402) ∧
    (formed → r.state < 2 → (r.state = 1 → same) → excess → refused 0x0404) ∧
    (formed → r.state = 0 → ¬ excess → applied ∧ o.write.length = pLen p ∧
      z.e0 = h.e0 ∧ z.contrib = h.contrib ∧ z.expected = h.expected ∧ z.e2 = h.e2 ∧ z.dlen = size ∧
      z.gen = pGen p ∧ z.dropped = 0 ∧ bit z.e4 6 = bit h.e4 6 ∧ bit z.e4 7 = (bit h.e4 7 || h.fmt == 4) ∧
      ∀ k, k < size → o.write.getD (64 + k) 0 =
        if h.accum = false ∧ h.expected = 0 then 0 else payloadByte p (64 + k)) ∧
    (formed → r.state = 1 → same → ¬ excess →
      let sum := if h.accum = false ∧ h.expected = 0 then (List.replicate size 0, false)
        else redSum h.fmt ((rec.drop 64).take size) ((pBytes p).drop 64)
      applied ∧ z.e0 = r.e0 ∧ z.contrib = min (2 ^ 32 - 1) (r.contrib + h.contrib) ∧ z.expected = r.expected ∧
      z.e2 = r.e2 ∧ z.e3 = r.e3 ∧ z.gen = r.gen ∧ z.dropped = r.dropped ∧
      bit z.e4 6 = (bit r.e4 6 || bit h.e4 6 || sum.2) ∧
      bit z.e4 7 = (bit r.e4 7 || bit h.e4 7 || h.fmt == 4) ∧ o.write.drop 64 = sum.1)

/-- R26, R62, R95, R145, R158, R159, R161, R333, R340, R354, R377, R386, R421, R446: a MSG or CELL that the inbox
chain accepts enters it as words, header first; with its last word it is counted and the contexts on PARK
become READY. One that is not accepted waits on, and so does one while a lower-numbered plane offers another. A NOTICE at CTL_NOTICE is numbered and queued while fewer
than 1,024 wait, unless its subject is masked, and elsewhere vanishes. A reply at CTL_CMD joins the egress of
the control port while it is UP, else it is a stray; any other CONTROL packet is discarded with ADDR_ABSENT.
Before a core that is dark, off or clearing a packet is discarded with its credit alone, and one of another
generation leaves nothing but a count and, the first time, GEN_DROP.
Where the rules leave a choice, it is that of assumptions 31, 33. -/
def Obligations.MessagesNoticesAndDiscardsAtTheDestination : Prop := ∀ s n pl p,
  let t := s.takeUp n pl p
  let ws := chainWords p
  let c := s.core n
  let first := ∀ q h, q < pl → h ∈ (s.plane n q).vout → toInbox s n h.pkt = false
  let enters := fun (row : Instr) =>
    (c.accepts = true → first → c.inbox.length + ws.length ≤ 32 → exec row s = .next (((t.setCore n
      { c with inbox := c.inbox ++ ws }).addCount n (pCid p)).wakeParked n)) ∧
    (c.accepts = true → first → 32 < c.inbox.length + ws.length → exec row s = .next (t.setCore n
      { c with inbox := c.inbox ++ ws.take (32 - c.inbox.length),
               admitting := some ⟨pl, p, ws.drop (32 - c.inbox.length)⟩ })) ∧
    ((c.accepts = false ∨ ¬ first) → exec row s = .next s)
  (Reaches s n pl 0x04 1 p → enters (.msg n pl p)) ∧
  (Reaches s n pl 0x14 1 p → enters (.cell n pl p)) ∧
  (pKind p ≠ 0x02 → ws.length = 1 + (pLen p + 63) / 64 ∧
    (∀ i w, ws[i]? = some w → w.bytes.length = 64 ∧ (w.last = true ↔ i + 1 = ws.length)) ∧
    (∀ w, ws[0]? = some w → w.bytes = headerBytes p ++ List.replicate 32 0) ∧
    ∀ i w k, ws[i + 1]? = some w → k < 64 →
      w.bytes.getD k 0 = if 64 * i + k < pLen p then payloadByte p (64 * i + k) else 0) ∧
  (let u := s.wakeParked n
   u = { s with cores := u.cores, regs := u.regs } ∧ CoresSame s u [n] ∧ RegsSame s u [(bCore n).key 0x48] ∧
     u.core n = { c with ctxs := (u.core n).ctxs } ∧
     ∀ i, u.ctx n i = if i < 4 ∧ (s.ctx n i).state = .parked ∧ (s.ctx n i).wait = .inbox
       then { s.ctx n i with state := .ready, wait := .nothing, idle := false, cairn := (s.ctx n i).cairn + 1 }
       else s.ctx n i) ∧
  (Delivered s n pl 0x11 p → aSpace p.h1 ∈ [3, 5, 6, 7] →
    let q := bits (s.reg bCtl 0x18) 32 32
    let subject := noticeCode p / 256
    let masked := subject < 16 ∧ bit (s.reg bCtl 0x08) (16 + subject) = true
    let next := setBits (s.reg bCtl 0x18) 32 32 (q + 1)
    let toPort := siteOf n = 52 ∧ aSpace p.h1 = 5 ∧ aOff p.h1 = 0x0030_8008
    (¬ toPort → exec (.notice n pl p) s = .next t) ∧
    (toPort → masked → exec (.notice n pl p) s = .next t) ∧
    (toPort → ¬ masked → noticesQueued s < 1024 → ∃ f, exec (.notice n pl p) s = .next
        { t.setReg bCtl 0x18 next with lead := { s.lead with egress := s.lead.egress ++ [f] } } ∧
      f = { p with data := f.data } ∧ (pLen p = 32 → p.data.length = 32 → bits (quadAt f.data 0) 32 32 = q ∧
        bits (quadAt f.data 0) 0 32 = bits (quadAt p.data 0) 0 32 ∧ f.data.drop 8 = p.data.drop 8)) ∧
    (toPort → ¬ masked → 1024 ≤ noticesQueued s →
      exec (.notice n pl p) s = .next (t.setReg bCtl 0x18 (satInc next 16 16)))) ∧
  (∀ o rest, s.lead.egress = o :: rest →
    (ctlUp s = true → exec .noticeForward s = .next { s.setLink 8 { s.link 8 with
      egress := (s.link 8).egress ++ [⟨o, none⟩] } with lead := { s.lead with egress := rest } }) ∧
    (ctlUp s = false → exec .noticeForward s = .next s)) ∧
  (pl = planeOf s n p → Delivered s n pl 0x10 p → aSpace p.h1 ∈ [3, 5, 6, 7] →
    let toPort := siteOf n = 52 ∧ aSpace p.h1 = 5 ∧ aOff p.h1 = 0x0030_8000
    (toPort → ctlOp p = 8 → ctlUp s = true → exec (.controlReply n p) s = .next
      { t with lead := { s.lead with egress := s.lead.egress ++ [p] } }) ∧
    (toPort → ctlOp p = 8 → ctlUp s = false →
      exec (.controlReply n p) s = .next (t.setReg bCtl 0x20 (satInc (s.reg bCtl 0x20) 48 16))) ∧
    (¬ toPort → exec (.controlReply n p) s = .next (t.noticeAt n 0x0213 p))) ∧
  (∀ k row, (k, row) ∈ [(0x01, Instr.write n pl p), (0x02, .readReq n pl p), (0x03, .readResp n pl p),
      (0x05, .signal n pl p), (0x06, .mcastWrite n pl p), (0x07, .ack n pl p), (0x08, .redPart n pl p),
      (0x09, .redDone n pl p), (0x0D, .ledgerReply n pl p), (0x18, .fenceCredit n pl p)] →
    Delivered s n pl k p → isCoreNode n = true → aSpace p.h1 = 1 →
    (siteUnpowered s (siteOf n) = true ∨ headerOn s n = false ∨ c.clearing = true →
      exec row s = .next (t.creditDie n pl p)) ∧
    (siteUnpowered s (siteOf n) = false → headerOn s n = true → c.clearing = false → genDiffers s n p = true →
      let drops := s.reg (bSm (siteOf n)) 0x408
      exec row s = .next (if bits drops 16 16 = 0
        then (t.setReg (bSm (siteOf n)) 0x408 (satInc drops 16 16)).noticeDie n 0x0A04 (some p)
        else t.setReg (bSm (siteOf n)) 0x408 (satInc drops 16 16))))


/-! ## Slices and the ledger -/

/-- R211 to R219, R222, R223, R249: a packet for DRAM that finds room waits in its slice's queue, a WRITE being
acknowledged and every access but a READ_REQ closing the merge sets of its lines; one that finds none is
discarded with its credit and OVERFLOWS counts; a place is in use until the response or the ACK has been injected. An
access that may be performed reads or writes its bytes; a READ_REQ that joined the set of a line returns what that set
has read. A closed merge set serves nothing more.

R211, R215, R216: every line that an access reads counts in READS, and where it was corrected or has an uncorrected error
in CORRECTED or UNCORRECTED, the latter with DRAM_UNCORRECTED; the data is as read, and a line that is stored whole has no
error any longer. A kind that the slice does not serve is discarded with its credit and KIND_DROPS counts.

R209, R213, R222, R224, R394: an access may be performed where the slice serves and no earlier one of its queue has a
line in common with it, a ledger operation included, whose lines are among those that count. A slice serves while its
site is powered, its domain runs, its DRAM has been sampled and trained, and it is neither PAUSED nor in self-refresh,
at W3 or deeper or with TRIP set, which MC_THERM shows. The thermal level of a site's slices follows the hottest of
its 64 sensors with 3 degrees of hysteresis; a site without slices reports its sensors, and any sensor trips the panel
at 115 degrees.
An access of no bytes is checked as one of one byte (assumption 32), and what the slice sends goes out on the plane of its
request (assumption 49). Where the rules leave another choice, it is that of assumptions 50, 96, 100 and 103. -/
def Obligations.SlicesQueueMergeAndPerformAccesses : Prop :=
  (∀ s n pl p k row, (k, row) ∈ [(0x01, Instr.write n pl p), (0x02, .readReq n pl p), (0x06, .mcastWrite n pl p),
      (0x08, .redPart n pl p)] → Delivered s n pl k p → isCoreNode n = true → aSpace p.h1 = 0 →
    siteUnpowered s (siteOf n) = false →
    let t := s.takeUp n pl p
    let c := s.slice n
    let inside := aOff p.h1 + max (pLen p) 1 ≤ 0x2000_0000 ∧ (k = 0x08 → aOff p.h1 % 64 = 0)
    let used := fun q : Packet => if pKind q = 0x01 ∨ pKind q = 0x08 then (pLen q + 63) / 64 * 64 else 0
    let due := (c.queue.filter fun r => decide (pKind r.pkt = 0x01 ∧ pAckReq r.pkt = true ∧ r.acked = false)).length
    let room := c.queue.length + c.respOut.length + (c.ackOut.length - due) < 128 ∧ (c.queue.map fun r => used r.pkt).sum + used p ≤ 65536
    let ovf := s.reg (bMc n) 0x30
    let credited := t.setSlice n { c with regOut := c.regOut ++ (creditFor p).toList.map fun q => ⟨q, some pl⟩ }
    (¬ inside → exec row s = .next (credited.noticeDie n 0x0214 (some p))) ∧
    (inside → ¬ room → exec row s = .next (if bits ovf 32 16 = 0
      then (credited.setReg (bMc n) 0x30 (satInc ovf 32 16)).noticeDie n 0x0302 (some p)
      else credited.setReg (bMc n) 0x30 (satInc ovf 32 16))) ∧
    (inside → room → k ≠ 0x02 → ∃ x, exec row s = .next (t.setSlice n x) ∧
      x = { c with queue := c.queue ++ [⟨p, pl, [], false, false⟩], openSets := x.openSets, mcSeen := x.mcSeen
                   setData := x.setData, ackOut := x.ackOut } ∧
      (¬ (k = 0x01 ∧ pAckReq p = true) → x.ackOut = c.ackOut) ∧
      (k = 0x01 ∧ pAckReq p = true → ∃ a, x.ackOut = c.ackOut ++ [⟨a, some pl⟩] ∧ t.ackDie n pl p = t.offer n a (some pl)) ∧
      ∀ l, l ∈ x.openSets ↔ l ∈ c.openSets ∧ rangesMeet [(l, l)] (reqRanges s n p) = false) ∧
    (inside → room → k = 0x02 → ∃ x r, exec row s = .next (t.setSlice n x) ∧
      let win := bits (s.reg (bMc n) 0x10) 0 8
      x = { c with queue := c.queue ++ [r], openSets := x.openSets, mcSeen := x.mcSeen } ∧
      r.pkt = p ∧ r.plane = pl ∧ r.acked = false ∧ r.lines.map Prod.fst = byteLines (aOff p.h1) (pLen p) ∧
      (∀ l own, (l, own) ∈ r.lines → (own = true ↔ win = 0 ∨ l ∉ c.openSets)) ∧
      (∀ l, l ∈ x.openSets ↔ l ∈ c.openSets ∨ win ≠ 0 ∧ l ∈ byteLines (aOff p.h1) (pLen p)) ∧
      (r.shared = true ↔ pMc p = true ∧ bit (s.reg (bMc n) 0x10) 8 = true ∧ win ≠ 0 ∧ 0 < pLen p ∧
        ∃ q ∈ c.mcSeen, q.h1 = p.h1 ∧ pLen q = pLen p ∧ pCid q = pCid p ∧ pGen q = pGen p ∧ pTag q = pTag p ∧
          pGroup q = pGroup p))) ∧
  (∀ s n pl p k row, (k, row) ∈ [(0x04, Instr.msg n pl p), (0x05, .signal n pl p), (0x0C, .ledgerOp n pl p),
      (0x14, .cell n pl p)] → Delivered s n pl k p → isCoreNode n = true → aSpace p.h1 = 0 →
    siteUnpowered s (siteOf n) = false →
    let t := s.takeUp n pl p
    let c := s.slice n
    exec row s = .next (((t.setSlice n { c with
      regOut := c.regOut ++ (creditFor p).toList.map fun q => ⟨q, some pl⟩ }).noticeDie n 0x0304 (some p)).setReg
        (bMc n) 0x30 (satInc (s.reg (bMc n) 0x30) 48 16))) ∧
  (∀ s n i r, isCoreNode n = true → (s.slice n).queue[i]? = some r →
    let c := s.slice n
    let k := pKind r.pkt
    let a := aOff r.pkt.h1
    let len := pLen r.pkt
    let row := exec (.sliceAccess n i) s
    let rest := c.queue.eraseIdx i
    let count := fun (t : State) (off lo more : Nat) =>
      bits (t.reg (bMc n) off) lo 32 = min (2 ^ 32 - 1) (bits (s.reg (bMc n) off) lo 32 + more)
    let lines := (byteLines a len).length
    let part := ((byteLines a len).filter fun l => decide (128 * l < a ∨ a + len < 128 * l + 128)).length
    let cover := fun (ls : List (Nat × Nat)) (l : Nat) => ∃ y ∈ ls, y.1 ≤ l ∧ l ≤ y.2
    let mine := fun q : Packet => cover (reqRanges s n q)
    (mayPerform s n i = true ↔ sliceServes s n = true ∧
      ∀ j q, j < i → c.queue[j]? = some q → ¬ ∃ l, mine q.pkt l ∧ mine r.pkt l) ∧
    (∀ l, k ≠ 0x0C → (mine r.pkt l ↔ l ∈ byteLines a (if k = 0x08 then max 64 len else len))) ∧
    (∀ l, k = 0x0C → bit (s.reg (bLgr n) 0x08) 0 = true →
      l ∈ (ledgerRun s n r.pkt).reads ++ (ledgerRun s n r.pkt).stores → mine r.pkt l) ∧
    ((mayPerform s n i = false ∨ k = 0x0C) → row = .next s) ∧
    (mayPerform s n i = true →
      (k = 0x02 → ∃ t data, row = .next t ∧ SliceReads s t n ((r.lines.filter Prod.snd).map Prod.fst) ∧ data.length = len ∧
        (∀ j, j < len → data.getD j 0 =
          (if r.lines.contains ((a + j) / 128, false) = true
            then (Sparse.find ((a + j) / 128) c.setData).bind fun b => b[(a + j) % 128]? else none).getD (c.dramByte n (a + j))) ∧
        t.slice n = { c with queue := rest, setData := (t.slice n).setData, respOut := c.respOut ++
          (if r.shared = true then [] else [⟨respFor r.pkt data, some r.plane⟩]) } ∧
        (∀ l, (∃ q ∈ rest, (l, false) ∈ q.lines) ∨ l ∈ c.openSets →
          if (l, true) ∈ r.lines then ∃ b, Sparse.find l (t.slice n).setData = some b ∧ b.length = 128 ∧
            ∀ j, j < 128 → b.getD j 0 = c.dramByte n (128 * l + j)
          else Sparse.find l (t.slice n).setData = Sparse.find l c.setData) ∧
        count t 0x20 32 (r.lines.length - (r.lines.filter Prod.snd).length)) ∧
      (k = 0x01 ∨ k = 0x06 → ∃ t, row = .next t ∧
        SliceReads s t n ((byteLines a len).filter fun l => decide (128 * l < a ∨ a + len < 128 * l + 128)) ∧
        c.Stored (t.slice n) rest (byteLines a len) ∧
        (∀ x, (t.slice n).dramByte n x =
          if a ≤ x ∧ x < a + len then payloadByte r.pkt (x - a) else c.dramByte n x) ∧
        count t 0x28 0 lines ∧ count t 0x28 32 part) ∧
      (∀ rec, k = 0x08 → rec.length = max 64 len → (∀ j, j < rec.length → rec.getD j 0 = c.dramByte n (a + j)) →
        let o := redApply r.pkt rec
        ∃ t u v, SliceReads s t n (byteLines a (if o.write.length ≤ 64 then 64 else len)) ∧
          c.Stored (t.slice n) rest (byteLines a o.write.length) ∧ count t 0x28 0 (byteLines a o.write.length).length ∧
          (∀ x, (t.slice n).dramByte n x =
            if a ≤ x ∧ x < a + o.write.length then o.write.getD (x - a) 0 else c.dramByte n x) ∧
          (o.notice = none → u = t) ∧ (∀ code, o.notice = some code → u = t.noticeDie n code (some r.pkt)) ∧
          (o.done = none → v = u) ∧
          (∀ d, o.done = some d → v = u.setSlice n { u.slice n with respOut := (u.slice n).respOut ++ [⟨d, some r.plane⟩] }) ∧
          row = .next v))) ∧
  (∀ s n, let st := siteOf n
    let rests := 3 ≤ wsLevel s ∨ bit (s.reg bPwr 0x10) 8 = true
    (sliceServes s n = true ↔ isCoreNode n = true ∧ siteUnpowered s st = false ∧ domainRuns s st 1 = true ∧
      (s.site st).sampled = true ∧ 2 ≤ bits (s.reg (bSm st) 0x400) 5 3 ∧ (s.site st).dramLevel < 3 ∧ ¬ rests) ∧
    ((s.site st).dramLevel < 4 → bits (readMc s n 0x18) 0 2 = (s.site st).dramLevel ∧
      (bit (readMc s n 0x18) 2 = true ↔ rests) ∧ bits (readMc s n 0x18) 8 8 = (s.site st).dramTemp.toNat ∧
      bits (readMc s n 0x18) 32 16 = bits (s.reg (bMc n) 0x18) 32 16)) ∧
  (∀ s n l, isCoreNode n = true → ∃ x, exec (.mergeSetClose n l) s = .next (s.setSlice n x) ∧
    x = { s.slice n with openSets := (s.slice n).openSets.filter (· ≠ l), mcSeen := x.mcSeen, setData := x.setData } ∧
    ∀ q, q ∈ x.mcSeen ↔ q ∈ (s.slice n).mcSeen ∧ aOff q.h1 / 128 ≠ l) ∧
  (∀ s st temps h, isSite st = true → temps.length = 64 → h < 64 →
    let b : Int := (temps.getD h 0).toInt
    let was := (s.site st).dramLevel
    let up := if 105 ≤ b then 3 else if 95 ≤ b then 2 else if 85 ≤ b then 1 else 0
    let stays := if 102 ≤ b then 3 else if 92 ≤ b then 2 else if 82 ≤ b then 1 else 0
    let now := if was < up then up else min was stays
    let sensors := (List.range 9).map fun k => (bSm st).key (0x300 + 8 * k)
    let enters := isComputeSite st = true ∧ was < 3 ∧ now = 3
    (s.pins.vctl = false → exec (.dramThermalSample st temps) s = .next s) ∧
    (s.pins.vctl = true → (∀ j, j < 64 → (temps.getD j 0).toInt ≤ b) → (∀ j, j < h → (temps.getD j 0).toInt < b) →
      ∃ t, exec (.dramThermalSample st temps) s = .next (if 115 ≤ b then t.trip else t) ∧
      t = { s with regs := t.regs, sites := t.sites, routers := t.routers } ∧ SitesSame s t [st] ∧
      t.site st = (if isComputeSite st = true
        then { s.site st with sampled := true, dramLevel := now, dramTemp := temps.getD h 0 } else s.site st) ∧
      bits (t.reg (bSm st) 0x300) 0 8 = (temps.getD h 0).toNat ∧ bits (t.reg (bSm st) 0x300) 8 6 = h ∧
      (∀ j, j < 64 → bits (t.reg (bSm st) (0x308 + 8 * (j / 8))) (8 * (j % 8)) 8 = (temps.getD j 0).toNat) ∧
      (¬ enters → t.routers = s.routers ∧ RegsSame s t sensors) ∧
      (enters →
        (∀ n, isNode n = true → siteOf n = st → t.reg (bMc n) 0x18 = satInc (s.reg (bMc n) 0x18) 32 16) ∧
        ((s.router (nodeOf st 0)).plain.length < 8 → (t.router (nodeOf st 0)).plain =
          (s.router (nodeOf st 0)).plain ++ [mkNotice s (nodeOf st 0) 0x0303 0 0 0]))))

/-- R211, R213, R216, R225 to R242: a LEDGER_OP waits in the queue of its slice; the oldest one is performed by the
row of its operation (one of a reserved operation by any), answered by one LEDGER_REPLY, and works on the
shard as the tables say: which position holds a key, what is stored there and in its metadata word, what the
reply carries, how LIVE and STASH_LIVE change, and which refusals LGR_ERR counts. One that meets an uncorrected error
changes nothing. The end of an initialisation leaves every metadata word of the shard zero. The keyed hash of a key gives
its shard and its two buckets, and a position its entry and metadata word; a SCAN stops at the first position behind its
last entry, its 4,096th position or the shard's last.
The reply goes out on the plane of its request (assumption 49). Where the rules leave another choice, it is that of
assumptions 38, 50, 51. -/
def Obligations.LedgerOperationsFollowTheTables : Prop :=
  (∀ s n pl p, Delivered s n pl 0x0C p → isCoreNode n = true → aSpace p.h1 = 4 →
    siteUnpowered s (siteOf n) = false → (s.slice n).places < 128 →
    ((s.slice n).queue.map fun r => writeRoom r.pkt).sum ≤ 65536 → ∃ x,
    exec (.ledgerOp n pl p) s = .next ((s.takeUp n pl p).setSlice n x) ∧
    x = { s.slice n with queue := (s.slice n).queue ++ [⟨p, pl, [], false, false⟩]
                         openSets := x.openSets, mcSeen := x.mcSeen, setData := x.setData } ∧
    ∀ l, l ∈ x.openSets ↔ l ∈ (s.slice n).openSets ∧
      rangesMeet [(l, l)] (ledgerRanges s n p (decide (0 < (s.slice n).stashLive))) = false) ∧
  (∀ s n i r k row, (k, row) ∈ [(1, Instr.find n), (2, .findOrInsert n), (3, .update n), (4, .remove n), (5, .scan n)] →
    isCoreNode n = true → (s.slice n).queue[i]? = some r → pKind r.pkt = 0x0C →
    (∀ j q, j < i → (s.slice n).queue[j]? = some q → pKind q.pkt ≠ 0x0C) →
    let c := s.slice n
    let q := readLReq r.pkt
    let mine := q.op = k ∨ q.op = 0 ∨ 6 ≤ q.op
    let o := ledgerRun s n r.pkt
    let rest := c.queue.eraseIdx i
    let touched := (o.reads ++ o.stores).eraseDups
    let reply := fun (m : Packet) (code count : Nat) =>
      pKind m = 0x0D ∧ pClass m = 0 ∧ pLen m = 64 + 64 * count ∧ m.data.length = 64 + 64 * count ∧
      pGen m = pGen r.pkt ∧ pCid m = pRetCc r.pkt ∧ pSeq m = pSeq r.pkt ∧ pStream m = pStream r.pkt ∧
      aSpace m.h1 = 1 ∧ aOff m.h1 = 64 * pLand r.pkt ∧ aNode m.h1 = pSrcNode r.pkt ∧
      aLocal m.h1 = pSrcLocal r.pkt ∧ aPanel m.h1 = pSrcPanel r.pkt ∧ bit m.h2 17 = false ∧
      bits (quadAt m.data 0) 0 8 = code ∧ bits (quadAt m.data 0) 8 4 = q.op ∧
      bits (quadAt m.data 0) 12 4 = q.ledger ∧ bits (quadAt m.data 0) 16 8 = count
    (¬ mine ∨ c.initBusy = true ∨ mayPerform s n i = false → exec row s = .next s) ∧
    (mine → c.initBusy = false → mayPerform s n i = true →
      ((∀ l ∈ touched, l ∉ c.badLines) → ∃ t u m, exec row s = .next t ∧ SliceReads s u n touched ∧
        t = { u with regs := t.regs, slices := t.slices } ∧ RegsSame u t [(bLgr n).key 0x38] ∧ SlicesSame u t [n] ∧
        t.reg (bLgr n) 0x38 = (if 3 ≤ o.reply.code ∧ o.reply.code ≤ 6
          then satInc (s.reg (bLgr n) 0x38) (16 * (o.reply.code - 3)) 16 else s.reg (bLgr n) 0x38) ∧
        reply m o.reply.code o.reply.entries.length ∧ bits (quadAt m.data 8) 32 32 = o.reply.shardHashed % 2 ^ 13 ∧
        bits (quadAt m.data 0) 32 32 = o.reply.epoch % 2 ^ 32 ∧
        bits (quadAt m.data 8) 0 32 = o.reply.cursorNext % 2 ^ 32 ∧
        (o.reply.value.length ≤ 32 → ∀ j, j < 32 → m.data.getD (32 + j) 0 = o.reply.value.getD j 0) ∧
        m.data.drop 64 = o.reply.entries.flatten ∧
        c.Stored { t.slice n with live := c.live, stashLive := c.stashLive, respOut := c.respOut } rest o.stores ∧
        (t.slice n).live = c.live + o.live ∧ (t.slice n).stashLive = c.stashLive + o.stash ∧
        (t.slice n).respOut = c.respOut ++ [⟨m, some r.plane⟩] ∧
        ∀ x, (t.slice n).dramByte n x =
          match o.writes.reverse.find? (fun w => decide (w.1 ≤ x ∧ x < w.1 + w.2.length)) with
          | some w => w.2.getD (x - w.1) 0
          | none => c.dramByte n x) ∧
      ((∃ l ∈ touched, l ∈ c.badLines) → ∃ t m, exec row s = .next t ∧ SliceReads s t n touched ∧ reply m 7 0 ∧
        t.slice n = { c with queue := rest, respOut := c.respOut ++ [⟨m, some r.plane⟩] }))) ∧
  (∀ s n p,
    let c := s.slice n
    let d := shardOf s n
    let q := readLReq p
    let pl := d.places q.key
    let found := c.findKey n d pl.2.1 pl.2.2 q.key
    let word := fun x => c.metaWord n d x
    let stored := fun x => (c.entry n d x).drop 32
    let now := bits (s.reg (bLgr n) 0x28) 0 32
    let cap : Int := bits (s.reg (bLgr n) 0x10) 0 23
    let o := ledgerRun s n p
    let fields := 1 ≤ q.op ∧ q.op ≤ 5 ∧ q.maxEntries ≤ 128 ∧ (q.op ≠ 3 → q.lanes = 0 ∧ q.upsert = false) ∧
      (q.op ≠ 1 → q.noTouch = false) ∧
      (q.op ≠ 5 → q.remove = false ∧ q.epochArg = 0 ∧ q.cursor = 0 ∧ q.maxEntries = 0) ∧
      (q.op = 5 → ∀ b ∈ q.key, b = 0) ∧ (q.op ≠ 2 → q.op ≠ 3 → ∀ b ∈ q.value, b = 0)
    let good := pLen p = 96 ∧ aOff p.h1 = 0x1_0000 ∧ fields
    let here := c.active = true ∧ q.ledger = bits (s.reg (bLgr n) 0x08) 4 4 ∧
      (q.op ≠ 5 → pl.1 = bits (s.reg (bLgr n) 0x08) 16 13)
    let answers := fun (code epoch : Nat) (value : List Byte) (writes : List (Nat × List Byte)) =>
      o.reply.code = code ∧ o.reply.epoch = epoch ∧ o.reply.value = value ∧ o.reply.entries = [] ∧
      o.reply.cursorNext = 0 ∧ o.writes = writes
    let touch := fun x => (d.metaAt x, quadBytes (setBits (word x) 32 32 now))
    let old := fun x => bits (word x) 32 32
    let free := fun j => c.freeSlots n d j
    let inserts := fun (value : List Byte) =>
      (cap ≤ c.live → answers 3 0 [] []) ∧
      (c.live < cap → free pl.2.1 = [] → free pl.2.2 = [] → 1024 ≤ c.stashLive → answers 4 0 [] []) ∧
      (c.live < cap → ∀ x, (c.place n d cap.toNat pl.2.1 pl.2.2).1 = .inl x →
        answers 1 0 value [(d.entryAt x, q.key ++ value), (d.metaAt x, quadBytes (field 0 1 1 ||| field 32 32 now))] ∧
        o.live = 1 ∧ o.stash = (if x < d.slots then 0 else 1) ∧
        (free pl.2.1 ≠ [] → (free pl.2.2).length ≤ (free pl.2.1).length → some x = (free pl.2.1).head?) ∧
        (free pl.2.2 ≠ [] → (free pl.2.1).length < (free pl.2.2).length → some x = (free pl.2.2).head?) ∧
        (free pl.2.1 = [] → free pl.2.2 = [] → c.stashLive < 1024 ∧
          (stashSlots d).find? (fun y => !c.isLive n d y) = some x))
    (∀ x, found = some x ↔ ∃ pre post, c.lookPositions d pl.2.1 pl.2.2 = pre ++ x :: post ∧
      (bit (word x) 0 = true ∧ (c.entry n d x).take 32 = q.key) ∧
      ∀ y ∈ pre, ¬ (bit (word y) 0 = true ∧ (c.entry n d y).take 32 = q.key)) ∧
    (¬ good → answers 5 0 [] [] ∧ o.live = 0 ∧ o.stash = 0) ∧
    (good → ¬ here → answers 6 0 [] [] ∧ o.live = 0 ∧ o.stash = 0 ∧
      o.reply.shardHashed = if q.op = 5 then 0 else pl.1) ∧
    (¬ good ∨ here → o.reply.shardHashed = 0) ∧
    (good → here → q.op ≠ 5 → q.op ≠ 3 → q.op ≠ 2 → found = none → answers 2 0 [] [] ∧ o.live = 0) ∧
    (good → here → q.op = 1 → ∀ x, found = some x → o.live = 0 ∧
      answers 0 (old x) (stored x) (if q.noTouch = true then [] else [touch x])) ∧
    (good → here → q.op = 2 → (∀ x, found = some x → o.live = 0 ∧ answers 0 (old x) (stored x) [touch x]) ∧
      (found = none → inserts q.value)) ∧
    (good → here → q.op = 3 →
      (∀ x, found = some x → o.live = 0 ∧ ∃ v, v = applyLanes q.lanes (stored x) q.value ∧
        answers 0 (old x) v [(d.entryAt x + 32, v), touch x]) ∧
      (found = none → q.upsert = true → inserts (applyLanes q.lanes (List.replicate 32 0) q.value)) ∧
      (found = none → q.upsert = false → answers 2 0 [] [] ∧ o.live = 0)) ∧
    (good → here → q.op = 4 → ∀ x, found = some x → o.live = -1 ∧ o.stash = (if x < d.slots then 0 else -1) ∧
      answers 0 (old x) (stored x) [(d.metaAt x, quadBytes (setBit (word x) 0 false))]) ∧
    (good → here → q.op = 5 → q.maxEntries = 0 → q.cursor ≤ d.slots + 1023 →
      o.reply.code = 0 ∧ o.reply.cursorNext = q.cursor ∧ o.reply.entries = [] ∧ o.writes = []) ∧
    (good → here → q.op = 5 → d.slots + 1023 < q.cursor → answers 5 0 [] []) ∧
    (good → here → q.op = 5 → 0 < q.maxEntries → q.cursor ≤ d.slots + 1023 →
      let older := fun x => bit (word x) 0 = true ∧ 1 ≤ (q.epochArg + 2 ^ 32 - old x) % 2 ^ 32 ∧
        (q.epochArg + 2 ^ 32 - old x) % 2 ^ 32 ≤ 2 ^ 31 - 1
      ∃ (ps : List Nat) (stop : Nat), o.reply.code = 0 ∧ o.reply.entries = ps.map (c.entry n d) ∧ ps.Pairwise (· < ·) ∧
        (∀ x, x ∈ ps ↔ q.cursor ≤ x ∧ x < stop ∧ older x) ∧ ps.length ≤ q.maxEntries ∧
        stop ≤ d.positions ∧ stop ≤ q.cursor + 4096 ∧
        (ps.length = q.maxEntries ∨ stop = d.positions ∨ stop = q.cursor + 4096) ∧
        (∀ y, q.cursor ≤ y → y < stop → (ps.filter fun x => decide (x < y)).length < q.maxEntries) ∧
        o.reply.epoch = 0 ∧ o.reply.value = [] ∧
        o.stash = (if q.remove = true then -((ps.filter fun x => decide (d.slots ≤ x)).length : Int) else 0) ∧
        o.reply.cursorNext = (if stop = d.positions then 0xFFFF_FFFF else stop) ∧
        o.live = (if q.remove = true then -(ps.length : Int) else 0) ∧
        o.writes = (if q.remove = true
          then ps.map fun x => (d.metaAt x, quadBytes (setBit (word x) 0 false)) else []))) ∧
  -- the fields of a request, and what UPDATE makes of a value
  (∀ p : Packet, pLen p = 96 → p.data.length = 96 →
    let q0 := quadAt p.data 0
    let q1 := quadAt p.data 8
    readLReq p = { op := bits q0 0 4, ledger := bits q0 4 4, lanes := bits q0 8 16, upsert := bit q0 24, noTouch := bit q0 25
                   remove := bit q0 26, epochArg := bits q0 32 32, cursor := bits q1 0 32, maxEntries := bits q1 32 8
                   key := (p.data.drop 32).take 32, value := p.data.drop 64 }) ∧
  (∀ (lanes : Nat) (old arg : List Byte), let v := applyLanes lanes old arg
    v.length = 32 ∧ ∀ k, k < 8 →
      let lane := fun l : List Byte => leNat ((l.drop (4 * k)).take 4)
      let op := lanes / 2 ^ (2 * k) % 4
      (op = 0 → lane v = lane old) ∧ (op = 1 → lane v = (lane old + lane arg) % 2 ^ 32) ∧
      (op = 2 → lane v = max (lane old) (lane arg)) ∧ (op = 3 → lane v = lane arg)) ∧
  -- the places of a key, and where they lie
  (∀ (s : State) n key,
    let d := shardOf s n
    let cfg := s.reg (bLgr n) 0x08
    let k0 := s.reg (bLgr n) 0x18
    let k1 := s.reg (bLgr n) 0x20
    let fin := fun x : Word =>
      let y := (x ^^^ (x >>> 30)) * 0xBF58_476D_1CE4_E5B9
      let z := (y ^^^ (y >>> 27)) * 0x94D0_49BB_1331_11EB
      z ^^^ (z >>> 31)
    let h := fun (x : Word) i => fin (x ^^^ quadAt key (8 * i)) + k1
    let H := fin (h (h (h (h k0 0) 1) 2) 3 ^^^ 32)
    let H2 := fin (H ^^^ k1)
    let sh := bits cfg 8 4
    let b := bits cfg 32 5
    let base := bits cfg 40 17 * 4096
    let bucket1 := H.toNat % 2 ^ b
    d.places key = (H.toNat / 2 ^ (64 - sh) % 2 ^ sh, bucket1,
      if H2.toNat % 2 ^ b = bucket1 then bucket1 ^^^ 1 else H2.toNat % 2 ^ b) ∧
    d.slots = 2 ^ b * 8 ∧ d.positions = 2 ^ b * 8 + 1024 ∧
    (∀ j k, j < 2 ^ b → k < 8 → d.entryAt (8 * j + k) = base + 512 * j + 64 * k ∧
      d.metaAt (8 * j + k) = base + 2 ^ b * 512 + 64 * j + 8 * k) ∧
    ∀ x, d.entryAt (d.slots + x) = base + 2 ^ b * 576 + 64 * x ∧
      d.metaAt (d.slots + x) = base + 2 ^ b * 576 + 65536 + 8 * x) ∧
  (∀ (c : Slice) n d x,
    (∀ j, j < 64 → (c.metaWord n d x).getLsbD j = (c.dramByte n (d.metaAt x + j / 8)).getLsbD (j % 8)) ∧
    (c.entry n d x).length = 64 ∧ (∀ j, j < 64 → (c.entry n d x).getD j 0 = c.dramByte n (d.entryAt x + j)) ∧
    (∀ j, c.freeSlots n d j = ((List.range 8).map (8 * j + ·)).filter fun y => !bit (c.metaWord n d y) 0) ∧
    ∀ b1 b2, c.lookPositions d b1 b2 = (List.range 8).map (8 * b1 + ·) ++ (List.range 8).map (8 * b2 + ·) ++
      if 0 < c.stashLive then (List.range 1024).map (d.slots + ·) else []) ∧
  (∀ s n, isCoreNode n = true →
    let c := s.slice n
    let d := shardOf s n
    let cleared := fun x => (d.metaAt 0 ≤ x ∧ x < d.metaAt 0 + 2 ^ d.b * 64) ∨
      (d.metaAt d.slots ≤ x ∧ x < d.metaAt d.slots + 8192)
    (c.initBusy = true → sliceServes s n = true → ∃ t, exec (.shardInitDone n) s = .next t ∧
      t = { s with slices := t.slices, regs := t.regs } ∧ SlicesSame s t [n] ∧ RegsSame s t [(bMc n).key 0x28] ∧
      t.slice n = { c with
        initBusy := false, active := true, dram := (t.slice n).dram, badLines := (t.slice n).badLines,
        corrLines := (t.slice n).corrLines } ∧
      ∀ x, (cleared x → (t.slice n).dramByte n x = 0) ∧ (¬ cleared x → (t.slice n).dramByte n x = c.dramByte n x)) ∧
    (c.initBusy = false ∨ sliceServes s n = false → exec (.shardInitDone n) s = .next s))


/-! ## Registers -/

/-- R29 to R31, R33 to R36, R68, R191, R193, R202: a write sets the RW bits of a register, clears W1C bits,
stages RWS bits and counts them; GO applies a block's staged set whole or not at all and reports it, site-wide
in all 64 routers or in none; DISCARD drops it. A locked IMG block rejects every GO (R286). A register with no
staged value is checked at its active one; each block's agreement conditions are those of Breaks. Reads give what
ReadsFollow says for the fields that follow from other state. A slot or a counter takes the value written, MODE 3
as 0 with SLOT_MODE (0x0103), and the waits on it are tested. A packet's access to several registers of any space acts
on each in turn. Where the rules leave a choice, it is that of assumptions 52, 75, 77, 88, 98, 108 and 111. -/
def Obligations.RegistersAreWrittenStagedAndCommitted : Prop :=
  (∀ s l v, isNode l.node = true →
    (∀ p, place s l.space l.node l.off = some p → locServed s l = true →
      exec (.registerWrite l v) s = .next (s.writePlace p v)) ∧
    ((place s l.space l.node l.off = none ∨ locServed s l = false) → exec (.registerWrite l v) s = .next s)) ∧
  (∀ (s : State) (k : Blk) off v, k.kind ∈ [BlkKind.mc, .lgr, .ctl, .dom] → off ≠ 0 →
    s.writePlace (.reg k off) v = s.plain k off v) ∧
  (∀ s k off v i, regInfo s.birth k off = some i → off ≠ 0 →
    let t := s.plain k off v
    let count := s.reg k 0
    t = { s with regs := t.regs, staged := t.staged } ∧ RegsSame s t [k.key off, k.key 0] ∧
    t.reg k off = ((s.reg k off &&& ~~~ i.rw) ||| (v &&& i.rw)) &&& ~~~ (v &&& i.w1c) ∧
    (i.rws = 0 → t.staged = s.staged ∧ t.reg k 0 = count) ∧
    (i.rws ≠ 0 → t.stagedReg k off = v &&& i.rws ∧ t.reg k 0 = satInc count 16 16 ∧
      ∀ x, x ≠ k.key off → Sparse.find x t.staged = Sparse.find x s.staged)) ∧
  (∀ s, ReadsFollow s) ∧
  (∀ s k off i, regInfo s.birth k off = some i →
    (isStaged s k off = false → eff s k off = s.reg k off) ∧
    (isStaged s k off = true → eff s k off = (s.reg k off &&& ~~~ i.rws) ||| (s.stagedReg k off &&& i.rws))) ∧
  (∀ s k o, o % 8 = 0 → o < 0x1_0000 → (o ∈ blkFails s k ↔ Breaks s k o)) ∧
  (∀ s l k, isNode l.node = true → place s l.space l.node l.off = some (.reg k 0) → k.kind ≠ .siteMisc →
    locServed s l = true →
    let go := exec (.commitGo l) s
    let locked := k.kind = .img ∧ bit (s.reg k 0x20) 1 = true
    let word := s.reg k 0
    let reports := fun (t : State) (status err : Nat) => bits (t.reg k 0) 4 4 = status ∧ bits (t.reg k 0) 32 16 = err
    let keeps := fun (t : State) => RegsSame s t [k.key 0] ∧ bits (t.reg k 0) 16 16 = bits word 16 16 ∧
      bits (t.reg k 0) 48 16 = bits word 48 16
    let inside := fun x => k.key 0 ≤ x ∧ x < k.key 0 + 0x1_0000
    (locked → ∃ t, go = .next t ∧ t = { s with regs := t.regs } ∧ reports t 2 4 ∧ keeps t) ∧
    (¬ locked → bits word 16 16 = 0 → ∃ t, go = .next t ∧ t = { s with regs := t.regs } ∧ reports t 3 0 ∧ keeps t) ∧
    (∀ o, ¬ locked → bits word 16 16 ≠ 0 → o ∈ blkFails s k → (∀ o' ∈ blkFails s k, o ≤ o') → o < 0x1_0000 → ∃ t,
      go = .next t ∧ t = { s with regs := t.regs } ∧ reports t 2 (o / 8) ∧ keeps t) ∧
    (¬ locked → bits word 16 16 ≠ 0 → blkFails s k = [] → ∃ u, go = .next (u.applied s k) ∧
      u = { s with regs := u.regs, staged := u.staged } ∧ reports u 1 0 ∧ bits (u.reg k 0) 16 16 = 0 ∧
      bits (u.reg k 0) 48 16 = (bits word 48 16 + 1) % 2 ^ 16 ∧
      (∀ off, 0 < off → off < 0x1_0000 → u.reg k off = if isStaged s k off then eff s k off else s.reg k off) ∧
      (∀ x, Sparse.find x u.staged = if inside x then none else Sparse.find x s.staged) ∧
      (∀ x, ¬ inside x → Sparse.find x u.regs = Sparse.find x s.regs) ∧
      (k.kind ∈ [BlkKind.stw, .img, .clk] → u.applied s k = u) ∧
      (k.kind = .core → let spins := spinsFull s k.unit = true ∧ (s.core k.unit).clearing = false
        (¬ spins → u.applied s k = u) ∧
        (spins → u.applied s k = u.setCore k.unit { s.core k.unit with fired := true }))) ∧
    (∃ t, exec (.discard l) s = .next t ∧ t = { s with regs := t.regs, staged := t.staged } ∧ reports t 4 0 ∧
      bits (t.reg k 0) 16 16 = 0 ∧ bits (t.reg k 0) 48 16 = bits word 48 16 ∧ RegsSame s t [k.key 0] ∧
      ∀ x, Sparse.find x t.staged = if inside x then none else Sparse.find x s.staged)) ∧
  (∀ s l n, isNode l.node = true → place s l.space l.node l.off = some (.site n 0) → locServed s l = true →
    let ks := siteRtrs (siteOf n)
    let status := fun (t : State) (z : Nat) => ∀ k ∈ ks, bits (t.reg k 0) 4 4 = z
    let commits := ks.map fun k => k.key 0
    ((∀ k ∈ ks, bits (s.reg k 0) 16 16 = 0) → ∃ t, exec (.commitGo l) s = .next t ∧ status t 3 ∧
      t = { s with regs := t.regs } ∧ RegsSame s t commits) ∧
    ((∃ k ∈ ks, bits (s.reg k 0) 16 16 ≠ 0) → (∃ k ∈ ks, blkFails s k ≠ []) → ∃ t,
      exec (.commitGo l) s = .next t ∧ status t 2 ∧ t = { s with regs := t.regs } ∧ RegsSame s t commits ∧
      (∀ k ∈ ks, bits (t.reg k 0) 16 16 = bits (s.reg k 0) 16 16 ∧ bits (t.reg k 0) 48 16 = bits (s.reg k 0) 48 16 ∧
        (blkFails s k = [] → bits (t.reg k 0) 32 16 = 0) ∧
        ∀ o, o ∈ blkFails s k → (∀ o' ∈ blkFails s k, o ≤ o') → o < 0x1_0000 → bits (t.reg k 0) 32 16 = o / 8) ∧
      ∀ k o, FirstOf ks (fun k => blkFails s k ≠ []) k → o ∈ blkFails s k → (∀ o' ∈ blkFails s k, o ≤ o') →
        o < 0x1_0000 → bits (readPlace t (.site n 0)) 32 16 = o / 8) ∧
    ((∃ k ∈ ks, bits (s.reg k 0) 16 16 ≠ 0) → (∀ k ∈ ks, blkFails s k = []) → ∃ t,
      exec (.commitGo l) s = .next t ∧ status t 1 ∧ ∀ k ∈ ks, bits (t.reg k 0) 16 16 = 0 ∧
        bits (t.reg k 0) 48 16 = (bits (s.reg k 0) 48 16 + 1) % 2 ^ 16 ∧
        ∀ off i, 0 < off → off < 0x1_0000 → regInfo s.birth k off = some i →
          t.reg k off &&& i.rws = eff s k off &&& i.rws)) ∧
  (∀ s n sl v, isCoreNode n = true → sl < 64 → coreServed s n = true → (s.core n).clearing = false →
    (∀ j, j < 4 → ¬ ((s.ctx n j).waits = true ∧ ∃ c, (s.ctx n j).wait = .slot sl c)) →
    exec (.slotWrite n sl v) s = .next (if bits v 32 2 = 3
      then (s.setCore n ((s.core n).setSlot sl (setBits v 32 2 0))).noticeDie n 0x0103 none
      else s.setCore n ((s.core n).setSlot sl v))) ∧
  (∀ s n c v, isCoreNode n = true → c < 4096 → coreServed s n = true → (s.core n).clearing = false →
    (∀ j, j < 4 → ¬ ((s.ctx n j).waits = true ∧ waitsCounter c (s.ctx n j).wait = true)) →
    exec (.ccWrite n c v) s = .next (s.setCore n ((s.core n).setCc c (v.truncate 32)))) ∧
  (∀ s n, isCoreNode n = true → coreServed s n = true → (s.core n).clearing = false →
    (∀ sl v, sl < 64 → exec (.slotWrite n sl v) s = .next (s.writePlace (.slot n sl) v)) ∧
    ∀ c v, c < 4096 → exec (.ccWrite n c v) s = .next (s.writePlace (.cc n c) v)) ∧
  (∀ (s : State) n sl v, let three := bits v 32 2 = 3
    let w := if three then setBits v 32 2 0 else v
    ∃ t, SlotTested (s.setCore n ((s.core n).setSlot sl w)) t n sl ∧
      s.writePlace (.slot n sl) v = if three then t.noticeDie n 0x0103 none else t) ∧
  (∀ (s : State) n c v, ∃ u slots links, CountsAdded n u links (s.writePlace (.cc n c) v) ∧
    Tested (s.setCore n ((s.core n).setCc c (v.truncate 32))) u n
      (fun x => (∃ sl, x = .slot sl c) ∨ ∃ thr, x = .count c thr) slots links) ∧
  (∀ s n pl p, let sp := aSpace p.h1
    let compute := siteKind (siteOf n) = .compute ∧ siteUnpowered s (siteOf n) = false
    let cmdPort := sp = 5 ∧ siteOf n = leadSite ∧ aOff p.h1 ∈ [0x0020_8000, 0x8000, ctlCmd, ctlNotice]
    sp = 3 ∨ sp = 7 ∨ (sp = 4 ∧ compute) ∨ (sp = 5 ∧ siteKind (siteOf n) = .steward) ∨
      (sp = 6 ∧ siteKind (siteOf n) = .link) ∨ (sp = 8 ∧ siteKind (siteOf n) = .guest ∧ 0xF000_0000 ≤ aOff p.h1) ∨
      (sp = 2 ∧ compute ∧ headerOn s n = true ∧ genDiffers s n p = false ∧
        ((s.core n).clearing = true → aOff p.h1 + max (pLen p) 1 ≤ 0x1000)) →
    let t := s.takeUp n pl p
    let pt := upPort s n pl p
    let off := aOff p.h1
    let aligned := off % 8 = 0 ∧ pLen p % 8 = 0
    (∀ k row, (k, row) ∈ [(0x01, Instr.write n pl p), (0x02, .readReq n pl p)] → Delivered s n pl k p →
      (k = 0x01 → ¬ cmdPort) → ¬ aligned → exec row s = .next (t.discardAt n pl pt p 0x0215)) ∧
    (Delivered s n pl 0x01 p → ¬ cmdPort → aligned →
      let r := t.writeRegs (aSpace p.h1) n off (pQuads p)
      exec (.write n pl p) s =
        .next ((if r.2 = true then r.1.noticeAt n 0x0216 p else r.1).answer? n pl pt p (ackFor p))) ∧
    (Delivered s n pl 0x02 p → aligned → ∃ data,
      let undefined := ∃ j, j < pLen p / 8 ∧ place s (aSpace p.h1) n (off + 8 * j) = none
      data.length = pLen p ∧
      (∀ j, j < pLen p / 8 → quadAt data (8 * j) = match place s (aSpace p.h1) n (off + 8 * j) with
        | some q => readPlace t q
        | none => 0) ∧
      (undefined → exec (.readReq n pl p) s =
        .next (((t.noticeAt n 0x0216 p).answer n pl pt p (respFor p data)).tick)) ∧
      (¬ undefined → exec (.readReq n pl p) s = .next ((t.answer n pl pt p (respFor p data)).tick))))

/-! ## Control of a core -/

/-- R46, R58, R61 to R65, R163: START makes c0 READY, or HALTED where its HALT bit is 1, at the entry with a zeroed
bank, or is refused with its notice; CLEAR empties the core and its registers, a packet that was being admitted with its credit, and
CLEAR_DONE ends that;
HALT stops contexts and lets them go on; CLEAR_FAULT frees a faulted context, or waits for its operations;
FLUSH empties the inbox chain, after the packet that is being admitted.
Where the rules leave a choice, it is that of assumption 65. -/
def Obligations.CoreControlStartsClearsHaltsAndFlushes : Prop := ∀ s n, isCoreNode n = true → coreServed s n = true →
  let c := s.core n
  let only := fun (t : State) => t = { s with cores := t.cores, regs := t.regs } ∧ CoresSame s t [n]
  let ctl := s.reg (bCore n) 0x18
  (let ready := (∀ i, i < 4 → (s.ctx n i).state = .free) ∧ bit (s.reg (bCore n) 0x30) 16 = true ∧ c.clearDone = true
   (ready → ∃ t, exec (.start n) s = .next t ∧ only t ∧ t.regs = s.regs ∧ t.core n = { c with ctxs := (t.core n).ctxs } ∧
      (∀ j, j ≠ 0 → t.ctx n j = s.ctx n j) ∧ t.ctx n 0 = { s.ctx n 0 with
        state := (if bit ctl 4 = true then .halted else .ready)
        wait := .nothing
        idle := false
        held := false
        wake := false
        clearPending := false
        pc := bits (s.reg (bCore n) 0x28) 3 13 * 8
        gr := (t.ctx n 0).gr
        pr := 0
        vr := []
        outstanding := 0 } ∧ ∀ r, (t.ctx n 0).getG r = 0) ∧
   (¬ ready → exec (.start n) s = .next ((s.setReg (bCore n) 0x20
      (setBits (s.reg (bCore n) 0x20) 13 1 1)).offer n (mkNotice s n 0x0102 0 0 0) none))) ∧
  (c.clearing = true → exec (.clear n) s = .next s) ∧
  (c.clearing = false → ∃ t, exec (.clear n) s = .next t ∧
    t = { s with cores := t.cores, routers := t.routers, regs := t.regs, staged := t.staged } ∧ CoresSame s t [n] ∧
    RoutersSame s t [n] ∧ t.router n = { s.router n with offers := (s.router n).offers ++
      (match c.admitting with
        | some a => ((creditFor a.pkt).map fun x => ⟨x, some a.plane⟩).toList
        | none => []) } ∧
    t.core n = { clearing := true } ∧
    RegsSame s t ([0x00, 0x18, 0x20, 0x28, 0x48, 0x50].map (bCore n).key) ∧
    (∀ off ∈ [0x00, 0x18, 0x20, 0x28, 0x48, 0x50], t.reg (bCore n) off = 0) ∧
    ∀ x, Sparse.find x t.staged = if (bCore n).key 0 ≤ x ∧ x < (bCore n).key 0 + 0x1_0000 then none
      else Sparse.find x s.staged) ∧
  exec (.clearDone n) s = .next (if c.clearing = true
    then s.setCore n { c with clearing := false, clearDone := true } else s) ∧
  (∀ b, ∃ t, exec (.halt n b) s = .next t ∧ only t ∧ t.core n = { c with ctxs := (t.core n).ctxs } ∧
    RegsSame s t [(bCore n).key 0x18, (bCore n).key 0x48] ∧
    t.reg (bCore n) 0x18 = setBits ctl 4 4 b.toNat ∧
    ∀ i, i < 4 →
      let x := s.ctx n i
      let y := t.ctx n i
      let goes := b.getLsbD i = false ∧ bit ctl (4 + i) = true ∧ x.state = .halted
      (b.getLsbD i = true → x.state = .ready ∨ x.state = .parked →
        y = { x with state := .halted, idle := false, held := false }) ∧
      (goes → x.wake = true → y = { x with state := .ready, wake := false }) ∧
      (goes → x.wake = false → x.wait = .nothing → y = { x with state := .ready }) ∧
      (goes → x.wake = false → x.wait ≠ .nothing → (x.wait = .inbox → c.packets = 0) →
        y = { x with state := .parked }) ∧
      (goes → x.wake = false → x.wait = .inbox → 0 < c.packets →
        y = { x with state := .ready, wait := .nothing, cairn := x.cairn + 1 }) ∧
      (¬ goes → (b.getLsbD i = false ∨ x.state = .free ∨ x.state = .faulted ∨ x.state = .halted) → y = x)) ∧
  (∀ b, ∃ t, exec (.clearFault n b) s = .next t ∧ only t ∧ t.regs = s.regs ∧
    t.core n = { c with ctxs := (t.core n).ctxs } ∧
    ∀ i, i < 4 →
      let x := s.ctx n i
      let y := t.ctx n i
      (b.getLsbD i = true → x.state = .faulted → x.outstanding = 0 → y = { x with
        state := .free
        wait := .nothing
        idle := false
        held := false
        wake := false
        clearPending := false
        faultInfo := 0
        faultAddr := 0 }) ∧
      (b.getLsbD i = true → x.state = .faulted → x.outstanding ≠ 0 → y = { x with clearPending := true }) ∧
      (b.getLsbD i = false ∨ x.state ≠ .faulted → y = x)) ∧
  (c.admitting = none → exec (.flush n) s = .next (s.setCore n { c with inbox := [], flushPending := false })) ∧
  (c.admitting ≠ none → exec (.flush n) s = .next (s.setCore n { c with flushPending := true })) ∧
  (c.flushPending = false → exec (.flushComplete n) s = .next s) ∧
  (c.flushPending = true → c.admitting = none →
    exec (.flushComplete n) s = .next (s.setCore n { c with inbox := [], flushPending := false })) ∧
  (∀ a, c.flushPending = true → c.admitting = some a → ∃ x, exec (.flushComplete n) s =
    .next ((((s.setCore n { c with inbox := x, admitting := none }).addCount n (pCid a.pkt)).wakeParked n).modCore n
      fun y => { y with inbox := [], flushPending := false }))


/-! ## Panel images -/

/-- R263 to R283, R285, R287, R291, R292, R419, R425: BEGIN starts a load with the engine empty and its registers at
the start, after it has aborted a load in progress; ABORT and a BEGIN of a load that cannot be end it as FAILED with
their code and IMG_FAILED. A chunk out of place is dropped and counted; another enters the window, where the first
copy of a byte stays, and the engine consumes what stands there without a gap: the header, which is checked in the
order of R279 and clears the cores; then each section that the mode receives, its items as they stand and its hash at
its end. Records, region entries, programs and tiles that break their rules fail the load; the others act as R266 to
R276 and R280 say, and commits follow the hash. A generation advances past 0 and its cores join the region. CHECKING
compares every count: all equal makes the load READY or starts its cores, one above fails it, one below is reported,
set to 0 and repaired, three times. The report of an ATTEST is that of its moment, signed by the scheme of R285 with a
salt and a private exponent that are free values (assumption 13).
Where the rules leave a choice, it is that of assumptions 12, 55 to 57, 91 and 107. -/
def Obligations.ImageLoadsRunThroughTheirStates : Prop := ∀ s : State,
  let g := s.lead.img
  let stat := s.reg bImg 0x10
  let progress := s.reg bImg 0x18
  let state := fun t : State => bits (t.reg bImg 0x10) 0 3
  let error := fun t : State => bits (t.reg bImg 0x10) 8 8
  let takes := bits stat 0 3 = 1 ∨ bits stat 0 3 = 3
  let idle := bits stat 0 3 = 0 ∨ bits stat 0 3 = 5 ∨ bits stat 0 3 = 6 ∨ bits stat 0 3 = 7
  let engine := fun (u : State) (x : ImgEngine) => { u with lead := { u.lead with img := x } }
  -- how a load fails
  (∀ code sec node, code < 256 → LoadFails s (s.imgFail code sec node) code ∧
    let t := s.imgFail code sec node
    bits (t.reg bImg 0x10) 16 9 = sec % 512 ∧
    (bits (t.reg bImg 0x10) 32 14 = match node with
      | some n => n % 16384
      | none => bits stat 32 14) ∧
    (∀ k ∈ g.staged, ∀ off, off < 0x1_0000 → isStaged t k off = false) ∧ s.secFail code node = s.imgFail code g.sec node) ∧
  -- BEGIN and ABORT
  (∀ ctl, bit ctl 0 = false ∨ bit ctl 1 = true → exec (.imgBegin ctl) s = .next s) ∧
  (∀ ctl, bit ctl 0 = true → bit ctl 1 = false → ¬ idle → ∃ u, exec .imgAbort s = .next u ∧
    exec (.imgBegin ctl) s = exec (.imgBegin ctl) u) ∧
  (∀ ctl, bit ctl 0 = true → bit ctl 1 = false → idle →
    let mode := bits ctl 4 2
    let chosen := fun r => rgnValid s r = true ∧ (mode = 0 ∨ mode = 1 ∧ bit ctl (32 + r) = true)
    let can := mode ≠ 3 ∧ (mode = 0 ∨ bits ctl 32 32 ≠ 0)
    (¬ can → ∃ t, exec (.imgBegin ctl) s = .next t ∧ LoadFails s t 0x12) ∧
    (can → ∃ t, exec (.imgBegin ctl) s = .next t ∧ t = { s with regs := t.regs, lead := t.lead } ∧
      t.lead = { s.lead with img := t.lead.img, sigChecked := decide (mode ≠ 0) && s.lead.sigChecked } ∧
      state t = 1 ∧ error t = 0 ∧ bits (t.reg bImg 0x10) 27 2 = 0 ∧
      bit (t.reg bImg 0x10) 26 = bit (s.reg bImg 0x20) 0 ∧ t.reg bImg 0x18 = 0 ∧
      (∀ r, r < 32 → rgnState t r = if chosen r then 1 else rgnState s r) ∧
      (∀ i, i < 8 → t.reg bImg (0xC0 + 8 * i) = if mode = 0 then 0 else s.reg bImg (0xC0 + 8 * i)) ∧
      ∃ prior, t.lead.img =
        { mode := mode, hold := bit ctl 6, plan := bits ctl 8 2, regions := BitVec.ofNat 32 (bits ctl 32 32),
          nextKey := g.nextKey, prior := prior } ∧
        ∀ r, r ∈ prior ↔ r < 32 ∧ chosen r ∧ (rgnState s r = 3 ∨ rgnState s r = 5))) ∧
  (idle → exec .imgAbort s = .next s) ∧
  (¬ idle → ∃ t, exec .imgAbort s = .next t ∧ LoadFails s t 0x0F) ∧
  -- the stream
  (∀ chunk,
    let off := (quadAt chunk 0).toNat
    let data := chunk.drop 8
    let c := bits progress 0 48
    let taken := takes ∧ 16 ≤ chunk.length ∧ chunk.length ≤ 256 ∧
      chunk.length % 8 = 0 ∧ off % 8 = 0 ∧ off < c + 2 ^ 20
    (¬ taken → exec (.imgData chunk) s = .next (s.setReg bImg 0x18 (satInc progress 48 16))) ∧
    (taken → ∃ w, exec (.imgData chunk) s = .next ((engine s { g with window := w }).imgRun imgFuel) ∧
      (∀ o, Sparse.find o w = if (Sparse.find o g.window).isSome = true then Sparse.find o g.window
        else if c ≤ o ∧ off ≤ o ∧ o < off + data.length then data[o - off]? else none) ∧
      (g.waitAdvance = [] → g.hdr.length < hdrBytes → Sparse.find c g.window = none →
        (c < off ∨ off + data.length ≤ c) → exec (.imgData chunk) s = .next (engine s { g with window := w }))) ∧
    (taken → g.waitAdvance = [] → g.window = [] → off = c → g.hdr.length + data.length < hdrBytes →
      c + data.length < 2 ^ 48 → exec (.imgData chunk) s = .next
        (engine (s.setReg bImg 0x18 (setBits progress 0 48 (c + data.length))) { g with hdr := g.hdr ++ data })) ∧
    (taken → g.waitAdvance = [] → g.window = [] → off = c → g.hdr.length < hdrBytes →
      g.hdr.length + data.length = hdrBytes → c + data.length < 2 ^ 48 → exec (.imgData chunk) s = .next
        ((engine (s.setReg bImg 0x18 (setBits progress 0 48 (c + data.length)))
          { g with hdr := g.hdr ++ data }).headerEnd.imgRun (imgFuel - 1)))) ∧
  (s.imgRun 0 = s ∧ ∀ n, s.imgRun (n + 1) = match imgStep s with
    | some t => t.imgRun n
    | none => s) ∧
  (∀ k, let c := bits progress 0 48
    (s.eat k = none ↔ k = 0 ∨ ∀ x ∈ g.window.head?, x.1 ≠ c) ∧
    ∀ b u, s.eat k = some (b, u) → b ≠ [] ∧ b.length ≤ k ∧
      g.window = (b.mapIdx fun i x => (c + i, x)) ++ u.lead.img.window ∧
      (b.length < k → ∀ x ∈ u.lead.img.window.head?, x.1 ≠ c + b.length) ∧
      u = engine (s.setReg bImg 0x18 (setBits progress 0 48 (c + b.length)))
        { g with window := u.lead.img.window }) ∧
  (¬ takes ∨ g.waitAdvance ≠ [] → imgStep s = none) ∧
  (takes → g.waitAdvance = [] → hdrBytes ≤ g.hdr.length →
    let c := bits progress 0 48
    let e := sectionAt g.hdr g.sec
    (sectionCount g.hdr ≤ g.sec → imgStep s = some (s.setReg bImg 0x10 (setBits stat 0 3 2))) ∧
    (g.sec < sectionCount g.hdr →
      (sectionWanted g e = false → imgStep s = some (engine (s.setReg bImg 0x18 (setBits progress 0 48 e.fin))
        { g with
          window := g.window.filter (fun x => decide (e.fin ≤ x.1)), sec := g.sec + 1, body := [], cur := 0
          items := 0, commits := [], touched := [] })) ∧
      (sectionWanted g e = true → c < e.off + e.len → imgStep s = (s.eat (e.off + e.len - c)).map fun x =>
        let v := engine x.2 { x.2.lead.img with body := g.body ++ x.1 }
        let r := v.sectionRun e (g.body ++ x.1).length
        if bits (r.reg bImg 0x18) 0 48 < e.off + e.len then r else r.sectionEnd e))) ∧
  (∀ e : Section, let wanted := sectionWanted g e = true
    let named := g.regions.getLsbD e.region = true
    (g.mode = 0 → wanted) ∧ (g.mode = 1 → (wanted ↔ e.ty ∈ [1, 2, 4] ∨ (e.ty ∈ [8, 9] ∧ named))) ∧
    (g.mode = 2 → (wanted ↔ e.ty = 0x0B ∧ named ∧ e.plan = g.plan))) ∧
  -- the header (R263 to R265, R279, R285, R291)
  (∀ h, tableOk h = true ↔ SectionTable h) ∧
  (∀ h, let f := quadAt h 8
    let magic := quadAt h 0 = 0x444C_5449_4D41_4745 ∧ bits f 0 16 = 1 ∧ bits f 24 40 = 0
    let level := bits f 16 4 ≤ 1 ∧ bits f 20 4 ≤ 1 ∧ quadAt h 0x18 &&& ~~~ 0x1FF = 0
    let serial := quadAt h 0x20 = 0 ∨ quadAt h 0x20 = s.birth.serial
    let key := (h.drop 0x6040).take 520
    let keyed := (∀ i, i < 8 → quadAt (sha512 key) (8 * i) = s.reg bImg (0x40 + 8 * i)) ∧
      beNat (key.drop 512) % 2 = 1 ∧ 3 ≤ beNat (key.drop 512)
    let signed := pssVerify (key.take 512) (key.drop 512) (h.take 0x6280) (h.drop 0x6280) = true
    let policy := bit (s.reg bImg 0x20) 0 = true
    (¬ magic → headerFails s h = some 0x01) ∧ (magic → ¬ level → headerFails s h = some 0x02) ∧
    (magic → level → ¬ serial → headerFails s h = some 0x03) ∧
    (magic → level → serial → ¬ SectionTable h → headerFails s h = some 0x06) ∧
    (magic → level → serial → SectionTable h → (¬ policy → headerFails s h = none) ∧
      (policy → ¬ keyed → headerFails s h = some 0x04) ∧
      (policy → keyed → headerFails s h = if signed then none else some 0x05))) ∧
  (let rs := (loadRegions s).filter (rgnValid s)
   let same := ∀ i, i < 8 → quadAt (sha512 g.hdr) (8 * i) = s.reg bImg (0xC0 + 8 * i)
   let clear := fun (u : State) (sites : List Nat) => (sites.flatMap siteNodes).foldl (fun u n =>
     if coreServed u n = true then (u.setReg (bCore n) 0x30 0).clear n else u) u
   (∀ c, headerFails s g.hdr = some c → s.headerEnd = s.imgFail c 0 none) ∧
   (headerFails s g.hdr = none → (g.mode = 0 → s.headerEnd = clear s (poweredSites s)) ∧
     (g.mode ≠ 0 → ¬ same → s.headerEnd = s.imgFail 0x11 0 none) ∧
     (g.mode = 1 → same → let u := clear s (rs.flatMap (regionSites s))
       s.headerEnd = match firstUnusable u rs with
         | some n => u.imgFail 0x09 0 (some n)
         | none => u) ∧
     (g.mode = 2 → same → s.headerEnd = s))) ∧
  (∀ h st, siteUsable s h st = true ↔ (siteState s st = 2 ∨ siteState s st = 3) ∧ bit (s.reg (bSm st) 0x408) 0 = false ∧
    bits (quadAt h 8) 20 4 ≤ bits (s.reg (bSm st) 0x100) 8 4 ∧
    ∀ i, i < 64 → bit (quadAt h 0x18) i = true → bit (s.reg (bSm st) 0x110) i = true) ∧
  -- sections
  (∀ e : Section, takes → g.cur = 0 → 64 ≤ g.body.length → let q := quadAt g.body 0
    let q1 := quadAt g.body 8
    let count := if e.ty = 8 then bits q 8 16 else if e.ty = 9 ∨ e.ty = 0x0A then bits q 8 24 else bits q 8 32
    let good := bits q 0 8 = e.ty ∧
      (8 ≤ e.ty → if g.mode = 2 then rgnValid s e.region = true else bit (rgnQuad g.rgn e.region 0) 0 = true) ∧
      (e.ty = 1 → e.len = 1600) ∧ (e.ty = 2 → e.len = 2112) ∧
      (e.ty ∈ [3, 4, 5, 6, 7, 0x0B] → e.len = 64 + 16 * count) ∧ (e.ty = 0x0A → e.len = 64 + 32 * count) ∧
      (e.ty = 8 → count ≠ 0) ∧ (e.ty = 0x0B → bits q1 0 5 = e.region ∧ bits q1 8 2 = e.plan)
    let t := if ¬ good then s.secFail 0x08 none else if e.ty = 4 ∧ 4096 < bits q1 0 13 then s.secFail 0x0A none else s
    sectionStep s e = some (engine t { t.lead.img with cur := 64 })) ∧
  (∀ (e : Section) k, takes → g.cur ≠ 0 → g.cur ≠ e.len → itemSize e g.body g.cur = some k →
    (e.len < g.cur + k ∨ itemCount e g.body ≤ g.items → sectionStep s e = some (s.secFail 0x08 none)) ∧
    (g.cur + k ≤ e.len → g.items < itemCount e g.body → g.cur + k ≤ g.body.length → let t := s.itemAct e g.cur
      sectionStep s e = some (engine t { t.lead.img with cur := t.lead.img.cur + k, items := t.lead.img.items + 1 }))) ∧
  (∀ (e : Section) body o, (e.ty = 1 → itemSize e body o = some 8) ∧ (e.ty = 2 → itemSize e body o = some 64) ∧
    (e.ty = 0x0A → itemSize e body o = some 32) ∧ (e.ty ∈ [3, 4, 5, 6, 7, 0x0B] → itemSize e body o = some 16) ∧
    (e.ty ∈ [8, 9] → body.length < o + 64 → itemSize e body o = none) ∧
    (e.ty = 8 → o + 64 ≤ body.length → itemSize e body o = some (64 + roundUp (2 * bits (quadAt body (o + 8)) 32 16) 64 +
      roundUp (8 * bits (quadAt body o) 0 14) 64)) ∧
    (e.ty = 9 → o + 64 ≤ body.length →
      itemSize e body o = some (64 + roundUp (bits (quadAt body (o + 16)) 0 32) 64))) ∧
  (∀ e : Section, takes → (sha512 g.body ≠ e.hash → s.sectionEnd e = s.secFail 0x07 none) ∧
    (sha512 g.body = e.hash → g.cur ≠ e.len ∨ g.items ≠ itemCount e g.body → s.sectionEnd e = s.secFail 0x08 none) ∧
    (sha512 g.body = e.hash → g.cur = e.len → g.items = itemCount e g.body →
      (e.ty = 1 → s.sectionEnd e = if g.mode = 0
        then s.commitRecords ((List.range 192).map fun st => (bRtr (nodeOf st 0), true, nodeOf st 0)) else s) ∧
      (e.ty = 2 → s.sectionEnd e = s.regionsEnd) ∧
      (e.ty ∈ [3, 4, 5, 6, 7, 0x0B] → let applied := (g.mode = 0 ∧ e.ty ≠ 0x0B) ∨ (g.mode = 2 ∧ e.ty = 0x0B)
        (commitsWhole s = false → s.sectionEnd e = s.secFail 0x08 none) ∧
        (commitsWhole s = true → e.ty = 4 → s.sectionEnd e =
          if bits (quadAt g.body 8) 0 13 < ((g.trees.map fun x => x.1 % 4096).eraseDups).length then s.secFail 0x08 none
          else if g.mode = 0 then s.commitRecords g.commits else s) ∧
        (commitsWhole s = true → e.ty ≠ 4 → (e.ty = 5 → ledgerSum (sectionRecords g.body) ≤ 2 ^ 28) →
          s.sectionEnd e = if applied then s.commitRecords g.commits else s) ∧
        (commitsWhole s = true → e.ty = 5 → 2 ^ 28 < ledgerSum (sectionRecords g.body) →
          s.sectionEnd e = s.secFail 0x0A none)) ∧
      (e.ty ∈ [8, 9, 0x0A] → s.sectionEnd e = s))) ∧
  -- register records (R266, R267, R271, R276)
  (∀ ty k off n, (recordAllowed ty (.reg k off) = true ↔ MayWrite ty k.kind off) ∧
    (recordAllowed ty (.site n off) = true ↔ MayWrite ty .rtr off)) ∧
  (∀ ty a v k off, aSpace a ≠ 4 → aLocal a = true → isNode (aNode a) = true →
    place s (aSpace a) (aNode a) (aOff a) = some (.reg k off) →
    let applied := (g.mode = 0 ∧ ty ≤ 7) ∨ (g.mode = 2 ∧ ty = 0x0B)
    let last := k ∈ g.commits.flatMap commitBlks
    (¬ MayWrite ty k.kind off ∨ last ∨ (off = 0 ∧ v ≠ 1) → s.recordAct ty a v = s.secFail 0x08 none) ∧
    (MayWrite ty k.kind off → ¬ last → (off = 0 → v = 1) → (g.mode = 2 → planBad s off v = false) →
      let u := if applied ∧ k ∉ g.touched then s.discardBlk k else s
      let w := if applied ∧ off ≠ 0 then u.plain k off v else u
      ∃ x, s.recordAct ty a v = engine w x ∧
        x = { g with touched := x.touched, commits := x.commits, staged := x.staged, trees := x.trees } ∧ (∀ j, j ∈ x.touched ↔ j ∈ g.touched ∨ j = k) ∧
        x.commits = (if off = 0 then g.commits ++ [(k, false, aNode a)] else g.commits) ∧
        (∀ j, j ∈ x.staged ↔ j ∈ g.staged ∨ (applied ∧ off ≠ 0 ∧ rwsMask s k off ≠ 0 ∧ j = k)) ∧
        x.trees = (if ty = 4 ∧ off ≠ 0 then Sparse.put (4096 * k.unit + (off - 0x8000) / 8) v g.trees else g.trees))) ∧
  (∀ ty a v, aSpace a ≠ 4 → aLocal a = false ∨ isNode (aNode a) = false ∨ place s (aSpace a) (aNode a) (aOff a) = none →
    s.recordAct ty a v = s.secFail 0x08 none) ∧
  (∀ off v, planBad s off v = true ↔ (∃ l, l < 192 ∧ off = 0x400 + 8 * l) ∧ bit v 8 = false ∧
    (bit (quadAt g.body (16 + 8 * (bits v 0 8 / 64))) (bits v 0 8 % 64) = true ∨
      siteUsable s g.hdr (bits v 0 8) = false)) ∧
  (s.commitRecords [] = s ∧ ∀ k n rest, k.kind ≠ .lgr → let u := s.go k
    (bits (u.reg k 0) 4 4 = 2 → s.commitRecords ((k, false, n) :: rest) =
      u.secFail 0x0B (some (if k.kind = .rtr then k.unit else n))) ∧
    (bits (u.reg k 0) 4 4 ≠ 2 → ∃ x, s.commitRecords ((k, false, n) :: rest) = (engine u x).commitRecords rest ∧
      x = { u.lead.img with staged := x.staged } ∧ ∀ j, j ∈ x.staged ↔ j ∈ u.lead.img.staged ∧ j ≠ k)) ∧
  -- SITE_MAP and REGIONS (R268, R269, R419)
  (∀ l v, g.mode ≠ 0 → s.siteMapQuad l v = engine s { g with siteMap := g.siteMap ++ [v] }) ∧
  (∀ l v n, g.mode = 0 → l < 192 → isNode n = true →
    (s.siteMapQuad l v).stagedReg (bRtr n) (0x400 + 8 * l) = v &&& 0x1FF) ∧
  (rgnOk g.rgn = true ↔ RegionEntries g.rgn) ∧
  (¬ RegionEntries g.rgn → s.regionsEnd = s.secFail 0x08 none) ∧
  (RegionEntries g.rgn → g.mode = 1 → ∃ t, s.regionsEnd = t ∧ t = { s with regs := t.regs, lead := t.lead } ∧
    (∀ r, r < 32 → let q := rgnQuad g.rgn r 0
      let w := rgnCfg t r
      let valid := g.regions.getLsbD r = true ∧ bit q 0 = true
      (g.regions.getLsbD r = false → w = rgnCfg s r) ∧
      (r ∈ t.lead.img.waitAdvance ↔ valid) ∧
      (valid → bit w 0 = true ∧ bits w 1 3 = 1 ∧ bits w 8 3 = bits q 1 3 ∧ bits w 11 2 = bits q 4 2 ∧
        bits w 16 16 = bits q 16 16 ∧ bits w 4 4 = (if bits (rgnCfg s r) 4 4 = 0 then 1 else bits (rgnCfg s r) 4 4) ∧
        (r ∈ t.lead.img.first ↔ r ∈ g.first ∨ bits (rgnCfg s r) 4 4 = 0) ∧
        ∀ i, i < 3 → t.reg (bStw 0) (rgnOff r + 8 + 8 * i) = rgnQuad g.rgn r (1 + i)))) ∧
  -- programs and tiles (R270, R272 to R275, R280)
  (∀ (e : Section) o, e.ty = 8 → s.itemAct e o = s.programAct e.region (programAt g.body o)) ∧
  (∀ (e : Section) o, e.ty = 9 → s.itemAct e o = s.tileAct e.region (tileRecAt g.body o)) ∧
  (∀ (e : Section) o, e.ty = 0x0A → let q := quadAt g.body o
    s.itemAct e o = if (bits q 0 4 = 1 ∨ bits q 0 4 = 2) ∧ bit (rgnQuad g.rgn (bits q 20 5) 0) 0 = true then s
      else s.secFail 0x08 none) ∧
  (∀ p, p.ok = true ↔ ProgramHolds p) ∧ (∀ (t : TileRec) rgn r, t.ok rgn r = true ↔ TileRecHolds t rgn r) ∧
  (∀ r t root ms, t < 4096 → loadTree g.trees g.siteMap g.rgn r t = some (root, ms) → siteOf root = 52 ∧
    let entry := fun n w => (4096 * n + t, w) ∈ g.trees ∧ bit w 0 = true
    (∀ n, (∃ w, entry n w ∧ bits w 1 3 = 4) ↔ n = root) ∧ (∀ m ∈ ms, rgnHas g.rgn r (siteOf m) = true) ∧
    ∀ m, m ∈ ms ↔ ∃ n w l, entry n w ∧ bit w 8 = true ∧ unmapSite g.siteMap (siteOf n) = some l ∧
      m = nodeOf l (localOf n)) ∧
  (∀ st l, unmapSite g.siteMap st = some l ↔ l < g.siteMap.length ∧ bit (g.siteMap.getD l 0) 8 = false ∧
    bits (g.siteMap.getD l 0) 0 8 = st ∧
    ∀ j, j < l → ¬ (bit (g.siteMap.getD j 0) 8 = false ∧ bits (g.siteMap.getD j 0) 0 8 = st)) ∧
  (∀ r p, let listed := bit p.q0 44 = true
    let goal := if listed then some (0, p.targets) else loadTree g.trees g.siteMap g.rgn r (bits p.q0 32 12)
    (∀ t, t ∈ p.targets ↔ ∃ i, i < bits p.q1 32 16 ∧ t = leNat ((p.rest.drop (48 + 2 * i)).take 2)) ∧
    p.targets.Nodup ∧
    (¬ ProgramHolds p → s.programAct r p = s.secFail 0x08 none) ∧
    (ProgramHolds p → 4096 < bits p.q1 0 13 → s.programAct r p = s.secFail 0x0A none) ∧
    (ProgramHolds p → bits p.q1 0 13 ≤ 4096 → goal = none → s.programAct r p = s.secFail 0x08 none) ∧
    ∀ root ts, ProgramHolds p → bits p.q1 0 13 ≤ 4096 → goal = some (root, ts) →
      let free := ∀ t ∈ ts, isNode t = true ∧ rgnHas g.rgn r (siteOf t) = true ∧ t ∉ g.targets
      let tree := if listed then none else some (root, bits p.q0 32 12)
      (¬ free → s.programAct r p = s.secFail 0x08 none) ∧
      (free →
        let piece := fun (u : State) (d : Nat × List Byte) =>
          u.sendPiece (rgnLoadCc g.rgn r) (0x0100_0000 + d.1) d.2 tree ts
        let u := (pieces p.code).foldl piece (engine s { g with targets := g.targets ++ ts })
        s.programAct r p = if g.repairing = true then u else ts.foldl (fun (v : State) t => v.writeEntry (bits p.q0 16 13) t) u)) ∧
  (∀ entry t n, reachCore s t = some n →
    s.writeEntry entry t = s.setReg (bCore n) 0x28 (setBits (s.reg (bCore n) 0x28) 3 13 entry)) ∧
  (∀ entry t, reachCore s t = none → takes → s.writeEntry entry t = s.secFail 0x0D (some (namedNode s t))) ∧
  (∀ cc off d t, g.mode ≠ 0 → g.repairing = false → let p : Packet :=
      { h0 := mkH0 kWrite 0 0 d.length cc, h1 := mkAddr 1 true 0 t off, h2 := 0, h3 := imgKey g.nextKey, data := d }
    ∀ tree, s.sendPiece cc off d tree [t] = engine (s.offer leadNode p none) { g with
      nextKey := g.nextKey + 1, loose := g.loose ++ [(p.h3, kWrite)],
      expect := Sparse.put t (Sparse.getD 0 g.expect t + 1) g.expect }) ∧
  (∀ cc off d root t ts, g.mode = 0 → g.repairing = false → let p : Packet :=
      { h0 := mkH0 kMcastWrite 0 0 d.length cc, h1 := mkAddr 1 true 0 0 off, h2 := 0,
        h3 := imgKey g.nextKey ||| field 0 16 t, data := d }
    ∃ m, s.sendPiece cc off d (some (root, t)) ts = engine (s.offer root p none) { g with
      nextKey := g.nextKey + 1, loose := g.loose ++ [(p.h3, kMcastWrite)], expect := m } ∧
      ∀ n, Sparse.getD 0 m n = Sparse.getD 0 g.expect n + ts.count n) ∧
  (∀ cc off d tree t, g.repairing = true → t ∉ g.short → s.sendPiece cc off d tree [t] = s) ∧
  (∀ n off d, g.repairing = false → let p : Packet :=
      { h0 := mkH0 kWrite 0 0 d.length 0, h1 := mkAddr 0 true 0 n off, h2 := field 17 1 1, h3 := imgKey g.nextKey, data := d }
    s.sendDram n off d = engine (s.offer leadNode p none) { g with nextKey := g.nextKey + 1, sent := g.sent ++ [p] }) ∧
  (∀ r t, let goal := if bits t.q0 0 2 = 1 then loadTree g.trees g.siteMap g.rgn r (bits t.q0 8 12)
      else some (0, [aNode t.addr])
    (goal = none ∨ ¬ TileRecHolds t g.rgn r → s.tileAct r t = s.secFail 0x08 none) ∧
    ∀ root ts, goal = some (root, ts) → TileRecHolds t g.rgn r →
      let tree := if bits t.q0 0 2 = 1 then some (root, bits t.q0 8 12) else none
      let send := fun (ps : List (Nat × List Byte)) => ps.foldl (fun (u : State) x =>
        if bits t.q0 0 2 = 2 then u.sendDram (aNode t.addr) (aOff t.addr + x.1) x.2
        else u.sendPiece (rgnLoadCc g.rgn r) (aOff t.addr + x.1) x.2 tree ts) s
      let bad := badTile t.data t.data.length 0
      (bit t.q0 2 = false ∨ bad = none → s.tileAct r t = send (pieces t.data)) ∧
      ∀ o, bit t.q0 2 = true → bad = some o → s.tileAct r t =
        (send ((pieces t.data).filter fun x => decide (x.1 + x.2.length ≤ o))).secFail 0x0C none) ∧
  (∀ d, badTile d d.length 0 = none ↔ TilesFrom d 0) ∧
  (∀ d, pieces d = (List.range ((d.length + 8191) / 8192)).map (fun j => (8192 * j, (d.drop (8192 * j)).take 8192)) ∧
    ((pieces d).map Prod.snd).flatten = d) ∧
  -- generations (R279, R419)
  (∀ r, ¬ (takes ∧ r ∈ g.waitAdvance ∧ (r ∈ g.first ∨ bits (rgnCfg s r) 32 8 = 0)) → exec (.genAdvance r) s = .next s) ∧
  (∀ r, r < 32 → takes → r ∈ g.waitAdvance → (r ∈ g.first ∨ bits (rgnCfg s r) 32 8 = 0) →
    let u := if r ∈ g.first then s else s.advanceGen r
    let j := ((regionSites u r).flatMap siteNodes).foldl (fun u n => u.joinCore r n) u
    (∃ w, u = (if r ∈ g.first then s else s.setReg (bStw 0) (rgnOff r) w) ∧ (r ∉ g.first →
      bits w 4 4 = (if bits (rgnCfg s r) 4 4 = 15 then 1 else bits (rgnCfg s r) 4 4 + 1) ∧
      bits w 32 8 = bits (s.reg (bStw 0) 0x10) 0 8)) ∧
    exec (.genAdvance r) s = .next ((engine j
      { j.lead.img with waitAdvance := j.lead.img.waitAdvance.filter (· != r) }).imgRun imgFuel)) ∧
  (∀ r n, r < 32 → takes → isCoreNode n = true → let q := rgnQuad g.rgn r 0
    let mode := bits q 6 2
    let t := s.joinCore r n
    (coreServed s n = false → t = s.secFail 0x0D (some n)) ∧
    (coreServed s n = true → mode ≠ 3 → (mode = 1 → bits q 8 8 ≠ 0) →
      t = { s with regs := t.regs, staged := t.staged } ∧
      (∀ x, ¬ ((bCore n).key 0 ≤ x ∧ x < (bCore n).key 0 + 0x1_0000) → Sparse.find x t.regs = Sparse.find x s.regs) ∧
      (∀ off, off < 0x1_0000 → off ∉ [0x00, 0x30, 0x38] → t.reg (bCore n) off = s.reg (bCore n) off) ∧
      bits (t.reg (bCore n) 0) 4 4 = 1 ∧
      bits (t.reg (bCore n) 0x30) 0 5 = r ∧ bits (t.reg (bCore n) 0x30) 8 4 = bits (rgnCfg s r) 4 4 ∧
      bit (t.reg (bCore n) 0x30) 16 = true ∧ bits (t.reg (bCore n) 0x38) 0 2 = mode ∧
      bits (t.reg (bCore n) 0x38) 8 8 = bits q 8 8)) ∧
  -- CHECKING, REPAIR and starting (R281, R282)
  (bits stat 0 3 ≠ 2 → exec .loadCheck s = .next s) ∧
  (bits stat 0 3 = 2 →
    let count := fun e : Nat × Nat => (loadCount s e.1).map Prod.snd
    let lost := fun e : Nat × Nat => count e = none
    let above := fun e : Nat × Nat => ∃ k, count e = some k ∧ e.2 < k
    let below := fun e : Nat × Nat => ∃ k, count e = some k ∧ k < e.2
    ((∀ e ∈ g.expect, count e = some e.2) → g.sent = [] → g.hold = true → ∃ t,
      exec .loadCheck s = .next t ∧ t = { s with regs := t.regs, lead := t.lead } ∧ state t = 4 ∧
      t.lead = { s.lead with sigChecked := if g.mode = 0 then bit stat 26 else s.lead.sigChecked } ∧
      ∀ i, i < 8 → t.reg bImg (0xC0 + 8 * i) =
        if g.mode = 0 then quadAt (sha512 g.hdr) (8 * i) else s.reg bImg (0xC0 + 8 * i)) ∧
    ((∀ e ∈ g.expect, count e = some e.2) → g.sent = [] → g.hold = false → g.mode = 2 → g.targets = [] →
      g.prior = [] → (∀ r, r < 32 → rgnState s r ≠ 1) → ∃ t, exec .loadCheck s = .next t ∧ state t = 5 ∧
      t = { s.offer leadNode (mkNotice s leadNode 0x0502 0 0 0) none with regs := t.regs } ∧
      RegsSame s t [bImg.key 0x10]) ∧
    ((∃ e ∈ g.expect, above e) → (∀ e ∈ g.expect, ¬ lost e) → ∃ t,
      exec .loadCheck s = .next t ∧ LoadFails s t 0x0E) ∧
    ((∃ e ∈ g.expect, lost e) → (∀ e ∈ g.expect, ¬ above e) → ∃ t,
      exec .loadCheck s = .next t ∧ LoadFails s t 0x0D) ∧
    ((∀ e ∈ g.expect, ¬ lost e ∧ ¬ above e) → (∃ e ∈ g.expect, below e) ∨ g.sent ≠ [] → ∃ short : List Nat,
      (∀ t, t ∈ short ↔ ∃ e ∈ g.expect, below e ∧ e.1 = t) ∧ let u : State := short.foldl State.loadShort s
      (bits stat 27 2 < 3 → exec .loadCheck s = .next (u.enterRepair short)) ∧
      (bits stat 27 2 = 3 → exec .loadCheck s = .next (u.imgFail 0x0E 0 none))) ∧
    (g.expect = [] → g.sent ≠ [] → bits stat 27 2 = 3 → ∃ t, exec .loadCheck s = .next t ∧ LoadFails s t 0x0E)) ∧
  (∀ t n cc k, reachCore s t = some n → loadCount s t = some (cc, k) →
    (∀ j, j < 4 → ¬ ((s.ctx n j).waits = true ∧ waitsCounter cc (s.ctx n j).wait = true)) →
    let u := s.setReg bImg 0x10 (setBits stat 32 14 n)
    s.loadShort t = (u.offer leadNode (mkNotice s n 0x0504 0 0 0) none).setCore n ((s.core n).setCc cc 0)) ∧
  (∀ short, let i := repairFrom g.hdr
    let t := s.enterRepair short
    t = { s with regs := t.regs, lead := t.lead } ∧ state t = 3 ∧
      bits (t.reg bImg 0x10) 27 2 = min (bits stat 27 2 + 1) 3 ∧
      bits (t.reg bImg 0x18) 0 48 = (sectionAt g.hdr i).off % 2 ^ 48 ∧
      t.lead = { s.lead with img := { g with
        window := [], short := short, repairing := true, targets := [], sec := i, body := [], cur := 0, items := 0
        commits := [], touched := [] } }) ∧
  (∀ h i, let first := fun ty => i < sectionCount h ∧ (sectionAt h i).ty = ty ∧ ∀ j, j < i → (sectionAt h j).ty ≠ ty
    first 8 ∨ ((∀ j, j < sectionCount h → (sectionAt h j).ty ≠ 8) ∧ first 9) → repairFrom h = i) ∧
  (bits stat 0 3 ≠ 4 → exec .release s = .next s) ∧
  (bits stat 0 3 = 4 → g.targets = [] → g.prior = [] → ∃ t, exec .release s = .next t ∧ state t = 5 ∧
    t = { s.offer leadNode (mkNotice s leadNode 0x0502 0 0 0) none with regs := t.regs } ∧
    ∀ r, r < 32 → rgnState t r = if rgnState s r = 1 then 2 else rgnState s r) ∧
  (bits stat 0 3 = 4 → g.targets.Nodup → (∀ q ∈ g.targets, ∃ n, reachCore s q = some n ∧ mayStart s n = true) →
    (∀ q ∈ g.targets, ∀ q' ∈ g.targets, reachCore s q = reachCore s q' → q = q') → ∃ t, exec .release s = .next t ∧
    state t = 5 ∧ (∀ n, t.core n = if ∃ q ∈ g.targets, reachCore s q = some n then (s.start n).core n else s.core n) ∧
    ∀ r, r < 32 → rgnState t r = if rgnState s r = 1 then 2 else rgnState s r) ∧
  (∀ q n, bits stat 0 3 = 4 → g.targets = [q] → reachCore s q = some n → mayStart s n = false → ∃ t,
    exec .release s = .next t ∧ state t = 6 ∧ error t = 0x10 ∧ bits (t.reg bImg 0x10) 32 14 = n % 16384) ∧
  -- attestation (R287)
  (∃ t, exec .attest s = .next t ∧ t = { s.setReg bImg 0x10 (setBits stat 25 1 0) with lead :=
      { s.lead with attBusy := true, report := t.lead.report } } ∧
    let b := t.lead.report
    b.length = 512 ∧ quadAt b 0 = 0x444C_5441_5454_5354 ∧ bits (quadAt b 8) 0 16 = 1 ∧
    bit (quadAt b 8) 16 = s.lead.sigChecked ∧ bit (quadAt b 8) 17 = bit (s.reg bImg 0x20) 1 ∧
    (bit (quadAt b 8) 18 = true ↔ bits stat 0 3 = 4 ∨ bits stat 0 3 = 5) ∧ bits (quadAt b 8) 19 45 = 0 ∧
    quadAt b 0x10 = s.birth.serial ∧ quadAt b 0x18 = 0 ∧
    (∀ i, i < 4 → quadAt b (0x20 + 8 * i) = s.reg bImg (0x100 + 8 * i)) ∧
    (b.drop 0x40).take 64 = sha512 (birthRecord s.birth) ∧
    (bits (s.reg (bStw 0) 0x20) 0 3 = 3 → (b.drop 0x80).take 64 = sha512 s.lead.fwImage) ∧
    (∀ i, i < 8 → quadAt b (0xC0 + 8 * i) = s.reg bImg (0xC0 + 8 * i) ∧
      quadAt b (0x100 + 8 * i) = s.reg bImg (0x40 + 8 * i)) ∧ ∀ i, i < 192 → b.getD (0x140 + i) 0 = 0) ∧
  (s.lead.attBusy = false → exec .attReady s = .next s) ∧
  (s.lead.attBusy = true → ∃ salt d, salt.length = 64 ∧
    let em := pssEncode (sha512 s.lead.report) salt
    let sig := beBytes (modPowBits 4096 (beNat em) d (beNat (padTo 512 s.birth.idKeyN))) 512
    exec .attReady s = .next { s.setReg bImg 0x10 (setBits stat 25 1 1) with lead :=
      { s.lead with attBusy := false, report := s.lead.report ++ sig } })


/-! ## Pass ports -/

/-- R296, R303 to R310, R322, R323: a port's training and lanes. TRAIN starts it unless OPTICS_OFF is 1 or the panel is
held in reset; a training works in the MODE of its start, and one that does not go on awaits frame 0; each state is left when its work ends, for the next one or for DOWN with the reason of R306; where
several reasons hold the port records one of them. Aligned, it sends the far end what R304 names. At UP the transmit width is the largest in 32, 24, 16, 8 that the far end's good lanes
allow, the agreed level is 1 and the agreed mask the AND of both ends, or 0x81 in Q1 mode; PASS_UP (0x0601) is
sent; a retrain from UP or REMAP goes on at the far end's next frame and another training starts at frame 0. DOWN,
OPTICS_OFF, the bound of R305, and 1 ms without ACK while UP take the port to DOWN; 10 µs without ACK sends again
from the oldest frame. Active lanes above LANE_ERR_LIMIT take the port to REMAP, as lanes that the far receiver has
marked bad do; it goes on at the far end's next frame with PASS_LANE_REPAIRED (0x0603) where the widths are as before
and with PASS_WIDTH_STEP (0x0604) where one has fallen.
Where the rules leave a choice, it is that of assumptions 27 and 92. -/
def Obligations.PortsTrainRepairAndGoDown : Prop := ∀ s k, k < 8 →
  let b := bPass k
  let l := s.link k
  let st := portState s k
  let cfg := s.reg b 0x18
  let stat := s.reg b 0x20
  let lanes := fun g : BitVec 34 => (List.range 34).countP fun i => g.getLsbD i
  let width := fun (g : BitVec 34) (w : Nat) =>
    w ∈ [8, 16, 24, 32] ∧ w ≤ lanes g ∧ ∀ v ∈ [8, 16, 24, 32], v ≤ lanes g → v ≤ w
  let floor := 8 * (bits cfg 0 2 + 1)
  let rx : BitVec 34 := (s.reg b 0x38).truncate 34
  let near := fun good : BitVec 34 =>
    let mine : FarEnd :=
      { level := 1, step := 0xA1, feat := 0x1FF, port := BitVec.ofNat 3 k, panel := (s.reg bDom 0x08).truncate 13,
        idValid := bit (s.reg bDom 0x08) 13, q1Mode := l.trainMode, goodRx := good, nextFseq := BitVec.ofNat 12 l.rxSeq }
    { l with sentEnd := some mine }
  let resumed := fun (next : BitVec 12) (r : List Frame) =>
    ((∀ f ∈ l.retry, fSeq f ≠ (next.toNat + 4095) % 4096) → r = l.retry) ∧
    ∀ pre f post, l.retry = pre ++ f :: post → fSeq f = (next.toNat + 4095) % 4096 →
      (∀ g ∈ pre, fSeq g ≠ fSeq f) → r = post
  let moves := fun (u : State) (state : Nat) => u.setReg b 0x20 (setBits (u.reg b 0x20) 0 3 state)
  let keeps := decide (st = 5 ∨ st = 6 ∨ (st ≠ 0 ∧ l.resuming = true))
  let down := fun (c : Instr) (u : State) (reason : Nat) => ∃ t, exec c s = .next t ∧ GoesDown u t k reason
  (bit (s.reg b 0x10) 2 = true ∨ s.pins.resetHeld = true → exec (.passTrain k) s = .next s) ∧
  (bit (s.reg b 0x10) 2 = false → s.pins.resetHeld = false → exec (.passTrain k) s = .next ((moves s 1).setLink k { l with
    resuming := keeps, laserOn := true, laneErrs := [], trainMode := bit cfg 2
    rxSeq := if keeps = true then l.rxSeq else 0 })) ∧
  down (.passCtlDown k) s 1 ∧
  down (.opticsOff k true) ((s.setReg b 0x10 (setBit (s.reg b 0x10) 2 true)).setLink k { l with laserOn := false }) 2 ∧
  exec (.opticsOff k false) s = .next (s.setReg b 0x10 (setBit (s.reg b 0x10) 2 false)) ∧
  (st ≠ 1 → exec (.passOpticsDone k) s = .next s) ∧
  (st = 1 → exec (.passOpticsDone k) s = .next (moves s 2)) ∧
  (∀ light good,
    let u := s.setReg b 0x38 (good.zeroExtend 64)
    (st ≠ 2 → exec (.passLaneLockDone k light good) s = .next s) ∧
    (st = 2 → light = false → down (.passLaneLockDone k light good) u 3) ∧
    (st = 2 → light = true → lanes good < 8 → down (.passLaneLockDone k light good) u 4) ∧
    (st = 2 → light = true → 8 ≤ lanes good →
      exec (.passLaneLockDone k light good) s = .next (moves u 3))) ∧
  (∀ locked, st ≠ 3 ∨ locked = false → exec (.passAlignDone k locked) s = .next s) ∧
  (∀ w, st = 3 → width rx w →
    let u := s.setReg b 0x20 (setBits stat 16 6 w)
    (w < floor → down (.passAlignDone k true) u 9) ∧
    (floor ≤ w → exec (.passAlignDone k true) s = .next ((moves u 4).setLink k (near rx)))) ∧
  (∀ far, st ≠ 4 → exec (.passExchangeDone k far) s = .next s) ∧
  (∀ far : FarEnd, st = 4 →
    let row := exec (.passExchangeDone k far) s
    let u := ((s.setReg b 0x20 (setBits (setBits (setBits stat 22 1 far.idValid.toNat) 24 3 far.port.toNat)
      32 13 far.panel.toNat)).setReg b 0x28 (setBits (setBits (s.reg b 0x28) 0 4 far.level.toNat)
      8 8 far.step.toNat)).setReg b 0x40 (far.goodRx.zeroExtend 64)
    let fails := fun reason : Nat => (reason = 4 ∧ lanes far.goodRx < 8) ∨ (reason = 5 ∧ far.level = 0) ∨
      (reason = 6 ∧ far.q1Mode ≠ l.trainMode) ∨
      (reason = 9 ∧ (lanes rx < 8 ∨ ∃ w, (width far.goodRx w ∨ width rx w) ∧ w < floor))
    ((∃ reason, fails reason) → ∃ t reason, fails reason ∧ row = .next t ∧ GoesDown u t k reason) ∧
    (¬ (∃ reason, fails reason) → ∃ t, row = .next t ∧ portState t k = 5 ∧ (t.link k).q1 = l.trainMode ∧
      (t.link k).egress = (if l.trainMode = true then l.egress.filter fun o => pKind o.pkt == 0x14 else l.egress)) ∧
    (∀ w, ¬ (∃ reason, fails reason) → width far.goodRx w →
      (l.trainMode = true → ∀ o ∈ l.egress, pKind o.pkt = 0x14) → ∃ t, row = .next t ∧
      t = { u with regs := t.regs, links := t.links, routers := t.routers } ∧
      RegsSame u t [b.key 0x20, b.key 0x28, b.key 0x30] ∧ LinksSame s t [k] ∧ RoutersSame s t [linkNode k] ∧
      t.reg b 0x20 = setBits (setBits (u.reg b 0x20) 8 6 w) 0 3 5 ∧ t.reg b 0x28 = setBits (u.reg b 0x28) 4 4 1 ∧
      t.reg b 0x30 = (if l.trainMode = true then 0x81 else 0x1FF &&& far.feat) ∧
      t.router (linkNode k) = { s.router (linkNode k) with
        offers := (s.router (linkNode k)).offers ++ [⟨mkNotice s (linkNode k) 0x0601 0 0 0, none⟩] } ∧
      (t.link k).resuming = false ∧ (t.link k).resend = (t.link k).retry ∧
      (l.resuming = false → (t.link k).txSeq = 0 ∧ (t.link k).rxSeq = 0 ∧ (t.link k).retry = [] ∧
        (t.link k).sentTotal = 0 ∧ (t.link k).freed = 0 ∧ (t.link k).farCredits = 0) ∧
      (l.resuming = true → (t.link k).txSeq = l.txSeq ∧ (t.link k).rxSeq = l.rxSeq ∧
        resumed far.nextFseq (t.link k).retry))) ∧
  (1 ≤ st → st ≤ 4 → down (.passTrainTimeout k) s 7) ∧
  (st = 0 ∨ 4 < st → exec (.passTrainTimeout k) s = .next s) ∧
  (st = 5 → down (.passAckStall k) s 8) ∧
  (st ≠ 5 → exec (.passAckStall k) s = .next s) ∧
  (st = 5 → exec (.passRetryTimeout k) s = .next (s.setLink k { l with resend := l.retry })) ∧
  (st ≠ 5 → exec (.passRetryTimeout k) s = .next s) ∧
  (∀ errs,
    let good := fun j => j < 34 ∧ rx.getLsbD j = true
    let active := fun j => good j ∧ ∃ w, width rx w ∧ ((List.range j).countP fun i => rx.getLsbD i) < w
    let bad := fun j => active j ∧ bits cfg 8 16 ≠ 0 ∧ bits cfg 8 16 < errs.getD j 0
    (st ≠ 5 → exec (.laneErrCheck k errs) s = .next s) ∧
    (st = 5 → (∀ j, ¬ bad j) → exec (.laneErrCheck k errs) s = .next (s.setLink k { l with laneErrs := errs })) ∧
    (st = 5 → (∃ j, bad j) → ∃ v, exec (.laneErrCheck k errs) s =
      .next (moves ((s.setReg b 0x38 v).setLink k { near (v.truncate 34) with laneErrs := errs }) 6) ∧
      ∀ j, j < 64 → (bit v j = true ↔ bit (s.reg b 0x38) j = true ∧ ¬ bad j))) ∧
  (∀ far : FarLanes,
    let row := exec (.remapDone k far) s
    let same := s.reg b 0x40 = far.goodRx.zeroExtend 64
    let takes := (st = 6 ∧ ¬ (l.txFailing = true ∧ same)) ∨ (st = 5 ∧ ¬ same)
    let s0 := if st = 5 then s.setLink k (near rx) else s
    (st ≠ 6 → ¬ takes → row = .next s) ∧
    (st = 6 → ¬ takes → down (.remapDone k far) s 8) ∧
    (takes → (lanes far.goodRx < 8 ∨ lanes rx < 8) → ∃ t u, row = .next t ∧ GoesDown u t k 4 ∧
      u = { s0 with regs := u.regs } ∧ RegsSame s u [b.key 0x40, b.key 0x20]) ∧
    ∀ wt wr, takes → width far.goodRx wt → width rx wr →
      let nt := min (bits stat 8 6) wt
      let nr := min (bits stat 16 6) wr
      let u := (s0.setReg b 0x40 (far.goodRx.zeroExtend 64)).setReg b 0x20 (setBits (setBits stat 8 6 nt) 16 6 nr)
      nt ≠ 0 → nr ≠ 0 →
      ((nt < floor ∨ nr < floor) → down (.remapDone k far)
        (u.offer (linkNode k) (mkNotice s (linkNode k) 0x0604 0 0 0) none) 9) ∧
      (floor ≤ nt → floor ≤ nr → ∃ r, resumed far.nextFseq r ∧ row = .next (((moves u 5).setLink k { s0.link k with
        retry := r, resend := r, rxDiscard := false, fails := 0, naks := 0, nakOut := none, txFailing := false
        laneErrs := [] }).offer (linkNode k) (mkNotice s (linkNode k)
          (if nt = bits stat 8 6 ∧ nr = bits stat 16 6 then 0x0603 else 0x0604) 0 0 0) none)))


/-- R298 to R302, R308, R314, R323, R324, R331: the link layer of the pass ports and of the control port's active pair.
Frames count only while the port is UP; the control port's other pair carries IDLE frames alone. A frame that fails
its CRC, has a reserved type, or is a CELLS frame on the control port is discarded and a NAK is due, one for the frame
that is awaited; the eighth failure of one frame makes the receive direction failing, the eighth NAK of one frame the
transmit direction. A good frame gives its ACK and CREDITS, and the NAKs of an acknowledged frame count no more; a numbered frame acts only where it is the
next in order; the words of a packet join again to the packet, whichever frames they came in; a cell becomes the
CELL packet of the first map entry that takes it. The sender sends a NAK that is due, then frames again, then a
numbered frame where the far buffer has room, and else IDLE; a packet leaves a link die with the source fields of
R314 and the control port as it is. Which lane the FEC statistics name is the model's choice
(assumption 25).
Where the rules leave a choice, it is that of assumptions 26 and 92. -/
def Obligations.FramesAreTakenAndSentInOrder : Prop :=
  (∀ s k, k < 10 →
  let b := bPass k
  let L := linkOf k
  let l := s.link L
  let rows := fun f => [(1, Instr.frameData k f), (2, Instr.frameIdle k f), (3, Instr.frameNak k f),
    (4, Instr.frameCells k f)]
  let known := fun f => fType f ∈ [1, 2, 3] ∨ (fType f = 4 ∧ k < 8)
  let acked := fun (f : Frame) (x y : List Frame) => ((∀ g ∈ x, fSeq g ≠ fAck f) → y = x) ∧
    ∀ pre g post, x = pre ++ g :: post → (∀ h ∈ pre, fSeq h ≠ fAck f) → fSeq g = fAck f → y = post
  let mine := fun (good : BitVec 34) (x : Link) =>
    let e : FarEnd :=
      { level := 1, step := 0xA1, feat := 0x1FF, port := BitVec.ofNat 3 k, panel := (s.reg bDom 0x08).truncate 13,
        idValid := bit (s.reg bDom 0x08) 13, q1Mode := x.trainMode, goodRx := good,
        nextFseq := BitVec.ofNat 12 x.rxSeq }
    { x with sentEnd := some e }
  let remaps := fun (x : Link) (v : Word) => ((s.setReg b 0x38 v).setReg b 0x20
    (setBits (s.reg b 0x20) 0 3 6)).setLink k (mine (v.truncate 34) x)
  let fails := fun (x : Link) (t : State) => if k < 8 then
      (∀ j, namedLane (s.setLink k x) k = some j → t = remaps x (setBit (s.reg b 0x38) j false)) ∧
      (namedLane (s.setLink k x) k = none → GoesDown (s.setLink k x) t k 8)
    else t = (s.setLink 8 x).pairDown k
  let txFails := fun (x : Link) (t : State) => if k < 8 then t = remaps { x with txFailing := true } (s.reg b 0x38)
    else t = (s.setLink 8 x).pairDown k
  let beside := 8 ≤ k ∧ portState s k = 5 ∧ k ≠ activePair s
  let withAck := fun (f : Frame) (r q : List Frame) => { l with
    retry := r, resend := q, farCredits := f.credits
    naks := if ∃ g ∈ r, fSeq g = l.nakSeq then l.naks else 0 }
  (flows s k = true ↔ portState s k = 5 ∧ (k < 8 ∨ k = activePair s)) ∧
  (flows s k = false → ¬ beside → (∀ f, ∀ e ∈ rows f, exec e.2 s = .next s) ∧ exec (.frameSend k) s = .next s) ∧
  (beside → (∀ f, ∀ e ∈ rows f, e.1 ≠ 2 ∨ fType f ≠ 2 ∨ frameOk f = false → exec e.2 s = .next s) ∧
    (∀ f, fType f = 2 → frameOk f = true → ∃ r q, acked f l.retry r ∧ acked f l.resend q ∧
      exec (.frameIdle k f) s = .next (s.setLink 8 (withAck f r q))) ∧
    ∃ f, exec (.frameSend k) s = .next (s.setLink 8 { l with lastOut := some f }) ∧ frameOk f = true ∧ fType f = 2 ∧
      fSeq f = 0 ∧ fAck f = (l.rxSeq + 4095) % 4096 ∧ f.credits = l.freed) ∧
  (∀ f, ∀ e ∈ rows f, known f → fType f ≠ e.1 → exec e.2 s = .next s) ∧
  (∀ f, ∀ e ∈ rows f, flows s k = true → (known f ∧ e.1 = fType f ∧ frameOk f = false ∨ ¬ known f ∧ e.1 = 1) →
    let follows := l.rxDiscard = true ∧ fSeq f ≠ l.rxSeq
    (follows → l.fails < 8 → exec e.2 s = .next (s.setLink L l)) ∧
    (¬ follows → l.fails < 7 → exec e.2 s = .next (s.setLink L { l with
      rxDiscard := true, fails := l.fails + 1, nakOut := some l.rxSeq })) ∧
    (¬ follows → 7 ≤ l.fails → ∃ t, exec e.2 s = .next t ∧
      fails { l with rxDiscard := true, fails := 0, nakOut := some l.rxSeq } t)) ∧
  (∀ f, flows s k = true → known f → frameOk f = true → ∃ r q, acked f l.retry r ∧ acked f l.resend q ∧
    let l1 := withAck f r q
    let l2 := { l1 with rxSeq := (l.rxSeq + 1) % 4096, rxDiscard := false, fails := 0, rxFrames := l.rxFrames + 1 }
    let again := if l.nakSeq = fSeq f ∧ l1.naks ≠ 0 then l1.naks + 1 else 1
    (fType f = 2 → exec (.frameIdle k f) s = .next (s.setLink L l1)) ∧
    (fType f = 1 → fSeq f ≠ l.rxSeq → exec (.frameData k f) s = .next (s.setLink L l1)) ∧
    (fType f = 4 → fSeq f ≠ l.rxSeq → exec (.frameCells k f) s = .next (s.setLink L l1)) ∧
    (fType f = 1 → fSeq f = l.rxSeq → exec (.frameData k f) s = .next (s.setLink L (l2.takeWords f))) ∧
    (fType f = 4 → fSeq f = l.rxSeq → l.q1 = false → exec (.frameCells k f) s = .next (s.setLink L l2)) ∧
    (fType f = 4 → fSeq f = l.rxSeq → l.q1 = true → ∃ u, u = ((List.range 8).filter (fValid f)).foldl
      (fun x i => State.takeCell k x (frameCell f i)) (s.setLink L l2) ∧
      exec (.frameCells k f) s = .next (u.setLink k { u.link k with
        freed := (u.link k).freed + BitVec.ofNat 32 (u.link k).rxFrames, rxFrames := 0 })) ∧
    (fType f = 3 → again < 8 → ∃ a, exec (.frameNak k f) s = .next (s.setLink L { l1 with
        resend := a, nakSeq := fSeq f, naks := again }) ∧
      ((∀ g ∈ r, fSeq g ≠ fSeq f) → a = []) ∧
      ∀ pre g post, r = pre ++ g :: post → (∀ h ∈ pre, fSeq h ≠ fSeq f) → fSeq g = fSeq f → a = g :: post) ∧
    (fType f = 3 → 8 ≤ again → ∃ t, exec (.frameNak k f) s = .next t ∧ txFails { l1 with naks := 0 } t)) ∧
  (flows s k = true →
    let cap := if k < 8 then 4096 else 2048
    let mayNumber := l.retry.length < 2048 ∧ (l.sentTotal % 2 ^ 32 + 2 ^ 32 - l.farCredits.toNat) % 2 ^ 32 < cap
    let stamped := fun f : Frame => frameOk f = true ∧ fAck f = (l.rxSeq + 4095) % 4096 ∧ f.credits = l.freed
    let retries := fun u : State => if k < 8 then u.setReg b 0x48 (satInc (s.reg b 0x48) 0 16)
      else u.setReg bCtl 0x20 (satInc (s.reg bCtl 0x20) 0 16)
    let row := exec (.frameSend k) s
    (∀ q, l.nakOut = some q → ∃ f, row = .next (s.setLink L { l with nakOut := none, lastOut := some f }) ∧
      stamped f ∧ fType f = 3 ∧ fSeq f = q % 4096) ∧
    (∀ g rest, l.nakOut = none → l.resend = g :: rest → ∃ f,
      row = .next (retries (s.setLink L { l with resend := rest, lastOut := some f })) ∧ stamped f ∧
      fType f = fType g ∧ fSeq f = fSeq g ∧ f.data = g.data ∧ bits f.q0 28 36 = bits g.q0 28 36) ∧
    (l.nakOut = none → l.resend = [] → (¬ mayNumber ∨ l.txWords = [] ∧ l.egress = []) → ∃ f,
      row = .next (s.setLink L { l with lastOut := some f }) ∧ stamped f ∧ fType f = 2 ∧ fSeq f = 0) ∧
    (∀ o rest, l.nakOut = none → l.resend = [] → mayNumber → l.txWords = [] → nextEgress l.egress = some (o, rest) →
      linkSlots o.pkt ≤ 4 → nextEgress rest = none → ∃ f, row = .next (s.setLink L { l with
        egress := rest, lastOut := some f, retry := l.retry ++ [f], txSeq := (l.txSeq + 1) % 4096,
        sentTotal := (l.sentTotal + 1) % 2 ^ 32 }) ∧ stamped f ∧ fSeq f = l.txSeq % 4096 ∧
      (l.q1 = true → fType f = 4 ∧ bits f.q0 32 8 = 1 ∧ frameCell f 0 = padTo 32 (pBytes o.pkt)) ∧
      (l.q1 = false → fType f = 1 ∧ bits f.q0 28 4 = 1 ∧ bits f.q0 32 4 = 2 ^ linkSlots o.pkt - 1 ∧
        ∃ p : Packet, p.h0 = o.pkt.h0 ∧ p.h1 = o.pkt.h1 ∧ p.h3 = o.pkt.h3 ∧ p.data = o.pkt.data ∧
          (pSrcLocal o.pkt = false ∨ 8 ≤ k → p.h2 = o.pkt.h2) ∧
          (pSrcLocal o.pkt = true → k < 8 → p.h2 = setBits (setBit o.pkt.h2 59 false) 46 13 (panelId s)) ∧
          ∀ i, i < linkSlots o.pkt → frameWord f i = (linkWords p).getD i [])))) ∧
  (∀ (l : List Offer) pre o post, l = pre ++ o :: post →
    (pClass o.pkt = 1 ∧ (∀ x ∈ pre, pClass x.pkt ≠ 1) ∨ pre = [] ∧ ∀ x ∈ l, pClass x.pkt ≠ 1) →
    nextEgress l = some (o, pre ++ post)) ∧
  (∀ (l : Link) p, p.data.length = (if pKind p = 0x02 then 0 else pLen p) →
    let done := { l with rxWords := [], rxFrames := 0, ingress := l.ingress ++ [⟨p, l.rxFrames, false, false⟩] }
    (linkWords p).length = linkSlots p ∧
    ((linkWords p).drop 1).foldl (fun x w => x.takeWord w false) (l.takeWord ((linkWords p).headD []) true) = done ∧
    ∀ f, linkSlots p ≤ 4 → bits f.q0 32 4 = 2 ^ linkSlots p - 1 → bits f.q0 28 4 = 1 →
      (∀ i, i < linkSlots p → frameWord f i = (linkWords p).getD i []) → l.takeWords f = done) ∧
  (∀ s k (c : List Byte), k < 8 → c.length = 32 →
    let l := s.link k
    let entry := fun i => s.reg (bPass k) (0x100 + 8 * i)
    let takes := fun i => bit (entry i) 58 = true ∧ bits (entry i) 0 16 ≤ bits (quadAt c 0) 0 16 ∧
      bits (quadAt c 0) 0 16 ≤ bits (entry i) 16 16
    (∀ i, i < 8 → takes i → (∀ j, j < i → ¬ takes j) → ∃ p, State.takeCell k s c =
      s.setLink k { l with toInject := l.toInject ++ [⟨p, l.rxFrames, false, false⟩], rxFrames := 0 } ∧
      pKind p = 0x14 ∧ pClass p = 0 ∧ pGen p = 0 ∧ pLen p = 32 ∧ pCid p = bits (entry i) 46 12 ∧ aSpace p.h1 = 1 ∧
      aLocal p.h1 = true ∧ aNode p.h1 = bits (entry i) 32 14 ∧ aOff p.h1 = 0 ∧ pSrcLocal p = false ∧
      pSrcPanel p = bits (s.reg (bPass k) 0x18) 32 13 ∧ pSrcNode p = 0 ∧ pTag p = 0 ∧ p.h3 = 0 ∧ p.data = c) ∧
    ((∀ i, i < 8 → ¬ takes i) →
      let u := s.setReg (bPass k) 0x50 (satInc (s.reg (bPass k) 0x50) 48 8)
      State.takeCell k s c = if bits (s.reg (bPass k) 0x50) 48 8 = 0
        then u.offer (linkNode k) (mkNotice s (linkNode k) 0x060C 0 0 0) none else u))


/-- R300, R302, R310, R313 to R316, R320, R321, R323: a link die. A packet from the mesh takes the steps of R315: the far
window, whose other kinds are discarded with a credit and a notice (R446), another port's packet injected again
unchanged, and the egress queue, which refuses with a credit, a count and, where the count was 0, a notice. A packet from the fibre takes the steps of R316, where a refusal sends no credit;
one that passes them waits for injection, after its ring records. The die injects at the next open node and
plane in rotation, and a packet of the fibre with age 0. An access of the far window crosses the fibre with
H1 local = 1 and its response too (assumption 60).
Where the rules leave a choice, it is that of assumptions 36, 44. -/
def Obligations.LinkDiesCarryPacketsBetweenMeshAndFibre : Prop := ∀ s k pl p, k < 8 → pl < 4 →
  let b := bPass k
  let l := s.link k
  let n := exitNode s k p
  let t := s.takeUp n pl p
  let far := inFarWindow s p.h1
  let egress := exec (.linkDieEgress k pl p) s
  let drop := fun (q : Packet) (off lo len code : Nat) =>
    let v := (t.creditDie n pl q).setReg b off (satInc (s.reg b off) lo len)
    if bits (s.reg b off) lo len = 0 then v.noticeDie (linkNode k) code (some q) else v
  let used := (l.egress.map fun o => 64 * linkSlots o.pkt).sum
  let room := used + 64 * linkSlots p ≤ (if pClass p = 1 then 0x40_0000 else 0x3C_0000)
  let up := portState s k = 5 ∨ portState s k = 6
  let here := siteOf n = linkSite k
  (far = true ↔ addrHere s p.h1 = true ∧ aSpace p.h1 = 6 ∧ 0x0100_0000 ≤ aOff p.h1 ∧ aOff p.h1 ≤ 0x0110_FFFF) ∧
  ((¬ here ∨ far = false ∧ addrHere s p.h1 = true) → egress = .next s) ∧
  (∀ j, here → addrHere s p.h1 = false → egressOf s (aPanel p.h1) = some j → j ≠ k →
    egress = .next ((t.setLink k { l with toInject := l.toInject ++ [⟨p, 0, false, true⟩] }).setReg b 0x50
      (satInc (s.reg b 0x50) 16 16))) ∧
  (here → addrHere s p.h1 = false → (egressOf s (aPanel p.h1) = some k ∨ egressOf s (aPanel p.h1) = none) →
    (¬ up → egress = .next (drop p 0x48 48 16 0x0607)) ∧
    (up → l.q1 = true → pKind p ≠ 0x14 → egress = .next (drop p 0x50 48 8 0x060B)) ∧
    (up → (l.q1 = true → pKind p = 0x14) → ¬ room → egress = .next (drop p 0x48 16 16 0x0605)) ∧
    (up → (l.q1 = true → pKind p = 0x14) → room →
      egress = .next (t.setLink k { l with egress := l.egress ++ [⟨p, some pl⟩] }))) ∧
  (here → far = true → pKind p ≠ 0x01 → pKind p ≠ 0x02 → egress = .next ((t.creditDie n pl p).noticeDie (linkNode k)
    (if pKind p = kLedgerOp then 0x0304 else 0x0213) (some p))) ∧
  (here → far = true → pKind p = 0x01 ∨ pKind p = 0x02 →
    let q := { p with h1 := setBit p.h1 59 true }
    (¬ up → egress = .next (drop q 0x48 48 16 0x0607)) ∧
    (up → l.q1 = false → room → egress = .next (t.setLink k { l with
      egress := l.egress ++ [⟨q, some pl⟩], far := l.far ++ [p] }))) ∧
  (∀ frames own kept v, ((∃ pre post, l.ingress = pre ++ ⟨p, frames, own, kept⟩ :: post ∧ (∀ x ∈ pre, x.pkt ≠ p) ∧
      v = s.setLink k { l with ingress := pre ++ post }) ∨ (∀ x ∈ l.ingress, x.pkt ≠ p) ∧ frames = 0 ∧ v = s) →
    let row := exec (.linkDieIngress k p) s
    let lv := v.link k
    let freed := v.setLink k { lv with freed := lv.freed + BitVec.ofNat 32 frames }
    let refused := fun (off lo len code : Nat) =>
      let w := freed.setReg b off (satInc (s.reg b off) lo len)
      if bits (s.reg b off) lo len = 0 then w.noticeDie (linkNode k) code (some p) else w
    let back := fun (w : State) (q : Packet) =>
      w.setLink k { w.link k with egress := (w.link k).egress ++ [⟨{ q with h1 := setBit q.h1 59 true }, none⟩] }
    let parts := fun src => (∃ i, i < 4 ∧ let w := s.reg b (0x60 + 8 * i)
        bit w 32 = true ∧ bits w 0 13 ≤ src ∧ src ≤ bits w 16 13) ∨
      bit (s.reg b 0x18) 4 = true ∧ src = bits (s.reg bDom 0x08) 16 13
    let fenced := bit (s.reg b 0x18) 3 = true ∧ ¬ parts (pSrcPanel p)
    let answer := aLocal p.h1 = true ∧ ∃ q ∈ l.far, answers p q = true
    let looped := addrHere s p.h1 = false ∧ egressOf s (aPanel p.h1) = some k
    let y := aOff p.h1 - 0x0100_0000
    (∀ pre q post, aLocal p.h1 = true → l.far = pre ++ q :: post → answers p q = true →
      (∀ x ∈ pre, answers p x = false) → ∃ r : Packet, row = .next (v.setLink k { lv with
        far := pre ++ post, toInject := lv.toInject ++ [⟨r, frames, false, false⟩] }) ∧
      r.h0 = p.h0 ∧ r.h3 = p.h3 ∧ r.data = p.data ∧ bits r.h2 30 34 = bits q.h2 30 34 ∧ pTag r = pTag p ∧
      aSpace r.h1 = 1 ∧ aLocal r.h1 = pSrcLocal q ∧ aPanel r.h1 = pSrcPanel q ∧ aNode r.h1 = pSrcNode q) ∧
    (¬ answer → farAccess p = true → bit (s.reg b 0x10) 3 = false → ∀ c, creditFor p = some c →
      row = .next (back freed c)) ∧
    (¬ answer → farAccess p = true → bit (s.reg b 0x10) 3 = true → (y % 8 ≠ 0 ∨ pLen p % 8 ≠ 0) → ∀ c,
      creditFor p = some c → row = .next ((back freed c).noticeDie (linkNode k) 0x0215 (some p))) ∧
    (¬ answer → farAccess p = true → bit (s.reg b 0x10) 3 = true → y % 8 = 0 → pLen p % 8 = 0 →
      (pKind p = 0x02 → let r := readRegs freed 6 (linkNode k) y (pLen p / 8)
        row = .next ({ back (if r.2 = true then freed.noticeDie (linkNode k) 0x0216 (some p) else freed)
          (respFor p r.1) with free := s.free + 1 })) ∧
      (pKind p = 0x01 → let r := freed.writeRegs 6 (linkNode k) y (pQuads p)
        let w := if r.2 = true then r.1.noticeDie (linkNode k) 0x0216 (some p) else r.1
        (∀ a, ackFor p = some a → row = .next (back w a)) ∧ (ackFor p = none → row = .next w))) ∧
    (¬ answer → farAccess p = false → (pSrcLocal p = true ∨ aLocal p.h1 = true) →
      row = .next (refused 0x50 56 8 0x0608)) ∧
    (pSrcLocal p = false → aLocal p.h1 = false → fenced → row = .next (refused 0x48 32 16 0x0609)) ∧
    (pSrcLocal p = false → aLocal p.h1 = false → ¬ fenced → looped → row = .next (refused 0x50 0 16 0x060A)) ∧
    (pSrcLocal p = false → aLocal p.h1 = false → ¬ fenced → ¬ looped → ∃ w : State, w = v.record k p ∧
      row = .next (w.setLink k { w.link k with toInject := (w.link k).toInject ++ [⟨p, frames, false, false⟩] }))) ∧
  (∀ node, isNode node = true →
    let i := localOf node * 4 + pl
    let row := exec (.linkInject k node pl) s
    let opens := fun j => gateOpen s (nodeOf (linkSite k) (j / 4)) (j % 4) = true
    let next := ∃ d, d < 256 ∧ i = (l.rotation + d) % 256 ∧ opens i ∧ ∀ e, e < d → ¬ opens ((l.rotation + e) % 256)
    ((siteOf node ≠ linkSite k ∨ ¬ next ∨ canInject s node pl = false ∨ l.toInject = []) → row = .next s) ∧
    (∀ q rest, siteOf node = linkSite k → next → canInject s node pl = true → l.toInject = q :: rest →
      row = .next ((s.setLink k { l with
        freed := l.freed + BitVec.ofNat 32 q.frames, toInject := rest, rotation := (i + 1) % 256 }).injectFrom node pl
        (if q.own = true ∨ q.kept = true then q.pkt else { q.pkt with h0 := setBits q.pkt.h0 40 8 0 }) true (!q.own))))


/-- R325, R326, R328, R338, R352: the replay rings. A packet that qualifies gets the sequence NEXT_SEQ and is written to
its slot with ACK_REQ = 1, in two WRITEs where its record is above 8,256 bytes, before the packet itself. DURABLE
is the number of leading records all of whose WRITEs are acknowledged; a WRITE that comes back as a credit loses
its record. GO replays COUNT records or is REFUSED; a record is read, checked for its sequence and injected with the
generation of the replay, and the replay ends as DONE, or as STALE at a record that fails. A record is read by a
READ_REQ of 8,192 bytes and, where it is longer, a second one. A response that answers none of its requests, by return tag and H3, is counted (R338).
Where the rules leave a choice, it is that of assumptions 35, 45. -/
def Obligations.RingsRecordAndReplay : Prop :=
  (∀ s u p, u < 12 →
  let cfg := ringReg s u 0
  let area := ringReg s u 1
  let r := s.ring u
  let n := bits cfg 1 7
  let slots := bits area 32 16
  let next := bits (ringReg s u 2) 0 48
  let ctl := ringReg s u 5
  let from_ := bits (ringReg s u 4) 0 48
  let count := bits ctl 0 16
  let place := fun (q b : Nat) => mkAddr 0 true 0 (bits cfg 16 14 + q % n)
    (bits area 0 17 * 4096 + q / n % slots * 8320 + b)
  let reads := fun (a : Packet) (q b len : Nat) => pKind a = 0x02 ∧ pClass a = 0 ∧ pLen a = len ∧ a.h1 = place q b ∧
    a.h2 = 0
  let writes := fun (a : Packet) (q b : Nat) (d : List Byte) => pKind a = 0x01 ∧ pClass a = 0 ∧ pAckReq a = true ∧
    pLen a = d.length ∧ a.data = d ∧ a.h1 = place q b
  let status := fun t : State => bits (ringReg t u 5) 25 3
  let done := fun t : State => bits (ringReg t u 5) 32 16
  let panelHere := aLocal p.h1 = true ∨ (bit (s.reg bDom 0x08) 13 = true ∧
    aPanel p.h1 = bits (s.reg bDom 0x08) 0 13)
  let takes := bit cfg 0 = true ∧ panelHere ∧ pKind p ∈ [0x01, 0x04, 0x14] ∧ bits cfg 32 16 ≤ pStream p ∧
    pStream p ≤ bits cfg 48 16
  let rec_ := ringRecord p next u
  (¬ takes → s.record u p = s) ∧
  (takes → rec_.length ≤ 8256 → ∃ a, RingSends s (s.record u p) u [(a, true)] ∧ writes a next 0 rec_ ∧
    bits (ringReg (s.record u p) u 2) 0 48 = (next + 1) % 2 ^ 48 ∧
    (s.record u p).ring u = { r with nextKey := r.nextKey + 1, pend := r.pend ++ [(a.h3, next)] } ∧
    bits (ringReg (s.record u p) u 3) 0 48 = durable (s.record u p) u) ∧
  (takes → 8256 < rec_.length → pLen p ≤ 8256 → ∃ a b, RingSends s (s.record u p) u [(a, true), (b, true)] ∧
    writes a next 0 (rec_.take 8192) ∧ writes b next 8192 (rec_.drop 8192) ∧
    (s.record u p).ring u =
      { r with nextKey := r.nextKey + 2, pend := r.pend ++ [(a.h3, next), (b.h3, next)] }) ∧
  (pKind p ≠ 0x02 → rec_.length = 64 + (pLen p + 63) / 64 * 64 ∧ quadAt rec_ 0 = setBits p.h0 40 8 0 ∧
    quadAt rec_ 8 = p.h1 ∧ quadAt rec_ 16 = p.h2 ∧ quadAt rec_ 24 = p.h3 ∧ bits (quadAt rec_ 32) 0 64 = next ∧
    quadAt rec_ 40 = BitVec.ofNat 64 u ∧ quadAt rec_ 48 = 0 ∧ quadAt rec_ 56 = 0 ∧
    ∀ i, i < (pLen p + 63) / 64 * 64 → rec_.getD (64 + i) 0 = if i < pLen p then payloadByte p i else 0) ∧
  (durable s u ≤ next ∧ (∀ e ∈ r.pend, durable s u ≤ e.2) ∧ (∀ q ∈ r.lost, durable s u ≤ q) ∧
    (durable s u = next ∨ (∃ e ∈ r.pend, durable s u = e.2) ∨ durable s u ∈ r.lost)) ∧
  (let t := s.ringAck u p.h3
   RingSends s t u [] ∧ t.ring u = { r with pend := r.pend.filter fun e => e.1 != p.h3 } ∧
     bits (ringReg t u 3) 0 48 = durable t u) ∧
  (∀ e, r.pend.find? (fun e => e.1 == p.h3) = some e → e.2 ∉ r.lost → ∃ t, RingSends s t u [] ∧
    t.ring u = { r with pend := r.pend.filter (fun x => x.1 != p.h3), lost := e.2 :: r.lost } ∧
    ringReg t u 2 = satInc (ringReg s u 2) 48 16 ∧
    ∃ v w, s.ringLoss u p.h3 = v ∧ w = t.ringNotice u (if u < 8 then 0x060D else 0x0715) ∧
      v = { w with regs := v.regs } ∧ RegsSame w v [(ringBlk u).key (ringOff u + 24)] ∧
      bits (ringReg v u 3) 0 48 = durable v u) ∧
  ((r.replay ≠ none ∨ bits (ringReg s u 3) 0 48 < from_ + count ∨ from_ + n * slots < next) → ∃ t,
    exec (.ringReplay u) s = .next t ∧ RingSends s t u [] ∧ t.ring u = r ∧ ringReg t u 5 = setBits ctl 25 3 3) ∧
  (r.replay = none → from_ + count ≤ bits (ringReg s u 3) 0 48 → next ≤ from_ + n * slots → ∃ t,
    exec (.ringReplay u) s = .next t ∧ done t = 0 ∧ status t = (if count = 0 then 2 else 1) ∧
    (count = 0 → RingSends s t u [] ∧ t.ring u = r) ∧
    (0 < count → ∃ a, RingSends s t u [(a, true)] ∧ reads a from_ 0 8192 ∧
      t.ring u = { r with nextKey := r.nextKey + 1, replay := some ⟨from_, count, a.h3, []⟩ })) ∧
  (pKind p ≠ 0x03 → exec (.ringReplayRecord u p) s = .next s) ∧
  ((pTag p ≠ 0 ∨ ∀ x, r.replay = some x → x.key ≠ p.h3) → exec (.ringReplayRecord u p) s = .next s) ∧
  (∀ x, pKind p = 0x03 → r.replay = some x → x.key = p.h3 → pTag p = 0 →
    let b := x.got ++ pBytes p
    let need := 64 + (bits (quadAt b 0) 26 14 + 63) / 64 * 64
    let row := exec (.ringReplayRecord u p) s
    let v := s.takeSite (siteOf (ringNode u)) p
    let good := (quadAt b 32).toNat = x.seq
    (40 ≤ b.length → ¬ good → ∃ t, RingSends v t u [] ∧ t.ring u = { r with replay := none } ∧
      ringReg t u 5 = setBits ctl 25 3 4 ∧ row = .next (t.ringNotice u (if u < 8 then 0x060E else 0x0716))) ∧
    (40 ≤ b.length → good → b.length < need → b.length < 8320 → ∃ t a, RingSends v t u [(a, true)] ∧
      row = .next t ∧ reads a x.seq b.length (8320 - b.length) ∧ ringReg t u 5 = ctl ∧
      t.ring u = { r with nextKey := r.nextKey + 1, replay := some ⟨x.seq, x.left, a.h3, b⟩ }) ∧
    (40 ≤ b.length → good → (need ≤ b.length ∨ 8320 ≤ b.length) → ∃ t q, row = .next t ∧
      done t = (bits ctl 32 16 + 1) % 2 ^ 16 ∧
      (x.left ≤ 1 → RingSends v t u [(q, false)] ∧ t.ring u = { r with replay := none } ∧ status t = 2) ∧
      (1 < x.left → ∃ a, RingSends v t u [(q, false), (a, true)] ∧ reads a (x.seq + 1) 0 8192 ∧
        status t = bits ctl 25 3 ∧
        t.ring u = { r with nextKey := r.nextKey + 1, replay := some ⟨x.seq + 1, x.left - 1, a.h3, []⟩ }) ∧
      ∀ o source pad, b = ringRecord o x.seq source ++ pad → o.data.length = pLen o → pKind o ≠ 0x02 →
        q = { o with h0 := if bit ctl 20 = true then setBits (setBits o.h0 40 8 0) 48 4 (bits ctl 16 4)
          else setBits o.h0 40 8 0 }))) ∧
  (∀ s n pl p j, j < 8 → siteOf n = linkSite j → aSpace p.h1 = 1 →
    let t := s.takeUp n pl p
    let stray := t.setLink j { s.link j with strays := (s.link j).strays + 1 }
    (Delivered s n pl 0x07 p →
      exec (.ack n pl p) s = .next (if ringOwes s j p.h3 = true ∧ pTag p = 2 ^ 17 then t.ringAck j p.h3 else stray)) ∧
    (Delivered s n pl 0x18 p → pDkind p = 0x01 →
      exec (.fenceCredit n pl p) s = .next (if ringOwes s j p.h3 = true then t.ringLoss j p.h3 else stray)) ∧
    (∀ r, Delivered s n pl 0x18 p → pDkind p = 0x02 → (s.ring j).replay = some r → r.key = p.h3 → ∃ v,
      RingSends t v j [] ∧ v.ring j = { s.ring j with replay := none } ∧
      ringReg v j 5 = setBits (ringReg s j 5) 25 3 4 ∧ exec (.fenceCredit n pl p) s = .next (v.ringNotice j 0x060E)))


/-! ## The control port -/

/-- R331 to R338, R406: the control port. A CONTROL packet of the fibre is injected at the lead steward; one of
another kind is a stray. A request that breaks R334, or that the bridge does not execute before the firmware
runs, is answered BAD; with 64 outstanding it is answered BUSY; one for the service wiring is performed and
answered at once (assumption 61 for a misaligned one); any other makes one access of class 1 and is outstanding
until its response, its injection or its time limit, and a response that answers none is a stray; a credit for a
packet of the load in progress ends the load (R280). A reserved OP is taken by every one of the three rows. A pair
that is DOWN trains again once the 0.5 s are up, through the states of R303, and needs its four lanes; the logical
port goes on at the far end's next frame, and on the active pair alone. A pair that leaves UP sends CTL_PAIR_DOWN (0x0702), and where the other
pair is UP that pair becomes active, sends again, and CTL_FAILOVER (0x0701) follows.
Where the rules leave a choice, it is that of assumptions 28, 34, 64 and 90. -/
def Obligations.ControlRequestsAreAnswered : Prop :=
  (∀ s p,
    let l := s.link 8
    let stray := fun u : State => u.setReg bCtl 0x20 (satInc (s.reg bCtl 0x20) 48 16)
    let took := fun (frames : Nat) (u : State) =>
      (pKind p = 0x10 → exec (.controlIngress p) s = .next (u.offer leadNode p none)) ∧
      (pKind p ≠ 0x10 → exec (.controlIngress p) s = .next (stray u)) ∧ (u.link 8).freed = l.freed + BitVec.ofNat 32 frames
    ((∀ x ∈ l.ingress, x.pkt ≠ p) → took 0 (s.setLink 8 { l with freed := l.freed + 0 })) ∧
    (∀ pre post frames own kept, l.ingress = pre ++ ⟨p, frames, own, kept⟩ :: post → (∀ x ∈ pre, x.pkt ≠ p) →
      took frames (s.setLink 8 { l with ingress := pre ++ post, freed := l.freed + BitVec.ofNat 32 frames }))) ∧
  (∀ s p op row, (op, row) ∈ [(1, Instr.regRead p), (2, .regWrite p), (3, .blockWrite p)] →
    let c0 := quadAt (pBytes p) 0
    let c1 := quadAt (pBytes p) 8
    let has := bits c0 0 4
    let count := bits c0 8 8
    let atPort := addrHere s p.h1 = true ∧ aSpace p.h1 = 5 ∧ aOff p.h1 = 0x0030_8000 ∧ siteOf (aNode p.h1) = 52
    let mine := pKind p = 0x10 ∧ atPort ∧ has ≠ 8 ∧ (has = op ∨ has = 0 ∨ 3 < has)
    let formed := pClass p = 1 ∧ pGen p = 0 ∧ pCid p = 0 ∧ pGroup p = 0 ∧ pTag p = 0 ∧ 1 ≤ has ∧ has ≤ 3 ∧ 1 ≤ count ∧
      count ≤ 28 ∧ bits c0 4 4 = 0 ∧ bits c0 16 16 = 0 ∧ quadAt (pBytes p) 16 = 0 ∧ quadAt (pBytes p) 24 = 0 ∧
      pLen p = 32 + if has = 1 then 0 else 8 * count
    let early := addrHere s c1 = true ∧ (aSpace c1 = 5 ∨ aSpace c1 = 7) ∧ siteOf (aNode c1) = 52
    let runs := bits (s.reg (bStw 0) 0x20) 0 3 = 3 ∨ early
    let wiring := addrHere s c1 = true ∧ aSpace c1 = 7 ∧ aNode c1 < 12288
    let z := nodeOf (siteOf (aNode c1)) 0
    let t := s.takeSite 52 p
    let reply := fun (u : State) (status : Nat) (data : List Byte) => u.offer leadNode (controlReply p status data) none
    (¬ mine → exec row s = .next s) ∧
    (mine → (¬ formed ∨ ¬ runs) →
      exec row s = .next (reply (t.setReg bCtl 0x20 (satInc (s.reg bCtl 0x20) 16 16)) 2 [])) ∧
    (mine → formed → runs → 64 ≤ s.lead.reqs.length → exec row s = .next (reply t 3 [])) ∧
    (mine → formed → runs → s.lead.reqs.length < 64 → ¬ wiring → ∃ a key, exec row s = .next
        ({ t with lead := { s.lead with reqs := s.lead.reqs ++ [(⟨p, key⟩ : CtlReq)], ctlKey := s.lead.ctlKey + 1 } }.offer
          leadNode a none) ∧ a.h1 = c1 ∧ a.h3 = key ∧ pClass a = 1 ∧ pLen a = 8 * count ∧ pGen a = 0 ∧
      (op = 1 → pKind a = 0x02 ∧ a.data = [] ∧ a.h2 = 0) ∧
      (op ≠ 1 → pKind a = 0x01 ∧ a.data = (pBytes p).drop 32 ∧ pAckReq a = (op == 2))) ∧
    (mine → formed → runs → s.lead.reqs.length < 64 → wiring → aOff c1 % 8 = 0 →
      (op = 1 → let r := readRegs t 7 (aNode c1) (aOff c1) count
        exec row s = .next { reply (if r.2 = true then t.noticePlain z 0x0216 none else t) 0 r.1 with
          free := s.free + 1 }) ∧
      (op ≠ 1 → let r := t.writeRegs 7 (aNode c1) (aOff c1) (toQuads ((pBytes p).drop 32))
        exec row s = .next (reply (if r.2 = true then r.1.noticePlain z 0x0216 none else r.1) 0 []))) ∧
    (mine → formed → runs → s.lead.reqs.length < 64 → wiring → aOff c1 % 8 ≠ 0 → ∃ u data,
      exec row s = .next (reply (u.noticePlain z 0x0215 none) 0 data) ∧ u = t)) ∧
  (∀ (p : Packet) status data,
    let q := controlReply p status data
    status < 256 → 32 + data.length < 2 ^ 14 →
    pKind q = 0x10 ∧ pClass q = 1 ∧ pGen q = 0 ∧ pCid q = 0 ∧ pLen q = 32 + data.length ∧ q.h3 = p.h3 ∧ pTag q = 0 ∧
    aSpace q.h1 = 5 ∧ aOff q.h1 = 0x0030_8000 ∧ aNode q.h1 = pSrcNode p ∧ aLocal q.h1 = pSrcLocal p ∧
    aPanel q.h1 = pSrcPanel p ∧ bits (quadAt q.data 0) 0 4 = 8 ∧
    bits (quadAt q.data 0) 8 8 = bits (quadAt (pBytes p) 0) 8 8 ∧ bits (quadAt q.data 0) 16 8 = status ∧
    bits (quadAt q.data 0) 24 4 = bits (quadAt (pBytes p) 0) 0 4 ∧
    bits (quadAt q.data 0) 32 32 = bits (quadAt (pBytes p) 0) 32 32 ∧ quadAt q.data 8 = quadAt (pBytes p) 8 ∧
    quadAt q.data 16 = 0 ∧ quadAt q.data 24 = 0 ∧ q.data.drop 32 = data) ∧
  (∀ (s : State) (r : CtlReq) pre post, s.lead.reqs = pre ++ r :: post →
    let u := { s with lead := { s.lead with reqs := s.lead.reqs.filter fun x => x.key != r.key } }
    let answered := fun (v : State) status data => v.offer leadNode (controlReply r.pkt status data) none
    let first := fun op => ∀ x ∈ pre, ¬ (ctlOp x.pkt = op ∧ x.key = r.key)
    (ctlOp r.pkt ≠ 3 → exec (.ctlRequestTimeout pre.length) s =
      .next ((answered u 4 []).setReg bCtl 0x20 (satInc (s.reg bCtl 0x20) 32 16))) ∧
    (ctlOp r.pkt = 3 → exec (.ctlRequestTimeout pre.length) s = .next s) ∧
    (∀ p, p.h3 = r.key →
      (pKind p = 0x03 → ctlOp r.pkt = 1 → first 1 → pTag p = 0 → s.stewardResponse p = answered u 0 (pBytes p)) ∧
      (pKind p = 0x07 → ctlOp r.pkt = 2 → first 2 → pTag p = 2 ^ 17 → s.stewardResponse p = answered u 0 []) ∧
      (pKind p = 0x18 → pDkind p = 0x02 → ctlOp r.pkt = 1 → first 1 → s.stewardResponse p = answered u 1 []) ∧
      (pKind p = 0x18 → pDkind p = 0x01 → ctlOp r.pkt = 2 → first 2 → s.stewardResponse p = answered u 1 []) ∧
      (pKind p = 0x01 → ctlOp r.pkt = 3 → first 3 → s.bridgeInjected p = answered u 0 []))) ∧
  (∀ s i, s.lead.reqs.length ≤ i → exec (.ctlRequestTimeout i) s = .next s) ∧
  (∀ s n pl p k row, (k, row) ∈ [(0x03, Instr.readResp n pl p), (0x07, .ack n pl p), (0x18, .fenceCredit n pl p)] →
    Delivered s n pl k p → siteOf n = 52 → aSpace p.h1 = 1 →
    let t := s.takeUp n pl p
    exec row s = .next (t.stewardResponse p) ∧
    ((∀ x ∈ s.lead.reqs, x.key ≠ p.h3) → (∀ x ∈ s.lead.img.sent, x.h3 ≠ p.h3) → imgOwns s p = false →
      t.stewardResponse p = t.setReg bCtl 0x20 (satInc (s.reg bCtl 0x20) 48 16)) ∧
    ((∀ x ∈ s.lead.reqs, x.key ≠ p.h3) → pKind p = 0x18 → imgOwns s p = true → t.stewardResponse p =
      t.imgFail 0x0D 0 (some ((translate s leadNode (pSrcNode p)).getD (pSrcNode p))))) ∧
  (∀ (s : State) p, imgOwns s p = true ↔ 1 ≤ bits (s.reg bImg 0x10) 0 3 ∧ bits (s.reg bImg 0x10) 0 3 ≤ 4 ∧
    ((∃ q ∈ s.lead.img.sent, q.h3 = p.h3 ∧ pDkind p = pKind q) ∨ (p.h3, pDkind p) ∈ s.lead.img.loose)) ∧
  (∀ s n pl p k row q, (k, row) ∈ [(0x03, Instr.readResp n pl p), (0x07, .ack n pl p), (0x18, .fenceCredit n pl p)] →
    Delivered s n pl k p → 1 ≤ q → q < 4 → siteOf n = stewardSite q → aSpace p.h1 = 1 →
    exec row s = .next ((s.takeUp n pl p).setSteward q { s.steward q with strays := (s.steward q).strays + 1 })) ∧
  (∀ (s : State) (b up : Bool),
    let k := 8 + b.toNat
    let lo := 4 * b.toNat
    let l := s.link 8
    let stat := s.reg bCtl 0x10
    let other := bits stat (4 - lo) 3
    let active := bits stat 8 1
    let row := exec (.ctlPairRetrain b up) s
    let isUp := setBits stat lo 3 5
    let down := setBits stat lo 3 0
    let resumes := fun (next : BitVec 12) (w : Word) (u : State) => ∃ r, u = (s.setReg bCtl 0x10 w).setLink 8 { l with
        retry := r, resend := r, rxDiscard := false, fails := 0, naks := 0, nakOut := none, txFailing := false } ∧
      ((∀ f ∈ l.retry, fSeq f ≠ (next.toNat + 4095) % 4096) → r = l.retry) ∧
      ∀ pre f post, l.retry = pre ++ f :: post → fSeq f = (next.toNat + 4095) % 4096 →
        (∀ g ∈ pre, fSeq g ≠ fSeq f) → r = post
    let fell := (s.setReg bCtl 0x10 down).offer leadNode (mkNotice s leadNode 0x0702 (field 0 1 b.toNat) 0 0) none
    (portState s k = bits stat lo 3 ∧ activePair s = 8 + active) ∧
    ((s.pins.resetHeld = true ∨ bits stat lo 3 ≠ 0 ∨ up = false) → row = .next s) ∧
    (s.pins.resetHeld = false → bits stat lo 3 = 0 → up = true →
      row = .next (s.setReg bCtl 0x10 (setBits stat lo 3 1))) ∧
    (bits stat lo 3 ≠ 5 → s.pairDown k = s.setReg bCtl 0x10 down) ∧
    (bits stat lo 3 = 5 →
      ((active ≠ b.toNat ∨ other ≠ 5) → s.pairDown k = fell) ∧
      (active = b.toNat → other = 5 → ∃ v, s.pairDown k = v.offer leadNode (mkNotice s leadNode 0x0701 0 0 0) none ∧
        v = { fell with regs := v.regs, links := v.links } ∧ RegsSame s v [bCtl.key 0x10] ∧ LinksSame s v [8] ∧
        v.reg bCtl 0x10 = setBits down 8 1 (1 - b.toNat) ∧ v.link 8 = { l with resend := l.retry })) ∧
    (bits stat lo 3 = 1 → exec (.passOpticsDone k) s = .next (s.setReg bCtl 0x10 (setBits stat lo 3 2))) ∧
    (∀ (light : Bool) (good : BitVec 34), bits stat lo 3 = 2 →
      let locked := light = true ∧ ∀ i, i < 4 → good.getLsbD i = true
      (locked → exec (.passLaneLockDone k light good) s = .next (s.setReg bCtl 0x10 (setBits stat lo 3 3))) ∧
      (¬ locked → exec (.passLaneLockDone k light good) s = .next (s.pairDown k))) ∧
    (bits stat lo 3 = 3 → exec (.passAlignDone k true) s = .next (s.setReg bCtl 0x10 (setBits stat lo 3 4))) ∧
    (∀ far : FarEnd, bits stat lo 3 = 4 →
      (far.level = 0 → exec (.passExchangeDone k far) s = .next (s.pairDown k)) ∧
      (far.level ≠ 0 → active = b.toNat → ∃ t, resumes far.nextFseq isUp t ∧
        exec (.passExchangeDone k far) s = .next t) ∧
      (far.level ≠ 0 → active ≠ b.toNat → other = 5 →
        exec (.passExchangeDone k far) s = .next (s.setReg bCtl 0x10 isUp)) ∧
      (far.level ≠ 0 → active ≠ b.toNat → other ≠ 5 → ∃ t, resumes far.nextFseq (setBits isUp 8 1 b.toNat) t ∧
        exec (.passExchangeDone k far) s =
          .next (t.offer leadNode (mkNotice s leadNode 0x0701 0 0 0) none))) ∧
    (1 ≤ bits stat lo 3 → bits stat lo 3 ≤ 4 → exec (.passTrainTimeout k) s = .next (s.pairDown k)) ∧
    (bits stat lo 3 = 5 → exec (.passAckStall k) s = .next (s.pairDown k)) ∧
    (flows s k = true → exec (.passRetryTimeout k) s = .next (s.setLink 8 { l with resend := l.retry })))


/-! ## Guest sites -/

/-- R342 to R353, R388: a guest bridge. ENABLE brings the header on and trains the modules once the rail is in
regulation; training ends UP with GUEST_UP (0x0710) where a module trained and the levels agree, else DOWN with
GUEST_DOWN (0x0711) and its reason; AGREED_LEVEL [11:8] and TRAINED [32] report the agreement. While the site is not UP,
or the buffer is full, a packet for the guest die is discarded with its credit; else it is buffered and handed over on an
open module, whose slots are numbered and kept. A NAK of the guest die has them sent again, and the eighth of one word in
succession drops the module. A slot on a module is HOLD or GO by its tracks; a slot that fails its CRC is asked for again, its
eighth failure drops the module, and the last module takes the site DOWN. Every packet of the guest die waits in its
module's room of 268 words and passes the Ford's checks in their order: the first that fails is its cause, and a drop is
counted, recorded the first time, and credited to the guest as any packet is; one that passes leaves with the Ford's
generation and src_ctx 0. Tokens delay a packet and never drop it. A rail that is on trips at an over-current, which
turns rail and header off until GUEST_OC is cleared. Kinds that space 0x8 does not take are counted and noticed.
Where the rules leave a choice, it is that of assumptions 30, 44, 47, 48, 71, 89 and 104 to 106. -/
def Obligations.GuestBridgesCheckAndCarryPackets : Prop := ∀ s g, g < 4 →
  let b := bFord g
  let x := s.guest g
  let ctl := s.reg b 0x08
  let stat := s.reg b 0x10
  let st := bits stat 0 3
  let site := guestSite g
  let node := guestNode g
  let rail := (s.site site).guestRail
  let on := bit (s.reg (bSp site) 0x08) 2 = true ∧ bit (s.reg (bSp site) 0x10) 15 = false ∧
    isBlank s.birth site = false ∧ s.pins.resetHeld = false
  let empty := fun (u : State) => x.toGuest.foldl (State.guestStall g)
    (u.setGuest g { u.guest g with toGuest := [], guestHolds := 0, bridgeHolds := 0, mods := [] })
  let trains := fun (u : State) => empty (u.setReg b 0x10 (setBits (setBits (u.reg b 0x10) 0 3 2) 4 16 0))
  let turnsOff := fun (u : State) => let v := empty ((u.setReg b 0x08 (setBit ctl 0 false)).setReg b 0x10
      (setBits (setBits stat 0 20 0) 24 4 4))
    v.setGuest g { v.guest g with header := false, tokens := 0 }
  (∀ o : Offer,
    let v := (s.creditDie (guestAt s g o.pkt) (o.plane.getD 0) o.pkt).setReg b 0x48 (satInc (s.reg b 0x48) 16 16)
    s.guestStall g o = if bits (s.reg b 0x48) 16 16 = 0 then v.noticePlain node 0x0713 (some o.pkt) else v) ∧
  (∀ on, (isBlank s.birth site = true ∨ bit ctl 0 = on ∨ s.pins.resetHeld = true) → exec (.guestEnable g on) s = .next s) ∧
  (isBlank s.birth site = false → s.pins.resetHeld = false → bit ctl 0 = false →
    let u := ((s.setReg b 0x08 (setBit ctl 0 true)).setReg b 0x10 (setBits stat 24 4 0)).setGuest g
      { x with header := true }
    (rail = true → exec (.guestEnable g true) s = .next (trains u)) ∧
    (rail = false → exec (.guestEnable g true) s = .next (u.setReg b 0x10 (setBits (u.reg b 0x10) 0 3 1)))) ∧
  (isBlank s.birth site = false → s.pins.resetHeld = false → bit ctl 0 = true → exec (.guestEnable g false) s = .next (turnsOff s)) ∧
  ((bit ctl 0 = false ∨ st < 2) → exec (.guestRetrain g) s = .next s) ∧
  (bit ctl 0 = true → 2 ≤ st → exec (.guestRetrain g) s = .next (trains s)) ∧
  (∀ modules level step feat timeout,
    let row := exec (.guestTrainDone g modules level step feat timeout) s
    let ok := timeout = false ∧ modules ≠ 0 ∧ level ≠ 0
    (st ≠ 2 → row = .next s) ∧
    (st = 2 → ∃ t : State, row = .next (t.noticePlain node (if ok then 0x0710 else 0x0711) none) ∧
      t = { s with regs := t.regs } ∧
      RegsSame s t [b.key 0x10, (bSm site).key 0x100, (bSm site).key 0x108, (bSm site).key 0x110] ∧
      bits (t.reg b 0x10) 0 3 = (if ok then 3 else 4) ∧ bits (t.reg b 0x10) 4 16 = modules.toNat ∧
      bits (t.reg b 0x10) 24 4 =
        (if timeout = true then 3 else if modules = 0 then 1 else if level = 0 then 2 else 0) ∧
      bits (t.reg (bSm site) 0x100) 0 4 = level.toNat ∧ bits (t.reg (bSm site) 0x100) 16 8 = step.toNat ∧
      bits (t.reg (bSm site) 0x100) 4 4 = bits (s.reg (bSm site) 0x100) 4 4 ∧
      bits (t.reg (bSm site) 0x100) 8 4 = (if ok then 1 else 0) ∧
      (bit (t.reg (bSm site) 0x100) 32 = true ↔ ok) ∧ t.reg (bSm site) 0x108 = feat ∧
      t.reg (bSm site) 0x110 = (if ok then feat &&& 0x1FF else 0))) ∧
  (let u := s.setSite site { s.site site with guestRail := true }
   (¬ on → exec (.guestRailReady g) s = .next s) ∧
   (on → st = 1 → exec (.guestRailReady g) s = .next (trains u)) ∧
   (on → st ≠ 1 → exec (.guestRailReady g) s = .next u)) ∧
  (¬ on → exec (.guestOvercurrent g) s = .next s) ∧
  (on →
    let u := s.setSite site { s.site site with guestRail := false }
    let v := if bit ctl 0 = false then u else turnsOff u
    exec (.guestOvercurrent g) s = .next ((v.setReg (bSp site) 0x10 (setBit (s.reg (bSp site) 0x10) 15
      true)).noticePlain node 0x090A none)) ∧
  exec (.guestOcClear g) s = .next (s.setReg (bSp site) 0x10 (setBit (s.reg (bSp site) 0x10) 15 false)) ∧
  (∀ hold (m : Nat) (sl : SlotSeen), m < 16 →
    let row := exec (if hold then .guestHold g ⟨m, sl⟩ else .guestGo g ⟨m, sl⟩) s
    let up := st = 3 ∧ bit stat (4 + m) = true
    let tracks := fun b0 : Byte => sl.word = b0 :: List.replicate 63 0 ∧ sl.ctl = ~~~ crc16 sl.word
    let y := Sparse.getD {} x.mods m
    let again := s.setReg b 0x48 (satInc (s.reg b 0x48) 0 16)
    let drops := let v := (s.setReg b 0x10 (setBit stat (4 + m) false)).setGuest g { x with
        mods := Sparse.put m { waiting := y.waiting } x.mods }
      if bits (v.reg b 0x10) 4 16 ≠ 0 then v
      else (empty (v.setReg b 0x10 (setBits (setBits (v.reg b 0x10) 0 3 4) 24 4 1))).noticePlain node 0x0711 none
    (¬ up → row = .next s) ∧
    (up → tracks (if hold then 0x48 else 0x47) → ∃ h : BitVec 16,
      (∀ i, i < 16 → (h.getLsbD i = true ↔ if i = m then hold = true else x.guestHolds.getLsbD i = true)) ∧
      row = .next (if hold then s.setGuest g { x with guestHolds := h }
        else (s.setGuest g { x with guestHolds := h }).guestHand g)) ∧
    (up → tracks (if hold then 0x47 else 0x48) → row = .next s) ∧
    (up → slotKind sl.word sl.ctl = .idle → row = .next s) ∧
    (∀ q, up → slotKind sl.word sl.ctl = .nak q →
      let back := (y.sent + 16 - q.toNat) % 16
      let count := if y.nakWord = y.sent - back then y.naks + 1 else 1
      ((back = 0 ∨ y.retry.length < back) → row = .next s) ∧
      (back ≠ 0 → back ≤ y.retry.length → 8 ≤ count → row = .next drops) ∧
      (back ≠ 0 → back ≤ y.retry.length → count < 8 → row = .next (again.setGuest g { x with
        mods := Sparse.put m { y with
          nakWord := y.sent - back, naks := count, last := y.retry.drop (y.retry.length - back) } x.mods }))) ∧
    (up → slotKind sl.word sl.ctl = .data →
      row = .next (if y.awaiting = some sl.number then s.setGuest g { x with
        mods := Sparse.put m { y with awaiting := none, fails := 0 } x.mods } else s)) ∧
    (up → slotKind sl.word sl.ctl = .failed → (∀ b0 ∈ [(0x47 : Byte), 0x48], ¬ tracks b0) →
      ((∃ k, y.awaiting = some k ∧ k ≠ sl.number) → row = .next s) ∧
      (y.awaiting ∈ [none, some sl.number] → y.fails < 7 → row = .next (again.setGuest g { x with
        mods := Sparse.put m { y with awaiting := some sl.number, fails := y.fails + 1 } x.mods })) ∧
      (y.awaiting ∈ [none, some sl.number] → 7 ≤ y.fails → row = .next drops))) ∧
  (let opens := fun m => m < 16 ∧ bit stat (4 + m) = true ∧ x.guestHolds.getLsbD m = false ∧ siteQuiet s site = false
   (∀ m, st = 3 → opens m → (∀ j, j < m → ¬ opens j) → x.toGuest ≠ [] →
     let y := Sparse.getD {} x.mods m
     let slots := x.toGuest.flatMap fun o => slotsOf o.pkt false
     s.guestHand g = x.toGuest.foldl (fun u o => u.ackDie (guestAt s g o.pkt) (o.plane.getD 0) o.pkt)
      (s.setGuest g { x with
        toGuest := [], handed := x.toGuest.map Offer.pkt
        mods := Sparse.put m { y with
          sent := y.sent + slots.length, last := slots
          retry := (y.retry ++ slots).drop ((y.retry ++ slots).length - 16) } x.mods })) ∧
   ((st ≠ 3 ∨ (∀ m, ¬ opens m) ∨ x.toGuest = []) → s.guestHand g = s)) ∧
  (let rate := bits (s.reg b 0x28) 0 16
   let burst := bits (s.reg b 0x28) 16 16
   let u := if rate = 0 then s else s.setGuest g { x with tokens := max x.tokens (min (x.tokens + rate) burst) }
   exec (.fordTokenRefill g) s = .next (x.mods.foldl (fun (u : State) e =>
     if e.2.waiting = [] then u else State.fordRun g e.1 e.2.waiting u) u)) ∧
  (∀ m p, m < 16 →
    let row := exec (.fordCheck g m p) s
    let y := Sparse.getD {} x.mods m
    let fits := ((y.waiting ++ [p]).map linkSlots).sum ≤ 268
    (st ≠ 3 ∨ bit stat (4 + m) = false ∨ y.awaiting ≠ none ∨ ¬ fits → row = .next s) ∧
    (st = 3 → bit stat (4 + m) = true → y.awaiting = none → fits →
      row = .next (State.fordRun g m (y.waiting ++ [p]) s))) ∧
  (∀ m (l : List Packet), m < 16 →
    let rate := bits (s.reg b 0x28) 0 16
    let waits := fun h : BitVec 16 => s.setGuest g { x with
      bridgeHolds := h, mods := Sparse.put m { Sparse.getD {} x.mods m with waiting := l } x.mods }
    let holds := fun (h : BitVec 16) (held : Bool) => ∀ i, i < 16 →
      (h.getLsbD i = true ↔ if i = m then held = true else x.bridgeHolds.getLsbD i = true)
    (l = [] → ∃ h, holds h (siteQuiet s site) ∧ State.fordRun g m l s = waits h) ∧
    (∀ p rest, l = p :: rest → rate = 0 → State.fordRun g m l s = State.fordRun g m rest (s.ford g p)) ∧
    (∀ p rest, l = p :: rest → rate ≠ 0 → x.tokens < linkSlots p →
      ∃ h, holds h true ∧ State.fordRun g m l s = waits h) ∧
    (∀ p rest, l = p :: rest → rate ≠ 0 → linkSlots p ≤ x.tokens →
      State.fordRun g m l s = State.fordRun g m rest
        ((s.setGuest g { x with tokens := x.tokens - linkSlots p }).ford g p))) ∧
  (∀ p,
    let cfg := s.reg b 0x18
    let k := pKind p
    let grants := fun (a : Word) (len perm : Nat) => ∃ i, i < 16 ∧
      let wa := s.reg b (0x100 + 16 * i)
      let wb := s.reg b (0x108 + 16 * i)
      bit wa 63 = true ∧ bits wa 32 4 = aSpace a ∧
      (aLocal a = true ∧ bit wa 40 = false ∨ aLocal a = false ∧ bit wa 40 = true ∧ bits wa 41 13 = aPanel a) ∧
      bits wa 0 7 ≤ nodeX (aNode a) ∧ nodeX (aNode a) ≤ bits wa 8 7 ∧ bits wa 16 7 ≤ nodeY (aNode a) ∧
      nodeY (aNode a) ≤ bits wa 24 7 ∧ bits wb 0 32 ≤ aOff a ∧
      aOff a + len ≤ bits wb 0 32 + bits wb 32 21 * 4096 ∧ bit wa perm = true
    let access := (k = 0x02 ∧ grants p.h1 (max (pLen p) 1) 36) ∨
      (k ∈ [0x01, 0x06, 0x04, 0x14, 0x08] ∧ grants p.h1 (max (pLen p) 1) 37) ∨ (k = 0x05 ∧ grants p.h1 1 38) ∨
      (k = 0x0C ∧ grants p.h1 1 39)
    let head := readHead (pBytes p)
    let bad := fun c : Nat => (c = 1 ∧ bit cfg 8 = false) ∨ (c = 2 ∧ bit (s.reg b 0x20) k = false) ∨
      (c = 3 ∧ pClass p = 1 ∧ bit cfg 4 = false) ∨
      (c = 4 ∧ (aLocal p.h1 = false ∧ bit cfg 5 = false ∨ k = 0x02 ∧ pMc p = true)) ∨
      (c = 5 ∧ (¬ access ∨ k = 0x08 ∧ head.doneEn = true ∧ ¬ grants head.e2 64 37))
    let count := s.reg b 0x30
    ((∀ c, ¬ bad c) → ∃ q, s.ford g p = (s.record (8 + g) q).offer node q none ∧ pGen q = bits cfg 0 4 ∧
      pSrcCtx q = 0 ∧ q.h1 = p.h1 ∧ q.h3 = p.h3 ∧ q.data = p.data ∧ q.h0 = setBits p.h0 48 4 (pGen q) ∧
      q.h2 = setBits p.h2 30 2 0) ∧
    (∀ c, bad c → (∀ d, d < c → ¬ bad d) →
      let u := if bits count 0 32 = 0 then (((s.setReg b 0x30 (setBits (satInc count 0 32) 32 8 c)).setReg b 0x38
          p.h0).setReg b 0x40 p.h1).noticePlain node 0x0712 (some p)
        else s.setReg b 0x30 (satInc count 0 32)
      (∀ e, creditFor (fillSource s node p) = some e → s.ford g p = u.guestTake g 0 e) ∧
      (creditFor (fillSource s node p) = none → s.ford g p = u))) ∧
  (∀ n pl p k row, (k, row) ∈ [(0x01, Instr.write n pl p), (0x04, .msg n pl p), (0x05, .signal n pl p),
      (0x14, .cell n pl p)] → Delivered s n pl k p → siteOf n = site → aSpace p.h1 = 8 → aOff p.h1 < 0xF000_0000 →
    exec row s = .next ((s.takeUp n pl p).guestTake g pl p)) ∧
  (∀ pl p,
    let used := (x.toGuest.map fun o => 64 * linkSlots o.pkt).sum
    ((st ≠ 3 ∨ 0x4_0000 < used + 64 * linkSlots p) → s.guestTake g pl p = s.guestStall g ⟨p, some pl⟩) ∧
    (st = 3 → used + 64 * linkSlots p ≤ 0x4_0000 →
      s.guestTake g pl p = (s.setGuest g { x with toGuest := x.toGuest ++ [⟨p, some pl⟩] }).guestHand g)) ∧
  (∀ n pl p k row, (k, row) ∈ [(0x02, Instr.readReq n pl p), (0x06, .mcastWrite n pl p), (0x08, .redPart n pl p),
      (0x0C, .ledgerOp n pl p)] → Delivered s n pl k p → siteOf n = site → aSpace p.h1 = 8 →
    (k ∈ [0x08, 0x0C] ∨ aOff p.h1 < 0xF000_0000) →
    let v := ((s.takeUp n pl p).creditDie n pl p).setReg b 0x48 (satInc (s.reg b 0x48) 32 16)
    let w := if bits (s.reg b 0x48) 32 16 = 0 then v.noticePlain node 0x0714 (some p) else v
    exec row s = .next (if k = 0x0C then w.noticePlain node 0x0304 (some p)
      else if k = 0x08 then w.noticePlain node 0x0213 (some p) else w))


/-! ## Clocks -/

/-- R355, R357, R359, R361 to R366, R376: oscillators, references and crossings. OSC_EN starts a domain at N_TARGET,
or stops it and the words in it are lost; an enabled oscillator locks where its rail and a reference allow it; what
the ROM then does is stated elsewhere. A site whose active reference is lost moves to the other where that is
good, else it is in holdover; REF_SWITCH moves it while no step is under way. Calibration centres every crossing
at a latency of 3 to 5, a free value, and marks the links of those it cannot centre, which degrades a step that is
under way. A slip adds a cycle to a crossing's latency, up to three, records the first, and a further one is a CRC
failure of the oldest word in the crossing, as a lead that fills it is; another lead drops the first idle cycle. Which
words are lost with a domain, and that stretched cycles are free values whose count never falls, is as assumptions 112 and
102 say; which oscillators a calibration needs, 95; that it, or the lock of a router oscillator, brings back lost links, 94.
Where the rules leave a choice, it is that of assumptions 23, 41, 94, 95, 102 and 112. -/
def Obligations.ClocksFollowTheirReferences : Prop :=
  (∀ s st d, isSite st = true → d < 3 →
  let b := bClk st
  let ctl := s.reg b 0x08
  let osc := s.reg b (0x20 + 8 * d)
  let x := s.site st
  let ref := s.reg b 0x10
  let act := bits ref 0 2
  let xing := s.reg b 0x40
  let node := nodeOf st 0
  let told := fun (u : State) code => u.noticePlain node code none
  let step := ∃ e ∈ s.sites, e.2.stepPhase ≠ .none
  let degraded := fun (fails : Bool) (u : State) => if fails && s.sites.any fun e => e.2.stepPhase != .none
    then u.setReg (bClk 52) 0x88 (setBits (setBit (u.reg (bClk 52) 0x88) 8 true) 16 8 st) else u
  let waits := s.lead.rom ∈ [Rom.startLock, .startCal, .startBond, .bootLock, .bootCal]
  (∀ on, (hasDomain st d = false ∨ bit ctl d = on ∨ s.pins.resetHeld = true) → exec (.oscEn st d on) s = .next s) ∧
  (hasDomain st d = true → bit ctl d = false → s.pins.resetHeld = false → exec (.oscEn st d true) s = .next (((s.setReg b 0x08
    (setBit ctl d true)).setReg b (0x20 + 8 * d) (setBits (setBit (setBit osc 25 true) 24 false) 16 7
      (bits osc 0 7))).setSite st { x with stretchAt := Sparse.put d s.free x.stretchAt })) ∧
  (let k := domainKind st d
   hasDomain st d = true → bit ctl d = true → s.pins.resetHeld = false → ∃ t, exec (.oscEn st d false) s = .next t ∧
    t = { s with
      regs := t.regs, routers := t.routers, slices := t.slices, links := t.links, sites := t.sites, guests := t.guests } ∧
    RegsSame s t [b.key 0x08, b.key (0x20 + 8 * d)] ∧ t.reg b 0x08 = setBit ctl d false ∧
    t.reg b (0x20 + 8 * d) = setBit (setBit (showStretches s st d) 25 false) 24 false ∧
    SitesSame s t [st] ∧ t.site st = (if k = 1 then { x with crossed := false } else x) ∧
    (k = 1 → ∀ n pl, n < 12288 → siteOf n = st →
      let y := t.plane n pl
      y = { s.plane n pl with
        inputs := [], gather := [], transit := [], half := [], ends := y.ends, vout := [], served := [], held := [] } ∧
      ∀ e, y.endOf e = { sent := (y.endOf e).sent }) ∧
    (k = 1 → (∀ n pl e, n < 12288 → siteOf n = st → pl < 4 → e < 4 → crosses n e = true →
        Sparse.find e (s.plane n pl).transit = none ∧ ((s.plane n pl).endOf e).again = [] ∧
        ((s.plane (farEnd n e).1 pl).endOf (farEnd n e).2).awaiting = none) →
      ∀ n pl, n < 12288 → (siteOf n ≠ st → t.plane n pl = s.plane n pl) ∧
        (siteOf n = st → ∀ e, ((t.plane n pl).endOf e).sent = ((s.plane n pl).endOf e).sent)) ∧
    (k ∈ [2, 3, 5, 6] → (∀ n pl, n < 12288 → siteOf n = st → pl < 4 → let r := s.plane n pl
        Sparse.find 5 r.transit = none ∧ (r.endOf 5).again = [] ∧ (r.endOf 4).awaiting = none ∧
          (r.endOf 5).awaiting = none ∧ r.coming .x = none) →
      ∀ n pl, n < 12288 → pl < 4 → (siteOf n ≠ st → t.plane n pl = s.plane n pl) ∧
        (siteOf n = st →
          let r := s.plane n pl
          let y := t.plane n pl
          let toSend := (Sparse.find 4 r.transit).elim [] Transit.words
          let gone := fun p : Packet => ∃ w ∈ (r.endOf 4).again ++ toSend, w.cross = true ∧ w.pkt = p
          y = { r with vout := r.vout.filter (fun h => toCore s n h.pkt), transit := y.transit, ends := y.ends } ∧
          (∀ e, Sparse.find e y.transit = if e = 4 ∧ (∃ w ∈ toSend, w.cross = true) then none
            else Sparse.find e r.transit) ∧
          (∀ e, e ≠ 4 → e ≠ 5 → y.endOf e = r.endOf e) ∧
          (∀ w, w ∈ (y.endOf 4).again ↔ w ∈ (r.endOf 4).again ∧ ¬ gone w.pkt) ∧
          ∀ w, w ∈ (y.endOf 5).wire.flatMap InFlight.words ↔ w ∈ (r.endOf 5).wire.flatMap InFlight.words ∧
            w.cross = false ∧ ¬ gone w.pkt)) ∧
    (k ∉ [1, 2, 3, 5, 6] → ∀ n pl, n < 12288 → t.plane n pl = s.plane n pl) ∧
    (∀ n, n < 12288 → t.slice n = if k = 2 ∧ siteOf n = st then { s.slice n with
      queue := [], openSets := [], setData := [], mcSeen := [], respOut := [], ackOut := [], regOut := [] }
      else s.slice n) ∧
    (∀ i, i < 8 → t.link i = if linkSite i = st ∧ k = 3 then { s.link i with txWords := [] }
      else if linkSite i = st ∧ k = 4 then { s.link i with rxWords := [], rxFrames := 0 } else s.link i) ∧
    (t.link 8 = if k = 6 ∧ st = leadSite then { s.link 8 with txWords := [], rxWords := [], rxFrames := 0 }
      else s.link 8) ∧
    (∀ g, g < 4 → t.guest g = if guestSite g = st ∧ k = 5 then { s.guest g with toGuest := [], mods := [] }
      else s.guest g)) ∧
  (let since := Sparse.getD 0 x.stretchAt d
   (showStretches s st d = if bit osc 25 = true
     then satAdd osc 32 32 (((List.range (s.free - since)).map fun i => Config.stretched (since + i) st d).sum) else osc) ∧
   ∀ u : State, u.regs = s.regs → u.sites = s.sites → s.free ≤ u.free →
     bits (showStretches s st d) 32 32 ≤ bits (showStretches u st d) 32 32) ∧
  (let locks := bit osc 25 = true ∧ railHolds s st d = true ∧ act ≠ 2
   let u := s.setReg b (0x20 + 8 * d) (setBit osc 24 true)
   (¬ locks → exec (.oscLock st d) s = .next s.romNext) ∧
   (locks → d ≠ 0 ∨ x.crossed = true → exec (.oscLock st d) s = .next u.romNext) ∧
   (locks → d = 0 → x.crossed = false →
     ∃ v, LinksReturn u v st false [] ∧ exec (.oscLock st d) s = .next v.romNext)) ∧
  (¬ waits → s.romNext = s) ∧
  (let n := bits osc 0 7
   (railHolds s st d = true ↔
    (domainKind st d = 1 ∧ bit (s.reg bPwr 0x20) (fieldOf st) = true ∧ s.pins.resetHeld = false ∧
      (if n ≤ 64 then 700 else if n ≤ 80 then 760 else 860) ≤ bits (s.reg bPwr 0x20) 48 10) ∨
    (domainKind st d = 2 ∧ bit (s.reg (bSp st) 0x08) 0 = true ∧ x.railOk = true ∧
      (if n ≤ 48 then 550 else 650) ≤ bits (s.reg (bSp st) 0x08) 16 10) ∨
    (3 ≤ domainKind st d ∧ s.pins.resetHeld = false))) ∧
  (let moves := fun (u : State) (r : Nat) => told (u.setReg b 0x10 (satInc (setBits (u.reg b 0x10) 0 2 r) 16 16)) 0x0801
   (act < 2 → bit ref (2 + (1 - act)) = true → ¬ step → exec (.refSwitch st) s = .next (moves s (1 - act))) ∧
   ((2 ≤ act ∨ bit ref (2 + (1 - act)) = false ∨ step) → exec (.refSwitch st) s = .next s) ∧
   (∀ bad : Bool,
    let r := bad.toNat
    let u := s.setReg b 0x10 (setBit ref (2 + r) false)
    let row := exec (.referenceLoss st bad) s
    (bit ref (2 + r) = false → row = .next s) ∧
    (bit ref (2 + r) = true → act ≠ r → row = .next u) ∧
    (bit ref (2 + r) = true → act = r → bit ref (2 + (1 - r)) = true → row = .next (moves u (1 - r))) ∧
    (bit ref (2 + r) = true → act = r → bit ref (2 + (1 - r)) = false → ∃ v w, row = .next w ∧
      w = (if x.stepPhase = .none then told v 0x0802
        else (told v 0x0802).setReg (bClk 52) 0x88
          (setBits (setBit ((told v 0x0802).reg (bClk 52) 0x88) 8 true) 16 8 st)) ∧
      v = { s with regs := v.regs } ∧ v.reg b 0x10 = setBits (setBit ref (2 + r) false) 0 2 2 ∧
      (∀ i, i < 3 → v.reg b (0x20 + 8 * i) = setBit (s.reg b (0x20 + 8 * i)) 24 false) ∧
      RegsSame s v [b.key 0x10, b.key 0x20, b.key 0x28, b.key 0x30]) ∧
    (act ≠ 2 → exec (.refGood st bad) s = .next (s.setReg b 0x10 (setBit ref (2 + r) true))) ∧
    (act = 2 → exec (.refGood st bad) s = .next (told (s.setReg b 0x10 (setBits (setBit ref (2 + r) true) 0 2 r))
      0x0801)))) ∧
  exec (.cal st) s = .next (s.setSite st { x with calBusy := true }) ∧
  (∀ fails offset,
    let row := exec (.calDone st fails offset) s
    let locked := fun e : Nat => bit (s.reg (bClk e) 0x20) 24 = true
    let ready := (∀ i, i < 3 → hasDomain st i = true → bit (s.reg b (0x20 + 8 * i)) 24 = true ∨
        (domainKind st i = 2 ∧ bit (s.reg (bSp st) 0x08) 0 = false)) ∧
      ∀ e, e < 192 → e + 16 = st ∨ st + 16 = e ∨ (e / 16 = st / 16 ∧ (e + 1 = st ∨ st + 1 = e)) →
        bit (s.reg (bClk e) 0x20) 25 = true → locked e
    (x.calBusy = false ∨ ¬ ready → row = .next s.romNext) ∧
    (x.calBusy = true → ready → ∃ (u v w : State) (bad : List (Nat × Nat × Port)), row = .next w.romNext ∧
      bad = fails.filter (fun f => isXing st f.1 f.2.1 (portNum f.2.2)) ∧ LinksReturn s u st true fails ∧
      Calibrated u v st (!bad.isEmpty) ∧
      w = (let y := degraded (!bad.isEmpty) (bad.foldl (fun u f => u.failXing st f) v)
        y.setReg b 0x50 (setBits (y.reg b 0x50) 8 8 offset.toNat)))) ∧
  (∀ loc pl, loc < 64 → pl < 4 → let n := nodeOf st loc
    s.failXing st (loc, pl, .v) = s.vertFailing n pl ∧ s.failXing st (loc, pl, .x) = s.vertFailing n pl ∧
    ∀ e, e < 4 → s.failXing st (loc, pl, portOfNum e) = if isXing st loc pl e = true then s.linkLost n pl e else s) ∧
  exec (.recal st) s = .next (s.setReg b 0x40 (setBit xing 1 true)) ∧
  (bit xing 1 = false → exec (.recalDone st) s = .next s) ∧
  (bit xing 1 = true → exec (.recalDone st) s = .next ((s.setSite st { x with extra := [], early := [] }).setReg b 0x40
    (setBits (setBit xing 1 false) 48 2 0))) ∧
  (∀ loc pl port, isXing st loc pl port = true →
    let key := xingKey loc pl port
    let n := nodeOf st loc
    let held := Sparse.getD 0 x.extra key
    let early := Sparse.getD 0 x.early key
    let most := fun w (m : Sparse Nat) => setBits w 48 2 (m.foldl (fun a e => max a e.2) 0)
    let later := if 0 < early then { x with early := Sparse.set 0 key (early - 1) x.early }
      else { x with extra := Sparse.set 0 key (held + 1) x.extra }
    let sooner := if 0 < held then { x with extra := Sparse.set 0 key (held - 1) x.extra }
      else { x with early := Sparse.set 0 key (early + 1) x.early }
    let words := ((s.plane n pl).endOf port).wire.flatMap InFlight.words
    let tx := (s.plane (farEnd n port).1 pl).endOf (farEnd n port).2
    let later' := fun u : State => u.modEnd n pl port fun e =>
      { e with wire := e.wire.map fun i => { i with left := i.left + 1 } }
    let lag := exec (.xingSlip st loc pl port .lag) s
    let gone := fun (row : Host.Outcome State Fault Refusal) => (words = [] → row = .next s) ∧
      ∀ sl : SlotSeen, words ≠ [] → slotKind sl.word sl.ctl = .failed →
        sl.number = BitVec.ofNat 4 (tx.sent - words.length) → row = exec (.linkCrcFailure n pl (portOfNum port) sl) s
    crossingLatency x key = crossingN x key + held - early ∧
    (held < 3 → ∃ u, lag = .next (later' (if bits xing 16 16 = 0 then told u 0x0803 else u)) ∧
      u = { s with regs := u.regs, sites := u.sites } ∧ SitesSame s u [st] ∧
      u.site st = later ∧ RegsSame s u [b.key 0x40, b.key 0x48] ∧
      u.reg b 0x40 = satInc (setBit (most xing later.extra) 0 true) 16 16 ∧
      (bit xing 0 = true → u.reg b 0x48 = s.reg b 0x48) ∧
      (bit xing 0 = false → bits (u.reg b 0x48) 0 6 = loc ∧ bits (u.reg b 0x48) 6 2 = pl ∧
        bits (u.reg b 0x48) 8 3 = port ∧ bit (u.reg b 0x48) 11 = true)) ∧
    (3 ≤ held → gone lag) ∧ gone (exec (.xingSlip st loc pl port .full) s) ∧
    exec (.xingSlip st loc pl port .ahead) s = .next (((s.setSite st sooner).setReg b 0x40
      (most (satInc xing 32 16) sooner.extra)).modEnd n pl port fun e => { e with wire := closeGap 0 e.wire }) ∧
    (∀ failed, ∃ u, s.recalPort st loc pl port failed = degraded failed (if failed = true then
        (u.setReg b 0x40 (setBit (u.reg b 0x40) 3 true)).failXing st (loc, pl, portOfNum port) else u) ∧
      u = { s with regs := u.regs, sites := u.sites, free := s.free + 1 } ∧ SitesSame s u [st] ∧
      u.site st = { x with
        recalAt := Sparse.put key s.free x.recalAt, extra := Sparse.del key x.extra, early := Sparse.del key x.early } ∧
      RegsSame s u [b.key 0x40, b.key 0x50] ∧ u.reg b 0x40 = most xing (Sparse.del key x.extra) ∧
      bits (u.reg b 0x50) 8 8 = bits (s.reg b 0x50) 8 8 ∧ LatenciesRead u st))) ∧
  (∀ st loc pl port, isXing st loc pl port = true ↔ loc < 64 ∧ pl < 4 ∧ (port = 4 ∨ port = 5 ∨ port < 4 ∧
    ∃ m, neighbour (nodeOf st loc) port = some m ∧ siteOf m ≠ st)) ∧
  (∀ (l : List InFlight),
    let before := fun pre : List InFlight => (pre.getLast?.map InFlight.left).getD 0
    let tight := fun pre : List InFlight => ∀ a i b, pre = a ++ i :: b → i.left ≤ before a + 1
    (tight l → closeGap 0 l = l) ∧
    ∀ pre i post, l = pre ++ i :: post → tight pre → before pre + 1 < i.left →
      closeGap 0 l = pre ++ (i :: post).map fun j => { j with left := j.left - 1 })

/-- R368 to R371: a frequency step. ARM is refused with FSTEP_REFUSED (0x0804) and a reason of R369 that holds, naming
the lowest site where one is concerned; else every site is armed. Each site counts, is quiet, takes its targets at
the switch edge and unlocks, calibrates and resumes, in this order; when all have ended the step is DONE with
FSTEP_DONE (0x0805). Which of several reasons is reported follows the table's order (the model's choice, assumption 40), and a
step counts as under way until its end even where a second ARM has set STATE to REFUSED.
Where the rules leave a choice, it is that of assumption 40. -/
def Obligations.FrequencyStepsRunThroughEverySite : Prop :=
  (∀ s : State,
    let fs := s.reg (bClk 52) 0x88
    let bad := fun (r st : Nat) =>
      (r = 1 ∧ st = 0 ∧ ∃ e ∈ s.sites, e.2.stepPhase ≠ .none) ∨
      (r = 2 ∧ st = 0 ∧ bits (s.reg (bClk 52) 0x80) 16 16 < 64) ∨
      (r = 3 ∧ st < 192 ∧ bits (s.reg (bClk st) 0x10) 0 2 = 2) ∨
      (r = 4 ∧ st < 192 ∧ ∃ d, d < 3 ∧ bit (s.reg (bClk st) (0x20 + 8 * d)) 25 = true ∧
        bit (s.reg (bClk st) (0x20 + 8 * d)) 24 = false) ∨
      (r = 5 ∧ st < 192 ∧ bits (s.reg (bClk st) 0) 16 16 ≠ 0) ∨
      (r = 6 ∧ st < 192 ∧ bit (s.reg (bClk st) 0x40) 2 = false)
    ((∃ r st, bad r st) → ∃ r st, bad r st ∧ (∀ st', st' < st → ¬ bad r st') ∧ (∀ r' st', r' < r → ¬ bad r' st') ∧
      exec .arm s = .next ((s.setReg (bClk 52) 0x88 (setBits (setBits (setBits fs 0 3 4) 4 4 r) 16 8 st)).offer leadNode
        (mkNotice s leadNode 0x0804 0 0 0) none)) ∧
    (¬ (∃ r st, bad r st) → ∃ t, exec .arm s = .next t ∧ t = { s with regs := t.regs, sites := t.sites } ∧
      RegsSame s t [(bClk 52).key 0x88] ∧
      t.reg (bClk 52) 0x88 = setBits (setBit (setBits (setBits fs 0 3 1) 4 4 0) 8 false) 16 8 0 ∧
      ∀ st, t.site st = if st < 192 then { s.site st with stepPhase := .armed } else s.site st)) ∧
  (∀ s st, isSite st = true →
    let x := s.site st
    let b := bClk st
    let goes := fun (ph : StepPhase) => s.setSite st { x with stepPhase := ph }
    (x.stepPhase = .armed → exec (.fstepArrive st) s = .next (goes .counting)) ∧
    (x.stepPhase = .counting →
      let u := (goes .quiet).setReg (bClk 52) 0x88 (setBits (setBits (s.reg (bClk 52) 0x88) 0 3 2) 4 4 0)
      ((∀ g, g < 4 → st ≠ guestSite g) → exec (.fstepQuiet st) s = .next u) ∧
      (∀ g, g < 4 → st = guestSite g →
        exec (.fstepQuiet st) s = .next (u.setGuest g { s.guest g with bridgeHolds := 0xFFFF }))) ∧
    (x.stepPhase = .quiet → ∃ t, exec (.fstepSwitch st) s = .next t ∧ t = { goes .switched with regs := t.regs } ∧
      (∀ d, d < 3 → t.reg b (0x20 + 8 * d) = if hasDomain st d = true
        then setBit (setBits (s.reg b (0x20 + 8 * d)) 16 7 (bits (s.reg b (0x20 + 8 * d)) 0 7)) 24 false
        else s.reg b (0x20 + 8 * d)) ∧ RegsSame s t [b.key 0x20, b.key 0x28, b.key 0x30]) ∧
    (∀ fails, x.stepPhase = .switched → ∃ (v : State) (bad : List (Nat × Nat × Port)),
      exec (.fstepRecal st fails) s = .next (if bad = [] then v else
        (let y := bad.foldl (fun u f => u.failXing st f) v
         y.setReg (bClk 52) 0x88 (setBits (setBit (y.reg (bClk 52) 0x88) 8 true) 16 8 st))) ∧
      bad = fails.filter (fun f => isXing st f.1 f.2.1 (portNum f.2.2)) ∧
      Calibrated (goes .recalibrated) v st (!bad.isEmpty)) ∧
    (x.stepPhase = .recalibrated →
      ((∀ g, g < 4 → st ≠ guestSite g) → exec (.fstepResume st) s = .next (goes .ended)) ∧
      (∀ g, g < 4 → st = guestSite g → ∃ h : BitVec 16,
        (∀ i, i < 16 → (h.getLsbD i = true ↔ (Sparse.getD {} (s.guest g).mods i).waiting ≠ [])) ∧
        exec (.fstepResume st) s = .next (((goes .ended).setGuest g { s.guest g with bridgeHolds := h }).guestHand g))) ∧
    (∀ e ∈ [(Instr.fstepArrive st, StepPhase.armed), (.fstepQuiet st, .counting), (.fstepSwitch st, .quiet),
        (.fstepRecal st [], .switched), (.fstepResume st, .recalibrated)], x.stepPhase ≠ e.2 →
      exec e.1 s = .next s)) ∧
  (∀ s : State,
    let fs := s.reg (bClk 52) 0x88
    ((∃ st, st < 192 ∧ (s.site st).stepPhase ≠ .ended) → exec .fstepDone s = .next s) ∧
    ((∀ st, st < 192 → (s.site st).stepPhase = .ended) → ∃ u, exec .fstepDone s =
        .next (u.offer leadNode (mkNotice s leadNode 0x0805 0 0 0) none) ∧
      u = { s with regs := u.regs, sites := u.sites } ∧ RegsSame s u [(bClk 52).key 0x88] ∧
      u.reg (bClk 52) 0x88 = setBits (setBits (setBits fs 0 3 3) 4 4 0) 32 16 (bits fs 32 16 + 1) ∧
      ∀ st, u.site st = if st < 192 then { s.site st with stepPhase := .none } else s.site st))


/-! ## Power and heat -/

/-- R210, R378 to R387, R402: a site's phases, rails and headers. A failed phase stays failed, counts once and sends
PHASE_FAIL (0x0901); at the third the site is CAPPED, with the cap 5 or less in every core whose headers are on, and
at the fifth it is DARK: headers, cores, slices and DRAM contents are lost at once, every node is fenced, and the
site is flagged for remap. The phases of a rail that ramps count as those of one in regulation do. Regulation turns RAMPING
to ON, or to CAPPED. Banks come on group by group while the
headers are effective, and with the fourth bank a core is at reset and clears; they go off in group order, and
what the cores held is lost, the packets that they had built and not injected included, and a packet part-way into an
inbox chain is discarded with its credit. An open bond is looked for while VCORE is on. A hold is cleared only where its cause has ended. The median of 64 sensors is the mean
of the two middle ones (the model's choice, assumption 24).
Where the rules leave a choice, it is that of assumptions 29, 46, 97. -/
def Obligations.SitePowerFollowsPhasesAndHeaders : Prop := ∀ s st, isSite st = true →
  let b := bSp st
  let x := s.site st
  let ctl := s.reg b 0x08
  let stat := s.reg b 0x10
  let phases := s.reg b 0x18
  let state := bits stat 0 3
  let node := nodeOf st 0
  let here := fun n => n < 12288 ∧ siteOf n = st
  let told := fun (u : State) code => u.noticePlain node code none
  let keeps := fun (u : State) n => if headerOn u n = true then (u.router n).offers.filter (fun o => !coreOffer o) ++
      (match (u.core n).admitting with
        | some a => ((creditFor a.pkt).map fun c => ⟨c, some a.plane⟩).toList
        | none => [])
    else (u.router n).offers
  let kept := fun (u t : State) n => t.router n = { u.router n with offers := keeps u n }
  let atReset := fun (t : State) n off => t.reg (bCore n) off = ((regInfo s.birth (bCore n) off).map (·.reset)).getD 0
  let capped := fun (u t : State) => t = { told (u.setReg b 0x10 (setBits (u.reg b 0x10) 0 3 3)) 0x0903 with
      regs := t.regs } ∧ bits (t.reg b 0x10) 0 3 = 3 ∧
    (∀ n, here n → headerOn s n = true → bits (t.reg (bCore n) 0x40) 0 4 = min 5 (thermalCap s n) % 16) ∧
    (∀ key, key ≠ b.key 0x10 → (∀ n, here n → key ≠ (bCore n).key 0x40) →
      Sparse.find key t.regs = Sparse.find key u.regs)
  let dark := fun (u t : State) => bits (t.reg b 0x10) 0 3 = 4 ∧ t.site st = { u.site st with banks := [], railOk := false } ∧
    (∀ n, here n → t.core n = {} ∧ (t.router n).offers = keeps u n ∧
      (t.slice n).dram = [] ∧ (t.slice n).queue = [] ∧
      bit (t.reg (bRtr n) 0x10) 0 = true ∧ ∀ off, off < 0x1_0000 → atReset t n off) ∧
    (∀ n, n < 12288 → siteOf n ≠ st → t.core n = s.core n ∧ t.slice n = s.slice n ∧ t.router n = s.router n) ∧
    bits (t.reg b 0x20) 0 10 = 0 ∧ bits (t.reg b 0x20) 16 10 = 0 ∧ bit (t.reg (bSm st) 0x408) 0 = true ∧ bit (t.reg (bSm st) 0x408) 1 = true ∧
    (t.links, t.guests, t.stewards, t.lead, t.pins, t.pending) =
      (s.links, s.guests, s.stewards, s.lead, s.pins, s.pending)
  let fails := fun (ph : Nat) (u t : State) =>
    let f := bits stat 16 5 + 1
    let v := told ((u.setReg b 0x18 (setBit (u.reg b 0x18) (16 + ph) true)).setReg b 0x10 (setBits stat 16 5 f)) 0x0901
    (f ≠ 5 → ¬ (f = 3 ∧ state = 2) → t = v) ∧ (f = 3 → state = 2 → capped v t) ∧ (f = 5 → dark u t)
  (∀ ph, ph < 16 →
    let runs := 1 ≤ state ∧ state ≤ 3 ∧ bit phases (16 + ph) = false
    (¬ runs → exec (.phaseImbalance st ph) s = .next s ∧ exec (.phaseSwitchFault st ph) s = .next s ∧
      ∀ at_, exec (.phaseOcTrip st ph at_) s = .next s) ∧
    (runs → (∃ t, exec (.phaseImbalance st ph) s = .next t ∧ fails ph s t) ∧
      (∃ t, exec (.phaseSwitchFault st ph) s = .next t ∧ fails ph s t) ∧
      ∀ at_,
        let times := ((Sparse.getD [] x.ocTimes ph).filter fun t => decide (at_ ≤ t + 1000)) ++ [at_]
        let u := (s.setReg b 0x18 (satInc phases 32 16)).setSite st { x with ocTimes := Sparse.put ph times x.ocTimes }
        (times.length < 3 → exec (.phaseOcTrip st ph at_) s = .next u) ∧
        (3 ≤ times.length → ∃ t, exec (.phaseOcTrip st ph at_) s = .next t ∧ fails ph u t))) ∧
  (isComputeSite st = true → (bit ctl 0 = false ∨ state ≠ 1 ∨ s.pins.resetHeld = true) →
    exec (.railRegulation st) s = .next s) ∧
  (isComputeSite st = true → bit ctl 0 = true → state = 1 → s.pins.resetHeld = false → ∃ t u, exec (.railRegulation st) s = .next t ∧
    u = { s with sites := u.sites, slices := u.slices, fill := u.fill } ∧ SitesSame s u [st] ∧
    u.site st = { x with railOk := true } ∧
    (∀ n, n < 12288 → if siteOf n = st then
        u.slice n = { s.slice n with dram := [], fill := (u.slice n).fill, badLines := [], corrLines := [] } ∧
        s.fill ≤ (u.slice n).fill
      else u.slice n = s.slice n) ∧
    (bits stat 16 5 < 3 → t = u.setReg b 0x10 (setBits stat 0 3 2)) ∧ (3 ≤ bits stat 16 5 → capped u t)) ∧
  (∀ o : Offer,
    let k := pKind o.pkt
    let q := fun i => quadAt (pBytes o.pkt) (8 * i)
    coreOffer o = true ↔ k ∈ [0x03, 0x07, 0x09, 0x18] ∨ k = 0x11 ∧ (bits (q 0) 8 8 = 1 ∨
      q 1 = 0 ∧ bits (q 0) 0 16 ∈ [0x0215, 0x0216] ∨ q 1 ≠ 0 ∧ aSpace (q 2) ∈ [1, 2])) ∧
  (∀ mv amps, isComputeSite st = true → mv.length = 64 →
    let so := sortNats mv
    let row := exec (.openBondCheck st mv amps) s
    let suspect := fun i => i < 64 ∧ amps < 128 ∧ 2 * mv.getD i 0 + 60 ≤ so.getD 31 0 + so.getD 32 0
    so.Perm mv ∧ so.Pairwise (· ≤ ·) ∧
    (state = 0 ∨ 3 < state → row = .next s) ∧
    (1 ≤ state → state ≤ 3 → ∃ t, row = .next t ∧ t = { s with regs := t.regs, routers := t.routers } ∧
      RegsSame s t [b.key 0x20, b.key 0x28] ∧ RoutersSame s t [node] ∧
      t.reg b 0x20 = setBits (setBits (s.reg b 0x20) 0 10 (so.getD 0 0)) 16 10 amps ∧
      (∀ i, i < 64 → (bit (t.reg b 0x28) i = true ↔ bit (s.reg b 0x28) i = true ∨ suspect i)) ∧
      ((∀ i, suspect i → bit (s.reg b 0x28) i = true) → t.routers = s.routers) ∧
      (∀ i, suspect i → bit (s.reg b 0x28) i = false → (∀ j, suspect j → j ≠ i → bit (s.reg b 0x28) j = true) →
        t.router node = (told s 0x0902).router node))) ∧
  (∀ g, isComputeSite st = true → g < 8 →
    let banks := fun h => Sparse.getD 0 x.banks h
    let spacing := bits ctl 8 8
    let effective := bit ctl 1 = true ∧ state ≠ 0 ∧ state ≠ 4 ∧ bits stat 12 3 = 0
    let due := ∀ h, h < 8 → banks h = 4 ∨ g * spacing + banks g ≤ h * spacing + banks h
    let row := exec (.headerGroupStep st g) s
    let up := s.setSite st { x with banks := Sparse.put g (banks g + 1) x.banks }
    let mine := fun n => here n ∧ nodeY n % 8 = g
    (effective → ¬ (x.railOk = true ∧ banks g < 4 ∧ due) → row = .next s) ∧
    (effective → x.railOk = true → banks g < 3 → due → row = .next up) ∧
    (effective → x.railOk = true → banks g = 3 → due → ∃ t, row = .next t ∧
      t = { up with cores := t.cores, regs := t.regs, staged := t.staged, routers := t.routers } ∧
      (∀ n, n < 12288 → t.router n = s.router n) ∧
      (∀ n, mine n → t.core n = { clearing := true } ∧
        bits (t.reg (bCore n) 0x40) 0 4 = min (if state = 3 then 5 else 8) (thermalCap s n) % 16 ∧
        ∀ off, off < 0x1_0000 → off ≠ 0x40 → atReset t n off) ∧
      (∀ n, n < 12288 → ¬ mine n → t.core n = s.core n) ∧
      (∀ key, (∀ n, mine n → key < (bCore n).key 0 ∨ (bCore n).key 0x1_0000 ≤ key) →
        Sparse.find key t.regs = Sparse.find key s.regs ∧ Sparse.find key t.staged = Sparse.find key s.staged)) ∧
    (¬ effective → (banks g = 0 ∨ ∃ h, h < g ∧ banks h ≠ 0) → row = .next s) ∧
    (¬ effective → banks g ≠ 0 → (∀ h, h < g → banks h = 0) → ∃ t, row = .next t ∧
      t = { s.setSite st { x with banks := Sparse.del g x.banks } with
        cores := t.cores, regs := t.regs, staged := t.staged, routers := t.routers } ∧
      (∀ n, n < 12288 → if mine n then kept s t n else t.router n = s.router n) ∧
      (∀ n, mine n → t.core n = {} ∧ ∀ off, off < 0x1_0000 → atReset t n off) ∧
      (∀ n, n < 12288 → ¬ mine n → t.core n = s.core n))) ∧
  (∀ v : Word,
    let level := bits (s.reg bPwr 0x10) 0 3
    let tmax : Int := (BitVec.ofNat 8 (bits (s.reg (bSm st) 0x300) 0 8)).toInt
    let limit := bits (s.reg (bThm (quadrantOf st)) 0x08) 0 8
    let ended := fun i => i = 12 ∧ level ≤ 1 ∨ i = 13 ∧ tmax + 10 ≤ limit ∨
      i = 14 ∧ level ≤ 2 ∧ bit (s.reg bPwr 0x10) 8 = false ∧ s.pins.pwrOk = true ∧ s.pins.coolOk = true ∨ i = 15
    ∃ t, exec (.holdClear st v) s = .next t ∧ t = { s with regs := t.regs } ∧ RegsSame s t [b.key 0x10] ∧
      ∀ i, i < 64 → (bit (t.reg b 0x10) i = true ↔ bit stat i = true ∧ ¬ (ended i ∧ bit v i = true)))


/-- R389 to R394, R398, R434: the Watershed. VIN moves the measured level: down to the deepest level whose threshold it
has stayed below for QUAL_ENTER samples, up one level after QUAL_LEAVE × 100 samples above the leave threshold; below
4.8 V the Plain stops. The effective level is the deepest of the measured level, FORCE, and W3 while a pin is low or
TRIP is 1; a change counts and sends WATERSHED (0x0905), and the levels entered act in their order: warming off,
shedding of the first class that still has headers on, at each of its sites, PANEL holds and guests off, every pass port down. A load that loses a region to a hold ends with
INTERRUPTED (R283). A core that spins in FULL notes it as W1 begins (assumption 77). A trip clears only
below 95 °C everywhere.
Where the rules leave a choice, it is that of assumptions 42, 53 and 77. -/
def Obligations.WatershedLevelsActInOrder : Prop := ∀ s : State,
  let w := s.reg bPwr 0x10
  let level := bits w 0 3
  let measured := bits w 3 3
  let cfg := s.reg bPwr 0x08
  let sensed := fun u : State => max (max (bits (u.reg bPwr 0x10) 3 3) (bits (u.reg bPwr 0x08) 28 3))
    (if u.pins.pwrOk = false ∨ u.pins.coolOk = false ∨ bit (u.reg bPwr 0x10) 8 = true then 3 else 0)
  let told := fun (u : State) code => u.offer leadNode (mkNotice s leadNode code 0 0 0) none
  let powered := fun st => isComputeSite st = true ∧ siteUnpowered s st = false
  let image := bits (s.reg bImg 0x10) 0 3
  let valid := fun r => r < 32 ∧ rgnValid s r = true
  let idle := image = 0 ∨ 5 ≤ image
  let held := fun (t : State) (i : Nat) (l : Nat → Prop) => ∀ st, isComputeSite st = true →
    ∀ j, j < 64 → (bit (t.reg (bSp st) 0x10) j = true ↔ bit (s.reg (bSp st) 0x10) j = true ∨ j = i ∧ l st)
  let off := fun (u : State) => { State.reset with
    pending := u.pending, free := u.free, fill := u.fill + 1, birth := u.birth,
    pins := { pwrOk := u.pins.pwrOk, coolOk := u.pins.coolOk } }
  (sensed s = level → s.updateLevel = s) ∧
  (sensed s ≠ level → ∃ s0 : State,
    let n := sensed s
    let spins := fun m => headerOn s m = true ∧ bit (s.reg (bCore m) 0x30) 16 = true ∧
      bits (s.reg (bCore m) 0x38) 0 2 = 0 ∧ (s.core m).clearing = false
    (¬ (level < 1 ∧ 1 ≤ n) → s0 = s) ∧ s0 = { s with cores := s0.cores } ∧
    (level < 1 → 1 ≤ n → ∀ m, m < 12288 → (spins m → s0.core m = { s.core m with fired := true }) ∧
      (¬ spins m → s0.core m = s.core m)) ∧
    let u0 := told (s0.setReg bPwr 0x10 (wrapInc (setBits w 0 3 n) 16 16)) 0x0905
    let u1 := if level < 1 ∧ 1 ≤ n then u0.warmOff (fun _ => true) else u0
    let u2 := if level < 2 ∧ 2 ≤ n then u1.shed else u1
    let u3 := if level < 3 ∧ 3 ≤ n then u2.enterW3 else u2
    s.updateLevel = if level < 4 ∧ 4 ≤ n then u3.enterW4 else u3) ∧
  (let t := s.warmOff fun _ => true
   t = { s with regs := t.regs } ∧ (∀ st, isComputeSite st = true →
      t.reg (bSm st) 0x300 = setBits (s.reg (bSm st) 0x300) 24 4 0) ∧
     RegsSame s t (computeSites.map fun st => (bSm st).key 0x300)) ∧
  ((image = 4 ∨ image = 5) → (shedOrder s).length = 9 ∧ ∀ p c, (shedOrder s)[p]? = some c → ∀ st, st ∈ c ↔
    if p = 0 then powered st ∧ ∀ r, valid r → st ∉ regionSites s r
      else ∃ r, valid r ∧ bits (rgnCfg s r) 8 3 = p - 1 ∧ st ∈ regionSites s r) ∧
  (image ≠ 4 → image ≠ 5 → ∃ c, shedOrder s = [c] ∧ ∀ st, st ∈ c ↔ powered st) ∧
  (∀ st,
    let stat := s.reg (bSp st) 0x10
    headersOn s st = true ↔ bit (s.reg (bSp st) 0x08) 1 = true ∧ bits stat 0 3 ≠ 0 ∧ bits stat 0 3 ≠ 4 ∧
      bits stat 12 3 = 0 ∧ (s.site st).banks ≠ []) ∧
  ((∀ c ∈ shedOrder s, ∀ st ∈ c, headersOn s st = false) → s.shed = s) ∧
  (∀ pre c post, shedOrder s = pre ++ c :: post → (∀ d ∈ pre, ∀ st ∈ d, headersOn s st = false) →
    (∃ st ∈ c, headersOn s st = true) → ∃ u, u = { s with regs := u.regs } ∧ held u 12 (· ∈ c) ∧
      RegsSame s u (c.map fun st => (bSp st).key 0x10) ∧
      s.shed = if imgBusy u = true ∧ (∃ r, r < 32 ∧ rgnState u r = 1 ∧ ∃ st ∈ regionSites u r, st ∈ c)
        then u.imgFail 0x0F 0 none else u) ∧
  (∃ u, u = { s with regs := u.regs } ∧ held u 14 powered ∧
    RegsSame s u (computeSites.map fun st => (bSp st).key 0x10) ∧
    let v := [0, 1, 2, 3].foldl (fun v g => v.guestEnable g false) u
    let lost := ¬ idle ∧ ∃ r, r < 32 ∧ rgnState s r = 1 ∧ ∃ st ∈ regionSites s r, powered st
    (¬ lost → s.enterW3 = v) ∧ (lost → LoadFails v s.enterW3 0x0F)) ∧
  (∀ k, k < 8 → portState s.enterW4 k = 0 ∧ bits (s.enterW4.reg (bPass k) 0x20) 4 4 = 1) ∧
  (∀ mv v, mv.length = 48 → v ∈ mv → (∀ x ∈ mv, v ≤ x) →
    let row := exec (.vinSample mv) s
    let entry := fun l => 5800 - 200 * l
    let below := fun l => if v < entry l then Sparse.getD 0 s.lead.below l + 1 else 0
    let deep := fun l => 1 ≤ l ∧ l ≤ 4 ∧ bits cfg 0 8 ≤ below l ∧ 1 ≤ below l
    let above := if 1 ≤ measured ∧ leaveMv measured < v then s.lead.above + 1 else 0
    let rises := 1 ≤ measured ∧ bits cfg 8 8 * 100 ≤ above
    (s.pins.resetHeld = true → row = .next s) ∧
    (s.pins.resetHeld = false → v < 4800 → row = .next (off s)) ∧
    (s.pins.resetHeld = false → 4800 ≤ v → ∃ u, row = .next u.updateLevel ∧
      u = { s with regs := u.regs, lead := { s.lead with below := u.lead.below, above := u.lead.above } } ∧
      RegsSame s u [bPwr.key 0x10, bPwr.key 0x18] ∧ u.reg bPwr 0x18 = setBits (s.reg bPwr 0x18) 0 13 v ∧
      (∀ l, 1 ≤ l → l ≤ 4 → Sparse.getD 0 u.lead.below l = below l) ∧
      (∀ l, deep l → measured < l → (∀ l', deep l' → l' ≤ l) →
        u.reg bPwr 0x10 = setBits w 3 3 l ∧ u.lead.above = 0) ∧
      ((∀ l, deep l → l ≤ measured) → rises → u.reg bPwr 0x10 = setBits w 3 3 (measured - 1) ∧ u.lead.above = 0) ∧
      ((∀ l, deep l → l ≤ measured) → ¬ rises → u.reg bPwr 0x10 = w ∧ u.lead.above = above))) ∧
  ([1, 2, 3, 4].map leaveMv = [5700, 5500, 5300, 5100]) ∧
  exec .shedStep s = .next (if 2 ≤ level then s.shed else s) ∧
  (∀ f : BitVec 3, exec (.watershedForce f) s =
    .next (s.setReg bPwr 0x08 (setBits cfg 28 3 (min f.toNat 4))).updateLevel) ∧
  (∀ high : Bool,
    let p := { s with pins := { s.pins with pwrOk := high } }
    let c := { s with pins := { s.pins with coolOk := high } }
    let c1 := if s.pins.resetHeld = true then c else c.updateLevel
    exec (.pwrOk high) s = .next (if s.pins.resetHeld = true then p else p.updateLevel) ∧
    ((s.pins.coolOk = false ∨ high = true ∨ s.pins.resetHeld = true) → exec (.coolOk high) s = .next c1) ∧
    (s.pins.coolOk = true → high = false → s.pins.resetHeld = false →
      exec (.coolOk high) s = .next (c1.noticeLead 0x0909))) ∧
  (let cool := ∀ st, st < 192 → (BitVec.ofNat 8 (bits (s.reg (bSm st) 0x300) 0 8)).toInt < 95
   (bit w 8 = true → cool → exec .tripClear s = .next ({ s with pins := { s.pins with tripLow := false } }.setReg bPwr
      0x10 (setBit w 8 false)).updateLevel) ∧
   ((bit w 8 = false ∨ ¬ cool) → exec .tripClear s = .next s))

/-- R381, R395 to R397, R399, R444: a steward's thermal sample. It takes new predictions for the sites of its quadrant,
free values beyond the coolant inlet temperature that they use (assumption 14), reports the highest and the hottest core, then takes one throttle step: the
hottest core of the site with the highest prediction loses one of its cap while that is above LIMIT, and below
LIMIT − RELEASE the core with the lowest cap gains one. A site that reads at least SITE_OFF, or that stayed above
LIMIT for 20 samples with the cap of its hottest core at 0, is held and fenced. Warming loads move one step. That
predictions are taken for every site of the quadrant, and throttling, SITE_OFF and warming loads are for its compute
sites, is assumption 96. -/
def Obligations.ThermalSamplesThrottleAndWarm : Prop := ∀ s q, q < 4 →
  let sites := fun st => isComputeSite st = true ∧ quadrantOf st = q
  let all := fun st => st < 192 ∧ quadrantOf st = q
  let temp := fun (u : State) st lo => (BitVec.ofNat 8 (bits (u.reg (bSm st) 0x300) lo 8)).toInt
  let cfg := s.reg (bThm q) 0x08
  let limit : Int := bits cfg 0 8
  let x := s.steward q
  let caps := x.caps
  let hot := fun st => nodeOf st (bits (s.reg (bSm st) 0x300) 8 6)
  let cap := fun n => Sparse.getD 8 caps n
  (s.pins.resetHeld = true → exec (.stewardThermalSample q) s = .next s) ∧
  (s.pins.resetHeld = false → ∃ u v, exec (.stewardThermalSample q) s = .next v ∧
    u = { s with regs := u.regs, free := s.free + 1 } ∧
    RegsSame s u ((quadrantAll q).map (fun st => (bSm st).key 0x300) ++ [(bThm q).key 0x10]) ∧
    (∀ st, all st → u.reg (bSm st) 0x300 =
      setBits (s.reg (bSm st) 0x300) 16 8 (Config.thermPred s.free st (bits cfg 32 8)).toNat) ∧
    (∃ st, all st ∧ bits (u.reg (bThm q) 0x10) 0 8 = bits (u.reg (bSm st) 0x300) 16 8 ∧
      ∀ z, all z → temp u z 16 ≤ temp u st 16) ∧
    (∃ st, sites st ∧ bits (u.reg (bThm q) 0x10) 8 14 = hot st ∧ (∀ z, sites z → temp s z 0 ≤ temp s st 0) ∧
      ∀ z, sites z → temp s z 0 = temp s st 0 → hot st ≤ hot z) ∧
    v = (quadrantSites q).foldl (State.warmSite q) ((quadrantSites q).foldl (State.siteHeat q) (u.throttle q))) ∧
  (∀ st, (st ∈ quadrantSites q ↔ sites st) ∧ (st ∈ quadrantAll q ↔ all st)) ∧
  (∀ n c, s.setThermalCap q n c =
    let u := s.setSteward q { x with caps := Sparse.set 8 n c caps }
    if headerOn s n = true then u.setReg (bCore n) 0x40 (setBits (s.reg (bCore n) 0x40) 0 4
      (min (if bits (s.reg (bSp (siteOf n)) 0x10) 0 3 = 3 then 5 else 8) (thermalCap u n))) else u) ∧
  (∀ st, sites st → (∀ z, sites z → temp s z 16 ≤ temp s st 16) → (∀ z, sites z → z < st → temp s z 16 < temp s st 16) →
    let p := temp s st 16
    (limit < p → cap (hot st) = 0 → s.throttle q = s) ∧
    (limit < p → cap (hot st) ≠ 0 → s.throttle q =
      let u := s.setThermalCap q (hot st) (cap (hot st) - 1)
      if caps = [] then u.noticeDie (nodeOf (stewardSite q) 0) 0x0906 none else u) ∧
    (p ≤ limit → limit - bits cfg 8 4 ≤ p → s.throttle q = s) ∧
    (p < limit - bits cfg 8 4 → caps = [] → s.throttle q = s) ∧
    (∀ pre e post, p < limit - bits cfg 8 4 → caps = pre ++ e :: post → (∀ y ∈ pre, e.2 < y.2) →
      (∀ y ∈ post, e.2 ≤ y.2) → s.throttle q = s.setThermalCap q e.1 (e.2 + 1))) ∧
  (∀ st, sites st →
    let above := if limit < temp s st 16 ∧ cap (hot st) = 0 then Sparse.getD 0 x.above st + 1 else 0
    let u := s.setSteward q { x with above := Sparse.set 0 st (min above 20) x.above }
    let off := (bits cfg 16 8 : Int) ≤ temp s st 0 ∨ 20 ≤ above
    ((¬ off ∨ bit (s.reg (bSp st) 0x10) 13 = true) → s.siteHeat q st = u) ∧
    (off → bit (s.reg (bSp st) 0x10) 13 = false → ∃ v : State, s.siteHeat q st =
        v.noticeDie (nodeOf (stewardSite q) 0) 0x0907 none ∧
      v = { u with regs := v.regs, routers := v.routers } ∧
      v.reg (bSp st) 0x10 = setBit (s.reg (bSp st) 0x10) 13 true ∧
      (∀ n, n < 12288 → siteOf n = st → bit (v.reg (bRtr n) 0x10) 0 = true) ∧
      (∀ n, n < 12288 → siteOf n ≠ st → v.router n = s.router n))) ∧
  (∀ st, sites st →
    let warm := bits cfg 24 8
    let step := bits (s.reg (bSm st) 0x300) 24 4
    let next := if bits (s.reg bPwr 0x10) 0 3 ≠ 0 ∨ warm = 0 then 0
      else if temp s st 0 < warm then min 8 (step + 1)
      else if (warm : Int) + 2 < temp s st 0 then step - 1
      else step
    s.warmSite q st = s.setReg (bSm st) 0x300 (setBits (s.reg (bSm st) 0x300) 24 4 next))

/-- R400, R402, R437: the PMBus. A poll reads VIN, IIN and STATUS_WORD of each module and reports the sum of the input
currents, LINEAR11 values, in whole amperes; a read that is not acknowledged, that a module stretches too long, or whose
packet error code does not match counts as a NAK; a module that does not answer, or that reports a fault, is marked and
told with PMBUS_FAULT (0x090B) once. One transaction runs at a time: the host drives its bytes, a write with their packet
error code, and it ends with OK and its data, or with NAK; LEN 3 ends with NAK at once. The code and the LINEAR11 form
are the PMBus's own, which the rules only name (assumption 66).
Where the rules leave a choice, it is that of assumptions 54, 66, 99. -/
def Obligations.PmbusPollsAndTransacts : Prop := ∀ s : State,
  let result := s.reg bPwr 0x40
  let busy := bits result 0 2 = 1
  let status := fun (u : State) v => u.setReg bPwr 0x40 (setBits (u.reg bPwr 0x40) 0 2 v)
  let stat := s.reg bPwr 0x30
  let bytes := fun l : List Nat => l.map (BitVec.ofNat 8)
  let fine := fun (addr cmd n : Nat) (a : BusAnswer) => decide (a.stretched = false ∧ a.data.length = n ∧
    a.pec = pmbusPec (bytes [2 * addr, cmd, 2 * addr + 1] ++ a.data))
  (pmbusPec [] = 0 ∧ ∀ l b, pmbusPec (l ++ [b]) =
    Nat.repeat (fun c : Byte => if c.msb then c <<< 1 ^^^ 7 else c <<< 1) 8 (pmbusPec l ^^^ b)) ∧
  (∀ lo hi : Byte, linear11 [lo, hi] = (BitVec.ofNat 11 (lo.toNat + 256 * (hi.toNat % 8))).toInt *
    2 ^ ((BitVec.ofNat 5 (hi.toNat / 8)).toInt + 16).toNat) ∧
  (∀ answers : List ModuleAnswer,
    let m := bits (s.reg bPwr 0x28) 8 4
    let addr := fun i => (bits (s.reg bPwr 0x28) 0 7 + i) % 128
    let read := fun i cmd (f : ModuleAnswer → Option BusAnswer) =>
      (((answers[i]?.bind f).filter (fine (addr i) cmd 2)).map BusAnswer.data : Option (List Byte))
    let vin := fun i => read i 0x88 ModuleAnswer.vin
    let iin := fun i => read i 0x89 ModuleAnswer.iin
    let word := fun i => read i 0x79 ModuleAnswer.status
    let faults := fun i => i < m ∧ (vin i = none ∨ iin i = none ∨ word i = none ∨ ∃ l, word i = some l ∧ leNat l ≠ 0)
    let naks := ((List.range m).map fun i => [vin i, iin i, word i].countP Option.isNone).sum
    let sum : Int := ((List.range m).map fun i => ((iin i).map linear11).getD 0).sum
    ((m = 0 ∨ s.pins.resetHeld = true) → exec (.pmbusPoll answers) s = .next s) ∧
    (m ≠ 0 → s.pins.resetHeld = false → ∃ t, exec (.pmbusPoll answers) s = .next t ∧
      t = { s with regs := t.regs, routers := t.routers } ∧ RegsSame s t [bPwr.key 0x18, bPwr.key 0x30] ∧
      RoutersSame s t [leadNode] ∧
      t.reg bPwr 0x18 = setBits (s.reg bPwr 0x18) 16 13 (min (sum / 65536).toNat 8191) ∧
      bits (t.reg bPwr 0x30) 16 16 = min 65535 (bits stat 16 16 + naks) ∧
      (∀ i, i < 15 → (bit (t.reg bPwr 0x30) i = true ↔ bit stat i = true ∨ faults i)) ∧
      ∃ told : List Nat, (∀ i, i ∈ told ↔ bit stat i = false ∧ faults i) ∧ told.Nodup ∧
        (t.router leadNode).offers = (s.router leadNode).offers ++
          List.replicate told.length ⟨mkNotice s leadNode 0x090B 0 0 0, none⟩)) ∧
  (∀ v, (bit v 63 = false ∨ busy) → exec (.pmbusXact v) s = .next s) ∧
  (∀ v, bit v 63 = true → ¬ busy → bits v 16 2 = 3 → exec (.pmbusXact v) s = .next (status s 3)) ∧
  (∀ v, bit v 63 = true → ¬ busy → bits v 16 2 ≠ 3 →
    let a := 2 * bits v 0 7
    let u := status (s.setReg bPwr 0x38 v) 1
    let sent := bytes [a, bits v 8 8] ++ leBytes (bits v 32 16) (bits v 16 2)
    exec (.pmbusXact v) s = .next { u with lead := { u.lead with
      bus := if bit v 7 = true then bytes [a, bits v 8 8, a + 1] else sent ++ [pmbusPec sent] } }) ∧
  (∀ ok data, ¬ busy → exec (.pmbusXactDone ok data) s = .next s) ∧
  (∀ ok (data : BusAnswer), busy →
    let v := s.reg bPwr 0x38
    let good := ok = true ∧ if bit v 7 = true then fine (bits v 0 7) (bits v 8 8) (bits v 16 2) data = true
      else data.stretched = false
    (¬ good → exec (.pmbusXactDone ok data) s = .next (status (s.setReg bPwr 0x30 (satInc stat 16 16)) 3)) ∧
    (good → bit v 7 = false → exec (.pmbusXactDone ok data) s = .next (status s 2)) ∧
    (good → bit v 7 = true → exec (.pmbusXactDone ok data) s = .next (s.setReg bPwr 0x40
      (setBits (setBits result 0 2 2) 16 16 (leNat data.data)))))


/-! ## Bring-up, firmware, the watch for progress and compute reset -/

/-- R5, R20, R22, R288, R403, R404, R406 to R408, R411, R412, R434: panel reset returns every register to its value after panel
reset and keeps no event; at its release, from those values and at W3 where a pin is low (R390, R435), the ROM turns VLINK and every VCTL on, starts the oscillators of site 52
and trains both pairs, then goes on at each lock, calibration and bond it waits for. With no pair UP it enters pass
boot, powers the fields and the active sites, starts every oscillator, calibrates and trains every site, and trains
the port of each link site whose bond is DONE. SITE_TRAIN starts training, with the repairs of the birth record applied
again; the panel's own dies report level 1 and the mask 0x1FF; each outcome has the effect of the table of R408. A field
whose VNET rises has its routers at reset, one whose VNET falls loses the words in them, and a router is reached once its
site's crossings are calibrated; a cause flags its site and SITE_REMAP (0x0A06) is sent when
REMAP rises. That the ROM takes an unpowered core domain as needing no lock is the model's choice (assumption 58); that
SET_HOST works at any site is assumption 59; that a VNET rise puts the whole router at reset is assumption 94.
Where the rules leave a choice, it is that of assumptions 18, 58, 59, 94 and 102. -/
def Obligations.BringUpFollowsTheRom : Prop :=
  (∀ s : State,
  let rom := s.lead.rom
  let at_ := fun (u : State) (r : Rom) => { u with lead := { u.lead with rom := r } }
  let bond := fun (u : State) st => bits (u.reg (bSm st) 0x400) 2 3
  let pair := fun (u : State) => bits (u.reg bCtl 0x10) 0 3 = 5 ∨ bits (u.reg bCtl 0x10) 4 3 = 5
  let running := bits (s.reg (bStw 0) 0x20) 0 3 = 3
  let opticsOff := fun k => bit (s.reg (bPass k) 0x10) 2 = true
  let settled := fun st => ∀ d, d < 3 → hasDomain st d = true →
    bit (s.reg (bClk st) (0x20 + 8 * d)) 24 = true ∨ domainKind st d = 2 ∧ bit (s.reg (bSp st) 0x08) 0 = false
  let centred := fun st => bit (s.reg (bClk st) 0x40) 2 = true ∧ (s.site st).calBusy = false
  (∃ t, exec .panelResetN s = .next t ∧ t = { State.reset with
      pending := s.pending, free := s.free, fill := s.fill + 1, birth := s.birth,
      pins := { resetHeld := true, pwrOk := s.pins.pwrOk, coolOk := s.pins.coolOk,
                tripLow := false, vlink := false, vctl := false } } ∧
    t.lead.rom = .held ∧ ∀ k off, t.reg k off = match regInfo s.birth k off with
      | some i => i.reset
      | none => 0) ∧
  (s.pins.resetHeld = false → exec .panelResetRelease s = .next s) ∧
  (s.pins.resetHeld = true →
    let r : State := { State.reset with
      pending := s.pending, free := s.free, fill := s.fill + 1, birth := s.birth,
      pins := { pwrOk := s.pins.pwrOk, coolOk := s.pins.coolOk, resetHeld := false, vlink := true, vctl := true } }
    ∃ t, exec .panelResetRelease s = .next t.updateLevel ∧
    t = { r with
      regs := t.regs, sites := t.sites
      lead := { r.lead with rom := .startLock } } ∧
    SitesSame r t [52] ∧ t.site 52 = { r.site 52 with stretchAt := (t.site 52).stretchAt } ∧
    bits (t.reg bCtl 0x10) 0 3 = 1 ∧ bits (t.reg bCtl 0x10) 4 3 = 1 ∧
    bit (t.reg (bClk 52) 0x08) 0 = true ∧ bit (t.reg (bClk 52) 0x08) 1 = true ∧
    RegsSame r t [bCtl.key 0x10, (bClk 52).key 0x08, (bClk 52).key 0x20, (bClk 52).key 0x28]) ∧
  (rom = .startLock → settled 52 → s.romNext =
    at_ (s.setSite 52 { s.site 52 with calBusy := true }) .startCal) ∧
  (rom = .startCal → centred 52 → s.romNext = at_ (s.bondStart 52) .startBond) ∧
  (rom = .startBond → bond s 52 ≠ 1 → s.romNext = at_ s .waiting) ∧
  (rom = .bootLock → (∀ st, st < 192 → settled st) → ∃ t, s.romNext = at_ t .bootCal ∧
    t = { s with sites := t.sites } ∧ SitesSame s t (List.range 192) ∧ ∀ st, st < 192 → t.site st = { s.site st with calBusy := true }) ∧
  (rom = .bootCal → (∀ st, st < 192 → centred st) → ∃ t, s.romNext = at_ t .bootTrain ∧
    t = { s with regs := t.regs, routers := t.routers } ∧ bond t 52 = bond s 52 ∧
    ∀ st, st < 192 → st ≠ 52 →
      bond t st = (if siteKind st = .guest then bond s st else 1) ∧
      bits (t.reg (bSm st) 0x400) 5 3 =
        if isComputeSite st = true ∧ siteUnpowered s st = false then 1 else bits (s.reg (bSm st) 0x400) 5 3) ∧
  ((rom = .startLock ∧ ¬ settled 52 ∨ rom = .startCal ∧ ¬ centred 52 ∨ rom = .startBond ∧ bond s 52 = 1 ∨
    rom = .bootLock ∧ (∃ st, st < 192 ∧ ¬ settled st) ∨ rom = .bootCal ∧ (∃ st, st < 192 ∧ ¬ centred st) ∨
    rom ∈ [Rom.held, .waiting, .bootTrain]) → s.romNext = s) ∧
  ((rom ∉ [Rom.startLock, .startCal, .startBond, .waiting] ∨ pair s ∨ running) → exec .passBoot s = .next s) ∧
  (rom ∈ [Rom.startLock, .startCal, .startBond, .waiting] → ¬ pair s → ¬ running → ∃ u v t,
    exec .passBoot s = .next (at_ t .bootLock) ∧ u = s.setReg bCtl 0x10 (setBit (s.reg bCtl 0x10) 10 true) ∧
    v = (u.stage bPwr 0x20 (rwsMask u bPwr 0x20) (u.reg bPwr 0x20 ||| msk 47 0)).go bPwr ∧
    t = (let w := (computeSites.filter fun st => statusByte s.birth st == 0x01).foldl (fun x st => (x.stage (bSp st) 0x08
          (rwsMask x (bSp st) 0x08) (setBits (x.reg (bSp st) 0x08) 0 2 1)).go (bSp st)) v
         (List.range 192).foldl (fun x st => [0, 1, 2].foldl (fun y d => y.oscEn st d true) x) w) ∧
    (s.pins.resetHeld = false → ∀ st d, st < 192 → d < 3 → hasDomain st d = true →
      bit (t.reg (bClk st) 0x08) d = true)) ∧
  ((rom ≠ .bootTrain ∨ running) → exec .passBootRetrain s = .next s) ∧
  (rom = .bootTrain → ¬ running → ∃ t, exec .passBootRetrain s = .next t ∧
    t = { s with regs := t.regs, links := t.links } ∧ LinksSame s t (List.range 8) ∧
    RegsSame s t ((List.range 8).map fun k => (bPass k).key 0x20) ∧
    ∀ k, k < 8 →
      let trains := portState s k = 0 ∧ bond s (linkSite k) = 2 ∧ ¬ opticsOff k ∧ s.pins.resetHeld = false
      (trains → t.reg (bPass k) 0x20 = setBits (s.reg (bPass k) 0x20) 0 3 1 ∧
        t.link k = { s.link k with
          resuming := false, laserOn := true, laneErrs := [], rxSeq := 0
          trainMode := bit (s.reg (bPass k) 0x18) 2 }) ∧
      (¬ trains → t.reg (bPass k) 0x20 = s.reg (bPass k) 0x20 ∧ t.link k = s.link k))) ∧
  (∀ s st, isSite st = true →
  let w := s.reg (bSm st) 0x400
  let health := s.reg (bSm st) 0x408
  let busyB := bits w 2 3 = 1
  let busyD := bits w 5 3 = 1
  let rom := s.lead.rom
  let waits := rom ∈ [Rom.startLock, .startCal, .startBond, .bootLock, .bootCal, .bootTrain]
  ((busyB ∨ siteKind st = .guest ∨ st = 52) → exec (.siteTrainBond st) s = .next s) ∧
  (¬ busyB → siteKind st ≠ .guest → st ≠ 52 → exec (.siteTrainBond st) s = .next (s.bondStart st)) ∧
  (let t := s.bondStart st
   t = { s with regs := t.regs, routers := t.routers } ∧ t.reg (bSm st) 0x400 = setBits w 2 3 1 ∧
    RoutersSame s t (siteNodes st) ∧
    RegsSame s t ((bSm st).key 0x400 :: (siteNodes st).map fun n => (bRtr n).key 0x10) ∧
    ∀ n, n ∈ siteNodes st → t.router n = { s.router n with spares := (t.router n).spares } ∧
      (∀ pl g, pl < 4 → g < 4 → Sparse.getD 0 (t.router n).spares (4 * pl + g) = s.birth.bondRepair.countP fun e =>
        let w := e.zeroExtend 64
        bits w 0 8 = st ∧ bits w 8 6 = localOf n ∧ bits w 14 2 = pl ∧ bits w 16 2 = g) ∧
      t.reg (bRtr n) 0x10 = setBits (s.reg (bRtr n) 0x10) 2 4 0) ∧
  ((busyD ∨ siteKind st ≠ .compute ∨ bit (s.reg (bSp st) 0x08) 0 = false) →
    exec (.siteTrainDram st) s = .next s) ∧
  (¬ busyD → siteKind st = .compute → bit (s.reg (bSp st) 0x08) 0 = true →
    exec (.siteTrainDram st) s = .next (s.setReg (bSm st) 0x400 (setBits w 5 3 1))) ∧
  (∀ failed,
    let done := fun v => s.setReg (bSm st) 0x400 (setBits (setBits w 8 7 (min failed 64)) 5 3 v)
    (¬ busyD → exec (.dramTrainDone st failed) s = .next s) ∧
    (busyD → failed = 0 → exec (.dramTrainDone st failed) s = .next (done 2)) ∧
    (busyD → failed ≠ 0 → exec (.dramTrainDone st failed) s = .next ((done 3).flagRemap st 4))) ∧
  exec (.setHost st) s = .next (s.flagRemap st 6) ∧
  (∀ cause, 1 ≤ cause → cause ≤ 6 →
    let u := s.setReg (bSm st) 0x408 (setBit (setBit health cause true) 0 true)
    s.flagRemap st cause = if bit health 0 = true then u else u.noticePlain (nodeOf st 0) 0x0A06 none) ∧
  (∀ r : BondResult,
    let row := exec (.bondTrainDone st r) s
    let ok := r.ok = true
    let after := fun (t : State) (good : Bool) =>
      t.reg (bSm st) 0x400 = setBits w 2 3 (if good then 2 else 3) ∧ bit (t.reg (bSm st) 0x100) 32 = good ∧
      bits (t.reg (bSm st) 0x100) 0 4 = (if good then 1 else 0) ∧
      bits (t.reg (bSm st) 0x100) 4 4 = bits (s.reg (bSm st) 0x100) 4 4 ∧
      bits (t.reg (bSm st) 0x100) 8 4 = (if good then 1 else 0) ∧
      bits (t.reg (bSm st) 0x100) 16 8 = (if good then 0xA1 else 0) ∧
      t.reg (bSm st) 0x108 = (if good then 0x1FF else 0) ∧
      t.reg (bSm st) 0x110 = (if good then 0x1FF else 0) ∧ t = { s with regs := t.regs } ∧
      RegsSame s t [(bSm st).key 0x400, (bSm st).key 0x100, (bSm st).key 0x108, (bSm st).key 0x110]
    (¬ busyB → row = .next s) ∧
    (busyB → ¬ waits → ∃ t,
      (ok → after t true ∧ row = .next ((r.failed.filter fun f => f.1 < 64 && f.2 < 4).foldl
        (fun u f => u.dropPlane (nodeOf st f.1) f.2) t)) ∧
      (¬ ok → after t false ∧ row = .next (if siteKind st = .compute then t.flagRemap st 3 else t))) ∧
    (busyB → rom = .startBond → st = 52 → r.failed = [] → ∃ t, after t r.ok ∧
      row = .next { t with lead := { s.lead with rom := .waiting } }) ∧
    (∀ k, busyB → rom = .bootTrain → k < 8 → linkSite k = st → ok → r.failed = [] →
      bits (s.reg (bStw 0) 0x20) 0 3 ≠ 3 → ∃ t, after t true ∧ row = .next (t.passTrain k)))) ∧
  (∀ (s : State) n pl, isNode n = true → pl < 4 →
    let w := s.reg (bRtr n) 0x10
    let u := (s.setReg (bRtr n) 0x10 (setBit (setBit w (2 + pl) true) (6 + pl) false)).noticePlain n 0x0208 none
    let second := isComputeSite (siteOf n) = true ∧ bit w (2 + pl) = false ∧ popCount (bits w 2 4) 4 = 1
    (second → s.dropPlane n pl = (u.noticePlain (nodeOf (siteOf n) 0) 0x0209 none).flagRemap (siteOf n) 2) ∧
    (¬ second → s.dropPlane n pl = u)) ∧
  (∀ (s old : State) f, f < 48 →
    let on := fun h => bit (s.reg bPwr 0x20) h
    (∀ h, h < 48 → h ≠ f → vnetOn old h = on h) →
      s.pwrApplied old = if vnetOn old f = on f then s else if on f = true then s.vnetRise f else s.vnetFall f) ∧
  (∀ (s : State) f, f < 48 →
    let mine := fun n => n < 12288 ∧ fieldOf (siteOf n) = f
    let up := s.vnetRise f
    let down := s.vnetFall f
    up = { s with regs := up.regs, staged := up.staged, routers := up.routers } ∧
    (∀ n, n < 12288 → up.router n = if fieldOf (siteOf n) = f then { ({} : Router) with
        offers := (s.router n).offers, plain := (s.router n).plain
        vclosed := if fencedAtReset s.birth n = true then 0xFF else 0 }
      else s.router n) ∧
    (∀ n off, mine n → off < 0x1_0000 →
      up.reg (bRtr n) off = ((regInfo s.birth (bRtr n) off).map (·.reset)).getD 0) ∧
    (∀ key, (∀ n, mine n → key < (bRtr n).key 0 ∨ (bRtr n).key 0x1_0000 ≤ key) →
      Sparse.find key up.regs = Sparse.find key s.regs) ∧
    down = { s with sites := down.sites, routers := down.routers } ∧
    (∀ st, st < 192 → down.site st =
      if fieldOf st = f then { s.site st with crossed := false } else s.site st) ∧
    (∀ n pl, mine n → let y := down.plane n pl
      y = { s.plane n pl with
        inputs := [], gather := [], transit := [], half := [], ends := y.ends, vout := [], served := [], held := [] } ∧
      ∀ e, y.endOf e = { sent := (y.endOf e).sent }) ∧
    ((∀ n pl e, mine n → pl < 4 → e < 4 → crosses n e = true →
        Sparse.find e (s.plane n pl).transit = none ∧ ((s.plane n pl).endOf e).again = [] ∧
        ((s.plane (farEnd n e).1 pl).endOf (farEnd n e).2).awaiting = none) →
      ∀ n pl, n < 12288 → (fieldOf (siteOf n) ≠ f → down.plane n pl = s.plane n pl) ∧
        (mine n → ∀ e, ((down.plane n pl).endOf e).sent = ((s.plane n pl).endOf e).sent))) ∧
  (∀ (s : State) n, routerLive s n = true ↔ bit (s.reg bPwr 0x20) (fieldOf (siteOf n)) = true ∧
    s.pins.resetHeld = false ∧ bit (s.reg (bClk (siteOf n)) 0x20) 25 = true ∧ (s.site (siteOf n)).crossed = true)

/-- R409, R410, R425: BEGIN makes the lead steward receive firmware, from nothing consumed; a chunk out of place is
dropped and counted; the bytes without a gap are consumed, and at LENGTH it is verified. The checks are made in their
order, and the first that fails rejects the firmware with its reason and FW_REJECTED (0x0A07); when all pass and all
four stewards start, it is RUNNING, and BEGIN and ABORT have no effect until panel reset.
Where the rules leave a choice, it is that of assumption 57. -/
def Obligations.FirmwareIsCheckedInOrder : Prop := ∀ s : State,
  let w := s.reg (bStw 0) 0x20
  let running := bits w 0 3 = 3
  let l := s.lead
  let got := l.fwFull
  (running → exec .fwBegin s = .next s ∧ exec .fwAbort s = .next s) ∧ (s.pins.resetHeld = true → exec .fwBegin s = .next s) ∧
  (¬ running → s.pins.resetHeld = false → exec .fwBegin s = .next
    { s.setReg (bStw 0) 0x20 1 with lead := { l with fwBytes := [], fwFull := [] } }) ∧
  (¬ running → exec .fwAbort s = .next (s.setReg (bStw 0) 0x20 (setBits w 0 3 0))) ∧
  (∀ chunk,
    let off := (quadAt chunk 0).toNat
    let data := chunk.drop 8
    let c := got.length
    let taken := bits w 0 3 = 1 ∧ 16 ≤ chunk.length ∧ chunk.length ≤ 256 ∧ chunk.length % 8 = 0 ∧
      off % 8 = 0 ∧ off < c + 2 ^ 20
    let row := exec (.stwFwData chunk) s
    (¬ taken → row = .next (s.setReg (bStw 0) 0x20 (satInc w 48 16))) ∧
    (taken → l.fwBytes = [] → off = c →
      let all := got ++ data
      let len := (quadAt all 8).toNat
      (all.length < 16 ∨ all.length < len → row = .next { s.setReg (bStw 0) 0x20 (setBits w 16 25 all.length) with
        lead := { l with fwFull := all } }) ∧
      (16 ≤ all.length → len ≤ all.length → row = .next
        { s.setReg (bStw 0) 0x20 (setBits (setBits w 16 25 (min all.length (max len 16))) 0 3 2) with
          lead := { l with fwFull := all.take (max len 16) } })) ∧
    (taken → Sparse.find c l.fwBytes = none → (∀ e ∈ l.fwBytes, c < e.1) → (c < off ∨ off + data.length ≤ c) →
      got.length < 16 ∨ got.length < (quadAt got 8).toNat → ∃ m,
      row = .next { s.setReg (bStw 0) 0x20 (setBits w 16 25 c) with lead := { l with fwBytes := m } } ∧
      ∀ o, Sparse.find o m = if (Sparse.find o l.fwBytes).isSome = true then Sparse.find o l.fwBytes
        else if c ≤ o ∧ off ≤ o ∧ o < off + data.length then data[o - off]? else none)) ∧
  (bits w 0 3 ≠ 2 → ∀ b, exec (.fwVerify b) s = .next s) ∧
  (bits w 0 3 = 2 → ∀ b : Bool,
    let row := exec (.fwVerify b) s
    let rejects := fun reason => row = .next ((s.setReg (bStw 0) 0x20 (setBits (setBits w 0 3 4) 4 4 reason)).offer leadNode
      (mkNotice s leadNode 0x0A07 0 0 0) none)
    let length := (quadAt got 8).toNat
    let modulus := (got.drop 0x80).take 512
    let exponent := (got.drop 0x280).take 8
    let fits := length % 64 = 0 ∧ 2048 ≤ length ∧ length ≤ 2 ^ 24 ∧ got.length = length
    let keyed := sha512 (modulus ++ exponent) = padTo 64 s.birth.fwKeyHash
    let signed := pssVerify modulus exponent (got.take 0x300) ((got.drop 0x300).take 512) = true
    let whole := sha512 (got.drop 0x600) = (got.drop 0x40).take 64
    let magic := quadAt got 0 = 0x444C_5446_4952_4D57
    (¬ magic → rejects 1) ∧
    (magic → ¬ fits → rejects 2) ∧
    (magic → fits → ¬ keyed → rejects 3) ∧
    (magic → fits → keyed → ¬ signed → rejects 4) ∧
    (magic → fits → keyed → signed → ¬ whole → rejects 5) ∧
    (magic → fits → keyed → signed → whole → b = false → rejects 6) ∧
    (magic → fits → keyed → signed → whole → b = true → ∃ t, row = .next t ∧
      t = { s with regs := t.regs, lead := { l with fwImage := got, fwFull := [], fwBytes := [] } } ∧
      RegsSame s t [(bStw 0).key 0x20, bCtl.key 0x10] ∧
      t.reg (bStw 0) 0x20 = setBits (setBits w 0 3 3) 4 4 0 ∧
      t.reg bCtl 0x10 = setBit (s.reg bCtl 0x10) 9 true))

/-- R413 to R419: a sample finds the contexts that are hung, watched with the same Cairn for the window of their
region, and those that have faulted since the last; the first event is kept in STW_HANG, each hang is reported once
with HANG (0x0A01), and the policy of each region is applied once. A compute reset is refused with RESET_REFUSED
(0x0A03) while a selected region drains; else it clears the cores in scope, advances the generation of every selected
region and makes it RESETTING, a load of such a region ending with INTERRUPTED (R283, R416), a packet part-way into a core's inbox being discarded with its credit, and CLEARED with RESET_DONE (0x0A02) when every core in scope is clear. The order in
which several regions are treated within one sample is the model's choice (assumption 59).
Where the rules leave a choice, it is that of assumption 59. -/
def Obligations.StewardsWatchAndReset : Prop :=
  (∀ s : State,
  let stat := s.reg (bStw 0) 0x38
  let chosen := fun v r => r < 32 ∧ bit (rgnCfg s r) 0 = true ∧ (bit v 32 = true ∨ bit v r = true)
  let serves := fun n => isCoreNode n = true ∧ coreServed s n = true
  let region := fun n => bits (s.reg (bCore n) 0x30) 0 5
  let member := fun n => bit (s.reg (bCore n) 0x30) 16 = true
  (∀ v, (bit v 33 = false ∨ bits stat 0 2 = 1) → exec (.computeReset v) s = .next s) ∧
  (∀ v r, bit v 33 = true → bits stat 0 2 ≠ 1 → chosen v r → 0 < bits (rgnCfg s r) 32 8 →
    (∀ r', chosen v r' → 0 < bits (rgnCfg s r') 32 8 → r ≤ r') → exec (.computeReset v) s = .next
      ((s.setReg (bStw 0) 0x38 (setBits (setBits stat 0 2 3) 2 5 r)).offer leadNode
        (mkNotice s leadNode 0x0A03 0 0 0) none)) ∧
  (∀ v, bit v 33 = true → bits stat 0 2 ≠ 1 → (∀ r, chosen v r → bits (rgnCfg s r) 32 8 = 0) →
    let lost := (∃ r, chosen v r ∧ bits (rgnCfg s r) 1 3 = 1) ∧ 1 ≤ bits (s.reg bImg 0x10) 0 3 ∧ bits (s.reg bImg 0x10) 0 3 ≤ 4
    ∃ u t, exec (.computeReset v) s = .next t ∧ (¬ lost → u = s) ∧ (lost → LoadFails s u 0x0F) ∧
      t = { u with cores := t.cores, regs := t.regs, staged := t.staged, lead := t.lead, routers := t.routers } ∧
      (∀ n, n < 12288 →
        let cleared := n ∈ t.lead.resetScope ∧ (s.core n).clearing = false
        (∀ a, cleared → (s.core n).admitting = some a → t.router n = (u.creditDie n a.plane a.pkt).router n) ∧
        (¬ cleared ∨ (s.core n).admitting = none → t.router n = u.router n)) ∧
      t.lead = { u.lead with resetScope := t.lead.resetScope, resetRegions := t.lead.resetRegions } ∧
      t.reg (bStw 0) 0x38 = wrapInc (setBits (setBits stat 0 2 1) 2 5 0) 16 16 ∧
      (∀ n, n ∈ t.lead.resetScope ↔ serves n ∧ (bit v 32 = true ∨ member n ∧ chosen v (region n))) ∧
      (∀ r, r ∈ t.lead.resetRegions ↔ chosen v r) ∧
      (∀ r, chosen v r → rgnCfg t r = setBits (setBits (setBits (rgnCfg s r) 1 3 4) 4 4
        (if bits (rgnCfg s r) 4 4 = 15 then 1 else bits (rgnCfg s r) 4 4 + 1)) 32 8 (bits (s.reg (bStw 0) 0x10) 0 8)) ∧
      (∀ r, r < 32 → ¬ chosen v r → rgnCfg t r = rgnCfg u r) ∧
      (∀ n, isNode n = true → n ∉ t.lead.resetScope → t.core n = s.core n ∧
        ∀ off, off < 0x1_0000 → t.reg (bCore n) off = u.reg (bCore n) off) ∧
      ∀ n, n ∈ t.lead.resetScope → (s.core n).clearing = false → t.core n = { clearing := true } ∧
        (member n → chosen v (region n) → bits (s.reg (bCore n) 0x38) 0 2 ≠ 3 →
          (bits (s.reg (bCore n) 0x38) 0 2 = 1 → bits (s.reg (bCore n) 0x38) 8 8 ≠ 0) →
          bits (t.reg (bCore n) 0x30) 0 5 = region n ∧ bit (t.reg (bCore n) 0x30) 16 = true ∧
          bits (t.reg (bCore n) 0x30) 8 4 = bits (rgnCfg t (region n)) 4 4)) ∧
  (let done := bits stat 0 2 = 1 ∧ ∀ n ∈ s.lead.resetScope, coreServed s n = true → (s.core n).clearDone = true
   (¬ done → exec .resetDone s = .next s) ∧
   (done → ∃ u, exec .resetDone s = .next (u.offer leadNode (mkNotice s leadNode 0x0A02 0 0 0) none) ∧
      u = { s with regs := u.regs, lead := { s.lead with resetScope := [], resetRegions := [] } } ∧
      u.reg (bStw 0) 0x38 = setBits stat 0 2 2 ∧
      (∀ r, r < 32 → rgnCfg u r = if r ∈ s.lead.resetRegions then setBits (rgnCfg s r) 1 3 5 else rgnCfg s r) ∧
      RegsSame s u ((bStw 0).key 0x38 :: s.lead.resetRegions.map fun r => (bStw 0).key (0x1000 + 32 * r))))) ∧
  (∀ s q, q < 4 →
  let s0 := if q = 0 then s.drainSample else s
  let x := s.steward q
  let b := bStw q
  let region := fun n => bits (s.reg (bCore n) 0x30) 0 5
  let member := fun n => bit (s.reg (bCore n) 0x30) 16 = true
  let cfg := fun n => rgnCfg s (region n)
  let mine := fun n => isCoreNode n = true ∧ quadrantOf (siteOf n) = q ∧ ∃ c, (n, c) ∈ s.cores
  let looked := fun n i => member n ∧ bit (s.reg (bStw 0) 0x10) 8 = true ∧ bits (cfg n) 1 3 = 2 ∧ bits (cfg n) 16 16 ≠ 0 ∧
    headerOn s n = true ∧ bits (coreStat s n) 5 4 ≠ 0 ∧ ((s.ctx n i).state = .ready ∨ (s.ctx n i).state = .parked) ∧
    (s.ctx n i).idle = false
  let still := fun n i => if looked n i ∧ Sparse.getD 0 x.seenCairn (4 * n + i) = (s.ctx n i).cairn
    then Sparse.getD 0 x.still (4 * n + i) + 1 else 0
  let hung := fun n i => looked n i ∧ bits (cfg n) 16 16 ≤ still n i
  let hangs := fun n i => hung n i ∧ 4 * n + i ∉ x.hung
  let faults := fun n i => (s.ctx n i).state = .faulted ∧ member n ∧ 4 * n + i ∉ x.seenFault
  let es := sampleEvents s0 q
  let policy := fun r => bits (rgnCfg s r) 11 2
  let n0 := nodeOf (stewardSite q) 0
  (∀ r, r < 32 → rgnCfg s.drainSample r = setBits (rgnCfg s r) 32 8 (bits (rgnCfg s r) 32 8 - 1)) ∧
  (let t := s.drainSample
   t = { s with regs := t.regs } ∧ RegsSame s t ((List.range 32).map fun r => (bStw 0).key (0x1000 + 32 * r))) ∧
  (∀ n i f, (⟨n, i, f⟩ : Event) ∈ es ↔ mine n ∧ i < 4 ∧ if f = true then faults n i else hangs n i) ∧
  exec (.cairnSample q) s = .next ((es.foldl (State.noteEvent q) (s0.noteSample q)).applyPolicies q es) ∧
  (let t := s.noteSample q
   t = s.setSteward q { x with
      still := (t.steward q).still
      hung := (t.steward q).hung
      seenCairn := (t.steward q).seenCairn
      seenFault := (t.steward q).seenFault } ∧
    ∀ n i, mine n → i < 4 →
      let k := 4 * n + i
      let y := t.steward q
      Sparse.getD 0 y.still k = still n i ∧ Sparse.getD 0 y.seenCairn k = (s.ctx n i).cairn ∧
      (k ∈ y.seenFault ↔ (s.ctx n i).state = .faulted) ∧
      (k ∈ y.hung ↔ hung n i ∨ k ∈ x.hung ∧ still n i ≠ 0)) ∧
  (∀ e : Event, e.ctx < 4 → isCoreNode e.node = true → ∃ u, u = { s with regs := u.regs } ∧ RegsSame s u [b.key 0x40] ∧
    s.noteEvent q e = (if e.fault = true then u else u.offer n0 (mkNotice s e.node 0x0A01 0 0 0) none) ∧
    bits (u.reg b 0x40) 32 16 = min (bits (s.reg b 0x40) 32 16 + 1) 0xFFFF ∧
    (bit (s.reg b 0x40) 0 = true → ∀ i, i < 32 → bit (u.reg b 0x40) i = bit (s.reg b 0x40) i) ∧
    (bit (s.reg b 0x40) 0 = false → bit (u.reg b 0x40) 0 = true ∧ bits (u.reg b 0x40) 1 5 = region e.node ∧
      bits (u.reg b 0x40) 6 14 = e.node % 2 ^ 14 ∧ bits (u.reg b 0x40) 20 2 = e.ctx ∧
      bit (u.reg b 0x40) 22 = e.fault)) ∧
  (∀ es : List Event,
    let named := fun r => ∃ e ∈ es, region e.node = r
    let nodes := fun r => ((es.filter fun e => decide (region e.node = r)).map Event.node).eraseDups
    let stops := ((es.map fun e => region e.node).eraseDups).filter fun r => policy r == 2
    let asks := (List.range 32).filter fun r => decide (r ∈ x.resets) || decide (policy r = 1 ∧ ∃ e ∈ es, region e.node = r)
    (x.resets = [] → (∀ r, named r → policy r = 0 ∨ policy r = 3) → s.applyPolicies q es = s.setSteward q x) ∧
    (let u := stops.foldl (fun u r => u.stopRegion r (nodes r)) s
     s.applyPolicies q es = asks.foldl (State.askReset q) (u.setSteward q { x with resets := [] }))) ∧
  (∀ r,
    let v := setBit (BitVec.ofNat 64 (2 ^ r)) 33 true
    r < 32 → ∃ u, exec (.computeReset v) s = .next u ∧
      let again := bits (s.reg (bStw 0) 0x38) 0 2 = 1 ∨ bits (u.reg (bStw 0) 0x38) 0 2 = 3
      (again → s.askReset q r = u.setSteward q { u.steward q with resets := (u.steward q).resets ++ [r] }) ∧
      (¬ again → s.askReset q r = u)) ∧
  (∀ r nodes, r < 32 → (∀ n ∈ nodes, isNode n = true) → ∃ u v : State, s.stopRegion r nodes = v.setReg (bStw 0) (0x1000 + 32 * r) (setBits (rgnCfg s r) 1 3 3) ∧
    u = { s with cores := u.cores, regs := u.regs } ∧
    (∀ n, isCoreNode n = true → coreServed s n = true → siteOf n ∈ regionSites s r → exec (.halt n 15) s =
      .next (s.halt n 15) ∧ u.core n = (s.halt n 15).core n ∧
      bits (u.reg (bCore n) 0x18) 4 4 = 15) ∧
    (∀ n, (siteOf n ∉ regionSites s r ∨ coreServed s n = false) → u.core n = s.core n) ∧
    v = nodes.foldl (fun w n => (w.setFence n true).flagRemap (siteOf n) 5) u))

/-- R417: a reset that selects regions by REGIONS (ALL = 0, R415) is refused while a selected region has DRAIN_LEFT
above 0: STATUS becomes REFUSED, REFUSED_REGION names the lowest such region, and the panel sends RESET_REFUSED (0x0A03).
Nothing is cleared: no core and no region's word changes, so no generation advances. -/
def Obligations.ResetIsRefusedWhileARegionDrains : Prop := ∀ (s : State) (v : Word) r,
  let stat := s.reg (bStw 0) 0x38
  let drains := fun r => r < 32 ∧ bit (rgnCfg s r) 0 = true ∧ bit v r = true ∧ 0 < bits (rgnCfg s r) 32 8
  bit v 32 = false → bit v 33 = true → bits stat 0 2 ≠ 1 → drains r → (∀ r', drains r' → r ≤ r') →
  ∃ u, exec (.computeReset v) s = .next (u.offer leadNode (mkNotice s leadNode 0x0A03 0 0 0) none) ∧
    u = { s with regs := u.regs } ∧ RegsSame s u [(bStw 0).key 0x38] ∧
    bits (u.reg (bStw 0) 0x38) 0 2 = 3 ∧ bits (u.reg (bStw 0) 0x38) 2 5 = r ∧
    (∀ i, 7 ≤ i → i < 64 → bit (u.reg (bStw 0) 0x38) i = bit stat i) ∧
    (∀ n, u.core n = s.core n) ∧ ∀ r', r' < 32 → rgnCfg u r' = rgnCfg s r'


/-! ## The panel as a whole -/

/-- A step is the command at the front of the queue, run with the queue's rest; with no command waiting the panel
idles (assumption 4), and a word spells no command, since no row of the table gives bits. -/
def Obligations.StepRunsTheFrontCommand : Prop :=
  (∀ (s : State) (c : Instr), step { s with pending := c :: s.pending } = exec c s) ∧
  (∀ (s : State) (c : Instr) (rest : List Instr), s.pending = c :: rest →
    step s = exec c { s with pending := rest }) ∧
  (∀ s : State, s.pending = [] → step s = .next s) ∧
  ∀ (s : State) (nbits w : Nat), Sys2Proof.decodeTableWord nbits w = none ∧ s.withFetchWord nbits w = s

/-- R32, R39, R40, R58, R68, R403, R434: the panel after reset is held in reset with nothing switched on and nothing
queued; every register holds the value of its table, every context is FREE with its banks zero, every slot and
counter is zero, and every router, slice, link and bridge is empty. All memory has its canonical form, and every
program counter its range. The values of the registers of which the spec gives none, of the birth record and of the
pins are the model's (assumptions 5 to 8). -/
def Obligations.ResetHoldsThePanel : Prop :=
  let s := State.reset
  s.pending = [] ∧ s.pins.resetHeld = true ∧ s.pins.vlink = false ∧ s.pins.vctl = false ∧ s.lead.rom = .held ∧
  Memory.wf s = true ∧ PcWf s ∧
  (∀ k off i, regInfo s.birth k off = some i → s.reg k off = i.reset) ∧
  (∀ n i, (s.ctx n i).state = .free ∧ (s.ctx n i).outstanding = 0 ∧ (∀ r, (s.ctx n i).getG r = 0) ∧
    (∀ r, r < 8 → (s.ctx n i).getP r = false) ∧ ∀ r l, (s.ctx n i).lane r l = 0) ∧
  (∀ n k, Sparse.getD 0 (s.core n).slots k = 0 ∧ Sparse.getD 0 (s.core n).ccs k = 0 ∧ (s.core n).spadByte k = 0 ∧
    (s.core n).imemByte k = 0 ∧ (s.core n).inbox = [] ∧ coreServed s n = false ∧ coreMember s n = false) ∧
  (∀ n pl, (s.plane n pl).inputs = [] ∧ (s.plane n pl).transit = [] ∧ (s.plane n pl).vout = [] ∧
    (s.router n).offers = [] ∧ (s.router n).plain = []) ∧
  (∀ n, (s.slice n).queue = [] ∧ (s.slice n).openSets = [] ∧ (s.slice n).live = 0) ∧
  (∀ k, portState s k = 0 ∧ (s.link k).egress = [] ∧ (s.link k).ingress = []) ∧
  (∀ st, isComputeSite st = true → siteUnpowered s st = true ∧ bondState s st = 0 ∧ dramState s st = 0) ∧
  bits (s.reg bImg 0x10) 0 3 = 0 ∧ bits (s.reg (bStw 0) 0x20) 0 3 = 0 ∧ bits (s.reg (bStw 0) 0x10) 0 8 = 20 ∧
  ∀ r, r < 32 → rgnState s r = 0

/-- R14, R15, R17, R18: every command whose unit the panel has and whose operands are in range takes effect; a
command to a unit that the panel does not have is refused as such (assumption 1). No command faults, and a refused
one has no other reason. -/
def Obligations.EveryCommandThatCanBeGivenCompletes : Prop := ∀ (c : Instr) (s : State),
  (c.wellFormed = true → ∃ t, exec c s = .next t) ∧
  (c.unit.present = false → exec c s = .refused .noSuchUnit) ∧
  ((∃ t, exec c s = .next t) ∨ exec c s = .refused .noSuchUnit)

/-- Every step keeps all memory in canonical form: registers, staged values, cores and slices are listed under rising
keys, and scratchpad, instruction memory, slots, counters, general registers and lanes list nothing that is zero, so
that equal contents are equal lists. -/
def Obligations.StepKeepsTheMemoryForm : Prop :=
  (∀ (c : Instr) (s t : State), Memory.wf s = true → exec c s = .next t → Memory.wf t = true) ∧
  ∀ s t : State, Memory.wf s = true → step s = .next t → Memory.wf t = true

/-- R53, R81, R82: no step takes a program counter off the words of instruction memory: it stays a multiple of 8 and at most
0x1_0000, the offset after the last word, where the next fetch faults. -/
def Obligations.StepKeepsProgramCountersInRange : Prop :=
  (∀ (c : Instr) (s t : State), PcWf s → exec c s = .next t → PcWf t) ∧
  ∀ s t : State, PcWf s → step s = .next t → PcWf t

/-- R20 to R22, R403: no command changes the birth record, and no command but its own queue's step takes a
command from the queue or puts one there; reset keeps both. A step takes exactly the command at the front. -/
def Obligations.CommandsKeepTheBirthRecordAndTheQueue : Prop :=
  (∀ (c : Instr) (s t : State), exec c s = .next t →
    t.birth = s.birth ∧ t.pending = s.pending ∧ s.fill ≤ t.fill ∧ s.free ≤ t.free) ∧
  ∀ s t : State, step s = .next t → t.birth = s.birth ∧ t.pending = s.pending.tail
end

