-- ==== Sys2Proof/Laws/Bits.lean ====
section
/-! SUPPORT. Laws of bit fields: what a field reads after a field is written. -/

namespace Sys2Proof.Machine

/-- A bit of a mask. -/
theorem maskAt_getLsbD (lo len i : Nat) (h : lo + len ≤ 64) :
    (maskAt lo len).getLsbD i = (decide (lo ≤ i) && decide (i < lo + len)) := by
  simp only [maskAt, BitVec.getLsbD_ofNat, Nat.testBit_shiftLeft, Nat.testBit_two_pow_sub_one]
  by_cases h1 : lo ≤ i <;> by_cases h2 : i < lo + len <;> simp [h1, h2] <;> omega

/-- A bit after a field is written. -/
theorem setBits_getLsbD (w : Word) (lo len v i : Nat) (h : lo + len ≤ 64) :
    (setBits w lo len v).getLsbD i =
      if lo ≤ i ∧ i < lo + len then v.testBit (i - lo) else w.getLsbD i := by
  simp only [setBits, BitVec.getLsbD_or, BitVec.getLsbD_and, BitVec.getLsbD_not,
    maskAt_getLsbD _ _ _ h, BitVec.getLsbD_ofNat, Nat.testBit_shiftLeft, Nat.testBit_mod_two_pow]
  by_cases h1 : lo ≤ i <;> by_cases h2 : i < lo + len
  · have h3 : i < 64 := by omega
    have h4 : i - lo < len := by omega
    simp [h1, h2, h3, h4]
  · have h4 : ¬ i - lo < len := by omega
    by_cases h3 : i < 64
    · simp [h1, h2, h3, h4]
    · simp [h2, h3, h4, BitVec.getLsbD_of_ge _ _ (by omega : 64 ≤ i)]
  · have h3 : i < 64 := by omega
    simp [h1, h3]
  · omega

/-- The field that was written, read back. -/
theorem bits_setBits_same (w : Word) (lo len v : Nat) (h : lo + len ≤ 64) :
    bits (setBits w lo len v) lo len = v % 2 ^ len := by
  apply Nat.eq_of_testBit_eq
  intro i
  have e : (setBits w lo len v).toNat.testBit (lo + i) = (setBits w lo len v).getLsbD (lo + i) := rfl
  simp only [bits, Nat.testBit_mod_two_pow, Nat.testBit_shiftRight, e, setBits_getLsbD _ _ _ _ _ h]
  by_cases hi : i < len <;> simp [hi]

/-- A field that does not meet the one written reads as before. -/
theorem bits_setBits_other (w : Word) (lo len v lo' len' : Nat) (h : lo + len ≤ 64)
    (hd : lo' + len' ≤ lo ∨ lo + len ≤ lo') : bits (setBits w lo len v) lo' len' = bits w lo' len' := by
  apply Nat.eq_of_testBit_eq
  intro i
  have e : (setBits w lo len v).toNat.testBit (lo' + i) = (setBits w lo len v).getLsbD (lo' + i) := rfl
  have e2 : w.toNat.testBit (lo' + i) = w.getLsbD (lo' + i) := rfl
  simp only [bits, Nat.testBit_mod_two_pow, Nat.testBit_shiftRight, e, e2, setBits_getLsbD _ _ _ _ _ h]
  by_cases hi : i < len'
  · have : ¬ (lo ≤ lo' + i ∧ lo' + i < lo + len) := by omega
    rw [if_neg this]
  · simp [hi]

/-- A bit after one bit is written. -/
theorem bit_setBit (w : Word) (i j : Nat) (b : Bool) (h : i < 64) :
    bit (setBit w i b) j = if j = i then b else bit w j := by
  simp only [bit, setBit, setBits_getLsbD w i 1 b.toNat j (by omega)]
  by_cases e : j = i
  · subst e; cases b <;> simp
  · have : ¬ (i ≤ j ∧ j < i + 1) := by omega
    rw [if_neg this, if_neg e]

/-- A bit after a field that does not hold it is written. -/
theorem bit_setBits_other (w : Word) (lo len v i : Nat) (h : lo + len ≤ 64)
    (hd : i < lo ∨ lo + len ≤ i) : bit (setBits w lo len v) i = bit w i := by
  have : ¬ (lo ≤ i ∧ i < lo + len) := by omega
  simp only [bit, setBits_getLsbD _ _ _ _ _ h, if_neg this]

/-- A field is smaller than its size. -/
theorem bits_lt (w : Word) (lo len : Nat) : bits w lo len < 2 ^ len :=
  Nat.mod_lt _ (Nat.two_pow_pos len)

/-- As many bytes as asked for. -/
@[simp] theorem leBytes_length (v n : Nat) : (leBytes v n).length = n := by
  induction n generalizing v with
  | zero => rfl
  | succ n ih => simp [leBytes, ih]

/-- The value of bytes written out. -/
theorem leNat_leBytes (v n : Nat) : leNat (leBytes v n) = v % 256 ^ n := by
  induction n generalizing v with
  | zero => simp [leBytes, leNat, Nat.mod_one]
  | succ n ih =>
    have hb : (BitVec.ofNat 8 v).toNat = v % 256 := by simp
    simp only [leBytes, leNat, ih, hb]
    rw [pow_succ, mul_comm (256 ^ n) 256, Nat.mod_mul]

end Sys2Proof.Machine
end

