-- ==== Sys2Proof/Laws/Sparse.lean ====
section
/-! SUPPORT. Laws of sparse data: a look-up after each change, and the canonical form that each change
keeps. -/

namespace Sys2Proof.Machine

variable {α : Type}

/-! ## Look-up after a change -/

@[simp] theorem Sparse.find_nil (k : Nat) : Sparse.find k ([] : Sparse α) = none := rfl

@[simp] theorem Sparse.getD_nil (d : α) (k : Nat) : Sparse.getD d [] k = d := rfl

/-- A look-up after a put finds the value put, and elsewhere what it found before. -/
@[simp] theorem Sparse.find_put (k j : Nat) (v : α) (m : Sparse α) :
    Sparse.find j (Sparse.put k v m) = if j = k then some v else Sparse.find j m := by
  induction m with
  | nil =>
    by_cases h : j = k
    · simp [Sparse.put, Sparse.find, h]
    · have h' : ¬ k = j := fun e => h e.symm
      simp [Sparse.put, Sparse.find, h, h']
  | cons e rest ih =>
    obtain ⟨q, w⟩ := e
    simp only [Sparse.put]
    by_cases h1 : k < q
    · by_cases h : j = k
      · simp [h1, Sparse.find, h]
      · have h' : ¬ k = j := fun e => h e.symm
        simp [h1, Sparse.find, h, h']
    · by_cases h2 : k = q
      · subst h2
        by_cases h : j = k
        · simp [Sparse.find, h]
        · have h' : ¬ k = j := fun e => h e.symm
          simp [Sparse.find, h, h']
      · simp only [h1, h2, if_false, Sparse.find, ih]
        by_cases h : j = k
        · subst h
          have : ¬ q = j := fun e => h2 e.symm
          simp [this]
        · simp [h]

/-- A look-up after a removal finds nothing there, and elsewhere what it found before. -/
@[simp] theorem Sparse.find_del (k j : Nat) (m : Sparse α) :
    Sparse.find j (Sparse.del k m) = if j = k then none else Sparse.find j m := by
  induction m with
  | nil => simp [Sparse.del]
  | cons e rest ih =>
    obtain ⟨q, w⟩ := e
    simp only [Sparse.del] at ih ⊢
    by_cases h2 : q = k
    · subst h2
      simp only [List.filter, bne_self_eq_false, ih, Sparse.find]
      by_cases h : j = q
      · simp [h]
      · have h' : ¬ q = j := fun e => h e.symm
        simp [h, h']
    · have : (q != k) = true := by simpa using h2
      simp only [List.filter, this, Sparse.find, ih]
      by_cases h : j = k
      · subst h
        simp [h2]
      · simp [h]

/-- A second put at one key replaces the first. -/
@[simp] theorem Sparse.put_put (k : Nat) (v w : α) (m : Sparse α) :
    Sparse.put k v (Sparse.put k w m) = Sparse.put k v m := by
  induction m with
  | nil => simp [Sparse.put]
  | cons e rest ih =>
    obtain ⟨q, u⟩ := e
    simp only [Sparse.put]
    by_cases h1 : k < q
    · simp [h1, Sparse.put]
    · by_cases h2 : k = q
      · simp [h2, Sparse.put]
      · simp [h1, h2, Sparse.put, ih]

/-- A value read after a put. -/
@[simp] theorem Sparse.getD_put (d : α) (k j : Nat) (v : α) (m : Sparse α) :
    Sparse.getD d (Sparse.put k v m) j = if j = k then v else Sparse.getD d m j := by
  by_cases h : j = k <;> simp [Sparse.getD, h]

/-- A value read after a set. -/
@[simp] theorem Sparse.getD_set [DecidableEq α] (d : α) (k j : Nat) (v : α) (m : Sparse α) :
    Sparse.getD d (Sparse.set d k v m) j = if j = k then v else Sparse.getD d m j := by
  by_cases hv : v = d <;> by_cases h : j = k <;> simp [Sparse.set, Sparse.getD, hv, h]

/-- A look-up in a filtered map whose filter looks at keys alone. -/
theorem Sparse.find_filter (p : Nat → Bool) (j : Nat) (m : Sparse α) :
    Sparse.find j (m.filter (fun e => p e.1)) = if p j then Sparse.find j m else none := by
  induction m with
  | nil => simp
  | cons e rest ih =>
    obtain ⟨q, w⟩ := e
    by_cases hq : p q
    · simp only [List.filter, hq, Sparse.find, ih]
      by_cases h : q = j
      · subst h; simp [hq]
      · simp [h]
    · simp only [List.filter, hq, Sparse.find, ih]
      by_cases h : q = j
      · subst h; simp [hq]
      · simp [h]

/-- A look-up after a range is dropped. -/
theorem Sparse.find_dropRange (lo len j : Nat) (m : Sparse α) :
    Sparse.find j (Sparse.dropRange lo len m) =
      if lo ≤ j ∧ j < lo + len then none else Sparse.find j m := by
  have := Sparse.find_filter (fun k => !(decide (lo ≤ k) && decide (k < lo + len))) j m
  simp only [Sparse.dropRange, this]
  by_cases h1 : lo ≤ j <;> by_cases h2 : j < lo + len <;> simp [h1, h2]

/-- A byte written with writeZ reads back; the others read as before. -/
theorem Sparse.getD_writeZ (m : Sparse Byte) (a j : Nat) (bs : List Byte) :
    Sparse.getD 0 (Sparse.writeZ m a bs) j =
      if a ≤ j ∧ j < a + bs.length then bs.getD (j - a) 0 else Sparse.getD 0 m j := by
  induction bs generalizing m a with
  | nil => simp [Sparse.writeZ]
  | cons b rest ih =>
    simp only [Sparse.writeZ, ih, Sparse.getD_set, List.length_cons]
    by_cases h : a + 1 ≤ j ∧ j < a + 1 + rest.length
    · have h' : a ≤ j ∧ j < a + (rest.length + 1) := by omega
      have e : j - a = (j - (a + 1)) + 1 := by omega
      rw [if_pos h, if_pos h', e]
      simp
    · by_cases e : j = a
      · subst e; simp
      · have h' : ¬ (a ≤ j ∧ j < a + (rest.length + 1)) := by omega
        rw [if_neg h, if_neg h', if_neg e]

/-- A byte written with writeAll reads back; the others read as before. -/
theorem Sparse.find_writeAll (m : Sparse Byte) (a j : Nat) (bs : List Byte) :
    Sparse.find j (Sparse.writeAll m a bs) =
      if a ≤ j ∧ j < a + bs.length then some (bs.getD (j - a) 0) else Sparse.find j m := by
  induction bs generalizing m a with
  | nil => simp [Sparse.writeAll]
  | cons b rest ih =>
    simp only [Sparse.writeAll, ih, Sparse.find_put, List.length_cons]
    by_cases h : a + 1 ≤ j ∧ j < a + 1 + rest.length
    · have h' : a ≤ j ∧ j < a + (rest.length + 1) := by omega
      have e : j - a = (j - (a + 1)) + 1 := by omega
      rw [if_pos h, if_pos h', e]
      simp
    · by_cases e : j = a
      · subst e; simp
      · have h' : ¬ (a ≤ j ∧ j < a + (rest.length + 1)) := by omega
        rw [if_neg h, if_neg h', if_neg e]

/-! ## The canonical form -/

/-- The form says that the keys rise pairwise. -/
theorem Sparse.rising_iff (m : Sparse α) :
    Sparse.rising m = true ↔ (m.map Prod.fst).Pairwise (· < ·) := by
  induction m with
  | nil => simp [Sparse.rising]
  | cons e rest ih =>
    obtain ⟨j, v⟩ := e
    cases rest with
    | nil => simp [Sparse.rising]
    | cons e2 rest2 =>
      obtain ⟨k, w⟩ := e2
      simp only [Sparse.rising, Bool.and_eq_true, decide_eq_true_eq, ih, List.map_cons,
        List.pairwise_cons, List.mem_cons, forall_eq_or_imp]
      constructor
      · rintro ⟨h, h1, h2⟩
        exact ⟨⟨h, fun a ha => lt_trans h (h1 a ha)⟩, h1, h2⟩
      · rintro ⟨⟨h, _⟩, h1, h2⟩
        exact ⟨h, h1, h2⟩

/-- A filter keeps the keys rising. -/
theorem Sparse.rising_filter (p : Nat × α → Bool) {m : Sparse α} (h : Sparse.rising m = true) :
    Sparse.rising (m.filter p) = true := by
  rw [Sparse.rising_iff] at *
  exact h.sublist ((List.filter_sublist).map _)

/-- The keys of a put are the new key and the old ones. -/
theorem Sparse.mem_put {k : Nat} {v : α} {m : Sparse α} {e : Nat × α}
    (h : e ∈ Sparse.put k v m) : e = (k, v) ∨ e ∈ m := by
  induction m with
  | nil => simpa [Sparse.put] using h
  | cons q rest ih =>
    obtain ⟨j, w⟩ := q
    simp only [Sparse.put] at h
    split at h
    · simpa using h
    · split at h
      · rcases List.mem_cons.1 h with h | h
        · exact .inl h
        · exact .inr (List.mem_cons_of_mem _ h)
      · rcases List.mem_cons.1 h with h | h
        · exact .inr (h ▸ List.mem_cons_self)
        · exact (ih h).imp id (List.mem_cons_of_mem _)

/-- A put keeps the keys rising. -/
theorem Sparse.rising_put (k : Nat) (v : α) {m : Sparse α} (h : Sparse.rising m = true) :
    Sparse.rising (Sparse.put k v m) = true := by
  rw [Sparse.rising_iff] at *
  induction m with
  | nil => simp [Sparse.put]
  | cons q rest ih =>
    obtain ⟨j, w⟩ := q
    simp only [List.map_cons, List.pairwise_cons, List.mem_map, forall_exists_index, and_imp] at h
    simp only [Sparse.put]
    split
    · rename_i hk
      simp only [List.map_cons, List.pairwise_cons, List.mem_cons, List.mem_map, forall_eq_or_imp,
        forall_exists_index, and_imp]
      refine ⟨⟨hk, ?_⟩, ?_, h.2⟩
      · intro a e he hea; exact lt_trans hk (h.1 a e he hea)
      · intro a e he hea; exact h.1 a e he hea
    · split
      · rename_i hk; subst hk
        simp only [List.map_cons, List.pairwise_cons, List.mem_map, forall_exists_index, and_imp]
        exact h
      · simp only [List.map_cons, List.pairwise_cons, List.mem_map, forall_exists_index, and_imp]
        refine ⟨?_, ih h.2⟩
        intro a e he hea
        rcases Sparse.mem_put he with rfl | he
        · rw [← hea]; omega
        · exact h.1 a e he hea

/-- A removal keeps the keys rising. -/
theorem Sparse.rising_del (k : Nat) {m : Sparse α} (h : Sparse.rising m = true) :
    Sparse.rising (Sparse.del k m) = true := Sparse.rising_filter _ h

/-- A dropped range keeps the keys rising. -/
theorem Sparse.rising_dropRange (lo len : Nat) {m : Sparse α} (h : Sparse.rising m = true) :
    Sparse.rising (Sparse.dropRange lo len m) = true := Sparse.rising_filter _ h

/-- A filled range keeps the keys rising. -/
theorem Sparse.rising_fillRange (lo len : Nat) (v : α) {m : Sparse α} (h : Sparse.rising m = true) :
    Sparse.rising (Sparse.fillRange lo len v m) = true := by
  rw [Sparse.rising_iff] at *
  simp only [Sparse.fillRange, List.map_append, List.map_map]
  refine List.pairwise_append.2 ⟨List.pairwise_append.2 ⟨?_, ?_, ?_⟩, ?_, ?_⟩
  · exact h.sublist ((List.filter_sublist).map _)
  · rw [List.pairwise_map]
    exact (List.pairwise_lt_range (n := len)).imp (by intro a b hab; simpa using hab)
  · intro a ha b hb
    simp only [List.mem_map, List.mem_filter, decide_eq_true_eq, Function.comp] at ha hb
    obtain ⟨e, ⟨_, he⟩, rfl⟩ := ha
    obtain ⟨i, _, rfl⟩ := hb
    omega
  · exact h.sublist ((List.filter_sublist).map _)
  · intro a ha b hb
    simp only [List.mem_append, List.mem_map, List.mem_filter, decide_eq_true_eq, Function.comp,
      List.mem_range] at ha hb
    obtain ⟨e2, ⟨_, he2⟩, rfl⟩ := hb
    rcases ha with ⟨e, ⟨_, he⟩, rfl⟩ | ⟨i, hi, rfl⟩
    · omega
    · omega

/-- writeAll keeps the keys rising. -/
theorem Sparse.rising_writeAll (bs : List Byte) (a : Nat) {m : Sparse Byte}
    (h : Sparse.rising m = true) : Sparse.rising (Sparse.writeAll m a bs) = true := by
  induction bs generalizing m a with
  | nil => exact h
  | cons b rest ih => exact ih (a + 1) (Sparse.rising_put a b h)

/-- A set keeps the canonical form. -/
theorem Sparse.canonical_set [DecidableEq α] (d : α) (k : Nat) (v : α) {m : Sparse α}
    (h : Sparse.canonical d m = true) : Sparse.canonical d (Sparse.set d k v m) = true := by
  simp only [Sparse.canonical, Bool.and_eq_true, List.all_eq_true, decide_eq_true_eq] at *
  by_cases hv : v = d
  · simp only [Sparse.set, hv, if_true]
    refine ⟨Sparse.rising_del k h.1, fun e he => h.2 e ?_⟩
    exact (List.mem_filter.1 he).1
  · simp only [Sparse.set, hv, if_false]
    refine ⟨Sparse.rising_put k v h.1, fun e he => ?_⟩
    rcases Sparse.mem_put he with rfl | he
    · exact hv
    · exact h.2 e he

/-- writeZ keeps the canonical form. -/
theorem Sparse.canonical_writeZ (bs : List Byte) (a : Nat) {m : Sparse Byte}
    (h : Sparse.canonical 0 m = true) : Sparse.canonical 0 (Sparse.writeZ m a bs) = true := by
  induction bs generalizing m a with
  | nil => exact h
  | cons b rest ih => exact ih (a + 1) (Sparse.canonical_set 0 a b h)

end Sys2Proof.Machine
end

