-- ==== Sys2Proof/Laws/State.lean ====
section
/-! SUPPORT. What each update of the panel's state leaves and what it sets: one lemma per field per update,
and what each accessor reads after each update. -/

namespace Sys2Proof.Machine

/-! ## setCore -/

@[simp] theorem State.setCore_pending (s : State) (n : Nat) (c : Core) :
    (s.setCore n c).pending = s.pending := rfl
@[simp] theorem State.setCore_free (s : State) (n : Nat) (c : Core) :
    (s.setCore n c).free = s.free := rfl
@[simp] theorem State.setCore_fill (s : State) (n : Nat) (c : Core) :
    (s.setCore n c).fill = s.fill := rfl
@[simp] theorem State.setCore_birth (s : State) (n : Nat) (c : Core) :
    (s.setCore n c).birth = s.birth := rfl
@[simp] theorem State.setCore_pins (s : State) (n : Nat) (c : Core) :
    (s.setCore n c).pins = s.pins := rfl
@[simp] theorem State.setCore_regs (s : State) (n : Nat) (c : Core) :
    (s.setCore n c).regs = s.regs := rfl
@[simp] theorem State.setCore_staged (s : State) (n : Nat) (c : Core) :
    (s.setCore n c).staged = s.staged := rfl
@[simp] theorem State.setCore_routers (s : State) (n : Nat) (c : Core) :
    (s.setCore n c).routers = s.routers := rfl
@[simp] theorem State.setCore_slices (s : State) (n : Nat) (c : Core) :
    (s.setCore n c).slices = s.slices := rfl
@[simp] theorem State.setCore_sites (s : State) (n : Nat) (c : Core) :
    (s.setCore n c).sites = s.sites := rfl
@[simp] theorem State.setCore_links (s : State) (n : Nat) (c : Core) :
    (s.setCore n c).links = s.links := rfl
@[simp] theorem State.setCore_guests (s : State) (n : Nat) (c : Core) :
    (s.setCore n c).guests = s.guests := rfl
@[simp] theorem State.setCore_stewards (s : State) (n : Nat) (c : Core) :
    (s.setCore n c).stewards = s.stewards := rfl
@[simp] theorem State.setCore_lead (s : State) (n : Nat) (c : Core) :
    (s.setCore n c).lead = s.lead := rfl

/-! ## setRouter -/

@[simp] theorem State.setRouter_pending (s : State) (n : Nat) (r : Router) :
    (s.setRouter n r).pending = s.pending := rfl
@[simp] theorem State.setRouter_free (s : State) (n : Nat) (r : Router) :
    (s.setRouter n r).free = s.free := rfl
@[simp] theorem State.setRouter_fill (s : State) (n : Nat) (r : Router) :
    (s.setRouter n r).fill = s.fill := rfl
@[simp] theorem State.setRouter_birth (s : State) (n : Nat) (r : Router) :
    (s.setRouter n r).birth = s.birth := rfl
@[simp] theorem State.setRouter_pins (s : State) (n : Nat) (r : Router) :
    (s.setRouter n r).pins = s.pins := rfl
@[simp] theorem State.setRouter_regs (s : State) (n : Nat) (r : Router) :
    (s.setRouter n r).regs = s.regs := rfl
@[simp] theorem State.setRouter_staged (s : State) (n : Nat) (r : Router) :
    (s.setRouter n r).staged = s.staged := rfl
@[simp] theorem State.setRouter_cores (s : State) (n : Nat) (r : Router) :
    (s.setRouter n r).cores = s.cores := rfl
@[simp] theorem State.setRouter_slices (s : State) (n : Nat) (r : Router) :
    (s.setRouter n r).slices = s.slices := rfl
@[simp] theorem State.setRouter_sites (s : State) (n : Nat) (r : Router) :
    (s.setRouter n r).sites = s.sites := rfl
@[simp] theorem State.setRouter_links (s : State) (n : Nat) (r : Router) :
    (s.setRouter n r).links = s.links := rfl
@[simp] theorem State.setRouter_guests (s : State) (n : Nat) (r : Router) :
    (s.setRouter n r).guests = s.guests := rfl
@[simp] theorem State.setRouter_stewards (s : State) (n : Nat) (r : Router) :
    (s.setRouter n r).stewards = s.stewards := rfl
@[simp] theorem State.setRouter_lead (s : State) (n : Nat) (r : Router) :
    (s.setRouter n r).lead = s.lead := rfl

/-! ## setSlice -/

@[simp] theorem State.setSlice_pending (s : State) (n : Nat) (c : Slice) :
    (s.setSlice n c).pending = s.pending := rfl
@[simp] theorem State.setSlice_free (s : State) (n : Nat) (c : Slice) :
    (s.setSlice n c).free = s.free := rfl
@[simp] theorem State.setSlice_fill (s : State) (n : Nat) (c : Slice) :
    (s.setSlice n c).fill = s.fill := rfl
@[simp] theorem State.setSlice_birth (s : State) (n : Nat) (c : Slice) :
    (s.setSlice n c).birth = s.birth := rfl
@[simp] theorem State.setSlice_pins (s : State) (n : Nat) (c : Slice) :
    (s.setSlice n c).pins = s.pins := rfl
@[simp] theorem State.setSlice_regs (s : State) (n : Nat) (c : Slice) :
    (s.setSlice n c).regs = s.regs := rfl
@[simp] theorem State.setSlice_staged (s : State) (n : Nat) (c : Slice) :
    (s.setSlice n c).staged = s.staged := rfl
@[simp] theorem State.setSlice_cores (s : State) (n : Nat) (c : Slice) :
    (s.setSlice n c).cores = s.cores := rfl
@[simp] theorem State.setSlice_routers (s : State) (n : Nat) (c : Slice) :
    (s.setSlice n c).routers = s.routers := rfl
@[simp] theorem State.setSlice_sites (s : State) (n : Nat) (c : Slice) :
    (s.setSlice n c).sites = s.sites := rfl
@[simp] theorem State.setSlice_links (s : State) (n : Nat) (c : Slice) :
    (s.setSlice n c).links = s.links := rfl
@[simp] theorem State.setSlice_guests (s : State) (n : Nat) (c : Slice) :
    (s.setSlice n c).guests = s.guests := rfl
@[simp] theorem State.setSlice_stewards (s : State) (n : Nat) (c : Slice) :
    (s.setSlice n c).stewards = s.stewards := rfl
@[simp] theorem State.setSlice_lead (s : State) (n : Nat) (c : Slice) :
    (s.setSlice n c).lead = s.lead := rfl

/-! ## setSite -/

@[simp] theorem State.setSite_pending (s : State) (st : Nat) (c : Site) :
    (s.setSite st c).pending = s.pending := rfl
@[simp] theorem State.setSite_free (s : State) (st : Nat) (c : Site) :
    (s.setSite st c).free = s.free := rfl
@[simp] theorem State.setSite_fill (s : State) (st : Nat) (c : Site) :
    (s.setSite st c).fill = s.fill := rfl
@[simp] theorem State.setSite_birth (s : State) (st : Nat) (c : Site) :
    (s.setSite st c).birth = s.birth := rfl
@[simp] theorem State.setSite_pins (s : State) (st : Nat) (c : Site) :
    (s.setSite st c).pins = s.pins := rfl
@[simp] theorem State.setSite_regs (s : State) (st : Nat) (c : Site) :
    (s.setSite st c).regs = s.regs := rfl
@[simp] theorem State.setSite_staged (s : State) (st : Nat) (c : Site) :
    (s.setSite st c).staged = s.staged := rfl
@[simp] theorem State.setSite_cores (s : State) (st : Nat) (c : Site) :
    (s.setSite st c).cores = s.cores := rfl
@[simp] theorem State.setSite_routers (s : State) (st : Nat) (c : Site) :
    (s.setSite st c).routers = s.routers := rfl
@[simp] theorem State.setSite_slices (s : State) (st : Nat) (c : Site) :
    (s.setSite st c).slices = s.slices := rfl
@[simp] theorem State.setSite_links (s : State) (st : Nat) (c : Site) :
    (s.setSite st c).links = s.links := rfl
@[simp] theorem State.setSite_guests (s : State) (st : Nat) (c : Site) :
    (s.setSite st c).guests = s.guests := rfl
@[simp] theorem State.setSite_stewards (s : State) (st : Nat) (c : Site) :
    (s.setSite st c).stewards = s.stewards := rfl
@[simp] theorem State.setSite_lead (s : State) (st : Nat) (c : Site) :
    (s.setSite st c).lead = s.lead := rfl

/-! ## setLink -/

@[simp] theorem State.setLink_pending (s : State) (k : Nat) (c : Link) :
    (s.setLink k c).pending = s.pending := rfl
@[simp] theorem State.setLink_free (s : State) (k : Nat) (c : Link) :
    (s.setLink k c).free = s.free := rfl
@[simp] theorem State.setLink_fill (s : State) (k : Nat) (c : Link) :
    (s.setLink k c).fill = s.fill := rfl
@[simp] theorem State.setLink_birth (s : State) (k : Nat) (c : Link) :
    (s.setLink k c).birth = s.birth := rfl
@[simp] theorem State.setLink_pins (s : State) (k : Nat) (c : Link) :
    (s.setLink k c).pins = s.pins := rfl
@[simp] theorem State.setLink_regs (s : State) (k : Nat) (c : Link) :
    (s.setLink k c).regs = s.regs := rfl
@[simp] theorem State.setLink_staged (s : State) (k : Nat) (c : Link) :
    (s.setLink k c).staged = s.staged := rfl
@[simp] theorem State.setLink_cores (s : State) (k : Nat) (c : Link) :
    (s.setLink k c).cores = s.cores := rfl
@[simp] theorem State.setLink_routers (s : State) (k : Nat) (c : Link) :
    (s.setLink k c).routers = s.routers := rfl
@[simp] theorem State.setLink_slices (s : State) (k : Nat) (c : Link) :
    (s.setLink k c).slices = s.slices := rfl
@[simp] theorem State.setLink_sites (s : State) (k : Nat) (c : Link) :
    (s.setLink k c).sites = s.sites := rfl
@[simp] theorem State.setLink_guests (s : State) (k : Nat) (c : Link) :
    (s.setLink k c).guests = s.guests := rfl
@[simp] theorem State.setLink_stewards (s : State) (k : Nat) (c : Link) :
    (s.setLink k c).stewards = s.stewards := rfl
@[simp] theorem State.setLink_lead (s : State) (k : Nat) (c : Link) :
    (s.setLink k c).lead = s.lead := rfl

/-! ## setGuest -/

@[simp] theorem State.setGuest_pending (s : State) (g : Nat) (c : Guest) :
    (s.setGuest g c).pending = s.pending := rfl
@[simp] theorem State.setGuest_free (s : State) (g : Nat) (c : Guest) :
    (s.setGuest g c).free = s.free := rfl
@[simp] theorem State.setGuest_fill (s : State) (g : Nat) (c : Guest) :
    (s.setGuest g c).fill = s.fill := rfl
@[simp] theorem State.setGuest_birth (s : State) (g : Nat) (c : Guest) :
    (s.setGuest g c).birth = s.birth := rfl
@[simp] theorem State.setGuest_pins (s : State) (g : Nat) (c : Guest) :
    (s.setGuest g c).pins = s.pins := rfl
@[simp] theorem State.setGuest_regs (s : State) (g : Nat) (c : Guest) :
    (s.setGuest g c).regs = s.regs := rfl
@[simp] theorem State.setGuest_staged (s : State) (g : Nat) (c : Guest) :
    (s.setGuest g c).staged = s.staged := rfl
@[simp] theorem State.setGuest_cores (s : State) (g : Nat) (c : Guest) :
    (s.setGuest g c).cores = s.cores := rfl
@[simp] theorem State.setGuest_routers (s : State) (g : Nat) (c : Guest) :
    (s.setGuest g c).routers = s.routers := rfl
@[simp] theorem State.setGuest_slices (s : State) (g : Nat) (c : Guest) :
    (s.setGuest g c).slices = s.slices := rfl
@[simp] theorem State.setGuest_sites (s : State) (g : Nat) (c : Guest) :
    (s.setGuest g c).sites = s.sites := rfl
@[simp] theorem State.setGuest_links (s : State) (g : Nat) (c : Guest) :
    (s.setGuest g c).links = s.links := rfl
@[simp] theorem State.setGuest_stewards (s : State) (g : Nat) (c : Guest) :
    (s.setGuest g c).stewards = s.stewards := rfl
@[simp] theorem State.setGuest_lead (s : State) (g : Nat) (c : Guest) :
    (s.setGuest g c).lead = s.lead := rfl

/-! ## setSteward -/

@[simp] theorem State.setSteward_pending (s : State) (q : Nat) (c : Steward) :
    (s.setSteward q c).pending = s.pending := rfl
@[simp] theorem State.setSteward_free (s : State) (q : Nat) (c : Steward) :
    (s.setSteward q c).free = s.free := rfl
@[simp] theorem State.setSteward_fill (s : State) (q : Nat) (c : Steward) :
    (s.setSteward q c).fill = s.fill := rfl
@[simp] theorem State.setSteward_birth (s : State) (q : Nat) (c : Steward) :
    (s.setSteward q c).birth = s.birth := rfl
@[simp] theorem State.setSteward_pins (s : State) (q : Nat) (c : Steward) :
    (s.setSteward q c).pins = s.pins := rfl
@[simp] theorem State.setSteward_regs (s : State) (q : Nat) (c : Steward) :
    (s.setSteward q c).regs = s.regs := rfl
@[simp] theorem State.setSteward_staged (s : State) (q : Nat) (c : Steward) :
    (s.setSteward q c).staged = s.staged := rfl
@[simp] theorem State.setSteward_cores (s : State) (q : Nat) (c : Steward) :
    (s.setSteward q c).cores = s.cores := rfl
@[simp] theorem State.setSteward_routers (s : State) (q : Nat) (c : Steward) :
    (s.setSteward q c).routers = s.routers := rfl
@[simp] theorem State.setSteward_slices (s : State) (q : Nat) (c : Steward) :
    (s.setSteward q c).slices = s.slices := rfl
@[simp] theorem State.setSteward_sites (s : State) (q : Nat) (c : Steward) :
    (s.setSteward q c).sites = s.sites := rfl
@[simp] theorem State.setSteward_links (s : State) (q : Nat) (c : Steward) :
    (s.setSteward q c).links = s.links := rfl
@[simp] theorem State.setSteward_guests (s : State) (q : Nat) (c : Steward) :
    (s.setSteward q c).guests = s.guests := rfl
@[simp] theorem State.setSteward_lead (s : State) (q : Nat) (c : Steward) :
    (s.setSteward q c).lead = s.lead := rfl

/-! ## modLead -/

@[simp] theorem State.modLead_pending (s : State) (f : Lead → Lead) :
    (s.modLead f).pending = s.pending := rfl
@[simp] theorem State.modLead_free (s : State) (f : Lead → Lead) :
    (s.modLead f).free = s.free := rfl
@[simp] theorem State.modLead_fill (s : State) (f : Lead → Lead) :
    (s.modLead f).fill = s.fill := rfl
@[simp] theorem State.modLead_birth (s : State) (f : Lead → Lead) :
    (s.modLead f).birth = s.birth := rfl
@[simp] theorem State.modLead_pins (s : State) (f : Lead → Lead) :
    (s.modLead f).pins = s.pins := rfl
@[simp] theorem State.modLead_regs (s : State) (f : Lead → Lead) :
    (s.modLead f).regs = s.regs := rfl
@[simp] theorem State.modLead_staged (s : State) (f : Lead → Lead) :
    (s.modLead f).staged = s.staged := rfl
@[simp] theorem State.modLead_cores (s : State) (f : Lead → Lead) :
    (s.modLead f).cores = s.cores := rfl
@[simp] theorem State.modLead_routers (s : State) (f : Lead → Lead) :
    (s.modLead f).routers = s.routers := rfl
@[simp] theorem State.modLead_slices (s : State) (f : Lead → Lead) :
    (s.modLead f).slices = s.slices := rfl
@[simp] theorem State.modLead_sites (s : State) (f : Lead → Lead) :
    (s.modLead f).sites = s.sites := rfl
@[simp] theorem State.modLead_links (s : State) (f : Lead → Lead) :
    (s.modLead f).links = s.links := rfl
@[simp] theorem State.modLead_guests (s : State) (f : Lead → Lead) :
    (s.modLead f).guests = s.guests := rfl
@[simp] theorem State.modLead_stewards (s : State) (f : Lead → Lead) :
    (s.modLead f).stewards = s.stewards := rfl

/-! ## setReg -/

@[simp] theorem State.setReg_pending (s : State) (k : Blk) (off : Nat) (w : Word) :
    (s.setReg k off w).pending = s.pending := rfl
@[simp] theorem State.setReg_free (s : State) (k : Blk) (off : Nat) (w : Word) :
    (s.setReg k off w).free = s.free := rfl
@[simp] theorem State.setReg_fill (s : State) (k : Blk) (off : Nat) (w : Word) :
    (s.setReg k off w).fill = s.fill := rfl
@[simp] theorem State.setReg_birth (s : State) (k : Blk) (off : Nat) (w : Word) :
    (s.setReg k off w).birth = s.birth := rfl
@[simp] theorem State.setReg_pins (s : State) (k : Blk) (off : Nat) (w : Word) :
    (s.setReg k off w).pins = s.pins := rfl
@[simp] theorem State.setReg_staged (s : State) (k : Blk) (off : Nat) (w : Word) :
    (s.setReg k off w).staged = s.staged := rfl
@[simp] theorem State.setReg_cores (s : State) (k : Blk) (off : Nat) (w : Word) :
    (s.setReg k off w).cores = s.cores := rfl
@[simp] theorem State.setReg_routers (s : State) (k : Blk) (off : Nat) (w : Word) :
    (s.setReg k off w).routers = s.routers := rfl
@[simp] theorem State.setReg_slices (s : State) (k : Blk) (off : Nat) (w : Word) :
    (s.setReg k off w).slices = s.slices := rfl
@[simp] theorem State.setReg_sites (s : State) (k : Blk) (off : Nat) (w : Word) :
    (s.setReg k off w).sites = s.sites := rfl
@[simp] theorem State.setReg_links (s : State) (k : Blk) (off : Nat) (w : Word) :
    (s.setReg k off w).links = s.links := rfl
@[simp] theorem State.setReg_guests (s : State) (k : Blk) (off : Nat) (w : Word) :
    (s.setReg k off w).guests = s.guests := rfl
@[simp] theorem State.setReg_stewards (s : State) (k : Blk) (off : Nat) (w : Word) :
    (s.setReg k off w).stewards = s.stewards := rfl
@[simp] theorem State.setReg_lead (s : State) (k : Blk) (off : Nat) (w : Word) :
    (s.setReg k off w).lead = s.lead := rfl

/-! ## tick -/

@[simp] theorem State.tick_pending (s : State) :
    (s.tick).pending = s.pending := rfl
@[simp] theorem State.tick_fill (s : State) :
    (s.tick).fill = s.fill := rfl
@[simp] theorem State.tick_birth (s : State) :
    (s.tick).birth = s.birth := rfl
@[simp] theorem State.tick_pins (s : State) :
    (s.tick).pins = s.pins := rfl
@[simp] theorem State.tick_regs (s : State) :
    (s.tick).regs = s.regs := rfl
@[simp] theorem State.tick_staged (s : State) :
    (s.tick).staged = s.staged := rfl
@[simp] theorem State.tick_cores (s : State) :
    (s.tick).cores = s.cores := rfl
@[simp] theorem State.tick_routers (s : State) :
    (s.tick).routers = s.routers := rfl
@[simp] theorem State.tick_slices (s : State) :
    (s.tick).slices = s.slices := rfl
@[simp] theorem State.tick_sites (s : State) :
    (s.tick).sites = s.sites := rfl
@[simp] theorem State.tick_links (s : State) :
    (s.tick).links = s.links := rfl
@[simp] theorem State.tick_guests (s : State) :
    (s.tick).guests = s.guests := rfl
@[simp] theorem State.tick_stewards (s : State) :
    (s.tick).stewards = s.stewards := rfl
@[simp] theorem State.tick_lead (s : State) :
    (s.tick).lead = s.lead := rfl

/-! ## Updates made of these -/

@[simp] theorem State.modCore_eq (s : State) (n : Nat) (f : Core → Core) :
    s.modCore n f = s.setCore n (f (s.core n)) := rfl
@[simp] theorem State.modRouter_eq (s : State) (n : Nat) (f : Router → Router) :
    s.modRouter n f = s.setRouter n (f (s.router n)) := rfl
@[simp] theorem State.setPlane_eq (s : State) (n pl : Nat) (p : RPlane) :
    s.setPlane n pl p = s.setRouter n ((s.router n).setPlane pl p) := rfl
@[simp] theorem State.modPlane_eq (s : State) (n pl : Nat) (f : RPlane → RPlane) :
    s.modPlane n pl f = s.setPlane n pl (f (s.plane n pl)) := rfl
@[simp] theorem State.modSlice_eq (s : State) (n : Nat) (f : Slice → Slice) :
    s.modSlice n f = s.setSlice n (f (s.slice n)) := rfl
@[simp] theorem State.modSite_eq (s : State) (st : Nat) (f : Site → Site) :
    s.modSite st f = s.setSite st (f (s.site st)) := rfl
@[simp] theorem State.modLink_eq (s : State) (k : Nat) (f : Link → Link) :
    s.modLink k f = s.setLink k (f (s.link k)) := rfl
@[simp] theorem State.modGuest_eq (s : State) (g : Nat) (f : Guest → Guest) :
    s.modGuest g f = s.setGuest g (f (s.guest g)) := rfl
@[simp] theorem State.modSteward_eq (s : State) (q : Nat) (f : Steward → Steward) :
    s.modSteward q f = s.setSteward q (f (s.steward q)) := rfl
@[simp] theorem State.modReg_eq (s : State) (k : Blk) (off : Nat) (f : Word → Word) :
    s.modReg k off f = s.setReg k off (f (s.reg k off)) := rfl
@[simp] theorem State.setField_eq (s : State) (k : Blk) (off lo len v : Nat) :
    s.setField k off lo len v = s.setReg k off (setBits (s.reg k off) lo len v) := rfl
@[simp] theorem State.countField_eq (s : State) (k : Blk) (off lo len : Nat) :
    s.countField k off lo len = s.setReg k off (satInc (s.reg k off) lo len) := rfl
@[simp] theorem State.setCtx_eq (s : State) (n i : Nat) (x : Ctx) :
    s.setCtx n i x = s.setCore n ((s.core n).setCtx i x) := rfl
@[simp] theorem State.modCtx_eq (s : State) (n i : Nat) (f : Ctx → Ctx) :
    s.modCtx n i f = s.setCtx n i (f (s.ctx n i)) := rfl
@[simp] theorem State.offer_eq (s : State) (n : Nat) (p : Packet) (pl : Option Nat) :
    s.offer n p pl = s.setRouter n { s.router n with offers := (s.router n).offers ++ [⟨p, pl⟩] } := rfl

/-! ## What the accessors read after an update -/

@[simp] theorem State.core_setCore (s : State) (n m : Nat) (c : Core) :
    (s.setCore n c).core m = if m = n then c else s.core m := by
  simp [State.core, State.setCore]
@[simp] theorem State.slice_setSlice (s : State) (n m : Nat) (c : Slice) :
    (s.setSlice n c).slice m = if m = n then c else s.slice m := by
  simp [State.slice, State.setSlice]
@[simp] theorem State.site_setSite (s : State) (n m : Nat) (c : Site) :
    (s.setSite n c).site m = if m = n then c else s.site m := by
  simp [State.site, State.setSite]
@[simp] theorem State.link_setLink (s : State) (n m : Nat) (c : Link) :
    (s.setLink n c).link m = if m = n then c else s.link m := by
  simp [State.link, State.setLink]
@[simp] theorem State.guest_setGuest (s : State) (n m : Nat) (c : Guest) :
    (s.setGuest n c).guest m = if m = n then c else s.guest m := by
  simp [State.guest, State.setGuest]
@[simp] theorem State.steward_setSteward (s : State) (n m : Nat) (c : Steward) :
    (s.setSteward n c).steward m = if m = n then c else s.steward m := by
  simp [State.steward, State.setSteward]
@[simp] theorem State.router_setRouter (s : State) (n m : Nat) (c : Router) :
    (s.setRouter n c).router m = if m = n then c else s.router m := by
  exact Sparse.getD_put _ _ _ _ _
@[simp] theorem State.core_setRouter (s : State) (n : Nat) (r : Router) (m : Nat) :
    (s.setRouter n r).core m = s.core m := rfl
@[simp] theorem State.core_setSlice (s : State) (n : Nat) (c : Slice) (m : Nat) :
    (s.setSlice n c).core m = s.core m := rfl
@[simp] theorem State.core_setSite (s : State) (st : Nat) (c : Site) (m : Nat) :
    (s.setSite st c).core m = s.core m := rfl
@[simp] theorem State.core_setLink (s : State) (k : Nat) (c : Link) (m : Nat) :
    (s.setLink k c).core m = s.core m := rfl
@[simp] theorem State.core_setGuest (s : State) (g : Nat) (c : Guest) (m : Nat) :
    (s.setGuest g c).core m = s.core m := rfl
@[simp] theorem State.core_setSteward (s : State) (q : Nat) (c : Steward) (m : Nat) :
    (s.setSteward q c).core m = s.core m := rfl
@[simp] theorem State.core_modLead (s : State) (f : Lead → Lead) (m : Nat) :
    (s.modLead f).core m = s.core m := rfl
@[simp] theorem State.core_setReg (s : State) (k : Blk) (off : Nat) (w : Word) (m : Nat) :
    (s.setReg k off w).core m = s.core m := rfl
@[simp] theorem State.core_tick (s : State)  (m : Nat) :
    (s.tick).core m = s.core m := rfl
@[simp] theorem State.slice_setCore (s : State) (n : Nat) (c : Core) (m : Nat) :
    (s.setCore n c).slice m = s.slice m := rfl
@[simp] theorem State.slice_setRouter (s : State) (n : Nat) (r : Router) (m : Nat) :
    (s.setRouter n r).slice m = s.slice m := rfl
@[simp] theorem State.slice_setSite (s : State) (st : Nat) (c : Site) (m : Nat) :
    (s.setSite st c).slice m = s.slice m := rfl
@[simp] theorem State.slice_setLink (s : State) (k : Nat) (c : Link) (m : Nat) :
    (s.setLink k c).slice m = s.slice m := rfl
@[simp] theorem State.slice_setGuest (s : State) (g : Nat) (c : Guest) (m : Nat) :
    (s.setGuest g c).slice m = s.slice m := rfl
@[simp] theorem State.slice_setSteward (s : State) (q : Nat) (c : Steward) (m : Nat) :
    (s.setSteward q c).slice m = s.slice m := rfl
@[simp] theorem State.slice_modLead (s : State) (f : Lead → Lead) (m : Nat) :
    (s.modLead f).slice m = s.slice m := rfl
@[simp] theorem State.slice_setReg (s : State) (k : Blk) (off : Nat) (w : Word) (m : Nat) :
    (s.setReg k off w).slice m = s.slice m := rfl
@[simp] theorem State.slice_tick (s : State)  (m : Nat) :
    (s.tick).slice m = s.slice m := rfl
@[simp] theorem State.site_setCore (s : State) (n : Nat) (c : Core) (m : Nat) :
    (s.setCore n c).site m = s.site m := rfl
@[simp] theorem State.site_setRouter (s : State) (n : Nat) (r : Router) (m : Nat) :
    (s.setRouter n r).site m = s.site m := rfl
@[simp] theorem State.site_setSlice (s : State) (n : Nat) (c : Slice) (m : Nat) :
    (s.setSlice n c).site m = s.site m := rfl
@[simp] theorem State.site_setLink (s : State) (k : Nat) (c : Link) (m : Nat) :
    (s.setLink k c).site m = s.site m := rfl
@[simp] theorem State.site_setGuest (s : State) (g : Nat) (c : Guest) (m : Nat) :
    (s.setGuest g c).site m = s.site m := rfl
@[simp] theorem State.site_setSteward (s : State) (q : Nat) (c : Steward) (m : Nat) :
    (s.setSteward q c).site m = s.site m := rfl
@[simp] theorem State.site_modLead (s : State) (f : Lead → Lead) (m : Nat) :
    (s.modLead f).site m = s.site m := rfl
@[simp] theorem State.site_setReg (s : State) (k : Blk) (off : Nat) (w : Word) (m : Nat) :
    (s.setReg k off w).site m = s.site m := rfl
@[simp] theorem State.site_tick (s : State)  (m : Nat) :
    (s.tick).site m = s.site m := rfl
@[simp] theorem State.link_setCore (s : State) (n : Nat) (c : Core) (m : Nat) :
    (s.setCore n c).link m = s.link m := rfl
@[simp] theorem State.link_setRouter (s : State) (n : Nat) (r : Router) (m : Nat) :
    (s.setRouter n r).link m = s.link m := rfl
@[simp] theorem State.link_setSlice (s : State) (n : Nat) (c : Slice) (m : Nat) :
    (s.setSlice n c).link m = s.link m := rfl
@[simp] theorem State.link_setSite (s : State) (st : Nat) (c : Site) (m : Nat) :
    (s.setSite st c).link m = s.link m := rfl
@[simp] theorem State.link_setGuest (s : State) (g : Nat) (c : Guest) (m : Nat) :
    (s.setGuest g c).link m = s.link m := rfl
@[simp] theorem State.link_setSteward (s : State) (q : Nat) (c : Steward) (m : Nat) :
    (s.setSteward q c).link m = s.link m := rfl
@[simp] theorem State.link_modLead (s : State) (f : Lead → Lead) (m : Nat) :
    (s.modLead f).link m = s.link m := rfl
@[simp] theorem State.link_setReg (s : State) (k : Blk) (off : Nat) (w : Word) (m : Nat) :
    (s.setReg k off w).link m = s.link m := rfl
@[simp] theorem State.link_tick (s : State)  (m : Nat) :
    (s.tick).link m = s.link m := rfl
@[simp] theorem State.guest_setCore (s : State) (n : Nat) (c : Core) (m : Nat) :
    (s.setCore n c).guest m = s.guest m := rfl
@[simp] theorem State.guest_setRouter (s : State) (n : Nat) (r : Router) (m : Nat) :
    (s.setRouter n r).guest m = s.guest m := rfl
@[simp] theorem State.guest_setSlice (s : State) (n : Nat) (c : Slice) (m : Nat) :
    (s.setSlice n c).guest m = s.guest m := rfl
@[simp] theorem State.guest_setSite (s : State) (st : Nat) (c : Site) (m : Nat) :
    (s.setSite st c).guest m = s.guest m := rfl
@[simp] theorem State.guest_setLink (s : State) (k : Nat) (c : Link) (m : Nat) :
    (s.setLink k c).guest m = s.guest m := rfl
@[simp] theorem State.guest_setSteward (s : State) (q : Nat) (c : Steward) (m : Nat) :
    (s.setSteward q c).guest m = s.guest m := rfl
@[simp] theorem State.guest_modLead (s : State) (f : Lead → Lead) (m : Nat) :
    (s.modLead f).guest m = s.guest m := rfl
@[simp] theorem State.guest_setReg (s : State) (k : Blk) (off : Nat) (w : Word) (m : Nat) :
    (s.setReg k off w).guest m = s.guest m := rfl
@[simp] theorem State.guest_tick (s : State)  (m : Nat) :
    (s.tick).guest m = s.guest m := rfl
@[simp] theorem State.steward_setCore (s : State) (n : Nat) (c : Core) (m : Nat) :
    (s.setCore n c).steward m = s.steward m := rfl
@[simp] theorem State.steward_setRouter (s : State) (n : Nat) (r : Router) (m : Nat) :
    (s.setRouter n r).steward m = s.steward m := rfl
@[simp] theorem State.steward_setSlice (s : State) (n : Nat) (c : Slice) (m : Nat) :
    (s.setSlice n c).steward m = s.steward m := rfl
@[simp] theorem State.steward_setSite (s : State) (st : Nat) (c : Site) (m : Nat) :
    (s.setSite st c).steward m = s.steward m := rfl
@[simp] theorem State.steward_setLink (s : State) (k : Nat) (c : Link) (m : Nat) :
    (s.setLink k c).steward m = s.steward m := rfl
@[simp] theorem State.steward_setGuest (s : State) (g : Nat) (c : Guest) (m : Nat) :
    (s.setGuest g c).steward m = s.steward m := rfl
@[simp] theorem State.steward_modLead (s : State) (f : Lead → Lead) (m : Nat) :
    (s.modLead f).steward m = s.steward m := rfl
@[simp] theorem State.steward_setReg (s : State) (k : Blk) (off : Nat) (w : Word) (m : Nat) :
    (s.setReg k off w).steward m = s.steward m := rfl
@[simp] theorem State.steward_tick (s : State)  (m : Nat) :
    (s.tick).steward m = s.steward m := rfl
@[simp] theorem State.router_setCore (s : State) (n : Nat) (c : Core) (m : Nat) :
    (s.setCore n c).router m = s.router m := rfl
@[simp] theorem State.router_setSlice (s : State) (n : Nat) (c : Slice) (m : Nat) :
    (s.setSlice n c).router m = s.router m := rfl
@[simp] theorem State.router_setSite (s : State) (st : Nat) (c : Site) (m : Nat) :
    (s.setSite st c).router m = s.router m := rfl
@[simp] theorem State.router_setLink (s : State) (k : Nat) (c : Link) (m : Nat) :
    (s.setLink k c).router m = s.router m := rfl
@[simp] theorem State.router_setGuest (s : State) (g : Nat) (c : Guest) (m : Nat) :
    (s.setGuest g c).router m = s.router m := rfl
@[simp] theorem State.router_setSteward (s : State) (q : Nat) (c : Steward) (m : Nat) :
    (s.setSteward q c).router m = s.router m := rfl
@[simp] theorem State.router_modLead (s : State) (f : Lead → Lead) (m : Nat) :
    (s.modLead f).router m = s.router m := rfl
@[simp] theorem State.router_setReg (s : State) (k : Blk) (off : Nat) (w : Word) (m : Nat) :
    (s.setReg k off w).router m = s.router m := rfl
@[simp] theorem State.router_tick (s : State)  (m : Nat) :
    (s.tick).router m = s.router m := rfl
@[simp] theorem State.reg_setCore (s : State) (n : Nat) (c : Core) (k' : Blk) (off' : Nat) :
    (s.setCore n c).reg k' off' = s.reg k' off' := rfl
@[simp] theorem State.reg_setRouter (s : State) (n : Nat) (r : Router) (k' : Blk) (off' : Nat) :
    (s.setRouter n r).reg k' off' = s.reg k' off' := rfl
@[simp] theorem State.reg_setSlice (s : State) (n : Nat) (c : Slice) (k' : Blk) (off' : Nat) :
    (s.setSlice n c).reg k' off' = s.reg k' off' := rfl
@[simp] theorem State.reg_setSite (s : State) (st : Nat) (c : Site) (k' : Blk) (off' : Nat) :
    (s.setSite st c).reg k' off' = s.reg k' off' := rfl
@[simp] theorem State.reg_setLink (s : State) (k : Nat) (c : Link) (k' : Blk) (off' : Nat) :
    (s.setLink k c).reg k' off' = s.reg k' off' := rfl
@[simp] theorem State.reg_setGuest (s : State) (g : Nat) (c : Guest) (k' : Blk) (off' : Nat) :
    (s.setGuest g c).reg k' off' = s.reg k' off' := rfl
@[simp] theorem State.reg_setSteward (s : State) (q : Nat) (c : Steward) (k' : Blk) (off' : Nat) :
    (s.setSteward q c).reg k' off' = s.reg k' off' := rfl
@[simp] theorem State.reg_modLead (s : State) (f : Lead → Lead) (k' : Blk) (off' : Nat) :
    (s.modLead f).reg k' off' = s.reg k' off' := rfl
@[simp] theorem State.reg_tick (s : State)  (k' : Blk) (off' : Nat) :
    (s.tick).reg k' off' = s.reg k' off' := rfl
@[simp] theorem State.reg_setReg (s : State) (k k' : Blk) (off off' : Nat) (w : Word) :
    (s.setReg k off w).reg k' off' = if k'.key off' = k.key off then w else s.reg k' off' := by
  by_cases h : k'.key off' = k.key off <;> simp [State.reg, State.setReg, h]

@[simp] theorem Core.ctx_setCtx (c : Core) (i j : Nat) (x : Ctx) :
    (c.setCtx i x).ctx j = if j = i then x else c.ctx j := by
  simp [Core.ctx, Core.setCtx]

@[simp] theorem Router.plane_setPlane (r : Router) (i j : Nat) (p : RPlane) :
    (r.setPlane i p).plane j = if j = i then p else r.plane j := by
  simp [Router.plane, Router.setPlane]

/-- The context of a core of the state. -/
theorem State.ctx_eq (s : State) (n i : Nat) : s.ctx n i = (s.core n).ctx i := rfl

/-- The plane of a router of the state. -/
theorem State.plane_eq (s : State) (n pl : Nat) : s.plane n pl = (s.router n).plane pl := rfl

/-! ## Contexts -/

/-- A general register after a write: g0 stays zero (R39, R72). -/
@[simp] theorem Ctx.getG_setG (x : Ctx) (d r : Nat) (v : Word) :
    (x.setG d v).getG r = if r = d ∧ d ≠ 0 then v else x.getG r := by
  by_cases hd : d = 0
  · simp [Ctx.setG, hd]
  · by_cases hr : r = 0
    · subst hr
      have : ¬ 0 = d := fun e => hd e.symm
      simp [Ctx.getG, this]
    · by_cases h : r = d
      · subst h; simp [Ctx.setG, Ctx.getG, hr]
      · simp [Ctx.setG, Ctx.getG, hd, hr, h]

/-- A write of a general register changes no other part of the context. -/
theorem Ctx.setG_frame (x : Ctx) (d : Nat) (v : Word) :
    x.setG d v = { x with gr := (x.setG d v).gr } := by
  by_cases hd : d = 0 <;> simp [Ctx.setG, hd]

/-- A lane after a write of one lane (R39). -/
@[simp] theorem Ctx.lane_setLane (x : Ctx) (d l r k : Nat) (v : Lane) :
    (x.setLane d l v).lane r k = if 64 * r + k = 64 * d + l then v else x.lane r k := by
  simp [Ctx.lane, Ctx.setLane]

/-- The first lanes of a vector register written in turn. -/
theorem Ctx.lane_foldl (x : Ctx) (d r k m : Nat) (f : Nat → Lane) :
    ((List.range m).foldl (fun x l => x.setLane d l (f l)) x).lane r k =
      if 64 * d ≤ 64 * r + k ∧ 64 * r + k < 64 * d + m then f (64 * r + k - 64 * d) else x.lane r k := by
  induction m with
  | zero => simp
  | succ m ih =>
    rw [List.range_succ, List.foldl_append]
    simp only [List.foldl_cons, List.foldl_nil, Ctx.lane_setLane, ih]
    by_cases h : 64 * r + k = 64 * d + m
    · have h2 : 64 * d ≤ 64 * r + k ∧ 64 * r + k < 64 * d + (m + 1) := by omega
      have h3 : 64 * r + k - 64 * d = m := by omega
      rw [if_pos h, if_pos h2, h3]
    · by_cases h1 : 64 * d ≤ 64 * r + k ∧ 64 * r + k < 64 * d + m
      · have h2 : 64 * d ≤ 64 * r + k ∧ 64 * r + k < 64 * d + (m + 1) := by omega
        rw [if_neg h, if_pos h1, if_pos h2]
      · have h2 : ¬ (64 * d ≤ 64 * r + k ∧ 64 * r + k < 64 * d + (m + 1)) := by omega
        rw [if_neg h, if_neg h1, if_neg h2]

/-- A lane after a write of a vector register. -/
theorem Ctx.lane_setV (x : Ctx) (d r k : Nat) (v : List Lane) (hk : k < 64) :
    (x.setV d v).lane r k = if r = d then v.getD k 0 else x.lane r k := by
  have := Ctx.lane_foldl x d r k 64 (fun l => v.getD l 0)
  simp only [Ctx.setV, this]
  by_cases h : r = d
  · subst h
    have h2 : 64 * r ≤ 64 * r + k ∧ 64 * r + k < 64 * r + 64 := by omega
    have h3 : 64 * r + k - 64 * r = k := by omega
    simp [h2, h3]
  · have h2 : ¬ (64 * d ≤ 64 * r + k ∧ 64 * r + k < 64 * d + 64) := by omega
    rw [if_neg h2, if_neg h]

/-- A write of a vector register changes no other part of the context. -/
theorem Ctx.setV_frame (x : Ctx) (d : Nat) (v : List Lane) :
    x.setV d v = { x with vr := (x.setV d v).vr } := by
  simp only [Ctx.setV]
  generalize List.range 64 = l
  induction l generalizing x with
  | nil => rfl
  | cons a l ih => rw [List.foldl_cons, ih]; rfl

/-- A write of a vector register leaves the general registers. -/
theorem Ctx.setV_gr (x : Ctx) (d : Nat) (v : List Lane) : (x.setV d v).gr = x.gr := by
  rw [Ctx.setV_frame]

/-- A write of a vector register leaves the predicate registers. -/
theorem Ctx.setV_pr (x : Ctx) (d : Nat) (v : List Lane) : (x.setV d v).pr = x.pr := by
  rw [Ctx.setV_frame]

end Sys2Proof.Machine
end

