-- ==== Sys2Proof/Laws/Issue.lean ====
section
/-! SUPPORT. What issuing, retiring and faulting do, once for every instruction that does so. -/

namespace Sys2Proof.Machine

/-- A command at a unit that exists answers a next state. -/
theorem onUnit_next {b : Bool} (s : State) (f : State → State) (h : b = true) :
    onUnit b s f = .next (f s) := by simp [onUnit, h]

/-- A command at a unit that does not exist is refused. -/
theorem onUnit_absent {b : Bool} (s : State) (f : State → State) (h : b = false) :
    onUnit b s f = .refused .noSuchUnit := by simp [onUnit, h]

/-- The context that issues is not among those passed over. -/
theorem passedOver_not_mem (c : Core) (i : Nat) : i ∉ passedOver c (some i) := by
  intro h
  have h2 := List.mem_takeWhile_imp (List.mem_filter.1 h).1
  simp at h2

/-- Marking contexts changes their mark alone. -/
theorem foldl_held (l : List Nat) (c : Core) : ∃ cs,
    l.foldl (fun c j => c.setCtx j { c.ctx j with held := true }) c = { c with ctxs := cs } ∧
      ∀ j, Sparse.getD {} cs j = if j ∈ l then { c.ctx j with held := true } else c.ctx j := by
  induction l generalizing c with
  | nil => exact ⟨c.ctxs, rfl, fun j => by simp [Core.ctx]⟩
  | cons a l ih =>
    obtain ⟨cs, h1, h2⟩ := ih (c.setCtx a { c.ctx a with held := true })
    refine ⟨cs, by rw [List.foldl_cons, h1]; rfl, fun j => ?_⟩
    rw [h2]
    by_cases e : j = a
    · subst e; simp
    · simp [e]

/-- What beginIssue does for context i: it is the one that issued last and is not held; the others keep
everything but HELD_AT_ISSUE. -/
theorem beginIssue_spec (s : State) (n i : Nat) : ∃ c, beginIssue s n (some i) = s.setCore n c ∧
    c = { s.core n with ctxs := c.ctxs, lastIssued := some i } ∧
    c.ctx i = { s.ctx n i with held := false } ∧
    ∀ j, j ≠ i → c.ctx j = { s.ctx n j with held := (c.ctx j).held } := by
  obtain ⟨cs, h1, h2⟩ := foldl_held (passedOver (s.core n) (some i)) (s.core n)
  refine ⟨_, rfl, by simp only [h1]; rfl, ?_, ?_⟩
  · simp only [h1]
    have := h2 i
    simp only [passedOver_not_mem, if_false] at this
    simp only [Core.ctx, Core.setCtx, Sparse.getD_put, if_true] at this ⊢
    rw [this]; rfl
  · intro j hj
    simp only [h1]
    have := h2 j
    simp only [Core.ctx, Core.setCtx, Sparse.getD_put, if_neg hj] at this ⊢
    rw [this]
    split <;> rfl

/-- The context that issues, after beginIssue. -/
theorem beginIssue_ctx (s : State) (n i : Nat) :
    (beginIssue s n (some i)).ctx n i = { s.ctx n i with held := false } := by
  obtain ⟨c, h1, _, h3, _⟩ := beginIssue_spec s n i
  rw [h1]; simp only [State.ctx_eq, State.core_setCore, if_true]; rw [h3]; rfl

/-- A row whose instruction issues runs its action on the state just after issue. -/
theorem issue_eq {s : State} {n i op : Nat} {w : Word} {act : State → Nat → Word → State}
    (h : Issues s n i w op) (ho : op ∈ opcodes) :
    issue s n (isOp op) act = act (beginIssue s n (some i)) i w := by
  obtain ⟨_, h2, h3, h4⟩ := h
  unfold issue
  rw [h2]
  simp only [h3, ho, isOp, true_and, beq_self_eq_true, if_true, h4]

/-- A row whose instruction issues runs its action, whatever the row looks at. -/
theorem issue_row {s : State} {n i op : Nat} {w : Word} {act : State → Nat → Word → State}
    {row : Word → Bool} (h : Issues s n i w op) (ho : op ∈ opcodes) (hr : row w = true) :
    issue s n row act = act (beginIssue s n (some i)) i w := by
  obtain ⟨_, h2, h3, h4⟩ := h
  unfold issue
  rw [h2]
  simp only [h3, ho, hr, true_and, if_true, h4]

/-- Where another word issues, a row leaves the panel as it was. -/
theorem issue_other {s : State} {n i : Nat} {w : Word} {act : State → Nat → Word → State}
    {row : Word → Bool} (h : issuing s n = some (i, .word w)) (hr : row w = false) :
    issue s n row act = s := by
  unfold issue
  rw [h]
  simp [hr]

/-- f changes the register banks of a context alone. -/
def BankOnly (f : Ctx → Ctx) : Prop :=
  ∀ x : Ctx, f x = { x with gr := (f x).gr, pr := (f x).pr, vr := (f x).vr }

/-- k changes a core without regard to its contexts and to which one issued last. -/
def CoreOnly (k : Core → Core) : Prop :=
  ∀ c cs l, k { c with ctxs := cs, lastIssued := l } = { k c with ctxs := cs, lastIssued := l }

/-- The identity does so. -/
theorem coreOnly_id : CoreOnly id := fun _ _ _ => rfl

/-- The state just after issue, with a change of the core. -/
def afterIssue (s : State) (n i : Nat) (k : Core → Core) : State := (beginIssue s n (some i)).modCore n k

/-- Without a change of the core it is the state just after issue. -/
theorem afterIssue_id (s : State) (n i : Nat) : beginIssue s n (some i) = afterIssue s n i id := by
  obtain ⟨c, h1, _⟩ := beginIssue_spec s n i
  simp only [afterIssue]
  rw [h1]
  simp [State.setCore, State.core]

/-- What retiring at pc does, just after issue and a change k of the core. -/
theorem retireTo_spec (s : State) (n i pc : Nat) {f : Ctx → Ctx} {k : Core → Core} (hf : BankOnly f)
    (hk : CoreOnly k) :
    Retired s ((afterIssue s n i k).retireTo n i pc f) (k (s.core n)) n i pc ∧
      ((afterIssue s n i k).retireTo n i pc f).ctx n i =
        { f { s.ctx n i with held := false } with pc := pc, cairn := (s.ctx n i).cairn + 1 } := by
  obtain ⟨c, h1, h2, h3, h4⟩ := beginIssue_spec s n i
  have hkc : k c = { k (s.core n) with ctxs := c.ctxs, lastIssued := some i } := by rw [h2, hk]
  have hx : ∀ j, (k c).ctx j = c.ctx j := by intro j; rw [hkc]; rfl
  have hc : ((afterIssue s n i k).retireTo n i pc f).ctx n i =
      { f { s.ctx n i with held := false } with pc := pc, cairn := (s.ctx n i).cairn + 1 } := by
    simp only [afterIssue]
    rw [h1]
    simp only [State.retireTo, State.cairn, State.modCtx_eq, State.setCtx_eq, State.modReg_eq,
      State.modCore_eq, State.ctx_eq, State.core_setReg, State.core_setCore, if_true,
      Core.ctx_setCtx, hx] at h3 ⊢
    rw [h3, hf]
  refine ⟨⟨⟨?_, ?_, ?_, ?_⟩, ?_, ?_, ?_⟩, hc⟩
  · simp only [afterIssue]
    rw [h1]; simp only [State.retireTo, State.cairn, State.modCtx_eq, State.setCtx_eq,
      State.modReg_eq, State.modCore_eq]; rfl
  · intro m hm
    have hm : m ≠ n := by simpa using hm
    simp only [afterIssue]
    rw [h1]
    simp [State.retireTo, State.cairn, hm]
  · simp only [afterIssue]
    rw [h1]
    simp only [State.retireTo, State.cairn, State.modCtx_eq, State.setCtx_eq, State.modReg_eq,
      State.modCore_eq, State.core_setReg, State.core_setCore, if_true, Core.setCtx]
    rw [hkc]
  · intro j hj
    simp only [afterIssue]
    rw [h1]
    have := h4 j hj
    simp only [State.retireTo, State.cairn, State.modCtx_eq, State.setCtx_eq, State.modReg_eq,
      State.modCore_eq, State.ctx_eq, State.core_setReg, State.core_setCore, if_true,
      Core.ctx_setCtx, if_neg hj, hx] at this ⊢
    exact this
  · intro key hk
    have hk : key ≠ (bCore n).key 0x48 := by simpa using hk
    simp only [afterIssue]
    rw [h1]
    simp [State.retireTo, State.cairn, State.setReg, hk, State.setCore]
  · simp only [afterIssue]
    rw [h1]; simp [State.retireTo, State.cairn]
  · rw [hc, hf]

/-- The context that issues, after a change of the core. -/
theorem afterIssue_ctx (s : State) (n i : Nat) {k : Core → Core} (hk : CoreOnly k) :
    (afterIssue s n i k).ctx n i = { s.ctx n i with held := false } := by
  obtain ⟨c, h1, h2, h3, _⟩ := beginIssue_spec s n i
  have hkc : k c = { k (s.core n) with ctxs := c.ctxs, lastIssued := some i } := by rw [h2, hk]
  simp only [afterIssue]
  rw [h1]
  simp only [State.modCore_eq, State.ctx_eq, State.core_setCore, if_true]
  rw [hkc]
  exact h3

/-- The core just after issue and a change of it. -/
theorem afterIssue_core (s : State) (n i : Nat) {k : Core → Core} (hk : CoreOnly k) :
    ∃ cs, (afterIssue s n i k).core n = { k (s.core n) with ctxs := cs, lastIssued := some i } := by
  obtain ⟨c, h1, h2, _, _⟩ := beginIssue_spec s n i
  refine ⟨c.ctxs, ?_⟩
  simp only [afterIssue]
  rw [h1]
  simp only [State.modCore_eq, State.core_setCore, if_true]
  have : k c = k { s.core n with ctxs := c.ctxs, lastIssued := some i } := by rw [← h2]
  rw [this]
  exact hk (s.core n) c.ctxs i

/-- Retiring at the next word is retiring at the program counter plus 8. -/
theorem retire_eq (s : State) (n i : Nat) (f : Ctx → Ctx) {k : Core → Core} (hk : CoreOnly k) :
    (afterIssue s n i k).retire n i f = (afterIssue s n i k).retireTo n i (pcOf s n i + 8) f := by
  simp only [State.retire, State.modCtx, State.retireTo]
  have : ((afterIssue s n i k).ctx n i).pc = pcOf s n i := by rw [afterIssue_ctx s n i hk]; rfl
  rw [this]

/-- A write of a general register changes the banks alone. -/
theorem bankOnly_setG (d : Nat) (v : Ctx → Word) : BankOnly fun x => x.setG d (v x) := by
  intro x; simp only [Ctx.setG]; split <;> rfl

/-- A write of a predicate register changes the banks alone. -/
theorem bankOnly_setP (d : Nat) (v : Ctx → Bool) : BankOnly fun x => x.setP d (v x) := fun _ => rfl

/-- A write of a vector register changes the banks alone. -/
theorem bankOnly_setV (d : Nat) (v : Ctx → List Lane) : BankOnly fun x => x.setV d (v x) := by
  intro x
  have := Ctx.setV_frame x d (v x)
  simp only
  rw [this]

/-- An instruction that writes one general register. -/
theorem writesG {s : State} {n i pc d : Nat} {f : Ctx → Word} (v : Word)
    (hv : f { s.ctx n i with held := false } = v) {k : Core → Core} (hk : CoreOnly k) :
    WritesG s ((afterIssue s n i k).retireTo n i pc (fun x => x.setG d (f x))) (k (s.core n)) n i pc d v := by
  obtain ⟨a, b⟩ := retireTo_spec s n i pc (bankOnly_setG d f) hk
  refine ⟨a, ?_, ?_, ?_⟩
  · intro r
    rw [b]
    subst hv
    show (Ctx.setG _ d _).getG r = _
    rw [Ctx.getG_setG]
    rfl
  · rw [PredSame, b]
    simp only [Ctx.setG]; split <;> rfl
  · rw [VectorSame, b]
    simp only [Ctx.setG]; split <;> rfl

/-- The predicate registers after a write of one (R39). -/
theorem Ctx.getP_setP (x : Ctx) (d r : Nat) (b : Bool) (hr : r < 8) :
    (x.setP d b).getP r = if r = d then b else x.getP r := by
  simp only [Ctx.getP, Ctx.setP, BitVec.getLsbD_or, BitVec.getLsbD_and, BitVec.getLsbD_not,
    BitVec.getLsbD_ofNat, Nat.testBit_shiftLeft]
  by_cases e : r = d
  · subst e; cases b <;> simp [hr]
  · by_cases h : d ≤ r
    · have h1 : r - d ≠ 0 := by omega
      have h2 : Nat.testBit 1 (r - d) = false :=
        Bool.eq_false_iff.2 fun e => h1 (Nat.testBit_one_eq_true_iff_self_eq_zero.1 e)
      cases b <;> simp [hr, h, h2, e]
    · cases b <;> simp [hr, h, e]

/-- An instruction that writes one predicate register. -/
theorem writesP {s : State} {n i pc d : Nat} {f : Ctx → Bool} (v : Bool)
    (hv : f { s.ctx n i with held := false } = v) {k : Core → Core} (hk : CoreOnly k) :
    WritesP s ((afterIssue s n i k).retireTo n i pc (fun x => x.setP d (f x))) (k (s.core n)) n i pc d v := by
  obtain ⟨a, b⟩ := retireTo_spec s n i pc (bankOnly_setP d f) hk
  refine ⟨a, ?_, ?_, ?_⟩
  · intro r; rw [b]; rfl
  · intro r hr
    rw [b]
    subst hv
    show (Ctx.setP _ d _).getP r = _
    rw [Ctx.getP_setP _ _ _ _ hr]
    rfl
  · rw [VectorSame, b]; rfl

/-- An instruction that writes one vector register. -/
theorem writesV {s : State} {n i pc d : Nat} {f : Ctx → List Lane} (v : Nat → Lane)
    (hv : ∀ l, l < 64 → (f { s.ctx n i with held := false }).getD l 0 = v l) {k : Core → Core} (hk : CoreOnly k) :
    WritesV s ((afterIssue s n i k).retireTo n i pc (fun x => x.setV d (f x))) (k (s.core n)) n i pc d v := by
  obtain ⟨a, b⟩ := retireTo_spec s n i pc (bankOnly_setV d f) hk
  refine ⟨a, ?_, ?_, ?_⟩
  · intro r
    rw [b]
    simp only [Ctx.getG]
    rw [Ctx.setV_gr]
  · rw [PredSame, b]
    simp only
    rw [Ctx.setV_pr]
  · intro r l hl
    rw [b, ← hv l hl]
    have e : ∀ (x : Ctx) (p : Nat) (c : BitVec 32), Ctx.lane { x with pc := p, cairn := c } r l = x.lane r l :=
      fun _ _ _ => rfl
    rw [e, Ctx.lane_setV _ _ _ _ _ hl]
    rfl

/-- An instruction that writes no register. -/
theorem writesNone (s : State) (n i pc : Nat) {k : Core → Core} (hk : CoreOnly k) :
    WritesNone s ((afterIssue s n i k).retireTo n i pc id) (k (s.core n)) n i pc := by
  obtain ⟨a, b⟩ := retireTo_spec s n i pc (f := id) (fun _ => rfl) hk
  exact ⟨a, fun r => by rw [b]; rfl, by rw [PredSame, b]; rfl, by rw [VectorSame, b]; rfl⟩

/-- Parking, just after issue (R45). -/
theorem park_spec (s : State) (n i : Nat) (wf : WaitFor) (idle : Bool) :
    Parks s ((beginIssue s n (some i)).park n i wf idle) n i wf idle := by
  obtain ⟨c, h1, h2, h3, h4⟩ := beginIssue_spec s n i
  rw [h1]
  refine ⟨⟨?_, ?_, ?_, ?_⟩, ?_, ?_⟩
  · simp only [State.park, State.modCtx_eq, State.setCtx_eq]; rfl
  · intro m hm
    have hm : m ≠ n := by simpa using hm
    simp [State.park, hm]
  · simp only [State.park, State.modCtx_eq, State.setCtx_eq, State.core_setCore, if_true, Core.setCtx]
    rw [h2]
  · intro j hj
    have := h4 j hj
    simp only [State.park, State.modCtx_eq, State.setCtx_eq, State.ctx_eq, State.core_setCore, if_true,
      Core.ctx_setCtx, if_neg hj] at this ⊢
    exact this
  · simp [State.park]
  · simp only [State.park, State.modCtx_eq, State.setCtx_eq, State.ctx_eq, State.core_setCore, if_true,
      Core.ctx_setCtx]
    rw [h3]; rfl

/-- A fault at issue, just after issue (R54). -/
theorem issueFault_spec (s : State) (n i code unit : Nat) (addr : Word) :
    FaultsAtIssue s ((beginIssue s n (some i)).issueFault n i code unit addr) n i code unit addr := by
  have hx := beginIssue_ctx s n i
  obtain ⟨c, h1, h2, h3, h4⟩ := beginIssue_spec s n i
  simp only [State.issueFault, State.faultCtx, State.noticeDie, noticeAbout]
  rw [hx]
  rw [h1]
  refine ⟨?_, ?_, ?_, ?_, ?_, ?_, ?_⟩
  · simp only [State.modCtx_eq, State.setCtx_eq, State.offer_eq]; rfl
  · intro m hm
    have hm : m ≠ n := by simpa using hm
    simp [hm]
  · simp only [State.offer_eq, State.modCtx_eq, State.setCtx_eq, State.core_setRouter,
      State.core_setCore, if_true, Core.setCtx]
    rw [h2]
  · intro j hj
    have := h4 j hj
    simp only [State.offer_eq, State.modCtx_eq, State.setCtx_eq, State.core_setRouter, State.ctx_eq,
      State.core_setCore, if_true, Core.ctx_setCtx, if_neg hj] at this ⊢
    exact this
  · simp only [State.offer_eq, State.modCtx_eq, State.setCtx_eq, State.core_setRouter, State.ctx_eq,
      State.core_setCore, if_true, Core.ctx_setCtx]
    rw [h3]; rfl
  · intro m hm
    have hm : m ≠ n := by simpa using hm
    simp [hm]
  · simp; rfl

end Sys2Proof.Machine
end

