-- ==== Sys2Proof/Laws/Memory.lean ====
section
/-! SUPPORT. The canonical form of memory: the memory of the panel after reset has it, and every operation on
memory keeps it. -/

namespace Sys2Proof.Machine

/-! ## What the form says -/

/-- The form of all memory, part by part. -/
theorem Memory.wf_iff (s : State) : Memory.wf s = true ↔
    (Sparse.rising s.cores = true ∧ (∀ e ∈ s.cores, e.2.wf = true)) ∧
    (Sparse.rising s.slices = true ∧ (∀ e ∈ s.slices, e.2.wf = true)) ∧
    Sparse.rising s.regs = true ∧ Sparse.rising s.staged = true := by
  simp only [Memory.wf, Bool.and_eq_true, List.all_eq_true]
  tauto

/-- The panel after reset lists nothing. -/
theorem Memory.wf_reset : Memory.wf State.reset = true := by decide

/-- A state with the cores, slices, registers and staged values of s has the form as s has it. -/
theorem Memory.wf_congr {s t : State} (h1 : t.cores = s.cores) (h2 : t.slices = s.slices)
    (h3 : t.regs = s.regs) (h4 : t.staged = s.staged) (h : Memory.wf s = true) : Memory.wf t = true := by
  simpa only [Memory.wf, h1, h2, h3, h4] using h

/-- An entry of a sparse list is what a look-up finds, or the list has none. -/
theorem Sparse.find_mem {α : Type} {k : Nat} {v : α} {m : Sparse α} (h : Sparse.find k m = some v) :
    (k, v) ∈ m := by
  induction m with
  | nil => simp at h
  | cons e rest ih =>
    obtain ⟨j, w⟩ := e
    simp only [Sparse.find] at h
    split at h
    · rename_i hj; subst hj; simp_all
    · exact List.mem_cons_of_mem _ (ih h)

/-- What a list of well-formed entries reads as anywhere is well-formed, where the default is. -/
theorem Sparse.getD_all {α : Type} {P : α → Prop} {d : α} {m : Sparse α} (hd : P d)
    (h : ∀ e ∈ m, P e.2) (k : Nat) : P (Sparse.getD d m k) := by
  unfold Sparse.getD
  cases hf : Sparse.find k m with
  | none => exact hd
  | some v => exact h _ (Sparse.find_mem hf)

/-- Every core has the form. -/
theorem Memory.wf_core {s : State} (h : Memory.wf s = true) (n : Nat) : (s.core n).wf = true :=
  Sparse.getD_all (P := fun c : Core => c.wf = true) (by decide) ((Memory.wf_iff s).1 h).1.2 n

/-- Every slice has the form. -/
theorem Memory.wf_slice {s : State} (h : Memory.wf s = true) (n : Nat) : (s.slice n).wf = true :=
  Sparse.getD_all (P := fun c : Slice => c.wf = true) (by decide) ((Memory.wf_iff s).1 h).2.1.2 n

/-- The parts of a core's form. -/
theorem Core.wf_iff (c : Core) : c.wf = true ↔ Sparse.canonical 0 c.spad = true ∧
    Sparse.canonical 0 c.imem = true ∧ Sparse.canonical 0 c.slots = true ∧
    Sparse.canonical 0 c.ccs = true ∧ ∀ e ∈ c.ctxs, e.2.wf = true := by
  simp only [Core.wf, Bool.and_eq_true, List.all_eq_true]
  tauto

/-- Every context has the form. -/
theorem Core.wf_ctx {c : Core} (h : c.wf = true) (i : Nat) : (c.ctx i).wf = true :=
  Sparse.getD_all (P := fun x : Ctx => x.wf = true) (by decide) ((Core.wf_iff c).1 h).2.2.2.2 i

/-! ## What keeps the form of a context -/

theorem Ctx.wf_setG {x : Ctx} (h : x.wf = true) (r : Nat) (v : Word) : (x.setG r v).wf = true := by
  simp only [Ctx.wf, Bool.and_eq_true] at *
  unfold Ctx.setG
  split
  · exact h
  · exact ⟨Sparse.canonical_set _ _ _ h.1, h.2⟩

theorem Ctx.wf_setP {x : Ctx} (h : x.wf = true) (r : Nat) (b : Bool) : (x.setP r b).wf = true := h

theorem Ctx.wf_setLane {x : Ctx} (h : x.wf = true) (r l : Nat) (v : Lane) :
    (x.setLane r l v).wf = true := by
  simp only [Ctx.wf, Bool.and_eq_true] at *
  exact ⟨h.1, Sparse.canonical_set _ _ _ h.2⟩

theorem Ctx.wf_setV {x : Ctx} (h : x.wf = true) (r : Nat) (v : List Lane) : (x.setV r v).wf = true := by
  unfold Ctx.setV
  exact List.foldlRecOn (motive := fun y => Ctx.wf y = true) (List.range 64) _ h
    (fun y hy l _ => Ctx.wf_setLane hy r l _)

/-! ## What keeps the form of a core -/

theorem Core.wf_setCtx {c : Core} (h : c.wf = true) (i : Nat) {x : Ctx} (hx : x.wf = true) :
    (c.setCtx i x).wf = true := by
  rw [Core.wf_iff] at *
  refine ⟨h.1, h.2.1, h.2.2.1, h.2.2.2.1, fun e he => ?_⟩
  rcases Sparse.mem_put he with rfl | he
  · exact hx
  · exact h.2.2.2.2 e he

theorem Core.wf_setSlot {c : Core} (h : c.wf = true) (sl : Nat) (w : Word) : (c.setSlot sl w).wf = true := by
  rw [Core.wf_iff] at *
  exact ⟨h.1, h.2.1, Sparse.canonical_set _ _ _ h.2.2.1, h.2.2.2⟩

theorem Core.wf_setCc {c : Core} (h : c.wf = true) (k : Nat) (v : Lane) : (c.setCc k v).wf = true := by
  rw [Core.wf_iff] at *
  exact ⟨h.1, h.2.1, h.2.2.1, Sparse.canonical_set _ _ _ h.2.2.2.1, h.2.2.2.2⟩

theorem Core.wf_writeSpad {c : Core} (h : c.wf = true) (a : Nat) (bs : List Byte) :
    (c.writeSpad a bs).wf = true := by
  rw [Core.wf_iff] at *
  exact ⟨Sparse.canonical_writeZ _ _ h.1, h.2⟩

theorem Core.wf_writeImem {c : Core} (h : c.wf = true) (a : Nat) (bs : List Byte) :
    (c.writeImem a bs).wf = true := by
  rw [Core.wf_iff] at *
  exact ⟨h.1, Sparse.canonical_writeZ _ _ h.2.1, h.2.2⟩

/-! ## What keeps the form of a slice -/

theorem Slice.wf_writeDram {c : Slice} (h : c.wf = true) (a : Nat) (b : List Byte) :
    (c.writeDram a b).wf = true := Sparse.rising_writeAll b a h

/-- A shard that is initialised holds zeros (R227). -/
theorem Slice.wf_fill {c : Slice} (h : c.wf = true) (a len : Nat) (b : Byte) :
    ({ c with dram := Sparse.fillRange a len b c.dram } : Slice).wf = true := Sparse.rising_fillRange a len b h

/-! ## What keeps the form of all memory -/

theorem Memory.wf_setCore {s : State} (h : Memory.wf s = true) (n : Nat) {c : Core} (hc : c.wf = true) :
    Memory.wf (s.setCore n c) = true := by
  rw [Memory.wf_iff] at *
  refine ⟨⟨Sparse.rising_put _ _ h.1.1, fun e he => ?_⟩, h.2⟩
  rcases Sparse.mem_put he with rfl | he
  · exact hc
  · exact h.1.2 e he

theorem Memory.wf_modCore {s : State} (h : Memory.wf s = true) (n : Nat) {f : Core → Core}
    (hf : ∀ c : Core, c.wf = true → (f c).wf = true) : Memory.wf (s.modCore n f) = true :=
  Memory.wf_setCore h n (hf _ (Memory.wf_core h n))

theorem Memory.wf_modCtx {s : State} (h : Memory.wf s = true) (n i : Nat) {f : Ctx → Ctx}
    (hf : ∀ x : Ctx, x.wf = true → (f x).wf = true) : Memory.wf (s.modCtx n i f) = true :=
  Memory.wf_modCore h n fun _ hc => Core.wf_setCtx hc i (hf _ (Core.wf_ctx (Memory.wf_core h n) i))

theorem Memory.wf_setSlice {s : State} (h : Memory.wf s = true) (n : Nat) {c : Slice} (hc : c.wf = true) :
    Memory.wf (s.setSlice n c) = true := by
  rw [Memory.wf_iff] at *
  refine ⟨h.1, ⟨Sparse.rising_put _ _ h.2.1.1, fun e he => ?_⟩, h.2.2⟩
  rcases Sparse.mem_put he with rfl | he
  · exact hc
  · exact h.2.1.2 e he

theorem Memory.wf_modSlice {s : State} (h : Memory.wf s = true) (n : Nat) {f : Slice → Slice}
    (hf : ∀ c : Slice, c.wf = true → (f c).wf = true) : Memory.wf (s.modSlice n f) = true :=
  Memory.wf_setSlice h n (hf _ (Memory.wf_slice h n))

theorem Memory.wf_setReg {s : State} (h : Memory.wf s = true) (k : Blk) (off : Nat) (w : Word) :
    Memory.wf (s.setReg k off w) = true := by
  rw [Memory.wf_iff] at *
  exact ⟨h.1, h.2.1, Sparse.rising_put _ _ h.2.2.1, h.2.2.2⟩

theorem Memory.wf_modReg {s : State} (h : Memory.wf s = true) (k : Blk) (off : Nat) (f : Word → Word) :
    Memory.wf (s.modReg k off f) = true := Memory.wf_setReg h k off _

theorem Memory.wf_setField {s : State} (h : Memory.wf s = true) (k : Blk) (off lo len v : Nat) :
    Memory.wf (s.setField k off lo len v) = true := Memory.wf_modReg h k off _

theorem Memory.wf_countField {s : State} (h : Memory.wf s = true) (k : Blk) (off lo len : Nat) :
    Memory.wf (s.countField k off lo len) = true := Memory.wf_modReg h k off _

theorem Memory.wf_stagePut {s : State} (h : Memory.wf s = true) (x : Nat) (w : Word) :
    Memory.wf { s with staged := Sparse.put x w s.staged } = true := by
  rw [Memory.wf_iff] at *
  exact ⟨h.1, h.2.1, h.2.2.1, Sparse.rising_put _ _ h.2.2.2⟩

theorem Memory.wf_dropRegs {s : State} (h : Memory.wf s = true) (lo len : Nat) :
    Memory.wf { s with regs := Sparse.dropRange lo len s.regs } = true := by
  rw [Memory.wf_iff] at *
  exact ⟨h.1, h.2.1, Sparse.rising_dropRange _ _ h.2.2.1, h.2.2.2⟩

theorem Memory.wf_dropStaged {s : State} (h : Memory.wf s = true) (lo len : Nat) :
    Memory.wf { s with staged := Sparse.dropRange lo len s.staged } = true := by
  rw [Memory.wf_iff] at *
  exact ⟨h.1, h.2.1, h.2.2.1, Sparse.rising_dropRange _ _ h.2.2.2⟩

/-- Changes of routers, sites, links, bridges, stewards, pins, the lead steward, the queue or the counters of
free values leave memory as it was. -/
theorem Memory.wf_others {s : State} (h : Memory.wf s = true) (f : State → State)
    (hf : ∀ u : State, (f u).cores = u.cores ∧ (f u).slices = u.slices ∧ (f u).regs = u.regs ∧
      (f u).staged = u.staged) : Memory.wf (f s) = true :=
  Memory.wf_congr (hf s).1 (hf s).2.1 (hf s).2.2.1 (hf s).2.2.2 h

/-- A fold of steps that keep the form keeps it. -/
theorem Memory.wf_foldl {α : Type} {f : State → α → State} (l : List α)
    (hf : ∀ (u : State) (a : α), Memory.wf u = true → Memory.wf (f u a) = true) {s : State}
    (h : Memory.wf s = true) : Memory.wf (l.foldl f s) = true :=
  List.foldlRecOn (motive := fun u => Memory.wf u = true) l f h (fun u hu a _ => hf u a hu)

end Sys2Proof.Machine
end

