-- ==== Sys2Proof/Laws/Offers.lean ====
section
/-! SUPPORT. What the shared operations on packets and notices change: only the routers of one node, and in
what they list. -/

namespace Sys2Proof.Machine

/-- Two states differ in their routers at most. -/
def RoutersOnly (s t : State) : Prop := t = { s with routers := t.routers }

theorem RoutersOnly.refl (s : State) : RoutersOnly s s := rfl

theorem RoutersOnly.trans {s t u : State} (h1 : RoutersOnly s t) (h2 : RoutersOnly t u) : RoutersOnly s u := by
  unfold RoutersOnly at *
  rw [h2, h1]

theorem routersOnly_modRouter (s : State) (n : Nat) (f : Router → Router) : RoutersOnly s (s.modRouter n f) := rfl

theorem routersOnly_modPlane (s : State) (n pl : Nat) (f : RPlane → RPlane) : RoutersOnly s (s.modPlane n pl f) := rfl

theorem routersOnly_offer (s : State) (n : Nat) (p : Packet) (pl : Option Nat) : RoutersOnly s (s.offer n p pl) := rfl

theorem routersOnly_noticeDie (s : State) (n code : Nat) (p : Option Packet) : RoutersOnly s (s.noticeDie n code p) := by
  unfold State.noticeDie
  split <;> rfl

theorem routersOnly_noticePlain (s : State) (n code : Nat) (p : Option Packet) :
    RoutersOnly s (s.noticePlain n code p) := by
  unfold State.noticePlain
  split
  · split <;> rfl
  · rfl

theorem routersOnly_noticeSite (s : State) (st code : Nat) : RoutersOnly s (s.noticeSite st code) :=
  routersOnly_noticePlain _ _ _ _

theorem routersOnly_noticeLead (s : State) (code : Nat) : RoutersOnly s (s.noticeLead code) :=
  routersOnly_noticeDie _ _ _ _

theorem routersOnly_creditDie (s : State) (n pl : Nat) (p : Packet) : RoutersOnly s (s.creditDie n pl p) := by
  unfold State.creditDie
  split <;> rfl

theorem routersOnly_ackDie (s : State) (n pl : Nat) (p : Packet) : RoutersOnly s (s.ackDie n pl p) := by
  unfold State.ackDie
  split <;> rfl

theorem routersOnly_discardDie (s : State) (n pl : Nat) (p : Packet) (code : Nat) :
    RoutersOnly s (s.discardDie n pl p code) :=
  (routersOnly_creditDie s n pl p).trans (routersOnly_noticeDie _ _ _ _)

theorem routersOnly_takeUp (s : State) (n pl : Nat) (p : Packet) : RoutersOnly s (s.takeUp n pl p) := by
  unfold State.takeUp
  dsimp only
  split
  · rfl
  · split <;> rfl

theorem routersOnly_noticeAt (s : State) (n code : Nat) (p : Packet) : RoutersOnly s (s.noticeAt n code p) := by
  unfold State.noticeAt
  split
  · exact routersOnly_noticePlain _ _ _ _
  · exact routersOnly_noticeDie _ _ _ _

/-- What changes routers only leaves memory as it was. -/
theorem RoutersOnly.wf {s t : State} (h : RoutersOnly s t) (hs : Memory.wf s = true) : Memory.wf t = true := by
  rw [h]
  exact Memory.wf_congr rfl rfl rfl rfl hs

theorem Memory.wf_routerDrop {s : State} (h : Memory.wf s = true) (n pl : Nat) (pt : Port) (p : Packet) (credit : Bool)
    (code : Option Nat) : Memory.wf (s.routerDrop n pl pt p credit code) = true := by
  have hc : Memory.wf (s.countDiscard n pl) = true := Memory.wf_countField h _ _ _ _
  have hd : Memory.wf (if credit then (s.countDiscard n pl).creditHere n pl pt p else s.countDiscard n pl) = true := by
    split
    · unfold State.creditHere
      split
      · exact (routersOnly_modPlane _ _ _ _).wf hc
      · exact hc
    · exact hc
  unfold State.routerDrop
  cases code
  · exact hd
  · exact (routersOnly_noticePlain _ _ _ _).wf hd

/-- A packet for a tree is injected or dropped; memory keeps its form where f keeps it (R181). -/
theorem Memory.wf_rootOnly {s : State} (h : Memory.wf s = true) (n pl : Nat) (pt : Port) (q : Packet) {f : State → State}
    (hf : Memory.wf (f s) = true) : Memory.wf (s.rootOnly n pl pt q f) = true := by
  unfold State.rootOnly
  dsimp only
  split
  · exact hf
  · split
    · exact Memory.wf_routerDrop h _ _ _ _ _ _
    · split
      · exact hf
      · exact Memory.wf_routerDrop h _ _ _ _ _ _

/-- An answer enters the router of its node, or waits at the slice or the die above it. -/
theorem Memory.wf_answer {s : State} (h : Memory.wf s = true) (n pl : Nat) (pt : Port) (p q : Packet) :
    Memory.wf (s.answer n pl pt p q) = true := by
  unfold State.answer
  split
  · exact Memory.wf_rootOnly h _ _ _ _ ((routersOnly_modPlane _ _ _ _).wf h)
  · split
    · exact Memory.wf_modSlice h n fun _ hc => hc
    · exact (routersOnly_offer _ _ _ _).wf h

theorem Memory.wf_discardAt {s : State} (h : Memory.wf s = true) (n pl : Nat) (pt : Port) (p : Packet) (code : Nat) :
    Memory.wf (s.discardAt n pl pt p code) = true := by
  refine (routersOnly_noticeAt _ _ _ _).wf ?_
  unfold State.answer?
  split
  · exact Memory.wf_answer h _ _ _ _ _
  · exact h

/-- What changes routers only leaves every register as it was. -/
theorem RoutersOnly.reg {s t : State} (h : RoutersOnly s t) (k : Blk) (off : Nat) : t.reg k off = s.reg k off := by
  rw [h]
  rfl

/-- What changes routers only leaves every core as it was. -/
theorem RoutersOnly.core {s t : State} (h : RoutersOnly s t) (n : Nat) : t.core n = s.core n := by
  rw [h]
  rfl

/-- A flag for remap changes SITE_HEALTH of its site, and offers a notice where REMAP was clear (R412). -/
theorem flagRemap_spec (s : State) (st cause : Nat) : ∃ u,
    u = s.setReg (bSm st) 0x408 (setBit (setBit (s.reg (bSm st) 0x408) cause true) 0 true) ∧
      RoutersOnly u (s.flagRemap st cause) := by
  refine ⟨_, rfl, ?_⟩
  unfold State.flagRemap
  dsimp only
  split
  · rfl
  · exact routersOnly_noticeSite _ _ _

end Sys2Proof.Machine
end

