-- ==== Sys2Proof/Laws/Links.lean ====
section
/-! SUPPORT. What the operations on the ends of a link do: numbering, replay, and what a receiver and an output may
change. -/

namespace Sys2Proof.Machine

/-! ## Ends -/

@[simp] theorem RPlane.endOf_put (r : RPlane) (d e : Nat) (x : LinkEnd) :
    ({ r with ends := Sparse.put d x r.ends } : RPlane).endOf e = if e = d then x else r.endOf e := by
  simp only [RPlane.endOf, Sparse.getD, Sparse.find_put]
  by_cases h : e = d <;> simp [h]

theorem State.modEnd_eq (s : State) (n pl d : Nat) (f : LinkEnd → LinkEnd) :
    s.modEnd n pl d f = s.setPlane n pl { s.plane n pl with
      ends := Sparse.put d (f ((s.plane n pl).endOf d)) (s.plane n pl).ends } := rfl

theorem routersOnly_modEnd (s : State) (n pl d : Nat) (f : LinkEnd → LinkEnd) : RoutersOnly s (s.modEnd n pl d f) := rfl

/-- Slots sent are numbered on from those before and are the last of the retry buffer, which keeps 16 (R168). -/
theorem LinkEnd.send_frame (e : LinkEnd) (ws : List WordSlot) :
    e.send ws = { e with sent := e.sent + ws.length, retry := (e.send ws).retry } := rfl

theorem LinkEnd.send_txSlot (e : LinkEnd) (ws : List WordSlot) :
    (e.send ws).txSlot = e.txSlot + BitVec.ofNat 4 ws.length := by
  simp [LinkEnd.send, LinkEnd.txSlot, BitVec.ofNat_add]

theorem LinkEnd.send_retry_length (e : LinkEnd) (ws : List WordSlot) :
    (e.send ws).retry.length = min 16 (e.retry.length + ws.length) := by
  simp only [LinkEnd.send, List.length_drop, List.length_append]
  omega

theorem LinkEnd.send_retry_suffix (e : LinkEnd) (ws : List WordSlot) : (e.send ws).retry <:+ e.retry ++ ws :=
  List.drop_suffix _ _

/-- After a replay the sender is where it was before slot q, and has the slots from q on to send again (R168). -/
theorem LinkEnd.replay_eq (e : LinkEnd) (q : BitVec 4) (h : e.since q ≤ e.retry.length) :
    e.replay q = { e with
      sent := e.sent - e.since q
      retry := e.retry.take (e.retry.length - e.since q)
      again := e.retry.drop (e.retry.length - e.since q) ++ e.again } := by
  have : e.retry.length - (e.retry.length - e.since q) = e.since q := by omega
  simp [LinkEnd.replay, this]

/-! ## What a receiver and an output may change -/

theorem routersOnly_sendWords (s : State) (n pl d : Nat) (join : Bool) (ws : List WordSlot) :
    RoutersOnly s (s.sendWords n pl d join ws) := rfl

theorem routersOnly_occupy (s : State) (n pl d : Nat) (h : Header) (cross : Bool) :
    RoutersOnly s (s.occupy n pl d h cross) := by
  unfold State.occupy
  dsimp only
  split
  · exact (show RoutersOnly s (s.setPlane n pl _) from rfl).trans (routersOnly_sendWords _ _ _ _ _ _)
  · rfl

/-- A granted header changes the routers alone (R165, R169). -/
theorem routersOnly_forward (s : State) (n pl d : Nat) (h : Header) : RoutersOnly s (s.forward n pl d h) :=
  routersOnly_occupy _ _ _ _ _ _

/-- One cycle of an output changes the routers alone (R165, R168). -/
theorem routersOnly_drainPort (s : State) (n pl d : Nat) : RoutersOnly s (s.drainPort n pl d) := by
  unfold State.drainPort
  dsimp only
  have nak : ∀ b : Bool, RoutersOnly s (if b then s.modEnd n pl d fun e => { e with nakSent := true } else s) := by
    intro b
    cases b <;> rfl
  generalize (if stalled s n pl d = true then 0 else _) = k
  split
  · exact nak _
  · exact ((nak _).trans (routersOnly_modPlane _ n pl _)).trans (routersOnly_sendWords _ _ _ _ _ _)

end Sys2Proof.Machine
end

