-- ==== Sys2Proof/Laws/Regs.lean ====
section
/-! SUPPORT. Laws of register words built from fields: what one field of such a word reads. -/

namespace Sys2Proof.Machine

/-- A bit of a placed field. -/
theorem field_getLsbD (lo len v i : Nat) (h : lo + len ≤ 64) :
    (field lo len v).getLsbD i = (decide (lo ≤ i) && decide (i < lo + len) && v.testBit (i - lo)) := by
  simp only [field, BitVec.getLsbD_ofNat, Nat.testBit_shiftLeft, Nat.testBit_mod_two_pow]
  by_cases h1 : lo ≤ i <;> by_cases h2 : i < lo + len <;> by_cases h3 : i < 64 <;> simp [h1, h2, h3] <;> omega

/-- A field of a disjunction. -/
theorem bits_or (a b : Word) (lo len : Nat) : bits (a ||| b) lo len = bits a lo len ||| bits b lo len := by
  simp only [bits, BitVec.toNat_or, Nat.shiftRight_or_distrib, Nat.or_mod_two_pow]

/-- A field that was placed, read back. -/
theorem bits_field_same (lo len v : Nat) (h : lo + len ≤ 64) : bits (field lo len v) lo len = v % 2 ^ len := by
  apply Nat.eq_of_testBit_eq
  intro i
  have e : (field lo len v).toNat.testBit (lo + i) = (field lo len v).getLsbD (lo + i) := rfl
  simp only [bits, Nat.testBit_mod_two_pow, Nat.testBit_shiftRight, e, field_getLsbD _ _ _ _ h]
  by_cases hi : i < len <;> simp [hi]

/-- A field placed beside the one that is read. -/
theorem bits_field_other (lo len v lo' len' : Nat) (h : lo + len ≤ 64) (hd : lo + len ≤ lo' ∨ lo' + len' ≤ lo) :
    bits (field lo len v) lo' len' = 0 := by
  apply Nat.eq_of_testBit_eq
  intro i
  have e : (field lo len v).toNat.testBit (lo' + i) = (field lo len v).getLsbD (lo' + i) := rfl
  simp only [bits, Nat.testBit_mod_two_pow, Nat.testBit_shiftRight, e, field_getLsbD _ _ _ _ h, Nat.zero_testBit]
  by_cases hi : i < len'
  · have : ¬ (lo ≤ lo' + i ∧ lo' + i < lo + len) := by omega
    by_cases h1 : lo ≤ lo' + i
    · have h2 : ¬ lo' + i < lo + len := fun h2 => this ⟨h1, h2⟩
      simp [h2]
    · simp [h1]
  · simp [hi]

/-- CAP_EFFECTIVE of CORE_STAT is the effective cap of R49. -/
theorem coreStat_cap (s : State) (n : Nat) : bits (coreStat s n) 5 4 = effectiveCap s n := by
  have m : bits (s.reg (bCore n) 0x20 &&& msk 14 13) 5 4 = 0 := by
    apply Nat.eq_of_testBit_eq
    intro i
    have e : (s.reg (bCore n) 0x20 &&& msk 14 13).toNat.testBit (5 + i) =
        ((s.reg (bCore n) 0x20).getLsbD (5 + i) && (msk 14 13).getLsbD (5 + i)) := by
      rw [← BitVec.getLsbD_and]
      rfl
    have z : ∀ i, i < 4 → (msk 14 13).getLsbD (5 + i) = false := by decide
    simp only [bits, Nat.testBit_mod_two_pow, Nat.testBit_shiftRight, e, Nat.zero_testBit]
    by_cases hi : i < 4
    · simp [z i hi]
    · simp [hi]
  have c : effectiveCap s n < 2 ^ 4 := by
    have : s.getField (bCore n) 0x40 0 4 < 2 ^ 4 := bits_lt _ _ _
    unfold effectiveCap
    dsimp only
    split <;> omega
  unfold coreStat
  dsimp only
  simp only [bits_or, bits_field_same 5 4 _ (by decide), m, Nat.mod_eq_of_lt c]
  rw [bits_field_other 0 1 _ 5 4 (by decide) (by decide), bits_field_other 1 1 _ 5 4 (by decide) (by decide),
    bits_field_other 2 1 _ 5 4 (by decide) (by decide), bits_field_other 3 2 _ 5 4 (by decide) (by decide),
    bits_field_other 9 4 _ 5 4 (by decide) (by decide), bits_field_other 15 1 _ 5 4 (by decide) (by decide),
    bits_field_other 16 8 _ 5 4 (by decide) (by decide)]
  simp

end Sys2Proof.Machine
end

