-- ==== Sys2Proof/Tests/Slice0.lean ====
section
/-! SUPPORT. The model's own tests: which commands can be given, states that meet the hypotheses of each
statement, and single steps whose results are worked out by hand from the spec's rules and examples. -/

open Sys2Proof Sys2Proof.Machine

namespace Sys2Proof.Tests

set_option Elab.async false

/-! ## Helpers -/

/-- An instruction word from its fields (R70). -/
def iw (op d a b mode imm : Nat) : Word :=
  field 56 8 op ||| field 51 5 d ||| field 46 5 a ||| field 41 5 b ||| field 32 9 mode ||| field 0 32 imm

/-- The panel as PANEL_RESET_N is released, with no other command given. -/
def freed : State := { State.reset with pins := { resetHeld := false } }

/-- A panel whose site 0 is powered, with the headers of its first row of cores on, and core 0 as given. -/
def onState (c : Core) : State := { State.reset with
  pins := { resetHeld := false }
  regs := [((bSp 0).key 0x08, 0x0000_0000_02BC_0001)]
  sites := [(0, { banks := [(0, 4)] })]
  cores := [(0, c)] }

/-- A core whose context 0 is READY at offset 0, where word w stands, with general registers gr. -/
def coreAt (w : Word) (gr : Sparse Word) : Core := {
  ctxs := [(0, { state := .ready, gr := gr })]
  imem := Sparse.writeZ [] 0 (quadBytes w) }

/-- The panel on which core 0 issues word w. -/
def core0 (w : Word) (gr : Sparse Word) : State := onState (coreAt w gr)

/-- The state after a command, or the state before it where it answers none. -/
def after (c : Instr) (s : State) : State :=
  match exec c s with
  | .next t => t
  | _ => s

/-- A slot of 64 zero bytes with the given control tracks. -/
def quietSlot (ctl : BitVec 16) : SlotSeen := ⟨0, List.replicate 64 0, ctl⟩

/-- A packet of a kind for an offset of a space at a node of this panel. -/
def pkt (kind cls space node off : Nat) (data : List Byte) : Packet := {
  h0 := mkH0 kind cls 0 data.length 0
  h1 := mkAddr space true 0 node off
  h2 := setBit 0 59 true
  h3 := 0
  data := data }

theorem issued {s : State} {n i op : Nat} {w : Word}
    (h : isCoreNode n = true ∧ issuing s n = some (i, .word w) ∧ iOp w = op ∧ decodeFault w = none) :
    Issues s n i w op := ⟨h.1, h.2.1, h.2.2.1, h.2.2.2⟩

theorem reaches {s : State} {n pl k sp : Nat} {p : Packet}
    (h : isCoreNode n = true ∧ pl < 4 ∧ pKind p = k ∧ aSpace p.h1 = sp ∧ addrHere s p.h1 = true ∧
      siteUnpowered s (siteOf n) = false ∧ headerOn s n = true ∧ (s.core n).clearing = false ∧
      genDiffers s n p = false) : Reaches s n pl k sp p :=
  ⟨h.1, h.2.1, h.2.2.1, h.2.2.2.1, h.2.2.2.2.1, h.2.2.2.2.2.1, h.2.2.2.2.2.2.1, h.2.2.2.2.2.2.2.1,
    h.2.2.2.2.2.2.2.2⟩

theorem delivered {s : State} {n pl k : Nat} {p : Packet}
    (h : isNode n = true ∧ pl < 4 ∧ pKind p = k ∧ addrHere s p.h1 = true ∧
      (siteKind (siteOf n) = .link → inFarWindow s p.h1 = false)) : Delivered s n pl k p :=
  ⟨h.1, h.2.1, h.2.2.1, h.2.2.2.1, h.2.2.2.2⟩

/-! ## Which commands can be given: an ill-formed term for each check -/

theorem test_wf_core : (Instr.alu 7).wellFormed = true ∧ (Instr.alu 12288).wellFormed = false ∧
    (Instr.alu 56).wellFormed = false := by decide +kernel
theorem test_wf_node : (Instr.vfence 12287 true).wellFormed = true ∧
    (Instr.vfence 12288 true).wellFormed = false := by decide +kernel
theorem test_wf_plane : (Instr.arbitrationPass 0 3).wellFormed = true ∧
    (Instr.arbitrationPass 0 4).wellFormed = false := by decide +kernel
theorem test_wf_link : (Instr.linkNak 0 0 .e (quietSlot 0)).wellFormed = true ∧ (Instr.linkNak 0 0 .n (quietSlot 0)).wellFormed = false ∧
    (Instr.linkNak 0 0 .x (quietSlot 0)).wellFormed = true := by decide +kernel
theorem test_wf_site : (Instr.cal 191).wellFormed = true ∧ (Instr.cal 192).wellFormed = false := by decide +kernel
theorem test_wf_compute_site : (Instr.railRegulation 0).wellFormed = true ∧
    (Instr.railRegulation 52).wellFormed = false := by decide +kernel
theorem test_wf_domain : (Instr.oscLock 4 2).wellFormed = true ∧ (Instr.oscLock 4 3).wellFormed = false := by
  decide +kernel
theorem test_wf_port : (Instr.passTrain 7).wellFormed = true ∧ (Instr.passTrain 8).wellFormed = false := by
  decide +kernel
theorem test_wf_pair : (Instr.passAckStall 9).wellFormed = true ∧ (Instr.passAckStall 10).wellFormed = false := by
  decide +kernel
theorem test_wf_guest : (Instr.guestRetrain 3).wellFormed = true ∧ (Instr.guestRetrain 4).wellFormed = false := by
  decide +kernel
theorem test_wf_steward : (Instr.cairnSample 3).wellFormed = true ∧ (Instr.cairnSample 4).wellFormed = false := by
  decide +kernel
theorem test_wf_ring : (Instr.ringReplay 11).wellFormed = true ∧ (Instr.ringReplay 12).wellFormed = false := by
  decide +kernel
theorem test_wf_loc : (Instr.discard ⟨2, 0, 0⟩).wellFormed = true ∧
    (Instr.discard ⟨2, 12288, 0⟩).wellFormed = false := by decide +kernel
theorem test_wf_slot : (Instr.slotWrite 0 63 0).wellFormed = true ∧ (Instr.slotWrite 0 64 0).wellFormed = false := by
  decide +kernel
theorem test_wf_counter : (Instr.ccWrite 0 4095 0).wellFormed = true ∧
    (Instr.ccWrite 0 4096 0).wellFormed = false := by decide +kernel
theorem test_wf_sensors : (Instr.dramThermalSample 0 (List.replicate 64 20)).wellFormed = true ∧
    (Instr.dramThermalSample 0 (List.replicate 63 20)).wellFormed = false := by decide +kernel
theorem test_wf_droop : (Instr.openBondCheck 0 (List.replicate 64 700) 0).wellFormed = true ∧
    (Instr.openBondCheck 0 (List.replicate 65 700) 0).wellFormed = false := by decide +kernel
theorem test_wf_phase : (Instr.phaseOcTrip 0 15 0).wellFormed = true ∧ (Instr.phaseOcTrip 0 16 0).wellFormed = false ∧
    (Instr.phaseImbalance 0 16).wellFormed = false ∧ (Instr.phaseSwitchFault 0 16).wellFormed = false := by
  decide +kernel
theorem test_wf_group : (Instr.headerGroupStep 0 7).wellFormed = true ∧
    (Instr.headerGroupStep 0 8).wellFormed = false := by decide +kernel
theorem test_wf_vin : (Instr.vinSample (List.replicate 48 6000)).wellFormed = true ∧
    (Instr.vinSample []).wellFormed = false := by decide +kernel
theorem test_wf_module : (Instr.guestHold 0 ⟨15, quietSlot 0⟩).wellFormed = true ∧ (Instr.guestHold 0 ⟨16, quietSlot 0⟩).wellFormed = false ∧
    (Instr.guestGo 0 ⟨16, quietSlot 0⟩).wellFormed = false ∧ (Instr.fordCheck 0 16 (pkt 1 0 1 0 0 [])).wellFormed = false := by
  decide +kernel
theorem test_wf_egress : (Instr.linkDieEgress 0 3 (pkt 1 0 1 0 0 [])).wellFormed = true ∧
    (Instr.linkDieEgress 0 4 (pkt 1 0 1 0 0 [])).wellFormed = false := by decide +kernel
theorem test_wf_inject : (Instr.linkInject 7 0 0).wellFormed = true ∧ (Instr.linkInject 8 0 0).wellFormed = false := by
  decide +kernel
theorem test_wf_crossing : (Instr.xingSlip 1 0 0 3 .lag).wellFormed = true ∧
    (Instr.xingSlip 0 0 0 3 .lag).wellFormed = false ∧ (Instr.xingSlip 0 0 0 6 .lag).wellFormed = false ∧
    (Instr.xingSlip 0 64 0 5 .lag).wellFormed = false := by decide +kernel

/-! ## Core instructions -/

/-- One word of each instruction whose result a statement gives, with its opcode. -/
def issueWords : List (Word × Nat) :=
  [(iw 0x10 3 1 2 0 0, 0x10), (iw 0x11 3 1 0 0x14 7, 0x11), (iw 0x12 7 1 2 7 0, 0x12), (iw 0x13 0 1 0 2 9, 0x13),
   (iw 0x14 31 0 0 0 0xFFFF_FFFF, 0x14), (iw 0x15 1 0 0 0 5, 0x15), (iw 0x16 1 2 3 3 0, 0x16),
   (iw 0x17 1 2 3 15 0, 0x17), (iw 0x93 4 0 0 0 0, 0x93), (iw 0x20 0 0 0 0 8191, 0x20), (iw 0x21 0 0 0 8 1, 0x21),
   (iw 0x22 1 0 0 0 2, 0x22), (iw 0x23 0 5 0 0 0, 0x23), (iw 0x24 1 0 0 0 3, 0x24), (iw 0x30 1 2 0 6 0, 0x30),
   (iw 0x31 0 2 1 3 0, 0x31), (iw 0x40 1 2 3 0x20 0, 0x40), (iw 0x41 15 0 0 0 0, 0x41), (iw 0x42 0 0 15 0 0, 0x42),
   (iw 0x43 1 2 0 0 0, 0x43), (iw 0x44 1 15 0 0 63, 0x44), (iw 0x45 15 1 0 0 63, 0x45), (iw 0x46 1 2 0 0 0, 0x46),
   (iw 0x47 14 0 1 0x20 0, 0x47), (iw 0x48 2 1 0 1 0, 0x48), (iw 0x49 4 0 0 0 0x40, 0x49),
   (iw 0x50 0 0 0 0x20 0x40, 0x50), (iw 0x60 0 0 0 0x100 0x0030_0040, 0x60), (iw 0x61 1 0 0 0 0, 0x61),
   (iw 0x70 0 0 0 0 0, 0x70), (iw 0x70 0 0 1 3 0x40, 0x70), (iw 0x71 0 0 1 0 63, 0x71), (iw 0x80 0 0 0 0 0, 0x80),
   (iw 0x90 1 2 0 0 1, 0x90), (iw 0x91 0 0 0 0 0, 0x91), (iw 0x92 0 0 0 1 0, 0x92), (iw 0xA0 1 0 0 0 0x20, 0xA0),
   (iw 0xA1 0 0 1 0 0x18, 0xA1), (iw 0xA2 0 0 0 0 0, 0xA2), (iw 0xA3 0 0 0 0 9, 0xA3), (iw 0xA4 0 0 0 0 0, 0xA4)]

/-- Every instruction issues on the small panel: the hypotheses of the statements about results. -/
theorem test_every_instruction_issues : ∀ e ∈ issueWords, Issues (core0 e.1 []) 0 0 e.1 e.2 := by
  have h : issueWords.all (fun e => isCoreNode 0 && decide (issuing (core0 e.1 []) 0 = some (0, .word e.1)) &&
      decide (iOp e.1 = e.2) && decide (decodeFault e.1 = none)) = true := by decide +kernel
  intro e he
  have h2 := (List.all_eq_true.1 h) e he
  simp only [Bool.and_eq_true, decide_eq_true_eq] at h2
  exact issued ⟨h2.1.1.1, h2.1.1.2, h2.1.2, h2.2⟩

/-- LI sign-extends its immediate (R80). -/
theorem test_li_writes_sext : ((after (.li 0) (core0 (iw 0x14 5 0 0 0 0xFFFF_FFFE) [])).ctx 0 0).getG 5 =
    0xFFFF_FFFF_FFFF_FFFE := by decide +kernel
theorem test_alu_add_wraps : ((after (.alu 0) (core0 (iw 0x10 3 1 2 0 0)
    [(1, 0xFFFF_FFFF_FFFF_FFFF), (2, 2)])).ctx 0 0).getG 3 = 1 := by decide +kernel
theorem test_alui_divides_by_the_immediate : ((after (.alui 0) (core0 (iw 0x11 1 1 0 0x14 7) [(1, 50)])).ctx 0 0).getG 1 =
    7 := by decide +kernel
theorem test_alu_divide_by_zero : ((after (.alu 0) (core0 (iw 0x10 1 1 2 0x14 0) [(1, 50)])).ctx 0 0).getG 1 =
    0xFFFF_FFFF_FFFF_FFFF := by decide +kernel
theorem test_g0_ignores_writes : (after (.alu 0) (core0 (iw 0x10 0 1 1 0 0) [(1, 5)])).ctx 0 0 =
    { state := .ready, gr := [(1, 5)], pc := 8, cairn := 1 } := by decide +kernel
theorem test_lih_keeps_the_low_half : ((after (.lih 0) (core0 (iw 0x15 1 0 0 0 5) [(1, 9)])).ctx 0 0).getG 1 =
    0x0000_0005_0000_0009 := by decide +kernel
theorem test_cmp_is_signed : ((after (.cmp 0) (core0 (iw 0x12 2 1 2 2 0)
    [(1, 0xFFFF_FFFF_FFFF_FFFF), (2, 1)])).ctx 0 0).getP 2 = true := by decide +kernel
theorem test_cmpi_mode_4_is_unsigned : ((after (.cmpi 0) (core0 (iw 0x13 2 1 0 4 1)
    [(1, 0xFFFF_FFFF_FFFF_FFFF)])).ctx 0 0).getP 2 = false := by decide +kernel
theorem test_plog_sets_true : ((after (.plog 0) (core0 (iw 0x16 3 0 0 6 0) [])).ctx 0 0).getP 3 = true := by
  decide +kernel
theorem test_sel_takes_b_where_false : ((after (.sel 0) (core0 (iw 0x17 3 1 2 0 0) [(1, 5), (2, 6)])).ctx 0 0).getG 3 =
    6 := by decide +kernel
theorem test_self_is_the_context : ((after (.self 0) (core0 (iw 0x93 3 0 0 0 0) [(3, 9)])).ctx 0 0).getG 3 = 0 := by
  decide +kernel

/-- BRP on a true and on a false predicate; JR to the last word, past it and to no word; LOOP at 1 and above. -/
theorem test_branch_cases :
    (core0 (iw 0x23 0 5 0 0 0) [(5, 0xFFF8)]).ctx 0 0 = { state := .ready, gr := [(5, 0xFFF8)] } ∧
    ((after (.jr 0) (core0 (iw 0x23 0 5 0 0 0) [(5, 0xFFF8)])).ctx 0 0).pc = 0xFFF8 ∧
    ((after (.jr 0) (core0 (iw 0x23 0 5 0 0 0) [(5, 0x1_0000)])).ctx 0 0).faultAddr = 0x1_0000 ∧
    ((after (.jr 0) (core0 (iw 0x23 0 5 0 0 0) [(5, 4)])).ctx 0 0).faultAddr = 4 := by decide +kernel
theorem test_br : ((after (.br 0) (core0 (iw 0x20 0 0 0 0 8191) [])).ctx 0 0).pc = 0xFFF8 := by decide +kernel
theorem test_brp_negated : ((after (.brp 0) (core0 (iw 0x21 0 0 0 8 4) [])).ctx 0 0).pc = 32 ∧
    ((after (.brp 0) (core0 (iw 0x21 0 0 0 0 4) [])).ctx 0 0).pc = 8 := by decide +kernel
theorem test_call_links : ((after (.call 0) (core0 (iw 0x22 1 0 0 0 2) [])).ctx 0 0).pc = 16 ∧
    ((after (.call 0) (core0 (iw 0x22 1 0 0 0 2) [])).ctx 0 0).getG 1 = 8 := by decide +kernel
theorem test_loop_ends_at_zero : ((after (.loop 0) (core0 (iw 0x24 1 0 0 0 3) [(1, 1)])).ctx 0 0).pc = 8 ∧
    ((after (.loop 0) (core0 (iw 0x24 1 0 0 0 3) [])).ctx 0 0).pc = 24 := by decide +kernel

/-! ### Scratchpad -/

/-- A load at the last word of scratchpad, past the end, off its alignment, and of a word with bad parity. -/
theorem test_load_cases :
    let w := iw 0x30 1 2 0 3 0
    let ea := fun s : State => ((s.ctx 0 0).getG (iA w) + sext32 (w.truncate 32)).toNat
    (∃ s, Issues s 0 0 w 0x30 ∧ ea s = 0x1F_FFF8 ∧ (s.core 0).parityOk (ea s) 8) ∧
    (∃ s, Issues s 0 0 w 0x30 ∧ 0x20_0000 < ea s + 8) ∧
    (∃ s, Issues s 0 0 w 0x30 ∧ ea s % 8 ≠ 0 ∧ ea s + 8 ≤ 0x20_0000) ∧
    ∃ s, Issues s 0 0 w 0x30 ∧ ea s % 8 = 0 ∧ ¬ (s.core 0).parityOk (ea s) 8 := by
  unfold Core.parityOk
  exact ⟨⟨core0 (iw 0x30 1 2 0 3 0) [(2, 0x1F_FFF8)], issued (by decide +kernel), by decide +kernel⟩,
    ⟨core0 (iw 0x30 1 2 0 3 0) [(2, 0x20_0000)], issued (by decide +kernel), by decide +kernel⟩,
    ⟨core0 (iw 0x30 1 2 0 3 0) [(2, 0x1F_FFF4)], issued (by decide +kernel), by decide +kernel⟩,
    ⟨onState { coreAt (iw 0x30 1 2 0 3 0) [(2, 16)] with badSpad := [2] }, issued (by decide +kernel),
      by decide +kernel⟩⟩
theorem test_ld_sign_extends : ((after (.ld 0) (onState { coreAt (iw 0x30 1 0 0 4 3) [] with
    spad := [(3, 0x80)] })).ctx 0 0).getG 1 = 0xFFFF_FFFF_FFFF_FF80 := by decide +kernel
theorem test_ld_is_little_endian : ((after (.ld 0) (onState { coreAt (iw 0x30 1 0 0 1 2) [] with
    spad := [(2, 0x34), (3, 0x12)] })).ctx 0 0).getG 1 = 0x1234 := by decide +kernel
theorem test_st_writes_its_size_only : ((after (.st 0) (core0 (iw 0x31 0 0 1 1 6)
    [(1, 0x1122_3344)])).core 0).spad = [(6, 0x44), (7, 0x33)] := by decide +kernel
theorem test_st_clears_the_parity_of_a_whole_word : ((after (.st 0) (onState { coreAt (iw 0x31 0 0 1 3 8) [] with
    badSpad := [0, 1] })).core 0).badSpad = [0] := by decide +kernel
theorem test_vst_at_the_last_place : Issues (core0 (iw 0x42 0 2 1 0 0) [(2, 0x1F_FF00)]) 0 0 (iw 0x42 0 2 1 0 0) 0x42 ∧
    ((0x1F_FF00 : Word) + sext32 0).toNat + 256 ≤ 0x20_0000 := ⟨issued (by decide +kernel), by decide +kernel⟩
theorem test_vst_past_the_end_faults : ((after (.vst 0) (core0 (iw 0x42 0 2 1 0 0)
    [(2, 0x1F_FF40)])).ctx 0 0).faultInfo = faultWord 0x06 false 3 0 := by decide +kernel
theorem test_range_comes_before_alignment : ((after (.st 0) (core0 (iw 0x31 0 2 1 3 0)
    [(2, 0x1F_FFFC)])).ctx 0 0).faultInfo = faultWord 0x06 false 2 0 := by decide +kernel

/-! ### Vectors -/

theorem test_vop_adds_lanes : ((after (.vop 0) (onState { coreAt (iw 0x40 1 2 3 0x20 0) [] with
    ctxs := [(0, { state := .ready, vr := [(128 + 5, 7), (192 + 5, 0xFFFF_FFFF)] })] })).ctx 0 0).lane 1 5 = 6 := by
  decide +kernel
theorem test_vbcast : ((after (.vbcast 0) (core0 (iw 0x43 1 2 0 0 0) [(2, 0x1_0000_0007)])).ctx 0 0).lane 1 63 = 7 := by
  decide +kernel
theorem test_vget : ((after (.vget 0) (onState { coreAt (iw 0x44 1 2 0 0 63) [] with
    ctxs := [(0, { state := .ready, vr := [(191, 0x8000_0000)] })] })).ctx 0 0).getG 1 = 0x8000_0000 := by
  decide +kernel
theorem test_vput_one_lane : ((after (.vput 0) (core0 (iw 0x45 1 2 0 0 4) [(2, 9)])).ctx 0 0).vr = [(68, 9)] := by
  decide +kernel

/-! ### Units, waits, and the context instructions -/

theorem test_units_take_descriptors : Issues (core0 (iw 0x60 0 1 0 0x100 0x0030_0040) [(1, 0x1F_FF80)]) 0 0
      (iw 0x60 0 1 0 0x100 0x0030_0040) 0x60 ∧
    (after (.msend 0) (core0 (iw 0x60 0 1 0 0x100 0x0030_0040) [(1, 0x1F_FF80)])).core 0 =
      { coreAt (iw 0x60 0 1 0 0x100 0x0030_0040) [] with
        ctxs := [(0, { state := .ready, gr := [(1, 0x1F_FF80)], pc := 8, cairn := 1, outstanding := 1 })]
        lastIssued := some 0
        ops := [⟨.message, 0, 0, 0x1F_FFC0, true, 3, 0, 0⟩] } :=
  ⟨issued (by decide +kernel), by decide +kernel⟩
theorem test_unit_descriptor_off_alignment_faults : ((after (.lop 0) (core0 (iw 0x80 0 0 0 0 0x20)
    [])).ctx 0 0).faultInfo = faultWord 0x07 false 6 0 := by decide +kernel

/-- A slot with one signal holds and one without does not; so do thresholds. -/
theorem test_wait_cases :
    SlotHolds (setBits 0 0 32 1) 0 ∧ ¬ SlotHolds 0 0 ∧
    (let w := setBits (setBits 0 0 32 1) 34 1 1
     SlotHolds w 0 ∧ ¬ SlotHolds (setBits w 48 16 1) 0 ∧ SlotHolds (setBits w 48 16 1) 1) ∧
    (let w := setBits (setBits (setBits 0 32 2 2) 48 16 3) 0 32 3
     SlotHolds w 0 ∧ ¬ SlotHolds (setBits w 0 32 2) 0) := by
  unfold SlotHolds
  decide +kernel
theorem test_wait_slot_consumes : ((after (.waitSlot 0) (onState { coreAt (iw 0x70 0 0 0 0 2) [] with
    slots := [(2, 1)] })).core 0).slots = [] ∧
    ((after (.waitSlot 0) (onState { coreAt (iw 0x70 0 0 0 0 2) [] with slots := [(2, 1)] })).ctx 0 0).pc = 8 := by
  decide +kernel
theorem test_wait_slot_parks : (after (.waitSlot 0) (core0 (iw 0x70 0 0 0 1 0xC2) [])).ctx 0 0 =
    { state := .parked, wait := .slot 2 3, idle := true, pc := 8 } := by decide +kernel
theorem test_wait_count_holds_at_its_threshold : ((after (.waitCount 0) (onState { coreAt (iw 0x70 0 0 1 2 0xC0)
    [(1, 4)] with ccs := [(3, 4)] })).ctx 0 0).state = .ready ∧
    ((after (.waitCount 0) (onState { coreAt (iw 0x70 0 0 1 2 0xC0) [(1, 5)] with ccs := [(3, 4)] })).ctx 0 0).wait =
      .count 3 5 := by decide +kernel
theorem test_park_waits_for_a_last_word : ((after (.park 0) (onState { coreAt (iw 0x92 0 0 0 0 0) [] with
    inbox := [⟨List.replicate 64 0, true⟩] })).ctx 0 0).state = .ready ∧
    ((after (.park 0) (onState { coreAt (iw 0x92 0 0 0 0 0) [] with
      inbox := [⟨List.replicate 64 0, false⟩] })).ctx 0 0).wait = .inbox := by decide +kernel
theorem test_fence_and_end_wait_for_operations :
    ((after (.fence 0) (core0 (iw 0xA2 0 0 0 0 0) [])).ctx 0 0).pc = 8 ∧
    ((after (.fence 0) (onState { coreAt (iw 0xA2 0 0 0 0 0) [] with
      ctxs := [(0, { state := .ready, outstanding := 1 })] })).ctx 0 0).wait = .fence ∧
    ((after (.endCtx 0) (core0 (iw 0x91 0 0 0 0 0) [])).ctx 0 0).state = .free ∧
    ((after (.endCtx 0) (onState { coreAt (iw 0x91 0 0 0 0 0) [] with
      ctxs := [(0, { state := .ready, outstanding := 1 })] })).ctx 0 0).wait = .ending := by decide +kernel
theorem test_sig_counts_one : ((after (.sig 0) (core0 (iw 0x71 0 0 0 0 63) [])).core 0).slots = [(63, 1)] := by
  decide +kernel
theorem test_spawn_takes_the_lowest_free : ((after (.spawn 0) (core0 (iw 0x90 1 2 0 0 5) [(2, 77)])).ctx 0 1) =
    { state := .ready, pc := 40, gr := [(1, 77)] } ∧
    ((after (.spawn 0) (core0 (iw 0x90 1 2 0 0 5) [(2, 77)])).ctx 0 0).getG 1 = 1 := by decide +kernel
theorem test_spawn_without_a_free_context : ((after (.spawn 0) (onState { coreAt (iw 0x90 1 2 0 0 5) [] with
    ctxs := [(0, { state := .ready }), (1, { state := .parked }), (2, { state := .halted }),
             (3, { state := .faulted })] })).ctx 0 0).getG 1 = 0x100 := by decide +kernel
theorem test_nop : (after (.nop 0) (core0 (iw 0xA4 0 0 0 0 5) [])).ctx 0 0 =
    { state := .ready, pc := 8, cairn := 1 } := by decide +kernel

/-- What faults whatever its operands: the offset after the last word, a bad word, opcode 0x02, a reserved mode, a
register past the last one, BREAK. -/
theorem test_fetch_and_decode_cases :
    issuing (onState { ctxs := [(0, { state := .ready, pc := 0x1_0000 })] }) 0 = some (0, .fault 0x01) ∧
    issuing (onState { coreAt 0 [] with badImem := [0] }) 0 = some (0, .fault 0x02) ∧
    issuing (core0 (iw 0x02 0 0 0 0 0) []) 0 = some (0, .word (iw 0x02 0 0 0 0 0)) ∧
    0x02 ∉ opcodes ∧ modeOk (iw 0x14 1 1 0 0 0) = false ∧ modeOk (iw 0x12 8 0 0 0 0) = true ∧
    regOk (iw 0x12 8 0 0 0 0) = false ∧ regOk (iw 0x47 1 0 0 0 0) = false := by decide +kernel
theorem test_reserved_opcode_faults : ((after (.opcodeReserved 0) (core0 (iw 0x02 0 0 0 0 0) [])).ctx 0 0).faultInfo =
    faultWord 0x03 false 0 0 := by decide +kernel
theorem test_break_faults : ((after (.breakCtx 0) (core0 (iw 0xA3 0 0 0 0 9) [])).ctx 0 0).faultInfo =
    faultWord 0x0D false 0 0 := by decide +kernel
theorem test_only_the_named_row_acts : after (.alui 0) (core0 (iw 0x10 3 1 2 0 0) []) =
    core0 (iw 0x10 3 1 2 0 0) [] ∧ mayIssue State.reset 0 = false := by decide +kernel

/-- A slot, a counter, another register, an offset off alignment and one that names none. -/
theorem test_local_register_cases :
    corePlace (core0 0 []) 0 0x1000 = some (.slot 0 0) ∧ corePlace (core0 0 []) 0 0x17F8 = none ∧
    (∃ p, corePlace (core0 0 []) 0 0x20 = some p) ∧ (0x21 : Nat) % 8 ≠ 0 := by
  refine ⟨by decide +kernel, by decide +kernel, ⟨_, rfl⟩, by decide +kernel⟩
theorem test_rreg_reads_a_slot : ((after (.rreg 0) (onState { coreAt (iw 0xA0 1 0 0 0 0x1008) [] with
    slots := [(1, 0x77)] })).ctx 0 0).getG 1 = 0x77 := by decide +kernel
theorem test_wreg_writes_a_counter : ((after (.wreg 0) (core0 (iw 0xA1 0 0 1 0 0x1_0008) [(1, 9)])).core 0).ccs =
    [(1, 9)] := by decide +kernel
theorem test_inmv_takes_the_head : ((after (.inmv 0) (onState { coreAt (iw 0x61 1 0 0 0 0) [] with
    inbox := [⟨1 :: List.replicate 63 0, true⟩] })).core 0).spad = [(0, 1)] ∧
    ((after (.inmv 0) (onState { coreAt (iw 0x61 1 0 0 0 0) [] with
      inbox := [⟨1 :: List.replicate 63 0, true⟩] })).ctx 0 0).getG 1 = 1 := by decide +kernel
theorem test_inmv_on_an_empty_chain : ((after (.inmv 0) (core0 (iw 0x61 1 0 0 0 0) [])).ctx 0 0).getG 1 = 2 ∧
    bit ((after (.inmv 0) (core0 (iw 0x61 1 0 0 0 0) [])).reg (bCore 0) 0x50) 12 = true := by decide +kernel


/-! ## The spec's worked encodings -/

/-- The summing loop: each word is the sum of its fields, and names its row. -/
theorem test_summing_loop_words :
    [iw 0x14 2 0 0 0 0x4000, iw 0x14 3 0 0 0 0x10, iw 0x30 5 2 0 3 0, iw 0x10 4 4 5 0 0, iw 0x11 2 2 0 0 8,
     iw 0x24 3 0 0 0 2, iw 0x31 0 0 4 3 0x4080, iw 0x91 0 0 0 0 0] =
    [0x1410_0000_0000_4000, 0x1418_0000_0000_0010, 0x3028_8003_0000_0000, 0x1021_0A00_0000_0000,
     0x1110_8000_0000_0008, 0x2418_0000_0000_0002, 0x3100_0803_0000_4080, 0x9100_0000_0000_0000] ∧
    [0x1410_0000_0000_4000, 0x1418_0000_0000_0010, 0x3028_8003_0000_0000, 0x1021_0A00_0000_0000,
     0x1110_8000_0000_0008, 0x2418_0000_0000_0002, 0x3100_0803_0000_4080, 0x9100_0000_0000_0000].map (rowOf 0) =
    [.li 0, .li 0, .ld 0, .alu 0, .alui 0, .loop 0, .st 0, .endCtx 0] := by decide +kernel

/-- The faulting words of the spec's table, each with its fault word and address. -/
theorem test_faulting_words :
    let f := fun c w => ((after c (core0 w [])).ctx 0 0).faultInfo
    f (.opcodeReserved 0) 0 = faultWord 0x03 false 0 0 ∧
    f (.opcodeReserved 0) 0xB000_0000_0000_0000 = faultWord 0x03 false 0 0 ∧
    f (.alu 0) 0x1000_0016_0000_0000 = faultWord 0x04 false 0 0 ∧
    f (.li 0) 0x1400_4000_0000_0005 = faultWord 0x04 false 0 0 ∧
    f (.vop 0) 0x4080_001F_0000_0000 = faultWord 0x04 false 0 0 ∧
    f (.vop 0) 0x4080_0000_0000_0000 = faultWord 0x05 false 0 0 ∧
    f (.ld 0) 0x3008_0003_001F_FFFC = faultWord 0x06 false 2 0 ∧
    ((after (.ld 0) (core0 0x3008_0003_001F_FFFC [])).ctx 0 0).faultAddr = 0x1F_FFFC ∧
    (decodeFault 0x1000_0016_0000_0000).isSome ∧ (decodeFault 0x4080_0000_0000_0000).isSome := by decide +kernel

/-! ## Slots and counters -/

/-- Core 0 with c0 and c2 parked on slot 5 and counter 12, and slot 5 linked to counter 40. -/
def twoWaiters (slot5 : Word) (cc12 : Lane) : State := onState {
  ctxs := [(0, { state := .parked, wait := .slot 5 12, idle := true }),
           (2, { state := .parked, wait := .slot 5 12, idle := true })]
  slots := [(5, slot5)]
  ccs := [(12, cc12)] }

theorem test_early_signal_waits : ((twoWaiters 0x0000_0288_0000_0000 0).signal 0 5 3).core 0 =
    (twoWaiters 0x0003_028C_0000_0001 0).core 0 := by decide +kernel
theorem test_last_write_releases_one :
    let t := (twoWaiters 0x0003_028C_0000_0001 2).addCount 0 12
    (t.core 0).slot 5 = 0x0003_028C_0000_0000 ∧ (t.core 0).cc 12 = 3 ∧ (t.core 0).cc 40 = 1 ∧
    (t.ctx 0 0).state = .ready ∧ (t.ctx 0 0).cairn = 1 ∧ (t.ctx 0 2).state = .parked := by decide +kernel
theorem test_second_round :
    let t := (twoWaiters 0x0003_028C_0000_0000 5).signal 0 5 6
    (t.core 0).slot 5 = 0x0006_028C_0000_0001 ∧ ((t.addCount 0 12).core 0).slot 5 = 0x0006_028C_0000_0000 ∧
    ((t.addCount 0 12).ctx 0 0).state = .ready := by decide +kernel

/-- A signal that releases: slot empty, no guard, no link, the lower context first; one without a waiter; a count
that wraps; a COUNT-form wait met exactly. -/
theorem test_signal_cases :
    (let s := twoWaiters 0 0
     let w := applySignal ((s.core 0).slot 5) 0
     (s.ctx 0 0).state = .parked ∧ (s.ctx 0 0).wait = .slot 5 12 ∧ bits w 32 2 = 0 ∧ bits w 0 32 = 1 ∧ bit w 35 = false ∧
     SlotHolds w ((s.core 0).cc 12) ∧ ∀ j, j < 4 → ¬ ((s.ctx 0 j).waits = true ∧ (s.ctx 0 j).wait = .slot 6 12)) ∧
    (∀ j, j < 4 → ((core0 0 []).ctx 0 j).waits = false) ∧
    (let s := onState { ctxs := [(3, { state := .parked, wait := .count 7 5 })], ccs := [(7, 4)] }
     (s.ctx 0 3).state = .parked ∧ (s.ctx 0 3).wait = .count 7 5 ∧ 5 ≤ ((s.core 0).cc 7 + 1).toNat ∧
     (∀ j, j < 4 → j ≠ 3 → (s.ctx 0 j).waits = false) ∧ ((s.addCount 0 7).ctx 0 3).state = .ready ∧
     ((s.addCount 0 7).ctx 0 3).cairn = 1) ∧
    (let s := onState { ccs := [(4095, 0xFFFF_FFFF)] }
     (s.core 0).cc 4095 = 0xFFFF_FFFF ∧ bit ((s.addCount 0 4095).reg (bCore 0) 0x20) 14 = true) := by
  unfold SlotHolds
  decide +kernel

/-! ## Units -/

/-- An operation of a unit of core 0, for its context 0, with its descriptor at 0x40. -/
def opOf (u : UnitKind) (fn : Nat) : UnitOp := ⟨u, 0, 0, 0x40, true, 9, 0, fn⟩

/-- Core 0 with an operation outstanding and scratchpad bytes from an offset on. -/
def withOp (op : UnitOp) (x : Ctx) (parts : List (Nat × List Byte)) : State := onState {
  ctxs := [(0, { x with outstanding := 1 })]
  ops := [op]
  spad := parts.foldl (fun m p => Sparse.writeZ m p.1 p.2) [] }

/-- A state for each way in which an operation's end finds its context. -/
theorem test_drain_cases :
    let s := fun (x : Ctx) => onState { ctxs := [(0, x)] }
    let d := fun (x : Ctx) => ((s x).drain 0 0).ctx 0 0
    s { outstanding := 1 } = (s { outstanding := 1 }).drain 0 0 ∧
    (d { state := .parked, wait := .fence }).state = .ready ∧ (d { state := .halted, wait := .fence }).wake = true ∧
    (d { state := .parked, wait := .ending }).state = .free ∧ (d { state := .halted, wait := .ending }).state = .free ∧
    d { state := .faulted, clearPending := true, faultInfo := 1 } = {} := by decide +kernel
theorem test_async_fault_cases :
    let s := fun (x : Ctx) => onState { ctxs := [(1, x)] }
    let f := fun (x : Ctx) => ((s x).asyncFault 0 1 0x0A 7 0xFFF8 5).ctx 0 1
    (f { state := .parked, wait := .fence }).faultInfo = faultWord 0x0A true 7 0xFFF8 ∧
    (f { state := .faulted, faultInfo := 3 }).faultInfo = setBit 3 9 true ∧
    bits (faultWord 0x0A true 7 0xFFF8) 16 16 = 0xFFF8 ∧ bits (faultWord 0xFF true 7 0xFFF8) 0 8 = 0xFF := by
  decide +kernel

/-- A tile header for T0, T1 and data with its checksum (R98, R104). -/
def tileBytes (t0 t1 : Word) (data : List Byte) : List Byte :=
  let h := quadBytes t0 ++ quadBytes t1 ++ List.replicate 40 0
  h ++ quadBytes (field 0 32 (tileCrc (h ++ List.replicate 8 0) data).toNat) ++ data

/-- The spec's FP8 dot product on core 0: A at 0x1000, B at 0x1080, output at 0x2000, status at 0x3000. -/
def fp8Dot : State := withOp (opOf .tensor 0) { state := .ready } [
  (0x40, quadBytes 0x0000_1080_0000_1000 ++ quadBytes 0x0000_2000_0000_0000 ++
    quadBytes (field 32 21 0x3000 ||| field 26 1 1 ||| field 16 8 3 ||| field 0 16 0xFFF8)),
  (0x1000, tileBytes 0x0000_0004_0001_0004 0x0000_0000_0004_0004 [0x3C, 0xB6, 0x7E, 0x01]),
  (0x1080, tileBytes 0x0000_0004_0001_0004 0x0000_0000_0004_0004 [0x40, 0x2C, 0x04, 0x30])]

theorem test_fp8_dot_to_the_bit :
    let c := (after (.dot 0) fp8Dot).core 0
    quadAt (c.readSpad 0x2000 8) 0 = 0x0000_0001_0001_0003 ∧ quadAt (c.readSpad 0x2008 8) 0 = 0x0000_0000_0002_0002 ∧
    c.readSpad 0x2040 2 = [0xC6, 0x40] ∧ quadAt (c.readSpad 0x3000 8) 0 = 0x11 := by decide +kernel
theorem test_fp8_accumulator :
    let c := fp8Dot.core 0
    dotElem false (-8) (readTile c 0x1000) (readTile c 0x1080) 0 0 0 = 0x62C1 ∧
    dotElem false (-10) (readTile c 0x1000) (readTile c 0x1080) 0 0 0 = 6321 * 16 := by decide +kernel

/-- Whether a tensor operation ends well. -/
def tOk : TResult → Bool
  | .ok _ _ => true
  | .fault _ _ => false

theorem tOk_ok {r : TResult} (h : tOk r = true) : ∃ out st, r = .ok out st := by
  cases r with
  | ok out st => exact ⟨out, st, rfl⟩
  | fault _ _ => simp [tOk] at h

theorem tOk_fault {r : TResult} (h : tOk r = false) : ∃ code a, r = .fault code a := by
  cases r with
  | ok _ _ => simp [tOk] at h
  | fault code a => exact ⟨code, a, rfl⟩

/-- Whether a VTLD ends well. -/
def vOk : VResult → Bool
  | .ok _ => true
  | .fault _ _ => false

theorem vOk_ok {r : VResult} (h : vOk r = true) : ∃ regs, r = .ok regs := by
  cases r with
  | ok regs => exact ⟨regs, rfl⟩
  | fault _ _ => simp [vOk] at h

theorem vOk_fault {r : VResult} (h : vOk r = false) : ∃ code a, r = .fault code a := by
  cases r with
  | ok _ => simp [vOk] at h
  | fault code a => exact ⟨code, a, rfl⟩

theorem noFault {r : List Packet × Option (Nat × Nat)} (h : r.2 = none) : ∃ ps, r = (ps, none) := ⟨r.1, by rw [← h]⟩

theorem someFault {r : List Packet × Option (Nat × Nat)} (h : r.2.isSome = true) : ∃ ps f, r = (ps, some f) := by
  obtain ⟨ps, _ | f⟩ := r
  · simp at h
  · exact ⟨ps, f, rfl⟩

/-- The tensor engine's hypotheses: a result; parity; a descriptor that faults; each operation's number. -/
theorem test_tensor_cases :
    (let s := fp8Dot
     isCoreNode 0 = true ∧ (s.core 0).clearing = false ∧ headerOn s 0 = true ∧ effectiveCap s 0 ≠ 0 ∧
     (s.core 0).oldest .tensor = some (opOf .tensor 0) ∧ (s.core 0).parityOk 0x40 64 ∧
     (readDesc (s.core 0) 0x40).statusEn = true ∧
     ∃ out st, dotRun (s.core 0) 0 0 0x40 (readDesc (s.core 0) 0x40) = .ok out st) ∧
    (∀ fn, fn < 3 → ((withOp (opOf .tensor fn) {} []).core 0).oldest .tensor = some (opOf .tensor fn)) ∧
    (let c := (withOp (opOf .tensor 1) {} []).core 0
     ∃ code a, forestRun c 0 0 0x40 (readDesc c 0x40) = .fault code a) ∧
    (let c := (withOp (opOf .tensor 2) {} []).core 0
     (readDesc c 0x40).isSeal = false ∧ ∃ code a, convertRun c 0 0 0x40 (readDesc c 0x40) = .fault code a) ∧
    ¬ ({ (fp8Dot.core 0) with badSpad := [15] } : Core).parityOk 0x40 64 := by
  unfold Core.parityOk
  exact ⟨⟨by decide +kernel, by decide +kernel, by decide +kernel, by decide +kernel, by decide +kernel,
    by decide +kernel, by decide +kernel, tOk_ok (by decide +kernel)⟩, by decide +kernel, tOk_fault (by decide +kernel),
    ⟨by decide +kernel, tOk_fault (by decide +kernel)⟩, by decide +kernel⟩

/-- SEAL of a tile whose checksum is stale: it is written anew, and the operation finishes. -/
def sealOne : State := withOp (opOf .tensor 2) { state := .ready } [
  (0x40, quadBytes 0x1000 ++ quadBytes 0x0000_1000_0000_0000 ++ quadBytes (field 28 1 1)),
  (0x1000, quadBytes 0x0000_0004_0001_0004 ++ quadBytes 0x0000_0000_0004_0004 ++ List.replicate 48 0 ++ [1, 2, 3, 4])]

theorem test_seal_writes_the_checksum : (readTile (sealOne.core 0) 0x1000).crcOk = false ∧
    (readDesc (sealOne.core 0) 0x40).isSeal = true ∧
    (readTile ((after (.sealTile 0) sealOne).core 0) 0x1000).crcOk = true ∧
    ((after (.sealTile 0) sealOne).core 0).cc 9 = 1 ∧ ((after (.sealTile 0) sealOne).core 0).ops = [] := by decide +kernel

/-- CONVERT of an E4M3 tile to FP32: 1.5 and −0.875. -/
theorem test_convert_widens_exactly :
    let s := withOp (opOf .tensor 2) { state := .ready } [
      (0x40, quadBytes 0x1000 ++ quadBytes 0x0000_2000_0000_0000 ++ quadBytes (field 16 8 1)),
      (0x1000, tileBytes 0x0000_0002_0001_0004 0x0000_0000_0002_0002 [0x3C, 0xB6])]
    ((after (.convert 0) s).core 0).readSpad 0x2040 8 = [0, 0, 0xC0, 0x3F, 0, 0, 0x60, 0xBF] := by decide +kernel
theorem test_reserved_forest_descriptor_faults :
    ((after (.forest 0) (withOp (opOf .tensor 1) { state := .ready } [])).ctx 0 0).state = .faulted := by decide +kernel

/-- VTLD of a tile of four bytes to v3, and the faults of a bad descriptor and of bad parity. -/
def vtldOne : State := withOp { opOf .vector 0 with reg := 3 } { state := .ready } [
  (0x40, quadBytes 0x1000),
  (0x1000, tileBytes 0x0000_0004_0001_0004 0x0000_0000_0004_0004 [1, 2, 3, 4])]

theorem test_vtld_cases :
    ((after (.vtldDone 0) vtldOne).ctx 0 0).lane 3 0 = 0x0403_0201 ∧ ((after (.vtldDone 0) vtldOne).ctx 0 0).lane 3 1 = 0 ∧ ((after (.vtldDone 0) vtldOne).ctx 0 0).outstanding = 0 ∧
    (vtldOne.core 0).oldest .vector = some { opOf .vector 0 with reg := 3 } ∧ (vtldOne.core 0).parityOk 0x40 64 ∧
    (∃ regs, vtldRun (vtldOne.core 0) 0x40 3 (readDesc (vtldOne.core 0) 0x40) = .ok regs) ∧
    (let c := (withOp (opOf .vector 0) {} []).core 0
     ∃ code a, vtldRun c 0x40 0 (readDesc c 0x40) = .fault code a) ∧
    ¬ ({ (vtldOne.core 0) with badSpad := [8] } : Core).parityOk 0x40 64 := by
  unfold Core.parityOk
  exact ⟨by decide +kernel, by decide +kernel, by decide +kernel, by decide +kernel, by decide +kernel,
    vOk_ok (by decide +kernel),
    vOk_fault (by decide +kernel), by decide +kernel⟩

/-! ## Messages -/

/-- The spec's message on the core of logical node 0x1D25: context 1 sends 100 bytes to node 0x1D28. -/
def sender (m0 m1 m2 m3 m4 : Word) : State := { State.reset with
  regs := [((bCore 0x1D25).key 0x30, field 8 4 3), ((bSp 116).key 0x08, 0x0000_0000_02BC_0001)]
  sites := [(116, { banks := [(0, 4), (1, 4), (2, 4)] })]
  cores := [(0x1D25, {
    ctxs := [(1, { state := .ready, outstanding := 1 })]
    ops := [⟨.message, 1, 0, 0x40, true, 8, 0, 0⟩]
    spad := Sparse.writeZ (Sparse.writeZ [] 0x40 (quadBytes m0 ++ quadBytes m1 ++ quadBytes m2 ++ quadBytes m3 ++
      quadBytes m4)) 0x8000 [0xAB, 0xCD] })] }

/-- The MSG descriptor of the example, and one of another OP with the same fields. -/
def msgDesc (op : Nat) (m4 : Word) : State :=
  sender (field 0 4 op ||| field 8 3 4 ||| field 16 16 5 ||| field 32 32 0x200) 0x1800_1D28_0000_0000
    (field 0 21 0x8000 ||| field 32 21 100) (field 0 14 100 ||| field 16 12 17 ||| field 32 12 9) m4

theorem test_message_example :
    let t := after (.msendMsg 0x1D25) (msgDesc 3 0)
    let q := (t.core 0x1D25).msgOut.map fun o => fillSource t 0x1D25 o.pkt
    q.map (fun p => [p.h0, p.h1, p.h2, p.h3]) =
      [[0x1103_0001_9004_4000, 0x1800_1D28_0000_0000, 0x0800_1D25_4024_0000, 0x0000_0200_0005_0000]] ∧
    q.map (fun p => (creditFor p).map fun c => [c.h0, c.h1, c.h2]) =
      [some [0x1613_0000_0002_4000, 0x1800_1D25_0000_0000, 0x0400_0000]] ∧
    q.map (fun p => ((chainWords p).map InWord.last)) = [[false, false, true]] := by decide +kernel
theorem test_other_rows_leave_the_message : after (.msendWrite 0x1D25) (msgDesc 3 0) = msgDesc 3 0 := by decide +kernel

/-- The message engine's hypotheses: the descriptor free to run, a packet without a fault, a descriptor that faults,
bad parity; and each kind of descriptor well formed. -/
theorem test_message_engine_cases :
    (let s := msgDesc 3 0
     let c := s.core 0x1D25
     isCoreNode 0x1D25 = true ∧ c.clearing = false ∧ headerOn s 0x1D25 = true ∧ c.oldest .message = c.ops.head? ∧
     c.msgCur = none ∧ c.msgOut = [] ∧ c.parityOk 0x40 64 ∧ (∃ ps, msgRun c 0x40 3 1 (readMDesc c 0x40) = (ps, none)) ∧
     bits (readMDesc c 0x40).m0 0 4 = 3) ∧
    (let c := (msgDesc 9 0).core 0x1D25
     ∃ ps f, msgRun c 0x40 3 1 (readMDesc c 0x40) = (ps, some f)) ∧
    ¬ ({ (msgDesc 3 0).core 0x1D25 with badSpad := [8] } : Core).parityOk 0x40 64 := by
  unfold Core.parityOk
  exact ⟨⟨by decide +kernel, by decide +kernel, by decide +kernel, by decide +kernel, by decide +kernel, by decide +kernel,
    by decide +kernel, noFault (by decide +kernel), by decide +kernel⟩, someFault (by decide +kernel), by decide +kernel⟩

/-- A message descriptor from its named fields. -/
def mDesc (op cls size len dest group : Nat) (addr m4 : Word) : MDesc :=
  ⟨field 0 4 op ||| field 4 1 cls, addr, field 32 21 len, field 0 14 size ||| field 16 12 dest ||| field 48 16 group, m4,
    [0, 0, 0]⟩

/-- Each operation has a good descriptor, at the largest length its kind may have or at none. -/
theorem test_message_descriptor_cases :
    (∀ d ∈ [mDesc 0 0 8256 16512 7 0 0x0800_0000_0000_0000 0, mDesc 2 0 64 100 0 0 0x0800_0000_0000_0000 0,
        mDesc 3 1 256 256 7 0 0x1800_0001_0000_0000 0, mDesc 5 0 64 0 7 4095 0x1800_0000_0000_0000 0],
      d.ok 0 = true ∧ (d.op = 0 ∨ d.op = 2 ∨ d.op = 3 ∨ d.op = 5) ∧ d.size ≤ 8256 ∧ d.local_ + d.len ≤ 0x20_0000) ∧
    (let d := mDesc 7 0 32 64 7 0 0x1800_0001_0000_0000 0
     d.ok 0 = true ∧ d.op = 7) ∧
    (let d := mDesc 4 1 0 0 0 0 0x2800_0001_0000_1018 5
     d.ok 0 = true ∧ d.op = 4) ∧
    (let d := mDesc 8 0 0 320 0 16383 0x0800_0635_0400_2800 0
     d.ok 0 = true ∧ d.op = 8) ∧
    (let d := { mDesc 1 0 0 0 7 0 0x1800_0001_0000_0000 0 with m2 := 0x1000 }
     let t := readTile (fp8Dot.core 0) d.local_
     d.op = 1 ∧ d.ok (64 + t.checkLen) = true ∧ d.local_ % 64 = 0 ∧ t.consistent = true ∧ t.crcOk = true) := by
  decide +kernel

/-- Core 0 with a ledger request at 0x1000 for the shard of node 0x0627, its reply to land at 0x3000. -/
def lopOne : State := withOp (opOf .ledger 0) { state := .ready } [
  (0x40, quadBytes 0x0000_3000_0000_1000 ++ quadBytes 0x4800_0627_0001_0000 ++ quadBytes 17),
  (0x1000, quadBytes 2)]

theorem test_ledger_port_builds_a_request :
    let c := (after (.ledgerPortRequest 0) lopOne).core 0
    c.lopOut.map (fun o => (o.pkt.h0, o.pkt.h1, pLand o.pkt, pRetCc o.pkt)) =
      [(mkH0 0x0C 0 0 96 0, 0x4800_0627_0001_0000, 0xC0, 17)] ∧ c.lopWait.map LedgerWait.opcode = [2] ∧
    c.ops = [opOf .ledger 0] := by decide +kernel
theorem test_ledger_port_cases :
    let c := lopOne.core 0
    c.nextLop = some (opOf .ledger 0) ∧ c.lopWait.length ≤ 7 ∧ c.parityOk 0x40 64 ∧ lopFault c 0x1000 0x3000 = none ∧
    lopFault c 0x1FFFC0 0x3000 = some (0x06, 0x1FFFC0) ∧ ¬ ({ c with badSpad := [8] } : Core).parityOk 0x40 64 := by
  unfold Core.parityOk
  decide +kernel

/-! ## The mesh -/

/-- Set registers of a state. -/
def withRegs (l : List (Blk × Nat × Word)) (s : State) : State := l.foldl (fun s e => s.setReg e.1 e.2.1 e.2.2) s

/-- The routers of site 0 run, its die takes level 1, and its site is powered with every header on. -/
def meshOn : State := withRegs [(bPwr, 0x20, 1), (bClk 0, 0x20, 0x200_0000), (bSm 0, 0x100, 0x100),
    (bSp 0, 0x08, 0x0000_0000_02BC_0001)]
  { State.reset with
    pins := { resetHeld := false }
    sites := [(0, { banks := (List.range 8).map fun g => (g, 4), crossed := true })] }

/-- meshOn with a router's plane 0 at a node. -/
def meshAt (n : Nat) (r : RPlane) : State := meshOn.setPlane n 0 r

/-- A WRITE of class 0 for the scratchpad of a node, and the header it makes at an input. -/
def w1 (node : Nat) : Packet := pkt 0x01 0 1 node 0 [1, 2, 3, 4]

/-- A header that has waited at an input. -/
def hd (p : Packet) (pt : Port) (waited : Nat) : Header := { newHeader p pt with waited := waited }

/-- k word slots of a packet, the first one first. -/
def words (p : Packet) (k : Nat) : List WordSlot := (List.range k).map fun i => ⟨[], p, i == 0, false⟩

/-- The outputs of plane 0 of a node that are in transit, and their packets. -/
def outs (s : State) (n : Nat) : List (Nat × Packet) := (s.plane n 0).transit.map fun e => (e.1, e.2.pkt)

/-- The headers that wait at plane 0 of a node after a cycle of a router and one of its neighbour. -/
def crossed (n m : Nat) (s : State) : List (Packet × Port) :=
  ((after (.injectionGateEval m 0) (after (.injectionGateEval n 0) s)).plane m 0).inputs.map fun h => (h.pkt, h.port)

/-- The gate is open, and closed before the Plain runs; a packet from the die, from the router's offers, from the
ledger port, and from the message engine with one and with more packets left. -/
theorem test_injection_cases :
    let o : Offer := ⟨w1 9, none⟩
    gateOpen meshOn 0 3 = true ∧ gateOpen State.reset 0 0 = false ∧ openPlane meshOn 0 0 = some 0 ∧
    openPlane meshOn 0 ((meshOn.core 0).usedPlane + 1) = some 0 ∧ (0 : Nat) ≠ leadNode ∧
    (∀ q ∈ ((meshOn.offer 0 (w1 9) none).core 0).msgOut.head?, q.pkt ≠ w1 9) ∧
    ((meshOn.offer 0 (w1 9) none).router 0).offers = o :: [] ∧
    ((meshOn.setCore 0 { lopOut := [o] }).core 0).lopOut = o :: [] ∧
    (let s := meshOn.setCore 0 { msgOut := [o], msgCur := some (opOf .message 0) }
     (s.core 0).msgCur = some (opOf .message 0) ∧
     ((after (.injection 0 0 (w1 9)) s).core 0).msgOut = [] ∧
     ((after (.injection 0 0 (w1 9)) s).plane 0 0).inputs.map (fun h => h.pkt.h0) = [(w1 9).h0]) ∧
    (after (.injection 0 0 (w1 9)) (meshOn.setCore 0 { msgOut := [o, o] })).core 0 = { msgOut := [o], usedPlane := 0 } := by
  decide +kernel
/-- A packet at a slice's output; one behind another at a site that is no compute site; one that a guest die has not
had checked; a vertical port that awaits a replay. -/
theorem test_injection_place_cases :
    let o : Offer := ⟨w1 9, none⟩
    let at_ := fun (st : Nat) => withRegs [(bPwr, 0x20, 2 ^ 48 - 1), (bClk st, 0x20, 0x200_0000), (bSm st, 0x100, 0x100)]
      { State.reset with pins := { resetHeld := false }, sites := [(st, { crossed := true })] }
    let run := fun (n : Nat) (s : State) => after (.injection n 0 (w1 9)) s
    ((run 0 (meshOn.setSlice 0 { respOut := [o] })).slice 0).respOut = [] ∧
    (let s := (at_ 52).setRouter leadNode { offers := [⟨w1 5, none⟩, o] }
     gateOpen s leadNode 0 = true ∧ isComputeSite (siteOf leadNode) = false ∧ run leadNode s = s) ∧
    (let n := nodeOf (guestSite 0) 0
     let s := (at_ (guestSite 0)).setRouter n {}
     siteKind (siteOf n) = .guest ∧ gateOpen s n 0 = true ∧ run n s = s) ∧
    (let s := meshAt 0 { ends := [(4, { awaiting := some 1 })] }
     ((s.plane 0 0).endOf 4).awaiting = some 1 ∧ run 0 s = s) := by decide +kernel
theorem test_gated_header_waits :
    let s := fun (open_ : Bool) => meshAt 0 { inputs := [{ hd (w1 9) .v 0 with gated := true }], gate := open_ }
    after (.arbitrationPass 0 0) (s false) = s false ∧
    outs (after (.arbitrationPass 0 0) (s true)) 0 = [(1, w1 9)] := by decide +kernel

theorem test_closed_gate_admits_nothing : after (.injection 0 0 (w1 9)) State.reset = State.reset := by decide +kernel

/-- Packets for each check of the injecting router. -/
theorem test_injecting_router_cases :
    let good := fun (p : Packet) => pLevel p ≠ 0 ∧ pLevel p ≤ siteLevel meshOn (siteOf 0) ∧ headerCheck p = none
    pLevel { w1 9 with h0 := 0x2040_0000_0000_0000 } = 2 ∧ siteLevel meshOn 0 = 1 ∧
    headerCheck (pkt 0x0A 0 1 0 0 []) = some 0x0220 ∧ headerCheck (pkt 0x07 0 1 0 0 []) = some 0x0221 ∧
    headerCheck { w1 9 with h0 := mkH0 1 0 0 8257 0 } = some 0x0222 ∧ headerCheck (pkt 0x05 0 2 0 0 []) = some 0x0222 ∧
    headerCheck { pkt 0x06 0 1 0 0 [] with h3 := 4096 } = some 0x0223 ∧
    headerCheck { pkt 0x06 0 1 0 0 [] with h1 := 0x1000_0000_0000_0000 } = some 0x0224 ∧
    headerCheck { w1 9 with h0 := mkH0 1 0 0 8256 0 } = none ∧ headerCheck { pkt 0x06 0 1 0 0 [] with h3 := 4095 } = none ∧
    good (pkt 1 0 9 0 0 []) ∧ 9 ≤ aSpace (pkt 1 0 9 0 0 []).h1 ∧ good (w1 12288) ∧ aNode (w1 12288).h1 = 12288 ∧
    good (w1 9) ∧ isTree (w1 9) = false ∧ bit (meshOn.reg (bRtr 0) 0x80) 3 = false := by decide +kernel
theorem test_injection_writes_the_source : ((fillSource meshOn 0x1D25 (w1 9)).h2 = 0x0800_1D25_0000_0000) := by
  decide +kernel

/-- The spec's address: logical site 116 on physical site 118. -/
theorem test_logical_address :
    let s := withRegs [(bRtr 0, 0x400 + 8 * 116, 118)] State.reset
    mkAddr 0 true 0 0x1D25 0x0123_4580 = 0x0800_1D25_0123_4580 ∧ siteOf 0x1D25 = 116 ∧
    translate s 0 0x1D25 = some 0x1D35 ∧ nodeX 0x1D35 = 53 ∧ nodeY 0x1D35 = 58 ∧
    fieldOf (siteOf 0x1D35) = 27 ∧ quadrantOf (siteOf 0x1D35) = 2 ∧ localOf 0x1D35 = 21 := by decide +kernel

theorem test_discard_credits_the_source :
    let t := meshOn.routerDrop 0 0 .v (fillSource meshOn 9 (w1 5)) true (some 0x0211)
    ((t.plane 0 0).inputs.map fun h => (h.port, aNode h.pkt.h1, pDkind h.pkt)) = [(.v, 9, 1)] ∧
    bits (t.reg (bRtr 0) 0x50) 16 16 = 1 ∧ (t.router 0).plain.length = 1 := by decide +kernel
theorem test_router_discard_command : ((after (.vfence 0 true) meshOn).router 0).vclosed = 0xFF ∧
    bit ((after (.vfence 0 true) meshOn).reg (bRtr 0) 0x10) 1 = true := by decide +kernel

/-- A running plane and one that does not run; the gate closes above OCC_HI and opens below OCC_LO. -/
theorem test_gate_cases :
    let r : RPlane := { inputs := [hd (w1 9) .n 0] }
    let s := withRegs [(bRtr 0, 0x28, field 0 11 1 ||| field 16 11 1)] (meshAt 0 { r with inputs := [hd (w1 9) .n 0, hd (w1 9) .e 0] })
    routerLive meshOn 0 = true ∧ routerLive State.reset 0 = false ∧ occWords s 0 0 = 2 ∧
    ((after (.injectionGateEval 0 0) s).plane 0 0).gate = false ∧
    (let u := s.setPlane 0 0 { gate := false }
     ((after (.injectionGateEval 0 0) u).plane 0 0).gate = true) ∧
    ((after (.injectionGateEval 0 0) s).plane 0 0).inputs.map Header.waited = [1, 1] ∧
    Sparse.rising [(0, ({ pkt := w1 9, words := words (w1 9) 1 } : Transit)), (1, { pkt := w1 9, words := words (w1 9) 3 })] = true := by decide +kernel

/-- One waiting header for each case of the pass: a free productive output; none free with and without the right to
deflect; none productive; an entry that forces another output or a discard; at its destination. -/
theorem test_arbitration_cases :
    let s := meshAt 0 { inputs := [hd (w1 9) .n 0] }
    let lost := fun (n : Nat) (w : Word) (s : State) => s.setReg (bRtr n) 0x20 w
    routerLive s 0 = true ∧ (s.router 0).plain = [] ∧ (s.plane 0 0).inputs = [hd (w1 9) .n 0] ∧ isTree (w1 9) = false ∧
    route s 0 (w1 9) = .node 9 ∧ detour s 0 0 9 = 0 ∧ productive s 0 0 9 0 = [1] ∧ [1].find? (outFree s 0 0) = some 1 ∧
    mayDeflect (hd (w1 9) .n 0) false = true ∧ mayDeflect (hd (w1 9) .v 0) false = false ∧
    productive (lost 0 2 s) 0 0 9 0 = [] ∧ [].find? (outFree (lost 0 2 s) 0 0) = none ∧
    (deflectOrder .n).find? (outFree (lost 0 2 s) 0 0) = some 2 ∧
    (let u := meshAt 0 { inputs := [hd (w1 9) .v 0], transit := [(1, { pkt := w1 9, words := words (w1 9) 1 }), (2, { pkt := w1 9, words := words (w1 9) 1 })] }
     productive u 0 0 9 0 ≠ [] ∧ (productive u 0 0 9 0).find? (outFree u 0 0) = none ∧
     (deflectOrder .n).find? (outFree u 0 0) = none) ∧
    (let d := withRegs [(bRtr 0, 0x100, field 36 3 5 ||| field 32 4 15 ||| field 8 7 127 ||| field 24 7 95)] s
     detour d 0 0 9 = 5) ∧
    route (withRegs [(bRtr 0, 0x408, 0x100)] s) 0 (w1 9) = .drop (some 0x0212) ∧
    (let u := meshAt 0 { inputs := [hd (w1 0) .n 0] }
     route u 0 (w1 0) = .node 0 ∧ delivery u 0 0 (w1 0) = .deliver ∧ inPlain u (w1 0) = false ∧ vertBusy u 0 0 = false) ∧
    vertBusy (meshAt 0 { transit := [(4, { pkt := w1 0, words := words (w1 0) 1 })] }) 0 0 = true ∧
    usable s 0 0 1 = true ∧ siteQuiet s 0 = false := by decide +kernel
theorem test_forward_and_deflect :
    crossed 0 1 (after (.arbitrationPass 0 0) (meshAt 0 { inputs := [hd (w1 9) .n 0] })) = [(w1 9, .w)] ∧
    outs (after (.arbitrationPass 0 0) ((meshAt 0 { inputs := [hd (w1 9) .n 0] }).setReg (bRtr 0) 0x20 2)) 0 =
      [(2, raiseAge (w1 9))] := by decide +kernel

/-- The read across the panel of the spec: E first, S where E is lost, W after the deflection. -/
theorem test_read_across_the_panel :
    let dst := nodeAt 53 58
    let lost := State.reset.setReg (bRtr (nodeAt 30 20)) 0x20 (field 0 16 (2 ^ 9))
    productive State.reset (nodeAt 10 20) 2 dst 0 = [1, 2] ∧ productive lost (nodeAt 30 20) 2 dst 0 = [2] ∧
    productive State.reset (nodeAt 53 40) 2 dst 0 = [2] ∧ (deflectOrder .n).head? = some 1 ∧
    productive State.reset (nodeAt 54 40) 2 dst 0 = [3, 2] := by decide +kernel

theorem test_rank_order : rankOrder [hd (w1 9) .w 0, hd (w1 9) .n 0, hd (raiseAge (w1 9)) .v 0, hd (w1 9) .v 64] =
    [hd (w1 9) .v 64, hd (raiseAge (w1 9)) .v 0, hd (w1 9) .n 0, hd (w1 9) .w 0] := by decide +kernel
theorem test_forward_case : neighbour 0 1 = some 1 ∧ closedPort meshOn 1 0 (opposite 1) = false ∧ neighbour 127 1 = none ∧
    neighbour 0 0 = none ∧ bit (meshOn.reg (bRtr 1) 0x80) 0 = false := by decide +kernel

/-! ### Combining and trees -/

/-- The sketch's contribution of core A (R247): 320 bytes, lanes 17 and 40. -/
def redA : Packet := pkt 0x08 0 0 0x0635 0x0400_2800
  (quadBytes 0x13 ++ quadBytes 1 ++ List.replicate 116 0 ++ [3, 0, 0, 0] ++ List.replicate 88 0 ++ [1, 0, 0, 0] ++
    List.replicate 92 0)

/-- The contribution of core B. -/
def redB : Packet := pkt 0x08 0 0 0x0635 0x0400_2800
  (quadBytes 0x13 ++ quadBytes 1 ++ List.replicate 116 0 ++ [5, 0, 0, 0] ++ List.replicate 184 0)

/-- A small contribution, as the sketch's are: one INT32_SAT element. -/
def red1 (v : Byte) : Packet := pkt 0x08 0 0 0x0635 0x0400_2800 (quadBytes 0x13 ++ quadBytes 1 ++ List.replicate 48 0 ++ [v, 0, 0, 0])

theorem test_sketch_contributions_combine : redA.h1 = 0x0800_0635_0400_2800 ∧ linkSlots redA = 6 ∧
    combineMatch redA redB = true ∧ combineFits redA redB = true ∧
    (let q := combinePair redA redB
     q.h0 = redA.h0 ∧ (readHead q.data).e1 = 2 ∧ (q.data.drop 132).take 4 = [8, 0, 0, 0] ∧
     (q.data.drop 224).take 4 = [1, 0, 0, 0]) := by decide +kernel
theorem test_saturating_sum : redAdd 3 2147483645 3 = (2147483647, true) ∧ redAdd 2 0xFFFF_FFFF 2 = (1, false) := by
  decide +kernel

/-- A plane that combines: a contribution is gathered first; then it is absorbed, held, or waits where the buffers are full
or the match does not fit; and a held packet whose window is over or is not. -/
theorem test_combine_cases :
    let s := meshOn.setReg (bRtr 0) 0x80 0x201
    let at_ := fun (g l : List Held) => s.setPlane 0 0 { gather := g, held := l }
    let new : Held := ⟨red1 5, .n, 0⟩
    let big := red1 5
    bit (s.reg (bRtr 0) 0x80) 0 = true ∧ bits (s.reg (bRtr 0) 0x80) 8 8 ≠ 0 ∧ combinable (red1 3) = true ∧
    ((at_ [] []).enter 0 0 { hd big .n 0 with toCome := 1 }).plane 0 0 = { gather := [⟨big, .n, 1⟩] } ∧
    ((at_ [] []).enter 0 0 (hd big .n 0)).plane 0 0 = { held := [⟨big, .n, 2⟩] } ∧
    (((at_ [new] []).setReg (bRtr 0) 0x80 0).meet 0 0 new).plane 0 0 = { inputs := [hd big .n 0] } ∧
    combineMatch (red1 3) (red1 5) = true ∧ combineFits (red1 3) (red1 5) = true ∧
    combineMatch redA (red1 5) = false ∧
    ((at_ [new] [⟨red1 3, .n, 2⟩]).meet 0 0 new).plane 0 0 = { held := [⟨combinePair (red1 3) (red1 5), .n, 2⟩] } ∧
    ((at_ [new] []).meet 0 0 new).plane 0 0 = { held := [⟨red1 5, .n, 2⟩] } ∧
    (let full := List.replicate 16 (⟨redA, .n, 1⟩ : Held)
     ((at_ [new] full).meet 0 0 new).plane 0 0 = { held := full, inputs := [hd (red1 5) .n 0] }) := by decide +kernel
theorem test_combine_release :
    let at_ := fun (k : Nat) => (meshOn.setReg (bRtr 0) 0x80 0x201).setPlane 0 0 { held := [⟨red1 3, .n, k⟩] }
    ((at_ 0).plane 0 0).held[0]?.map Held.left = some 0 ∧
    (after (.combineRelease 0 0 0) (at_ 0)).plane 0 0 = { inputs := [hd (red1 3) .n 0] } ∧
    after (.combineRelease 0 0 0) (at_ 1) = at_ 1 := by decide +kernel

/-- A multicast copy at a router of its tree, from the parent and from elsewhere; one child lost, or none; several children
of which one is busy; and the vertical member. -/
theorem test_tree_cases :
    let p := pkt 0x06 0 1 9 0 [1]
    let s := fun (pt : Port) (e : Word) => (meshAt 0 { inputs := [hd p pt 0] }).setReg (bRtr 0) 0x8000 e
    let entry := fun (parent kids : Nat) => field 0 1 1 ||| field 1 3 parent ||| field 4 5 kids
    isTree p = true ∧ (hd p .v 0).kids = none ∧ ((s .v (entry 4 2)).router 0).badTree.contains (pGroup p) = false ∧
    lostPort (s .v (entry 4 2)) 0 0 1 = false ∧ outFree (s .v (entry 4 2)) 0 0 1 = true ∧
    lostPort ((s .v (entry 4 2)).setReg (bRtr 0) 0x20 2) 0 0 1 = true ∧
    outs (after (.arbitrationPass 0 0) (s .v (entry 4 2))) 0 = [(1, p)] ∧
    ((after (.arbitrationPass 0 0) (s .v (entry 4 2))).plane 0 0).inputs = [] ∧
    ((after (.arbitrationPass 0 0) (s .n (entry 4 2))).plane 0 0).inputs = [] ∧
    (let u := (s .v (entry 4 6)).setPlane 0 0 { inputs := [hd p .v 0], transit := [(1, { pkt := w1 9, words := words (w1 9) 1 })] }
     let t := after (.arbitrationPass 0 0) u
     (t.plane 0 0).inputs = [{ hd p .v 0 with kids := some [.e] }] ∧ outs t 0 = [(1, w1 9), (2, p)]) := by decide +kernel
theorem test_tree_member :
    let p := pkt 0x06 0 1 0 0 [1]
    let s := (meshAt 0 { inputs := [hd p .w 0] }).setReg (bRtr 0) 0x8000 (field 0 1 1 ||| field 1 3 3 ||| field 4 5 18)
    delivery s 0 0 p = .deliver ∧ inPlain s p = false ∧
    ((after (.arbitrationPass 0 0) s).plane 0 0).vout = [hd p .w 0] ∧
    outs (after (.arbitrationPass 0 0) s) 0 = [(1, p), (4, p)] := by decide +kernel

/-! ### Refusals, links and the fence -/

/-- A MSG before a chain that accepts nothing: taken back, or with age 255 discarded. -/
theorem test_inbox_refusal_cases :
    let m := pkt 0x04 0 1 0 0 [1]
    let old := { m with h0 := setBits m.h0 40 8 255 }
    let s := fun (p : Packet) => (meshAt 0 { vout := [hd p .n 0] }).setCore 0 { inbox := List.replicate 32 ⟨[], false⟩ }
    toInbox (s m) 0 m = true ∧ ((s m).core 0).accepts = false ∧ ((s m).plane 0 0).vout = hd m .n 0 :: [] ∧
    siteQuiet (s m) (siteOf 0) = false ∧ pAge m ≠ 255 ∧ pAge old = 255 ∧
    (after (.inboxRefusal 0 0 m) (s m)).plane 0 0 = { inputs := [{ hd m .n 0 with takenBack := true }] } ∧
    ((after (.inboxRefusal 0 0 old) (s old)).plane 0 0).inputs.map (fun h => pKind h.pkt) = [0x18] := by decide +kernel

/-- The receiver's failures: a first one, the eighth on a link and at a vertical port, and a slot that is no failure; a NAK
to replay. -/
theorem test_link_cases :
    let e7 : RPlane := { ends := [(1, { failWord := 3, fails := 7 }), (4, { failWord := 3, fails := 7 }), (5, { sent := 3 })] }
    let s := (meshAt 0 e7).setPlane 1 0 { ends := [(3, { sent := 3 })] }
    let s5 := (meshAt 0 e7).setPlane 1 0 { ends := [(3, { sent := 5 })] }
    let bad := fun k : BitVec 4 => (⟨k, List.replicate 64 0, 0⟩ : SlotSeen)
    slotKind (bad 3).word (bad 3).ctl = .failed ∧ slotKind idleSlot.1 idleSlot.2 = .idle ∧
    slotKind (nakSlot 2).1 (nakSlot 2).2 = .nak 2 ∧ (s.plane 1 0).endOf 3 = { sent := 3 } ∧ ((s.plane 0 0).endOf 1).awaiting = none ∧
    hasPort 0 .e = true ∧ hasPort 0 .v = true ∧ neighbour 0 1 = some 1 ∧ lostPort s 0 0 1 = false ∧
    Sparse.find 1 (s.plane 0 0).transit = none ∧ Sparse.find 3 (s.plane 1 0).transit = none ∧
    bit (s.reg (bRtr 0) 0x10) 2 = false ∧
    ((after (.linkCrcFailure 0 0 .e (bad 5)) s5).plane 0 0).endOf 1 =
      { awaiting := some 5, failWord := 5, fails := 1, nak := some 5 } ∧
    after (.linkCrcFailure 0 0 .e ⟨5, idleSlot.1, idleSlot.2⟩) s = s ∧
    lostPort (after (.linkCrcFailure 0 0 .e (bad 3)) s) 0 0 1 = true ∧
    lostPort (after (.linkCrcFailure 0 0 .e (bad 3)) s) 1 0 3 = true ∧
    bit ((after (.linkCrcFailure 0 0 .v (bad 3)) s).reg (bRtr 0) 0x10) 6 = true := by decide +kernel
theorem test_lost_link_discards :
    let h := { hd (fillSource meshOn 1 (w1 9)) .e 0 with toCome := 2 }
    let s := (meshAt 0 { ends := [(1, { failWord := 3, fails := 7 })], inputs := [h] }).setPlane 1 0
      { transit := [(3, { pkt := h.pkt, words := (words h.pkt 4).drop 2 })], ends := [(3, { sent := 3 })] }
    let t := after (.linkCrcFailure 0 0 .e ⟨3, List.replicate 64 0, 0⟩) s
    (s.plane 0 0).transit = [] ∧ (t.plane 1 0).transit = [] ∧ bits (t.reg (bRtr 0) 0x50) 16 16 = 1 ∧
    ((t.plane 0 0).inputs.map fun x => pKind x.pkt) = [0x18] := by decide +kernel
/-- A packet whose only word fails for the eighth time is discarded by its sender, which credits it. -/
theorem test_lost_only_word :
    let p : Packet := fillSource meshOn 0 { w1 9 with data := [] }
    let ws := words p 1
    let s := (meshAt 0 { ends := [(1, { sent := 4, retry := ws })] }).setPlane 1 0
      { ends := [(3, { wire := [⟨1, ws⟩], failWord := 3, fails := 7 })] }
    let t := after (.linkCrcFailure 1 0 .w ⟨3, List.replicate 64 0, 0⟩) s
    bits (t.reg (bRtr 0) 0x50) 16 16 = 1 ∧ ((t.plane 0 0).inputs.map fun x => pKind x.pkt) = [0x18] ∧
    (t.plane 1 0).inputs = [] := by decide +kernel
theorem test_link_nak_replays :
    let p := w1 9
    let r : RPlane := { ends := [(1, { sent := 3, retry := words p 3 })] }
    let u := (meshAt 1 { ends := [(3, { awaiting := some 2, nak := some 2 })] }).setPlane 0 0 r
    let t := after (.linkNak 0 0 .e ⟨0, (nakSlot 2).1, (nakSlot 2).2⟩) u
    ((u.plane 1 0).endOf (opposite 1)).nak = some 2 ∧ (t.plane 1 0).endOf 3 = {} ∧
    bits (t.reg (bRtr 0) 0x50) 0 16 = 1 ∧ ((t.plane 0 0).endOf 1).retry = words p 2 ∧
    ((t.plane 0 0).endOf 1).again = [⟨[], p, false, false⟩] ∧ ((t.plane 0 0).endOf 1).sent = 2 ∧
    ((r.endOf 1).txSlot - 2).toNat = 1 ∧ (r.endOf 1).retry.length ≤ (r.endOf 1).sent := by decide +kernel

/-- The wire test: with spares for every failing wire, with none failing, with too few, and with a check wire. -/
theorem test_bond_lane_cases :
    let s := (meshOn.setReg (bRtr 0) 0x10 0x40).setRouter 0 { spares := [(0, 7)] }
    let dropped := fun (t : State) => bit (t.reg (bRtr 0) 0x10) 2
    bit (s.reg (bRtr 0) 0x10) 6 = true ∧ (s.router 0).plain.length < 7 ∧
    dropped (after (.bondLaneRepaired 0 0 [1, 8, 0, 0] false) s) = false ∧
    Sparse.getD 0 ((after (.bondLaneRepaired 0 0 [1, 8, 0, 0] false) s).router 0).spares 0 = 8 ∧
    dropped (after (.bondLaneRepaired 0 0 [2, 0, 0, 0] false) s) = true ∧
    dropped (after (.bondLaneRepaired 0 0 [] true) s) = true ∧ dropped (after (.bondLaneRepaired 0 0 [] false) s) = false := by
  decide +kernel

/-- The fence with nothing in transit, and with a packet at the vertical output of plane 0. -/
theorem test_fence_cases :
    let s := meshAt 0 { vout := [hd (w1 0) .n 0] }
    let t := after (.vfence 0 true) s
    (∀ pl, pl < 4 → vertBusy meshOn 0 pl = false) ∧ vertBusy s 0 0 = true ∧ closedIn t 0 0 = false ∧ closedOut t 0 0 = true ∧
    bit (t.reg (bRtr 0) 0x10) 1 = false ∧
    (let u := t.setPlane 0 0 {}
     true = bit (u.reg (bRtr 0) 0x10) 0 ∧ vertBusy u 0 0 = false ∧
     ((after (.vfenceEffect 0 0 true) u).router 0).vclosed = 0xFF ∧
     bit ((after (.vfenceEffect 0 0 true) u).reg (bRtr 0) 0x10) 1 = true) := by decide +kernel

/-! ## Packets at their destination -/

/-- A panel whose core 0 is served, with the packet at its vertical output of plane 0. -/
def arrived (p : Packet) (c : Core) : State := (onState c).setPlane 0 0 { vout := [hd p .n 0] }

/-- Packets that reach core 0: the last bytes of scratchpad and of instruction memory, one byte too far, none at the
end, a parity error in the bytes asked for. -/
theorem test_data_packet_cases :
    let ok := fun (k off len : Nat) => (let p := pkt k (if k = 0x09 then 1 else 0) 1 0 off (List.replicate len 7)
      isCoreNode 0 = true ∧ pKind p = k ∧ aSpace p.h1 = 1 ∧ addrHere (onState {}) p.h1 = true ∧
        siteUnpowered (onState {}) (siteOf 0) = false ∧ headerOn (onState {}) 0 = true ∧
        ((onState {}).core 0).clearing = false ∧ genDiffers (onState {}) 0 p = false ∧ pLen p = len ∧ aOff p.h1 = off)
    (∀ k ∈ [0x01, 0x02, 0x03, 0x06, 0x09, 0x0D], ok k 0x1F_FFFC 4) ∧ ok 0x01 0x0100_FFFC 4 ∧ ok 0x01 0x1F_FFFE 4 ∧
    ok 0x01 0x20_0000 0 ∧ InMem 0x1F_FFFC (max 4 1) ∧ InMem 0x0100_FFFC (max 4 1) ∧ ¬ InMem 0x1F_FFFE (max 4 1) ∧
    ¬ InMem 0x20_0000 (max 0 1) ∧ InMem 0x1F_FFFF (max 0 1) := by
  unfold InMem
  decide +kernel
theorem test_parity_cases : ({ badSpad := [1] } : Core).memParityOk 0 8 ∧ ¬ ({ badSpad := [1] } : Core).memParityOk 4 8 ∧
    ¬ ({ badImem := [0] } : Core).memParityOk 0x0100_0004 4 := by
  simp [Core.memParityOk, Core.parityOk]

theorem test_reaches : Reaches (onState {}) 0 0 0x01 1 (w1 0) := reaches (by decide +kernel)
theorem test_places_of_a_packet : ((arrived (w1 0) {}).plane 0 0).vout = [] ++ hd (w1 0) .n 0 :: [] ∧
    (arrived (w1 0) {}).takeUp 0 0 (w1 0) = (onState {}).setPlane 0 0 {} ∧
    ((onState {}).takeUp 0 0 (w1 0) = onState {}) := by decide +kernel
theorem test_write_counts_and_acknowledges :
    let p := { pkt 0x01 0 1 0 0x0100_0008 [1, 2] with h0 := mkH0 1 0 0 2 5, h2 := setBit (setBit 0 59 true) 17 true }
    let t := after (.write 0 0 p) (arrived p {})
    (t.core 0).imem = [(8, 1), (9, 2)] ∧ (t.core 0).cc 5 = 1 ∧ (t.router 0).offers.map (fun o => pKind o.pkt) = [7] ∧
    (t.plane 0 0).vout = [] := by decide +kernel
theorem test_read_is_answered :
    let p := { pkt 0x02 0 1 0 8 [] with h0 := mkH0 2 0 3 2 0, h2 := 0x0800_1D25_4024_0003 }
    let t := after (.readReq 0 0 p) (arrived p { spad := [(8, 1), (9, 2)] })
    (t.router 0).offers.map (fun o => (o.pkt.h0, o.pkt.h1, o.pkt.data)) =
      [(mkH0 3 0 3 2 9, 0x1800_1D25_0000_00C0, [1, 2])] := by decide +kernel
theorem test_read_with_bad_parity :
    ((after (.readReq 0 0 (pkt 0x02 0 1 0 8 [0])) (onState { badSpad := [1] })).router 0).offers.length = 2 := by
  decide +kernel
theorem test_mcast_write_and_read_resp_count :
    let c := fun (row : Instr) => ((after row (onState {})).core 0).cc 0
    c (.mcastWrite 0 0 (pkt 6 0 1 0 0 [1])) = 1 ∧ c (.readResp 0 0 (pkt 3 0 1 0 0 [1])) = 1 ∧
    c (.redDone 0 0 (pkt 9 1 1 0 0 [1])) = 1 ∧ c (.ack 0 0 (pkt 7 1 1 0 0 [])) = 1 ∧
    c (.ledgerReply 0 0 (pkt 0x0D 0 1 0 0 [1])) = 1 := by decide +kernel

/-- A signal at the last slot, past it, and off alignment; a credit for a request, and for another packet. -/
theorem test_count_signal_reply_cases :
    let sg := fun (off : Nat) => pkt 0x05 0 2 0 off (leBytes 3 8)
    let cr := fun (k : Nat) => { pkt 0x18 1 1 0 0 [] with h2 := field 24 6 k }
    let w : LedgerWait := ⟨opOf .ledger 0, 0, 0x3000, 2, 1⟩
    (∀ p ∈ [sg 0x11F8, sg 0x0FF8, sg 0x1200, sg 0x1001], pKind p = 5 ∧ aSpace p.h1 = 2 ∧ pLen p = 8 ∧
      addrHere (onState {}) p.h1 = true ∧ genDiffers (onState {}) 0 p = false) ∧
    aOff (sg 0x11F8).h1 = 0x1000 + 8 * 63 ∧ (sg 0x11F8).data.length = 8 ∧ pDkind (cr 1) = 1 ∧ pDkind (cr 0x0C) = 0x0C ∧
    ((onState { lopWait := [w] }).core 0).lopWait = [] ++ w :: [] ∧ w.seq = pSeq (pkt 0x0D 0 1 0 0x3000 [1]) ∧
    w.land + 64 ≤ 0x20_0000 ∧ (∀ v ∈ ((onState {}).core 0).lopWait, v.seq ≠ 0) ∧
    ((after (.signal 0 0 (sg 0x11F8)) (onState {})).core 0).slots = [(63, setBits (setBits 1 34 1 1) 48 16 3)] ∧
    ((after (.signal 0 0 (sg 0x1200)) (onState {})).router 0).offers.length = 2 ∧
    (let t := after (.fenceCredit 0 0 (cr 0x0C)) (onState { lopWait := [w], ops := [w.op] })
     (t.core 0).lopWait = [] ∧ (t.core 0).ops = [] ∧ quadAt ((t.core 0).readSpad 0x3000 8) 0 = 0x1208) := by decide +kernel

/-- Contributions to a record: each test of R250, and the record each meets (IDLE, OPEN, DONE). -/
theorem test_contribution_cases :
    let h := fun (e0 e1 : Word) => quadBytes e0 ++ quadBytes e1 ++ List.replicate 48 0 ++ [5, 0, 0, 0]
    let rec_ := fun (e0 e1 : Word) (st dlen : Nat) => quadBytes e0 ++ quadBytes e1 ++ quadBytes 0 ++ quadBytes (field 0 14 dlen) ++
      quadBytes (field 0 2 st) ++ List.replicate 24 0 ++ [7, 0, 0, 0]
    let p := fun (e0 e1 : Word) => pkt 0x08 0 1 0 64 (h e0 e1)
    let one : Word := 0x0000_0002_0000_0001
    let code := fun (e0 e1 : Word) (r : List Byte) => (redApply (p e0 e1) r).notice
    code 0x02 one (rec_ 0 0 0 0) = none ∧ code 0x05 one (rec_ 0 0 0 0) = some 0x0401 ∧
    code 0x02 one (rec_ 0x02 one 2 4) = some 0x0403 ∧ code 0x02 one (rec_ 0x03 one 1 4) = some 0x0402 ∧
    code 0x02 0x0000_0002_0000_0002 (rec_ 0x02 one 1 4) = some 0x0404 ∧
    (redApply (p 0x02 one) (rec_ 0x02 one 1 4)).notice = none ∧
    (readHead (redApply (p 0x02 one) (rec_ 0x02 one 1 4)).write).state = 2 ∧
    (redApply (p 0x02 one) (rec_ 0x02 one 1 4)).write.drop 64 = [12, 0, 0, 0] ∧
    (readHead (redApply (p 0x02 one) (rec_ 0 0 0 0)).write).state = 1 ∧
    (redApply (p 0x02 0) (rec_ 0 0 0 0)).write.drop 64 = [0, 0, 0, 0] ∧ pLen (p 0x02 one) ≤ 8256 ∧
    pKind (p 0x02 one) = 8 := by decide +kernel

theorem test_contribution_at_a_core :
    let p := pkt 0x08 0 1 0 64 (quadBytes 2 ++ quadBytes 0x0000_0002_0000_0001 ++ List.replicate 48 0 ++ [5, 0, 0, 0])
    ((after (.redPart 0 0 p) (onState {})).core 0).readSpad 128 4 = [5, 0, 0, 0] ∧ InMem (aOff p.h1) (max (pLen p) 1) ∧
    aOff (red1 0).h1 % 64 = 0 ∧ aOff (pkt 8 0 1 0 8 []).h1 % 64 ≠ 0 := by
  unfold InMem
  decide +kernel

/-- A MSG that fits, one that does not, and a chain that accepts nothing; the lengths of the chain's words. -/
theorem test_inbox_cases :
    let m := pkt 0x04 0 1 0 0 (List.replicate 100 1)
    let full := fun k => (List.replicate k ⟨[], false⟩ : List InWord)
    (chainWords m).length = 3 ∧ (({} : Core)).accepts = true ∧ (full 29).length + 3 ≤ 32 ∧ 32 < (full 30).length + 3 ∧
    ({ inbox := full 30 } : Core).accepts = true ∧ ({ inbox := full 32 } : Core).accepts = false ∧
    ((after (.msg 0 0 m) (onState { inbox := full 29 })).core 0).inbox.length = 32 ∧
    ((after (.msg 0 0 m) (onState { inbox := full 29 })).core 0).cc 0 = 1 ∧
    ((after (.msg 0 0 m) (onState { inbox := full 30 })).core 0).admitting.isSome ∧
    (after (.msg 0 0 m) (onState { inbox := full 32 })).core 0 = { inbox := full 32 } ∧
    ((after (.cell 0 0 (pkt 0x14 0 1 0 0 (List.replicate 32 1))) (onState
      { ctxs := [(0, { state := .parked, wait := .inbox })] })).ctx 0 0).state = .ready := by decide +kernel

/-- The lead steward's notice port and the control port: masked, queued, full; replies with the port UP and down. -/
theorem test_notice_and_control_cases :
    let nt := mkNotice State.reset 0 0x0501 0 0 0
    let rp := controlReply { pkt 0x10 1 5 leadNode 0x0030_8000 [] with h0 := mkH0 0x10 1 0 32 0 } 0 []
    let at_ := { rp with h1 := mkAddr 5 true 0 leadNode 0x0030_8000 }
    let up := withRegs [(bCtl, 0x10, 5)] State.reset
    isNode leadNode = true ∧ pKind nt = 0x11 ∧ addrHere State.reset nt.h1 = true ∧ siteKind (siteOf leadNode) ≠ .link ∧
    siteOf leadNode = 52 ∧ aSpace nt.h1 = 5 ∧ aOff nt.h1 = 0x0030_8008 ∧ noticesQueued State.reset < 1024 ∧
    noticeCode nt / 256 = 5 ∧ pLen nt = 32 ∧ nt.data.length = 32 ∧
    bit ((withRegs [(bCtl, 0x08, field 21 1 1)] State.reset).reg bCtl 0x08) 21 = true ∧
    noticesQueued { State.reset with lead := { egress := List.replicate 1024 nt } } = 1024 ∧
    (after (.notice leadNode 0 nt) State.reset).lead.egress.length = 1 ∧
    (after (.notice 0 0 nt) State.reset).lead.egress = [] ∧ ctlUp up = true ∧ ctlUp State.reset = false ∧
    ctlOp at_ = 8 ∧ pKind at_ = 0x10 ∧
    (after .noticeForward (after (.notice leadNode 0 nt) up)).lead.egress = [] ∧
    ((after .noticeForward (after (.notice leadNode 0 nt) up)).link 8).egress.length = 1 ∧
    (after (.controlReply leadNode at_) up).lead.egress = [at_] ∧
    bits ((after (.controlReply leadNode at_) State.reset).reg bCtl 0x20) 48 16 = 1 := by decide +kernel

/-- What turns a packet away before a core: no power, headers off, clearing, another generation. -/
theorem test_denied_cases :
    let mine := withRegs [(bCore 0, 0x30, field 16 1 1 ||| field 8 4 3)] (onState {})
    let a := pkt 0x07 1 1 0 0 []
    siteUnpowered State.reset (siteOf 0) = true ∧ headerOn State.reset 0 = false ∧
    ((onState { clearing := true }).core 0).clearing = true ∧ genDiffers mine 0 a = true ∧
    siteUnpowered mine (siteOf 0) = false ∧ headerOn mine 0 = true ∧ (mine.core 0).clearing = false ∧
    bits ((after (.ack 0 0 a) mine).reg (bSm 0) 0x408) 16 16 = 1 ∧
    ((after (.ack 0 0 a) mine).router 0).offers.length = 1 ∧ ((after (.ack 0 0 a) mine).core 0).ccs = [] ∧
    ((after (.write 0 0 (w1 0)) State.reset).router 0).offers.map (fun o => pKind o.pkt) = [0x18] := by decide +kernel

theorem test_delivered : Delivered (onState {}) 0 0 0x01 (w1 0) := delivered (by decide +kernel)

/-! ## Slices and the ledger -/

/-- Site 0 with its slices serving, and the slice above node 0 as given. -/
def sliceOn (c : Slice) : State := ((withRegs [(bClk 0, 0x28, 0x200_0000), (bSm 0, 0x400, field 5 3 2)] (onState {})).setSite 0
    { (onState {}).site 0 with sampled := true }).setSlice 0 c

/-- A WRITE and a READ_REQ of DRAM. -/
def dw (off : Nat) (data : List Byte) : Packet := pkt 0x01 0 0 0 off data

/-- Accesses to the last byte of the slice and past it, with and without room; a read that joins a merge set. -/
theorem test_slice_arrival_cases :
    let rd := fun (off len : Nat) => { dw off [] with h0 := mkH0 2 0 0 len 0 }
    let full := List.replicate 128 (⟨rd 0 1, 0, [], false, false⟩ : Req)
    aOff (dw 0x1FFF_FFFF [1]).h1 + max (pLen (dw 0x1FFF_FFFF [1])) 1 ≤ 0x2000_0000 ∧
    ¬ aOff (dw 0x2000_0000 []).h1 + max (pLen (dw 0x2000_0000 [])) 1 ≤ 0x2000_0000 ∧ isCoreNode 0 = true ∧
    aSpace (dw 0 []).h1 = 0 ∧ siteUnpowered (sliceOn {}) (siteOf 0) = false ∧
    ({} : Slice).hasRoom (dw 0 [1]) = true ∧ ({ queue := full } : Slice).hasRoom (dw 0 [1]) = false ∧
    ((after (.write 0 0 (dw 0 [1])) (sliceOn { openSets := [0, 1] })).slice 0).openSets = [1] ∧
    ((after (.write 0 0 (dw 0 [1])) (sliceOn { queue := full })).slice 0).queue.length = 128 ∧
    bits ((after (.write 0 0 (dw 0 [1])) (sliceOn { queue := full })).reg (bMc 0) 0x30) 32 16 = 1 ∧
    (let s := (sliceOn { openSets := [1] }).setReg (bMc 0) 0x10 (field 0 8 20)
     ((after (.readReq 0 0 (rd 0x80 0x100)) s).slice 0).queue.map Req.lines = [[(1, false), (2, true)]] ∧
     ((after (.readReq 0 0 (rd 0x80 0x100)) s).slice 0).openSets = [1, 2]) := by decide +kernel

/-- An access that may be performed of each kind, one that may not, and what they do. -/
theorem test_slice_access_cases :
    let q := fun (p : Packet) => (⟨p, 0, [], false, false⟩ : Req)
    let rd : Req := ⟨{ dw 0 [] with h0 := mkH0 2 0 0 2 0 }, 1, [(0, true)], false, false⟩
    let s := sliceOn { queue := [q (dw 0 [1, 2]), q (dw 64 [3]), rd], dram := [(0, 9), (1, 8)] }
    (s.slice 0).queue[0]? = some (q (dw 0 [1, 2])) ∧ mayPerform s 0 0 = true ∧ mayPerform s 0 1 = false ∧
    mayPerform s 0 2 = false ∧ (s.slice 0).badLines = [] ∧ (s.slice 0).corrLines = [] ∧
    ((after (.sliceAccess 0 0) s).slice 0).dram = [(0, 1), (1, 2)] ∧
    (let u := sliceOn { queue := [rd], dram := [(0, 9), (1, 8)] }
     ((after (.sliceAccess 0 0) u).slice 0).respOut.map (fun o => o.pkt.data) = [[9, 8]] ∧
     bits ((after (.sliceAccess 0 0) u).reg (bMc 0) 0x20) 0 32 = 1) ∧
    ((after (.mergeSetClose 0 5) (sliceOn { openSets := [4, 5] })).slice 0).openSets = [4] := by decide +kernel

/-- The sketch's record: CONTRIB 51,200 and lane 17 at 1,200 take A and B together. -/
theorem test_sketch_record :
    let rec_ := quadBytes 0x13 ++ quadBytes 51200 ++ quadBytes 0 ++ quadBytes 256 ++ quadBytes 1 ++ List.replicate 92 0 ++
      leBytes 1200 4 ++ List.replicate 88 0 ++ leBytes 96 4 ++ List.replicate 92 0
    let o := redApply (combinePair redA redB) rec_
    (readHead o.write).contrib = 51202 ∧ leNat ((o.write.drop 132).take 4) = 1208 ∧ leNat ((o.write.drop 224).take 4) = 97 := by
  decide +kernel

/-- Sensors at each threshold: the level rises at 85, 95 and 105, and falls only below 82, 92 and 102. -/
theorem test_dram_thermal_cases :
    let temps := fun (v : Nat) => (List.replicate 64 (20 : BitVec 8)).set 63 (BitVec.ofNat 8 v)
    let s := fun (was : Nat) => ({ State.reset with pins := { vctl := true } } : State).setSite 0 { dramLevel := was }
    let now := fun was v => ((after (.dramThermalSample 0 (temps v)) (s was)).site 0).dramLevel
    (temps 105).length = 64 ∧ isComputeSite 0 = true ∧ (∀ j, j < 64 → ((temps 105).getD j 0).toInt ≤ 105) ∧
    (∀ j, j < 63 → ((temps 105).getD j 0).toInt < 105) ∧ now 0 84 = 0 ∧ now 0 85 = 1 ∧ now 0 95 = 2 ∧ now 2 105 = 3 ∧
    now 3 102 = 3 ∧ now 3 101 = 2 ∧ now 2 91 = 1 ∧ now 1 82 = 1 ∧ now 1 81 = 0 ∧
    ((after (.dramThermalSample 0 (temps 105)) (s 2)).router 0).plain.length = 1 ∧
    after (.dramThermalSample 0 (temps 105)) State.reset = State.reset := by decide +kernel

/-- The flow table's geometry: b = 19, BASE 0x8000, shard 39 of 64. -/
theorem test_flow_table_geometry :
    let d : Shard := ⟨6, 39, 0, 19, 0x8000 * 4096, 0, 0⟩
    d.entryAt (0x54F68 * 8) = 0x129E_D000 ∧ d.metaAt (0x54F68 * 8) = 0x1953_DA00 ∧ d.entryAt (0x31B05 * 8) = 0x0E36_0A00 ∧
    d.metaAt (0x31B05 * 8) = 0x18C6_C140 ∧ d.entryAt (0x31B05 * 8 + 5) = 0x0E36_0B40 ∧
    d.metaAt (0x31B05 * 8 + 5) = 0x18C6_C168 ∧ d.entryAt 0x40_0000 = 0x1A00_0000 ∧ d.metaAt 0x40_0000 = 0x1A01_0000 ∧
    bits 0x9C3A_51E7_0B2D_4F68 58 6 = 39 ∧ bits 0x9C3A_51E7_0B2D_4F68 0 19 = 0x54F68 ∧
    bits 0x4E17_C0A2_D983_1B05 0 19 = 0x31B05 ∧ nodeOf 20 39 = 0x0627 := by decide +kernel

/-- A shard of two buckets at the start of the slice, its metadata zero, with a request in the queue. -/
def shardWith (q0 q1 : Word) (cap : Nat) (c : Slice) : State :=
  let p := { pkt 0x0C 0 4 0 0x1_0000 (quadBytes q0 ++ quadBytes q1 ++ List.replicate 16 0 ++
    (if bits q0 0 4 = 5 then [] else [7])) with h0 := mkH0 0x0C 0 0 96 0 }
  withRegs [(bLgr 0, 0x08, field 0 1 1 ||| field 32 5 1), (bLgr 0, 0x10, field 0 23 cap)]
    (sliceOn { c with queue := [⟨p, 0, [], false, false⟩], active := true,
                      dram := Sparse.writeAll c.dram 1024 (List.replicate 128 0) })

/-- The shard after one FIND_OR_INSERT of the key, with another request. -/
def shardThen (q0 q1 : Word) (cap : Nat) : State :=
  let c := (after (.findOrInsert 0) (shardWith 2 0 2 {})).slice 0
  let s := shardWith q0 q1 cap {}
  s.setSlice 0 { s.slice 0 with dram := c.dram, live := 1 }

theorem test_find_or_insert_inserts :
    let t := (after (.findOrInsert 0) (shardWith 2 0 2 {})).slice 0
    t.live = 1 ∧ t.queue = [] ∧ t.respOut.map (fun o => quadAt o.pkt.data 0) = [0x201] := by decide +kernel
theorem test_find_finds :
    let t := (after (.find 0) (shardThen 1 0 1)).slice 0
    t.respOut.map (fun o => quadAt o.pkt.data 0) = [0x100] := by decide +kernel
theorem test_find_of_an_absent_key :
    ((after (.find 0) (shardWith 1 0 1 {})).slice 0).respOut.map (fun o => quadAt o.pkt.data 0) = [0x102] := by decide +kernel
theorem test_full_ledger :
    ((after (.findOrInsert 0) (shardWith 2 0 0 {})).slice 0).respOut.map (fun o => quadAt o.pkt.data 0) = [0x203] ∧
    bits ((after (.findOrInsert 0) (shardWith 2 0 0 {})).reg (bLgr 0) 0x38) 0 16 = 1 := by decide +kernel
theorem test_update_of_a_present_key :
    ((after (.update 0) (shardThen 3 0 1)).slice 0).respOut.map (fun o => quadAt o.pkt.data 0) = [0x300] := by decide +kernel
theorem test_remove_lowers_live :
    ((after (.remove 0) (shardThen 4 0 1)).slice 0).live = 0 ∧
    ((after (.remove 0) (shardThen 4 0 1)).slice 0).respOut.map (fun o => quadAt o.pkt.data 0) = [0x400] := by decide +kernel
theorem test_scan_of_no_entries :
    ((after (.scan 0) (shardThen 5 0 1)).slice 0).respOut.map (fun o => quadAt o.pkt.data 0) = [0x500] := by decide +kernel
theorem test_scan_past_the_end :
    ((after (.scan 0) (shardThen 5 (16 + 1024) 1)).slice 0).respOut.map (fun o => quadAt o.pkt.data 0) = [0x505] := by
  decide +kernel

/-- The ledger's hypotheses: the oldest request, its row and others, an initialisation, a shard that is not here. -/
theorem test_ledger_cases :
    let s := shardWith 2 0 2 {}
    let q := ((s.slice 0).queue.map Req.pkt).headD (w1 0)
    isCoreNode 0 = true ∧ pKind q = 0x0C ∧ mayPerform s 0 0 = true ∧ (s.slice 0).initBusy = false ∧
    (readLReq q).op = 2 ∧ pLen q = 96 ∧ aOff q.h1 = 0x1_0000 ∧ (readLReq q).fieldsOk = true ∧
    (ledgerRun s 0 q).reads ≠ [] ∧
    (ledgerRun (s.setSlice 0 { s.slice 0 with active := false }) 0 q).reply.code = 6 ∧
    (ledgerRun s 0 { q with h0 := mkH0 0x0C 0 0 64 0 }).reply.code = 5 ∧ after (.find 0) s = s ∧
    sliceServes s 0 = true ∧ sliceServes State.reset 0 = false := by decide +kernel
theorem test_shard_init_done :
    let s := (shardWith 2 0 2 {}).setSlice 0 { initBusy := true }
    let t := after (.shardInitDone 0) s
    (t.slice 0).active = true ∧ Sparse.find 1024 (t.slice 0).dram = some 0 ∧ Sparse.find 1151 (t.slice 0).dram = some 0 ∧
    Sparse.find 1152 (t.slice 0).dram = none ∧
    Sparse.find 66688 (t.slice 0).dram = some 0 := by decide +kernel

/-! ## Registers -/

/-- Places of each kind: a register, the site-wide range, an offset that names none, one off alignment. -/
theorem test_place_cases :
    place State.reset 2 0 0x18 = some (.reg (bCore 0) 0x18) ∧ place State.reset 2 0 0x11F8 = some (.slot 0 63) ∧
    place State.reset 2 0 0x1_7FF8 = some (.cc 0 4095) ∧ place State.reset 2 0 0x1_8000 = none ∧
    place State.reset 3 0 0x1_0000 = some (.site 0 0) ∧ place State.reset 3 0 1 = none ∧
    place State.reset 3 0 0 = some (.reg (bRtr 0) 0) ∧ isNode 12287 = true ∧ locServed freed ⟨3, 0, 0⟩ = true ∧ locServed State.reset ⟨3, 0, 0⟩ = false ∧
    locServed State.reset ⟨2, 0, 0⟩ = false ∧ locServed (onState {}) ⟨2, 0, 0⟩ = true := by decide +kernel

/-- A register with RW bits, one with W1C bits and one with RWS bits. -/
theorem test_write_cases :
    (regInfo State.reset.birth (bLgr 0) 0x28).isSome ∧ (regInfo State.reset.birth (bRtr 0) 0x80).map RegInfo.rws ≠ some 0 ∧
    (bMc 0).kind ∈ [BlkKind.mc, .lgr, .ctl, .dom] ∧
    (let s := State.reset.plain (bRtr 0) 0x80 0xFFFF
     s.reg (bRtr 0) 0x80 = State.reset.reg (bRtr 0) 0x80 ∧ s.stagedReg (bRtr 0) 0x80 = 0xFF0F ∧ bits (s.reg (bRtr 0) 0) 16 16 = 1) ∧
    (State.reset.plain (bLgr 0) 0x28 7).reg (bLgr 0) 0x28 = 7 := by decide +kernel

/-- GO with nothing staged, with a set that agrees, and with one that does not; DISCARD; the site-wide range. -/
theorem test_commit_cases :
    let l : Loc := ⟨2, 0, 0⟩
    let s := after (.registerWrite ⟨2, 0, 0x30⟩ (field 16 1 1)) (onState {})
    let bad := after (.registerWrite ⟨2, 0, 0x30⟩ (field 8 4 3)) (onState {})
    let st := fun (t : State) => bits (t.reg (bCore 0) 0) 4 4
    bits ((onState {}).reg (bCore 0) 0) 16 16 = 0 ∧ st (after (.commitGo l) (onState {})) = 3 ∧
    bits (s.reg (bCore 0) 0) 16 16 ≠ 0 ∧ blkFails s (bCore 0) = [] ∧ st (after (.commitGo l) s) = 1 ∧
    (after (.commitGo l) s).reg (bCore 0) 0x30 = field 16 1 1 ∧ st (after (.discard l) s) = 4 ∧ (after (.discard l) s).staged = [] ∧
    blkFails bad (bCore 0) = [0x30] ∧ bits ((after (.commitGo l) bad).reg (bCore 0) 0) 4 4 = 2 ∧
    bits ((after (.commitGo l) bad).reg (bCore 0) 0) 32 16 = 6 ∧
    ∀ k ∈ siteRtrs 0, bits (State.reset.reg k 0) 16 16 = 0 := by decide +kernel

/-- The site map that names every site for itself. -/
def idMap : List Word := (List.range 192).map (BitVec.ofNat 64)

theorem idMap_good : (List.range 192).filter (mapBad idMap) = [] := by decide +kernel

theorem map_eff {s : State} {n : Nat}
    (h : ∀ l, l < 192 → Sparse.find ((bRtr n).key (0x400 + 8 * l)) s.regs = none ∧
      Sparse.find ((bRtr n).key (0x400 + 8 * l)) s.staged = none) :
    (List.range 192).map (fun l => eff s (bRtr n) (0x400 + 8 * l)) = idMap := by
  apply List.map_congr_left
  intro l hl
  have hl : l < 192 := List.mem_range.1 hl
  have hr : regInfo s.birth (bRtr n) (0x400 + 8 * l) = some (rwsReg (BitVec.ofNat 64 l) (msk 8 0)) := by
    have a : ∀ b k m, b + k * m ≤ 0x400 → inArray (0x400 + 8 * l) b k m = false := by
      intro b k m hb
      simp only [inArray, Bool.and_eq_false_iff, decide_eq_false_iff_not]
      omega
    have b : inArray (0x400 + 8 * l) 0x400 8 192 = true := by
      simp only [inArray, Bool.and_eq_true, decide_eq_true_eq]
      omega
    have c : (0x400 + 8 * l - 0x400) / 8 = l := by omega
    have z : ∀ x, x < 0x400 → 0x400 + 8 * l ≠ x := by omega
    unfold regInfo bRtr rtrRegs
    rw [if_neg (z 0x00 (by decide)), if_neg (z 0x08 (by decide)), if_neg (z 0x10 (by decide)), if_neg (z 0x18 (by decide)),
      if_neg (z 0x20 (by decide)), if_neg (z 0x28 (by decide)), a 0x30 8 4 (by decide), a 0x50 8 4 (by decide),
      if_neg (z 0x80 (by decide)), a 0x100 8 16 (by decide), b, c]
    rfl
  have e : s.reg (bRtr n) (0x400 + 8 * l) = BitVec.ofNat 64 l := by
    unfold State.reg
    rw [(h l hl).1, hr]
    rfl
  unfold eff State.stagedReg rwsMask
  rw [(h l hl).2, e, hr]
  ext i
  simp only [Option.getD_none, Option.map_some, Option.getD_some, rwsReg, BitVec.getElem_or, BitVec.getElem_and, BitVec.getElem_not]
  cases (BitVec.ofNat 64 l)[i] <;> cases (msk 8 0)[i] <;> rfl
/-- A panel on which router 0 has a staged combining configuration and no other block has anything. -/
def oneStaged : State := after (.registerWrite ⟨3, 0, 0x80⟩ 0xFF0F) freed

theorem test_site_wide_case : (∃ k ∈ siteRtrs 0, bits (oneStaged.reg k 0) 16 16 ≠ 0) ∧
    ∀ k ∈ siteRtrs 0, blkFails oneStaged k = [] := by
  refine ⟨by decide +kernel, ?_⟩
  have hr : oneStaged.regs = [((bRtr 0).key 0, 0x1_0000)] ∧ oneStaged.staged = [((bRtr 0).key 0x80, 0xFF0F)] := by
    decide +kernel
  have hm : ∀ n l, l < 192 → Sparse.find ((bRtr n).key (0x400 + 8 * l)) oneStaged.regs = none ∧
      Sparse.find ((bRtr n).key (0x400 + 8 * l)) oneStaged.staged = none := by
    intro n l hl
    rw [hr.1, hr.2]
    simp only [Sparse.find, bRtr, Blk.key, Blk.num, BlkKind.num]
    constructor <;> exact if_neg (by omega)
  have rest : ∀ n ∈ siteNodes 0, let c := eff oneStaged (bRtr n) 0x18
      failAt (c &&& edgeMask n != edgeMask n) 0x18 = [] ∧
      (let t := eff oneStaged (bRtr n) 0x28
       failAt (decide (1300 < bits t 0 11) || decide (bits t 0 11 < bits t 16 11) ||
         decide (bits t 32 8 < bits t 40 8)) 0x28 = []) ∧
      ((List.range 16).filter fun i => detourBad n c (eff oneStaged (bRtr n) (0x100 + 8 * i))) = [] ∧
      treeOffs oneStaged (bRtr n) = [] := by decide +kernel
  intro k hk
  obtain ⟨n, hn, rfl⟩ := List.mem_map.1 hk
  obtain ⟨h1, h2, h3, h4⟩ := rest n hn
  show rtrFails oneStaged (bRtr n) = []
  unfold rtrFails
  simp only [map_eff (hm n), idMap_good, h4]
  have hu : (bRtr n).unit = n := rfl
  rw [hu, h1, h2, h3]
  rfl

theorem test_site_wide_conflict :
    let s := (after (.registerWrite ⟨3, 0, 0x400⟩ 0xFF) freed)
    blkFails s (bRtr 0) ≠ [] ∧ (∃ k ∈ siteRtrs 0, bits (s.reg k 0) 16 16 ≠ 0) ∧
    bits ((after (.commitGo ⟨3, 0, 0x1_0000⟩) s).reg (bRtr 1) 0) 4 4 = 2 := by decide +kernel

/-- A slot and a counter on which nothing waits; MODE 3. -/
theorem test_slot_and_counter_writes :
    coreServed (onState {}) 0 = true ∧ ((onState {}).core 0).clearing = false ∧
    (∀ j, j < 4 → ((onState {}).ctx 0 j).waits = false) ∧
    ((after (.slotWrite 0 63 (field 32 2 3)) (onState {})).core 0).slots = [] ∧
    ((after (.slotWrite 0 63 (field 32 2 3)) (onState {})).router 0).offers.length = 1 ∧
    ((after (.slotWrite 0 5 0x0000_0288_0000_0000) (onState {})).core 0).slots = [(5, 0x0000_0288_0000_0000)] ∧
    ((after (.ccWrite 0 4095 0x1_0000_0002) (onState {})).core 0).ccs = [(4095, 2)] := by decide +kernel

/-- A packet to registers: off alignment, with an undefined offset, and of two defined registers. -/
theorem test_register_packet_cases :
    let p := fun (off : Nat) (d : List Word) => pkt 0x01 0 3 0 off (d.flatMap quadBytes)
    let r := fun (off len : Nat) => { pkt 0x02 0 3 0 off [] with h0 := mkH0 2 0 0 len 0 }
    aSpace (p 0x80 [1]).h1 = 3 ∧ aOff (p 0x84 [1]).h1 % 8 ≠ 0 ∧ aOff (p 0x80 [1]).h1 % 8 = 0 ∧ pLen (p 0x80 [1]) % 8 = 0 ∧
    isNode 0 = true ∧ addrHere freed (p 0x80 [1]).h1 = true ∧
    (after (.write 0 0 (p 0x80 [0x10F])) freed).stagedReg (bRtr 0) 0x80 = 0x10F ∧
    ((after (.write 0 0 (p 0x84 [1])) freed).router 0).plain.length = 1 ∧
    ((after (.write 0 0 (p 0x90 [1, 2])) freed).router 0).plain.length = 1 ∧
    ((after (.readReq 0 0 (r 0x90 8)) freed).router 0).plain.length = 1 ∧
    (((after (.readReq 0 0 (r 0x90 8)) freed).plane 0 0).inputs.map fun h => h.pkt.data) = [List.replicate 8 0] ∧
    place State.reset 3 0 0x90 = none := by decide +kernel

/-! ## Control of a core -/

/-- Core 0 as a member of region 0 at entry word 2, its context states as given, cleared. -/
def member (ctxs : Sparse Ctx) (ctl : Word) : State :=
  withRegs [(bCore 0, 0x30, field 16 1 1), (bCore 0, 0x28, 16), (bCore 0, 0x18, ctl)]
    (onState { ctxs := ctxs, clearDone := true })

/-- START ready, with HALT set, and refused; CLEAR of a core that is not clearing, and its end. -/
theorem test_start_and_clear_cases :
    (∀ i, i < 4 → ((member [] 0).ctx 0 i).state = .free) ∧ bit ((member [] 0).reg (bCore 0) 0x30) 16 = true ∧
    ((member [] 0).core 0).clearDone = true ∧ coreServed (member [] 0) 0 = true ∧
    ((after (.start 0) (member [] 0)).ctx 0 0).state = .ready ∧ ((after (.start 0) (member [] 0)).ctx 0 0).pc = 16 ∧
    ((after (.start 0) (member [] 0x10)).ctx 0 0).state = .halted ∧
    ((after (.start 0) (onState {})).router 0).offers.length = 1 ∧
    bit ((after (.start 0) (onState {})).reg (bCore 0) 0x20) 13 = true ∧
    (after (.clear 0) (member [(1, { state := .ready })] 0)).core 0 = { clearing := true } ∧
    ((after (.clearDone 0) (onState { clearing := true })).core 0).clearDone = true ∧
    after (.clear 0) (onState { clearing := true }) = onState { clearing := true } := by decide +kernel

/-- HALT and its release for a context of each kind. -/
theorem test_halt_cases :
    let s := member [(0, { state := .ready }), (1, { state := .parked, wait := .slot 5 12, idle := true }),
      (2, { state := .faulted })] 0
    let t := after (.halt 0 0xF) s
    (t.ctx 0 0).state = .halted ∧ (t.ctx 0 1) = { state := .halted, wait := .slot 5 12 } ∧ (t.ctx 0 2).state = .faulted ∧
    (t.ctx 0 3).state = .free ∧ ((after (.halt 0 0) t).ctx 0 0).state = .ready ∧ ((after (.halt 0 0) t).ctx 0 1).state = .parked ∧
    (let u := member [(0, { state := .halted, wake := true }), (1, { state := .halted, wait := .inbox })] 0x30
     ((after (.halt 0 2) u).ctx 0 0) = { state := .ready } ∧ ((after (.halt 0 1) u).ctx 0 1).state = .parked ∧
     (u.core 0).packets = 0 ∧
     (let v := u.setCore 0 { u.core 0 with inbox := [⟨[], true⟩] }
      (v.core 0).packets = 1 ∧ ((after (.halt 0 1) v).ctx 0 1).state = .ready)) := by decide +kernel
theorem test_clear_fault_cases :
    let s := member [(0, { state := .faulted, faultInfo := 3 }), (1, { state := .faulted, outstanding := 1 }),
      (2, { state := .ready })] 0
    let t := after (.clearFault 0 7) s
    t.ctx 0 0 = {} ∧ (t.ctx 0 1).clearPending = true ∧ t.ctx 0 2 = { state := .ready } := by decide +kernel

/-- FLUSH with and without a packet being admitted, and its end. -/
theorem test_flush_cases :
    let m := pkt 0x04 0 1 0 0 [1]
    let a : Core := { inbox := [⟨[], false⟩], admitting := some ⟨0, m, [⟨[], true⟩]⟩ }
    (after (.flush 0) (onState { inbox := [⟨[], true⟩] })).core 0 = {} ∧
    ((after (.flush 0) (onState a)).core 0).flushPending = true ∧
    (let t := after (.flushComplete 0) (onState { a with flushPending := true })
     (t.core 0).inbox = [] ∧ (t.core 0).flushPending = false ∧ (t.core 0).admitting = none ∧ (t.core 0).cc 0 = 1) ∧
    after (.flushComplete 0) (onState a) = onState a ∧
    (after (.flushComplete 0) (onState { flushPending := true })).core 0 = {} := by decide +kernel

/-! ## Panel images -/

/-- A panel whose image engine is in a state, with what it holds. -/
def imgIn (st : Nat) (g : ImgEngine) : State :=
  { withRegs [(bImg, 0x10, field 0 3 st)] State.reset with lead := { img := g } }

/-- What BEGIN and ABORT find: a load that can be, one that cannot, one with nothing to do. -/
theorem test_begin_and_abort_cases :
    let st := fun (t : State) => bits (t.reg bImg 0x10) 0 3
    st (after (.imgBegin 1) State.reset) = 1 ∧ st (after (.imgBegin (field 0 1 1 ||| field 4 2 1)) State.reset) = 6 ∧
    bits ((after (.imgBegin (field 0 1 1 ||| field 4 2 3)) State.reset).reg bImg 0x10) 8 8 = 0x12 ∧
    after (.imgBegin 0) State.reset = State.reset ∧ after (.imgBegin 3) State.reset = State.reset ∧
    after .imgAbort State.reset = State.reset ∧ st (after .imgAbort (imgIn 3 {})) = 6 ∧
    bits ((after .imgAbort (imgIn 3 {})).reg bImg 0x10) 8 8 = 0x0F ∧
    bits ((imgIn 7 {}).reg bImg 0x10) 0 3 = 7 := by decide +kernel

/-- A chunk in order, one ahead of the bytes consumed, and one that is dropped. -/
theorem test_image_chunk_cases :
    let c := fun (off : Nat) => quadBytes (BitVec.ofNat 64 off) ++ [1, 2, 3, 4, 5, 6, 7, 8]
    (c 0).length = 16 ∧ (after (.imgData (c 0)) (imgIn 1 {})).lead.img.hdr = [1, 2, 3, 4, 5, 6, 7, 8] ∧
    bits ((after (.imgData (c 0)) (imgIn 1 {})).reg bImg 0x18) 0 48 = 8 ∧
    (after (.imgData (c 8)) (imgIn 1 {})).lead.img.window = [(8, 1), (9, 2), (10, 3), (11, 4), (12, 5), (13, 6), (14, 7), (15, 8)] ∧
    bits ((after (.imgData (c (2 ^ 20))) (imgIn 1 {})).reg bImg 0x18) 48 16 = 1 ∧
    bits ((after (.imgData (c 0)) State.reset).reg bImg 0x18) 48 16 = 1 ∧ (imgIn 1 {}).lead.img.hdr.length < hdrBytes := by
  decide +kernel

/-- CHECKING: nothing expected; a count above; one below at the third repair and before; a write not acknowledged. -/
theorem test_load_check_cases :
    let st := fun (t : State) => bits (t.reg bImg 0x10) 0 3
    let core := fun (g : ImgEngine) (k : Nat) (reps : Nat) => { withRegs [(bImg, 0x10, field 0 3 2 ||| field 27 2 reps)]
      (member [] 0) with lead := { img := { g with expect := [(0, k)], mode := 2 } } }
    st (after .loadCheck (imgIn 2 { hold := true, mode := 1 })) = 4 ∧ st (after .loadCheck (imgIn 2 { mode := 2 })) = 5 ∧
    (imgIn 2 { mode := 2 }).lead.img.targets = [] ∧ (∀ r, r < 32 → rgnState (imgIn 2 {}) r ≠ 1) ∧
    (loadCount (core {} 0 0) 0).map Prod.snd = some 0 ∧
    (let u := (core {} 0 0).setCore 0 { ccs := [(0, 1)], clearDone := true }
     (loadCount u 0).map Prod.snd = some 1 ∧ st (after .loadCheck u) = 6) ∧
    st (after .loadCheck (core {} 1 0)) = 3 ∧ st (after .loadCheck (core {} 1 3)) = 6 ∧
    (let u := imgIn 2 { sent := [w1 0], mode := 2 }
     u.lead.img.sent ≠ [] ∧ bits (u.reg bImg 0x10) 27 2 < 3 ∧ st (after .loadCheck u) = 3 ∧
     st (after .loadCheck (u.setReg bImg 0x10 (field 0 3 2 ||| field 27 2 3))) = 6) := by decide +kernel

/-- RELEASE with no target, with one that may start and with one that may not. -/
theorem test_release_cases :
    let st := fun (t : State) => bits (t.reg bImg 0x10) 0 3
    let one := fun (s : State) => { s.setReg bImg 0x10 4 with lead := { img := { targets := [0] } } }
    st (after .release (imgIn 4 {})) = 5 ∧ reachCore (one (member [] 0)) 0 = some 0 ∧ mayStart (one (member [] 0)) 0 = true ∧
    st (after .release (one (member [] 0))) = 5 ∧ ((after .release (one (member [] 0))).ctx 0 0).state = .ready ∧
    mayStart (one (onState {})) 0 = false ∧ st (after .release (one (onState {}))) = 6 ∧
    after .release State.reset = State.reset := by decide +kernel

/-- A region that waits for its drain advances when the whole image has been taken. -/
theorem test_gen_advance_case :
    let g : ImgEngine := { waitAdvance := [31], hdr := List.replicate hdrBytes 0 }
    g.waitAdvance = [31] ∧ hdrBytes ≤ g.hdr.length ∧ g.sec = 0 ∧ bits (rgnCfg (imgIn 1 {}) 31) 32 8 = 0 ∧
    regionSites (imgIn 1 {}) 31 = [] := by
  refine ⟨rfl, ?_, rfl, by decide +kernel, by decide +kernel⟩
  simp
theorem test_att_ready_cases : State.reset.lead.attBusy = false ∧ after .attReady State.reset = State.reset ∧
    ({ State.reset with lead := { attBusy := true } } : State).lead.attBusy = true := by decide +kernel

/-- An image header with the two sections that every image has, back to back, and nothing else (R263 to R265). -/
def header (magic f sn len1 : Word) : List Byte :=
  let q := quadBytes
  let zs := fun n => List.replicate n (0 : Byte)
  q magic ++ q f ++ q 0x7300 ++ q 0 ++ q sn ++ q 2 ++ q 0 ++ q 0 ++
    (q 1 ++ q 0x6480 ++ q len1 ++ zs 72) ++ (q 2 ++ q 0x6AC0 ++ q 2112 ++ zs 72) ++ zs (0x6480 - 256)

/-- The magic number of an image. -/
def magic : Word := 0x444C_5449_4D41_4745

/-- A header that passes, and one for each way to fail before the policy is asked. -/
theorem test_header_good : headerFails State.reset (header magic 1 0 1600) = none := by decide +kernel
theorem test_header_table : headerFails State.reset (header magic 1 0 1536) = some 0x06 := by decide +kernel
theorem test_header_early_failures :
    headerFails State.reset (header 0 1 0 1600) = some 0x01 ∧ headerFails State.reset (header magic 0x2_0001 0 1600) = some 0x02 ∧
    headerFails State.reset (header magic 1 9 1600) = some 0x03 := by decide +kernel

/-- A load in REPAIR that has staged into a block. -/
def busyLoad : State := imgIn 3 { sec := 4, staged := [bLgr 0] }

/-- BEGIN over a load in progress aborts that one first. -/
theorem test_begin_over_a_load :
    bits (busyLoad.reg bImg 0x10) 0 3 = 3 ∧ (after .imgAbort busyLoad).lead.img.staged = [] ∧
    (after (.imgBegin 1) busyLoad).lead = (after (.imgBegin 1) (after .imgAbort busyLoad)).lead ∧
    bits ((after (.imgBegin 1) busyLoad).reg bImg 0x10) 0 3 = 1 := by decide +kernel

/-- A commit to the locked IMG block is rejected, with nothing staged as well. -/
theorem test_locked_commit :
    let l : State := withRegs [(bImg, 0x20, 2)] freed
    let t := after (.commitGo ⟨5, nodeOf 52 0, 0x20_0000⟩) l
    (bits (t.reg bImg 0) 4 4, bits (t.reg bImg 0) 32 16) = (2, 4) := by decide +kernel

/-- An engine in the section of a type, with the bytes of it that have been consumed. -/
def inSection (cur : Nat) (body : List Byte) (g : ImgEngine) : State :=
  imgIn 1 { g with cur := cur, body := body, hdr := List.replicate hdrBytes 0 }

/-- A section of a type for region 2. -/
def sec (ty len : Nat) : Section := ⟨ty, if ty < 8 then 0 else 2, 0, 0x8000, len, []⟩

/-- A REGIONS body with region 2 alone, on the sites of a list (R269). -/
def regionsOf (q : Word) (sites : Word) : List Byte :=
  List.replicate 128 0 ++ (quadBytes q ++ quadBytes sites ++ List.replicate 48 0) ++ List.replicate (64 * 29) 0

/-- Section heads that hold and that break their rules; items of each size; a section that is not received. -/
theorem test_section_cases :
    let st := fun (t : Option State) => t.map fun t => bits (t.reg bImg 0x10) 0 16
    let head := fun (ty : Nat) (q : Word) => quadBytes (field 0 8 ty ||| q) ++ List.replicate 56 0
    let rgn := regionsOf 1 2
    rgnQuad rgn 2 0 = 1 ∧ st (sectionStep (inSection 0 (head 3 (field 8 32 1)) {}) (sec 3 80)) = some 1 ∧
    st (sectionStep (inSection 0 (head 3 (field 8 32 2)) {}) (sec 3 80)) = some 0x806 ∧
    st (sectionStep (inSection 0 (head 8 (field 8 16 1)) { rgn := rgn }) (sec 8 400)) = some 1 ∧
    st (sectionStep (inSection 0 (head 8 0) { rgn := rgn }) (sec 8 400)) = some 0x806 ∧
    st (sectionStep (inSection 0 (head 9 0) {}) (sec 9 400)) = some 0x806 ∧
    st (sectionStep (inSection 0 (quadBytes 4 ++ quadBytes 4097 ++ List.replicate 48 0) {}) (sec 4 64)) = some 0xA06 ∧
    st (sectionStep (inSection 64 (head 3 0 ++ List.replicate 16 0) {}) (sec 3 80)) = some 0x806 ∧
    sectionWanted {} (sec 0x0B 64) = true ∧ sectionWanted { mode := 1, regions := 4 } (sec 9 64) = true ∧
    sectionWanted { mode := 1, regions := 2 } (sec 9 64) = false ∧ sectionWanted { mode := 2, regions := 4 } (sec 9 64) = false := by
  decide +kernel

/-- A register record that stages, one that the section may not write, one after its commit record, a commit record
with another value, and one with no register behind its address. -/
theorem test_record_cases :
    let s := inSection 64 [] {}
    let a := mkAddr 3 true 0 7 0x80
    let c := mkAddr 3 true 0 7 0
    let bad := fun (t : State) => bits (t.reg bImg 0x10) 0 16 = 0x806
    let t := s.recordAct 3 a 0xFF0F
    (t.stagedReg (bRtr 7) 0x80, t.lead.img.staged, t.lead.img.touched) = (0xFF0F, [bRtr 7], [bRtr 7]) ∧
    (t.recordAct 3 c 1).lead.img.commits = [(bRtr 7, false, 7)] ∧ bad ((t.recordAct 3 c 1).recordAct 3 a 0) ∧
    bad (s.recordAct 3 c 2) ∧ bad (s.recordAct 5 a 0) ∧ bad (s.recordAct 3 (mkAddr 3 true 0 7 1) 0) ∧
    ((s.recordAct 4 (mkAddr 3 true 0 7 0x8018) 0x11).lead.img.trees = [(4096 * 7 + 3, 0x11)]) ∧
    (((t.recordAct 3 c 1).commitRecords [(bRtr 7, false, 7)]).reg (bRtr 7) 0x80 = 0xFF0F) ∧
    ((s.recordAct 3 (mkAddr 3 true 0 7 0x28) (field 0 11 1301)).commitRecords [(bRtr 7, false, 7)]).getField bImg 0x10 0 16
      = 0xB06 := by
  decide +kernel

theorem test_may_write : MayWrite 3 .rtr 0x80 ∧ MayWrite 5 .lgr 0x28 ∧ ¬ MayWrite 7 .core 0 :=
  ⟨.inl ⟨rfl, .inl (by decide)⟩, ⟨rfl, by decide⟩, not_false⟩

/-- REGIONS with region 2 alone, at site 2, and a load of it. -/
def goodRegions : List Byte := regionsOf (field 0 1 1 ||| field 16 16 0xABC ||| field 32 12 77) 4
def regionLoad : State := imgIn 1 { mode := 1, regions := 4, rgn := goodRegions }

/-- REGIONS whose entries hold R269, and entries that break it. -/
theorem test_good_regions : rgnOk goodRegions = true := by decide +kernel
theorem test_regions_cases : rgnOk (regionsOf 0 4) = false ∧ rgnOk (regionsOf 1 0) = false ∧
    rgnOk (regionsOf (field 0 1 1 ||| field 4 2 3) 4) = false := by decide +kernel

/-- A region as a load writes it, and its first generation. -/
def regionWritten : State := ((regionLoad.writeRegion 2).firstGen 2).modImg fun g => { g with waitAdvance := [2] }

theorem regions_end : regionLoad.regionsEnd = regionWritten := by
  have f : loadRegions regionLoad = [2] := by decide +kernel
  have v : [2].filter (rgnValid (regionLoad.writeRegion 2)) = [2] := by decide +kernel
  have m : ¬ regionLoad.lead.img.mode = 0 := by decide +kernel
  have g : (!rgnOk regionLoad.lead.img.rgn) = false := congrArg (!·) test_good_regions
  unfold State.regionsEnd
  rw [g, if_neg Bool.false_ne_true]
  simp only [f, List.foldl_cons, List.foldl_nil, v, if_neg m]
  rfl
theorem test_region_written :
    (regionLoad.lead.img.regions.getLsbD 2, bits (rgnCfg regionLoad 2) 4 4) = (true, 0) ∧
    regionWritten.lead.img.first = [2] ∧ regionWritten.lead.img.waitAdvance = [2] ∧
    rgnState regionWritten 2 = 1 ∧ bits (rgnCfg regionWritten 2) 4 4 = 1 ∧ bits (rgnCfg regionWritten 2) 16 16 = 0xABC ∧
    (after (.genAdvance 2) regionWritten).lead.img.waitAdvance = [] ∧
    bits (rgnCfg (after (.genAdvance 2) regionWritten) 2) 4 4 = 1 := by decide +kernel

/-- A core that joins a region, one that no access reaches, and a region in its second generation. -/
theorem test_join_cases :
    let e := regionsOf (field 0 1 1 ||| field 6 2 1 ||| field 8 8 9) 1
    let s : State := { withRegs [(bImg, 0x10, 1), (bStw 0, rgnOff 2, field 0 1 1 ||| field 4 4 3)] (member [] 0) with
      lead := { img := { rgn := e } } }
    coreServed s 0 = true ∧ ((s.joinCore 2 0).reg (bCore 0) 0x30, (s.joinCore 2 0).reg (bCore 0) 0x38) = (0x1_0302, 0x901) ∧
    coreServed State.reset 0 = false ∧ bits ((s.joinCore 2 64).reg bImg 0x10) 0 16 = 0xD06 := by decide +kernel

/-- A program for one listed core: its pieces go by unicast and its ENTRY is written; targets outside the region. -/
theorem test_program_cases :
    let e := regionsOf (field 0 1 1 ||| field 32 12 77) 1
    let p : Program := ⟨field 0 14 1 ||| field 16 13 0 ||| field 44 1 1, field 32 16 1,
      List.replicate 48 0 ++ List.replicate 64 0 ++ (quadBytes 0x1234 ++ List.replicate 56 0)⟩
    let s : State := { withRegs [(bImg, 0x10, 1)] (member [] 0) with lead := { img := { rgn := e, mode := 1 } } }
    let t := s.programAct 2 p
    p.ok = true ∧ p.targets = [0] ∧ pieces p.code = [(0, quadBytes 0x1234)] ∧ reachCore s 0 = some 0 ∧
    (t.lead.img.targets, t.lead.img.expect, t.lead.img.loose.length) = ([0], [(0, 1)], 1) ∧
    (t.router leadNode).offers.map (fun o => (pKind o.pkt, aOff o.pkt.h1, pCid o.pkt, o.pkt.data)) =
      [(1, 0x0100_0000, 77, quadBytes 0x1234)] ∧ t.reg (bCore 0) 0x28 = 0 ∧
    bits ((t.programAct 2 p).reg bImg 0x10) 0 16 = 0x806 ∧ ({ p with q0 := 0 } : Program).ok = false ∧
    bits ((s.programAct 2 { p with q1 := p.q1 ||| field 0 13 4097 }).reg bImg 0x10) 0 16 = 0xA06 := by decide +kernel

theorem test_program_holds : ∃ p, ProgramHolds p ∧ p.ok = true ∧ bit p.q0 44 = true := by
  refine ⟨⟨field 0 14 8 ||| field 44 1 1, field 32 16 32, List.replicate 48 0⟩, ?_, by decide +kernel, by decide +kernel⟩
  have z : ∀ i, (List.replicate 48 (0 : Byte)).getD i 0 = 0 := by
    intro i
    rcases Nat.lt_or_ge i 48 with h | h
    · exact (show ∀ j, j < 48 → (List.replicate 48 (0 : Byte)).getD j 0 = 0 by decide) i h
    · exact List.getD_eq_default _ _ (by simpa using h)
  constructor
  · decide +kernel
  · decide +kernel
  · exact ⟨by decide +kernel, by decide +kernel, by decide +kernel, by decide +kernel, by decide +kernel, fun i _ => z i⟩
  · intro i _ _; exact z _
  · intro i _ _; exact z _

/-- A tile record for the scratchpad of a core, for DRAM, and with bytes that are no tile. -/
theorem test_tile_record_cases :
    let e := regionsOf (field 0 1 1 ||| field 32 12 77) 1
    let r := fun (q0 : Word) (a : Word) => (⟨q0, a, 8, List.replicate 40 0 ++ quadBytes 0x1234 ++ List.replicate 56 0⟩ : TileRec)
    let s : State := { withRegs [(bImg, 0x10, 1)] (member [] 0) with lead := { img := { rgn := e, mode := 1 } } }
    let core := r 0 (mkAddr 1 true 0 0 0x40)
    let dram := r 2 (mkAddr 0 true 0 0 0x40)
    (core.ok e 2, dram.ok e 2, (r 0 (mkAddr 1 true 0 64 0x40)).ok e 2) = (true, true, false) ∧
    ((s.tileAct 2 core).router leadNode).offers.map (fun o => (pKind o.pkt, aOff o.pkt.h1, o.pkt.data)) =
      [(1, 0x40, quadBytes 0x1234)] ∧ (s.tileAct 2 core).lead.img.expect = [(0, 1)] ∧
    (s.tileAct 2 dram).lead.img.sent.map (fun p => (aOff p.h1, p.data)) = [(0x40, quadBytes 0x1234)] ∧
    bits ((s.tileAct 2 (r 4 (mkAddr 1 true 0 0 0x40))).reg bImg 0x10) 0 16 = 0xC06 ∧
    bits ((s.tileAct 2 (r 3 (mkAddr 1 true 0 0 0x40))).reg bImg 0x10) 0 16 = 0x806 := by decide +kernel

/-- A load tree of one root and one member. -/
theorem test_load_tree_case :
    let root := nodeOf 52 0
    let trees : Sparse Word := [(5, 0x101), (4096 * root + 5, field 0 1 1 ||| field 1 3 4)]
    loadTree trees [0] (regionsOf 1 1) 2 5 = some (root, [0]) ∧ loadTree trees [0] (regionsOf 1 2) 2 5 = none ∧
    unmapSite [0x100, 3] 3 = some 1 ∧ siteOf root = 52 := by decide +kernel

/-- CHECKING with a core below its count: it is reported, set to 0 and repaired. -/
theorem test_load_short_case :
    let s := { withRegs [(bImg, 0x10, field 0 3 2)] (member [] 0) with lead := { img := { expect := [(0, 2)], mode := 2 } } }
    let u := s.setCore 0 { ccs := [(0, 1)], clearDone := true }
    let t := after .loadCheck u
    (loadCount u 0).map Prod.snd = some 1 ∧ bits (t.reg bImg 0x10) 0 3 = 3 ∧ bits (t.reg bImg 0x10) 27 2 = 1 ∧
    ((t.core 0).cc 0, t.lead.img.short, t.lead.img.repairing) = (0, [0], true) ∧
    (t.router leadNode).offers.map (fun o => noticeCode o.pkt) = [0x0504] := by decide +kernel

/-- The signature: a report is 512 bytes and 512 more when it is ready. -/
theorem test_report_length : (after .attest State.reset).lead.attBusy = true := by decide +kernel

/-- CLEAR over a packet part-way into the inbox: it is discarded with a credit. -/
theorem test_clear_admitting_case :
    let m := { pkt 0x04 0 1 0 0 [1] with h3 := field 16 16 9 }
    let t := after (.clear 0) (onState { admitting := some ⟨0, m, [⟨[], true⟩]⟩ })
    t.core 0 = { clearing := true } ∧ (t.router 0).offers.map (fun o => (pKind o.pkt, o.plane)) = [(kCredit, some 0)] := by decide +kernel

/-! ## Pass ports -/

/-- A panel on which a port of a link die has a PASS_STAT and a link. -/
def portIn (k : Nat) (stat : Word) (l : Link) : State :=
  withRegs [(bPass k, 0x20, stat), (bPass k, 0x38, 0x3_FFFF_FFFF)]
    { State.reset with links := [(k, l)], pins := { State.reset.pins with resetHeld := false } }

/-- PASS_STAT of a port that is UP at width 32. -/
def upStat : Word := field 0 3 5 ||| field 8 6 32 ||| field 16 6 32

/-- A far end with every lane good, level 1 and every feature. -/
def farEnd : FarEnd := ⟨1, 0, 0x1FF, 0, 0, true, false, 0x3_FFFF_FFFF, 0⟩

/-- A numbered DATA frame, as the retry buffer keeps it. -/
def kept (q : Nat) : Frame := ⟨field 0 4 1 ||| field 4 12 q ||| field 28 4 1 ||| field 32 4 1, 0, [], 0⟩

/-- TRAIN, OPTICS_OFF and each training state, with the reason of each way down. -/
theorem test_training_cases :
    let st := fun (t : State) => bits (t.reg (bPass 7) 0x20) 0 3
    let why := fun (t : State) => bits (t.reg (bPass 7) 0x20) 4 4
    let i := fun n => portIn 7 (field 0 3 n) {}
    st (after (.passTrain 7) (i 0)) = 1 ∧ ((after (.passTrain 7) (i 5)).link 7).resuming = true ∧
    ((after (.passTrain 7) (i 0)).link 7).laserOn = true ∧
    after (.passTrain 7) (withRegs [(bPass 7, 0x10, 4)] (i 0)) = withRegs [(bPass 7, 0x10, 4)] (i 0) ∧
    (why (after (.passCtlDown 7) (i 5)), why (after (.opticsOff 7 true) (i 5))) = (1, 2) ∧
    st (after (.passOpticsDone 7) (i 1)) = 2 ∧ st (after (.passLaneLockDone 7 true 0xFF) (i 2)) = 3 ∧
    why (after (.passLaneLockDone 7 false 0xFF) (i 2)) = 3 ∧ why (after (.passLaneLockDone 7 true 0x7F) (i 2)) = 4 ∧
    (let u := withRegs [(bPass 7, 0x38, 0xFFFF)] (i 3)
     st (after (.passAlignDone 7 true) u) = 4 ∧ bits ((after (.passAlignDone 7 true) u).reg (bPass 7) 0x20) 16 6 = 16 ∧
     why (after (.passAlignDone 7 true) (withRegs [(bPass 7, 0x18, 2)] u)) = 9 ∧ after (.passAlignDone 7 false) u = u) ∧
    (why (after (.passTrainTimeout 7) (i 4)), why (after (.passAckStall 7) (i 5))) = (7, 8) ∧
    after (.passTrainTimeout 7) (i 5) = i 5 ∧ after (.passAckStall 7) (i 6) = i 6 := by decide +kernel

/-- EXCHANGE: UP, afresh and resumed; and down for each reason. -/
theorem test_exchange_cases :
    let why := fun (t : State) => bits (t.reg (bPass 0) 0x20) 4 4
    let x := fun (far : FarEnd) (l : Link) => after (.passExchangeDone 0 far) (portIn 0 (field 0 3 4) l)
    let t := x farEnd { txSeq := 9, rxSeq := 4, retry := [kept 7, kept 8] }
    let r := x { farEnd with nextFseq := 8 } { resuming := true, txSeq := 9, rxSeq := 4, retry := [kept 7, kept 8] }
    t.reg (bPass 0) 0x20 &&& 0xFFFF = field 0 3 5 ||| field 8 6 32 ∧ bits (t.reg (bPass 0) 0x28) 4 4 = 1 ∧
    t.reg (bPass 0) 0x30 = 0x1FF ∧ (t.router (linkNode 0)).offers.map (fun o => noticeCode o.pkt) = [0x0601] ∧
    ((t.link 0).txSeq, (t.link 0).rxSeq, (t.link 0).retry) = (0, 0, []) ∧
    ((r.link 0).txSeq, (r.link 0).rxSeq, (r.link 0).retry, (r.link 0).resend) = (9, 4, [kept 8], [kept 8]) ∧
    why (x { farEnd with goodRx := 0x7F } {}) = 4 ∧ why (x { farEnd with level := 0 } {}) = 5 ∧
    why (x { farEnd with q1Mode := true } {}) = 6 ∧
    why (after (.passExchangeDone 0 { farEnd with goodRx := 0xFF })
      (withRegs [(bPass 0, 0x18, 1)] (portIn 0 (field 0 3 4) {}))) = 9 := by decide +kernel

/-- Active lanes above the limit, a spare above it, the repair that keeps the width, one that lowers it, one below
MIN_WIDTH, one that leaves too few lanes. -/
theorem test_lane_cases :
    let u := withRegs [(bPass 0, 0x18, field 8 16 100)] (portIn 0 upStat { rxSeq := 4 })
    let m := after (.laneErrCheck 0 [100, 101]) u
    let notes := fun (t : State) => (t.router (linkNode 0)).offers.map (fun o => noticeCode o.pkt)
    let st := fun (t : State) => bits (t.reg (bPass 0) 0x20) 0 3
    let done := fun (g : BitVec 34) (t : State) => after (.remapDone 0 ⟨g, 0⟩) t
    st m = 6 ∧ m.reg (bPass 0) 0x38 = 0x3_FFFF_FFFD ∧ (after (.laneErrCheck 0 [100]) u).reg (bPass 0) 0x20 = upStat ∧
    st (after (.laneErrCheck 0 (List.replicate 33 0 ++ [500])) u) = 5 ∧
    (m.link 0).sentEnd.map (fun e => (e.goodRx, e.nextFseq)) = some (0x3_FFFF_FFFD, 4) ∧
    notes (done 0x3_FFFF_FFFF m) = [0x0603] ∧ st (done 0x3_FFFF_FFFF m) = 5 ∧ notes (done 0x7FFF_FFFF m) = [0x0604] ∧
    bits ((done 0x7FFF_FFFF m).reg (bPass 0) 0x20) 8 6 = 24 ∧
    (let v := done 0xFFFF (withRegs [(bPass 0, 0x18, 2)] m)
     notes v = [0x0604, 0x0602] ∧ bits (v.reg (bPass 0) 0x20) 4 4 = 9) ∧
    bits ((done 0x7F m).reg (bPass 0) 0x20) 4 4 = 4 := by decide +kernel

/-- A port that is UP when the far receiver marks a lane bad, and when it reports what is known; a transmit direction
that fails with a lane named and with none; sending goes on at the far end's next frame. -/
theorem test_far_lane_cases :
    let u := withRegs [(bPass 0, 0x40, 0x3_FFFF_FFFF)] (portIn 0 upStat { retry := [kept 7, kept 8], rxSeq := 4 })
    let f := withRegs [(bPass 0, 0x40, 0x3_FFFF_FFFF)]
      (portIn 0 (setBits upStat 0 3 6) { retry := [kept 7, kept 8], txFailing := true })
    let done := fun (g : BitVec 34) (t : State) => after (.remapDone 0 ⟨g, 8⟩) t
    done 0x3_FFFF_FFFF u = u ∧ ((done 0x1_FFFF_FFFF u).link 0).resend = [kept 8] ∧
    ((done 0x1_FFFF_FFFF u).link 0).sentEnd.map FarEnd.nextFseq = some 4 ∧
    (portState (done 0x1_FFFF_FFFF f) 0, ((done 0x1_FFFF_FFFF f).link 0).txFailing) = (5, false) ∧
    (portState (done 0x3_FFFF_FFFF f) 0, bits ((done 0x3_FFFF_FFFF f).reg (bPass 0) 0x20) 4 4) = (0, 8) := by decide +kernel

/-! ## Frames -/

/-- The check values of the two CRCs over the ASCII digits 1 to 9 (R166, R299). -/
theorem test_crc_values :
    let d : List Byte := [0x31, 0x32, 0x33, 0x34, 0x35, 0x36, 0x37, 0x38, 0x39]
    crc16 d = 0x29B1 ∧ crcFrame d = 0xCBF4_3926 := by decide +kernel

theorem sealed_ok (f : Frame) : frameOk (sealFrame f) = true := by
  show (crcFrame (frameBytes f) == crcFrame (frameBytes f)) = true
  exact beq_self_eq_true _

theorem broken_bad (f : Frame) : frameOk { sealFrame f with crc := (sealFrame f).crc + 1 } = false := by
  show (crcFrame (frameBytes f) == crcFrame (frameBytes f) + 1) = false
  generalize crcFrame (frameBytes f) = c
  rw [beq_eq_false_iff_ne]
  bv_omega

theorem frame_acts {k row : Nat} {f : Frame} {s : State} (act : State → State) (hk : k < 10) (h : flows s k = true)
    (ht : fType f = row ∧ (row = 1 ∨ row = 2 ∨ row = 3)) (hf : frameOk f = true) :
    onFrame k row f s act = .next (act (s.frameAck k f)) := by
  obtain ⟨rfl, h1 | h1 | h1⟩ := ht <;> simp [onFrame, onLink, onUnit, hk, h, h1, hf]

/-- A DATA frame with one word: a WRITE of 4 bytes. -/
def dataFrame (q : Nat) (p : Packet) : Frame :=
  sealFrame ⟨field 0 4 1 ||| field 4 12 q ||| field 16 12 7 ||| field 28 4 1 ||| field 32 4 1, 5, (linkWords p).headD [], 0⟩

/-- Frames flow on a port that is UP and on the active pair; a frame of each type and what it finds. -/
theorem test_frame_cases :
    flows (portIn 0 upStat {}) 0 = true ∧ flows State.reset 0 = false ∧ flows (withRegs [(bCtl, 0x10, 5)] State.reset) 8 = true ∧
    flows (withRegs [(bCtl, 0x10, 0x155)] State.reset) 8 = false ∧ fType (dataFrame 4095 (w1 0)) = 1 ∧
    fSeq (dataFrame 4095 (w1 0)) = 4095 ∧ fAck (dataFrame 0 (w1 0)) = 7 ∧ linkSlots (w1 0) = 1 ∧
    (w1 0).data.length = pLen (w1 0) ∧ bits (dataFrame 0 (w1 0)).q0 32 4 = 2 ^ linkSlots (w1 0) - 1 ∧
    frameWord (dataFrame 0 (w1 0)) 0 = (linkWords (w1 0)).getD 0 [] ∧ pKind (w1 0) ≠ 0x02 ∧
    ackRetry [kept 6, kept 7, kept 8] 7 = [kept 8] ∧ ackRetry [kept 6] 7 = [kept 6] ∧
    fType (sealFrame ⟨2, 0, [], 0⟩) = 2 ∧ fType (sealFrame ⟨0x2003, 0, [], 0⟩) = 3 ∧
    fType (sealFrame ⟨field 0 4 4 ||| field 32 8 1, 0, [], 0⟩) = 4 := by decide +kernel

/-- The words of a packet in one frame join to the packet. -/
theorem test_words_join : ({ rxFrames := 1 } : Link).takeWords (dataFrame 0 (w1 0)) =
    { ingress := [⟨w1 0, 1, false, false⟩] } := by decide +kernel

/-- The sender: a NAK that is due, a frame again, a new frame, no room, and class 1 first. -/
theorem test_send_cases :
    let l := fun (x : Link) => ((after (.frameSend 0) (portIn 0 upStat x)).link 0)
    let ty := fun (x : Link) => (l x).lastOut.map fun f => (fType f, fSeq f)
    let o : Offer := ⟨w1 0, some 0⟩
    let c1 : Offer := ⟨pkt 0x01 1 1 0 0 [1], none⟩
    let a : Link := { egress := [o], txSeq := 4095 }
    ty { nakOut := some 3 } = some (3, 3) ∧ ty { resend := [kept 8], retry := [kept 8] } = some (1, 8) ∧
    bits ((after (.frameSend 0) (portIn 0 upStat { resend := [kept 8] })).reg (bPass 0) 0x48) 0 16 = 1 ∧
    ty a = some (1, 4095) ∧ (l a).txSeq = 0 ∧ (l a).egress = [] ∧ (l a).retry.length = 1 ∧
    ty { sentTotal := 4096, egress := [o] } = some (2, 0) ∧ ty {} = some (2, 0) ∧
    nextEgress [o, c1] = some (c1, [o]) ∧ nextEgress [o, o] = some (o, [o]) ∧
    ty { q1 := true, egress := [⟨pkt 0x14 0 1 0 0 (List.replicate 32 9), none⟩] } = some (4, 0) := by decide +kernel

/-- A cell that the first entry takes, and one that no entry takes. -/
theorem test_cell_cases :
    let c := quadBytes 0x0100 ++ List.replicate 24 7
    let u := withRegs [(bPass 0, 0x100, field 58 1 1 ||| field 46 12 5 ||| field 32 14 9 ||| field 16 16 0x1FF ||| field 0 16 0x100)]
      (portIn 0 upStat { rxFrames := 2 })
    c.length = 32 ∧ ((u.takeCell 0 c).link 0).toInject.map (fun q => (pKind q.pkt, aNode q.pkt.h1, pCid q.pkt, q.frames)) =
      [(0x14, 9, 5, 2)] ∧
    bits (((portIn 0 upStat {}).takeCell 0 c).reg (bPass 0) 0x50) 48 8 = 1 ∧
    (((portIn 0 upStat {}).takeCell 0 c).router (linkNode 0)).offers.length = 1 := by decide +kernel

/-- A good frame in order, one that fails, and the eighth failure. -/
theorem test_frames_received :
    (after (.frameData 0 (dataFrame 0 (w1 0))) (portIn 0 upStat { retry := [kept 7, kept 8] })).link 0 =
      { retry := [kept 8], rxSeq := 1, farCredits := 5, ingress := [⟨w1 0, 1, false, false⟩] } := by
  have h := frame_acts (f := dataFrame 0 (w1 0)) (s := portIn 0 upStat { retry := [kept 7, kept 8] }) (row := 1) (k := 0)
    (fun s => if (s.link (linkOf 0)).inOrder (dataFrame 0 (w1 0)) then
      s.modLink (linkOf 0) fun l => (l.accepted).takeWords (dataFrame 0 (w1 0)) else s)
    (by decide) (by decide +kernel) (by decide +kernel) (sealed_ok _)
  have e : exec (.frameData 0 (dataFrame 0 (w1 0))) (portIn 0 upStat { retry := [kept 7, kept 8] }) = _ := h
  unfold after
  rw [e]
  decide +kernel
/-- A frame that fails its CRC: the awaited one, one that follows it, and the eighth failure, with a lane named and
with none. -/
theorem test_failing_frames :
    let bad := fun (q : Nat) (l : Link) => (portIn 0 upStat l).frameBad 0 (dataFrame q (w1 0))
    ((bad 5 { fails := 6, rxSeq := 4 }).link 0).nakOut = some 4 ∧ ((bad 5 { fails := 6, rxSeq := 4 }).link 0).fails = 7 ∧
    (bad 5 { rxDiscard := true, rxSeq := 4 }).link 0 = { rxDiscard := true, rxSeq := 4 } ∧
    ((bad 4 { rxDiscard := true, rxSeq := 4 }).link 0).fails = 1 ∧
    portState (bad 4 { fails := 7, rxSeq := 4, laneErrs := [0, 3] }) 0 = 6 ∧
    bits ((bad 4 { fails := 7, rxSeq := 4, laneErrs := [0, 3] }).reg (bPass 0) 0x38) 0 2 = 1 ∧
    bits ((bad 4 { fails := 7, rxSeq := 4 }).reg (bPass 0) 0x20) 4 4 = 8 := by decide +kernel

/-- The pair beside the active one: it is UP, carries IDLE alone, and its ACK is that of the logical port. -/
theorem test_beside_case :
    let s := withRegs [(bCtl, 0x10, 0x55)] { State.reset with links := [(8, { rxSeq := 4, retry := [kept 6, kept 7] })] }
    (flows s 8, flows s 9, standby s 9) = (true, false, true) ∧
    ((after (.frameSend 9) s).link 8).lastOut.map (fun f => (fType f, fAck f)) = some (2, 3) ∧
    ((s.frameAck 9 (sealFrame ⟨field 0 4 2 ||| field 16 12 6, 0, [], 0⟩)).link 8).retry = [kept 7] := by decide +kernel

/-- The eighth NAK of one frame makes the transmit direction failing; NAKs before an acknowledgement count no more. -/
theorem test_nak_cases :
    let s := portIn 0 upStat { retry := [kept 8], nakSeq := 8, naks := 7 }
    ((s.txFails 0).link 0).txFailing = true ∧ portState (s.txFails 0) 0 = 6 ∧
    (({ retry := [kept 8], nakSeq := 8, naks := 7 } : Link).takeAck ⟨field 16 12 8, 0, [], 0⟩).naks = 0 ∧
    (({ retry := [kept 8], nakSeq := 8, naks := 6 } : Link).takeAck ⟨field 16 12 7, 0, [], 0⟩).naks = 6 ∧
    (({ retry := [kept 7, kept 8] } : Link).replayFrom 8).resend = [kept 8] := by decide +kernel

/-! ## Link dies -/

/-- The write across two panel hops, as panel 37 sends it and as it crosses the fibre (R314, R316). -/
def hop (local_ : Bool) (panel : Nat) : Packet := {
  h0 := 0x1043_0040_0000_0000
  h1 := 0x004B_0A0A_0010_0000
  h2 := field 59 1 local_.toNat ||| field 46 13 panel ||| field 32 14 0x1D25 ||| field 30 2 1 ||| field 18 12 9 ||| field 17 1 1
  h3 := field 16 16 5
  data := List.replicate 4096 0 }

/-- The headers of the worked example, with the panel fields where R23 and R137 place them (assumption 63). -/
theorem test_hop_headers : (hop true 0).h2 = 0x0800_1D25_4026_0000 ∧ (leaving 37 (hop true 0)).h2 = 0x0009_5D25_4026_0000 ∧
    (hop true 0).h1 = mkAddr 0 false 300 0x0A0A 0x0010_0000 ∧ pLen (hop true 0) = 4096 ∧ pKind (hop true 0) = 0x01 ∧
    nodeOf (linkSite 2) (37 % 8 * 8 + 300 % 8) = 0x0AFC ∧ linkSite 2 = 47 ∧ (leaving 37 (hop false 9)).h2 = (hop false 9).h2 := by
  decide +kernel

/-- A panel with an id, whose port 2 faces other panels, with the link as given. -/
def linkDie (stat : Word) (l : Link) : State :=
  withRegs [(bDom, 0x08, field 0 13 37 ||| field 13 1 1), (bPass 2, 0x20, stat)] { freed with links := [(2, l)] }

/-- The packet of the mesh goes to the queue, is refused by each step, or is for another port or the far window. -/
theorem test_egress_cases :
    let p : Packet := { w1 0 with h1 := mkAddr 0 false 300 0x0A0A 0 }
    let n := exitNode State.reset 2 p
    let row := fun (stat : Word) (l : Link) => after (.linkDieEgress 2 1 p) (linkDie stat l)
    let far : Packet := { w1 0 with h1 := mkAddr 6 true 0 (linkNode 2) 0x0100_0008 }
    n = nodeOf (linkSite 2) (300 % 64) ∧ siteOf n = linkSite 2 ∧ addrHere (linkDie 5 {}) p.h1 = false ∧
    egressOf (linkDie 5 {}) (aPanel p.h1) ≠ some 3 ∧
    ((row 5 {}).link 2).egress = [⟨p, some 1⟩] ∧ bits ((row 0 {}).reg (bPass 2) 0x48) 48 16 = 1 ∧
    bits ((row 5 { q1 := true }).reg (bPass 2) 0x50) 48 8 = 1 ∧ ((row 5 { q1 := true }).router n).offers.length = 1 ∧ ((row 5 { q1 := true }).router (linkNode 2)).offers.length = 1 ∧
    inFarWindow (linkDie 5 {}) far.h1 = true ∧ pKind far = 0x01 ∧
    ((after (.linkDieEgress 2 1 far) (linkDie 5 {})).link 2).far = [far] ∧
    ((after (.linkDieEgress 2 1 far) (linkDie 5 {})).link 2).egress.map (fun o => o.pkt) = [far] := by decide +kernel
theorem test_full_egress_queue : ∀ p : Packet, pClass p ≠ 1 → linkSlots p = 1 → ∀ q : Offer, linkSlots q.pkt = 0x3C_0000 / 64 →
    egressRoom { egress := [q] } p = false := by
  intro p hc hp q hq
  simp [egressRoom, queueBytes, hp, hq, hc]
theorem test_another_ports_packet :
    let p : Packet := { w1 0 with h1 := mkAddr 0 false 300 0x0A0A 0 }
    let s := withRegs [(bDom, 0x1000 + 4 * 300 / 8 * 8, 0)] (linkDie 5 {})
    egressOf s 300 = egressOf (linkDie 5 {}) 300 ∧ (p.h1 = mkAddr 0 false 300 0x0A0A 0) := by decide +kernel

/-- A packet of the fibre: recorded and waiting for injection, looping back, claiming to be local, fenced. -/
theorem test_ingress_cases :
    let p : Packet := { w1 0 with h1 := mkAddr 1 false 37 0 0, h2 := field 46 13 9 }
    let row := fun (s : State) (p : Packet) => after (.linkDieIngress 2 p) s
    let s := linkDie 5 { ingress := [⟨p, 3, false, false⟩] }
    let fence := withRegs [(bPass 2, 0x18, 8)] (linkDie 5 {})
    let part := withRegs [(bPass 2, 0x60, field 32 1 1 ||| field 16 13 9 ||| field 0 13 9)] fence
    (s.link 2).ingress = [] ++ ⟨p, 3, false, false⟩ :: [] ∧ addrHere s p.h1 = true ∧ farAccess p = false ∧ pSrcLocal p = false ∧
    (row s p).link 2 = { toInject := [⟨p, 3, false, false⟩] } ∧
    bits ((row s { p with h2 := field 59 1 1 }).reg (bPass 2) 0x50) 56 8 = 1 ∧
    bits ((row fence p).reg (bPass 2) 0x48) 32 16 = 1 ∧ ((row part p).link 2).toInject = [⟨p, 0, false, false⟩] ∧
    (pSrcPanel p = 9 ∧ bit (part.reg (bPass 2) 0x60) 32 = true) := by decide +kernel

/-- Accesses of the neighbour's far window: closed, misaligned, a read and a write; and an answer to ours. -/
theorem test_far_cases :
    let at_ := fun (y : Nat) => mkAddr 6 true 0 (linkNode 2) (0x0100_0000 + y)
    let rd : Packet := { h0 := mkH0 2 0 0 8 0, h1 := at_ 0x20, h2 := field 59 1 1, h3 := 5, data := [] }
    let wr : Packet := { h0 := mkH0 1 0 0 8 0, h1 := at_ 0x18, h2 := field 59 1 1 ||| field 17 1 1, h3 := 5, data := quadBytes 1 }
    let ask : Packet := { h0 := mkH0 2 0 0 8 0, h1 := at_ 0x20, h2 := field 59 1 1 ||| field 32 14 9, h3 := 7, data := [] }
    let resp : Packet := { h0 := mkH0 3 0 0 8 0, h1 := mkAddr 1 true 0 0 0, h2 := 0, h3 := 7, data := quadBytes 6 }
    let opened := withRegs [(bPass 2, 0x10, 8)] (linkDie 5 {})
    let out := fun (s : State) (p : Packet) => ((after (.linkDieIngress 2 p) s).link 2).egress.map (fun o => pKind o.pkt)
    farAccess rd = true ∧ farAccess wr = true ∧ creditFor rd ≠ none ∧ ackFor wr ≠ none ∧
    out (withRegs [(bPass 2, 0x10, 0)] (linkDie 5 {})) rd = [0x18] ∧ out opened { rd with h1 := at_ 0x24 } = [0x18] ∧ out opened rd = [0x03] ∧
    out opened wr = [0x07] ∧ (after (.linkDieIngress 2 wr) opened).stagedReg (bPass 2) 0x18 = 1 ∧
    answers resp ask = true ∧ aLocal resp.h1 = true ∧
    (let t := after (.linkDieIngress 2 resp) (linkDie 5 { far := [ask] })
     (t.link 2).far = [] ∧ (t.link 2).toInject.map (fun q => (pKind q.pkt, aNode q.pkt.h1)) = [(3, 9)]) := by
  decide +kernel

/-- The die injects at the next open node and plane, and nothing at another. -/
theorem test_link_inject_cases :
    let q : InPkt := ⟨{ w1 0 with h0 := mkH0 1 0 0 4 0 ||| field 40 8 9 }, 2, false, false⟩
    let s := withRegs [(bPwr, 0x20, 0xFFFF), (bClk 32, 0x20, 0x200_0000), (bSm 32, 0x100, 0x100)]
      { freed with links := [(0, { toInject := [q] })], pins := { resetHeld := false }, sites := [(32, { crossed := true })] }
    siteOf (linkNode 0) = linkSite 0 ∧ gateOpen s (linkNode 0) 0 = true ∧
    (let t := after (.linkInject 0 (linkNode 0) 0) s
     (t.link 0).toInject = [] ∧ (t.link 0).freed = 2 ∧ (t.link 0).rotation = 1 ∧
     (t.plane (linkNode 0) 0).inputs.map (fun h => (pAge h.pkt, h.port)) = [(0, .v)]) ∧
    after (.linkInject 0 (linkNode 0) 1) s = s ∧ after (.linkInject 0 (linkNode 1) 0) s = s := by decide +kernel

/-! ## Replay rings -/

/-- The ring of the worked example. -/
def ringState (r : Ring) : State :=
  withRegs [(bPass 6, 0x80, field 0 1 1 ||| field 1 7 32 ||| field 16 14 0x0400 ||| field 48 16 15),
    (bPass 6, 0x88, field 0 17 0x1_0000 ||| field 32 16 30000), (bPass 6, 0x90, 1000005), (bPass 6, 0x98, 1000005)]
    { freed with links := [(6, { ring := r })] }

/-- The record of the worked example lies at node 0x0405, offset 0x109E_B100. -/
theorem test_ring_place : ringAddr (ringState {}) 6 1000005 0 = mkAddr 0 true 0 0x0405 0x109E_B100 ∧
    ringC (ringState {}) 6 = 960000 := by decide +kernel

/-- A packet that the ring takes, what becomes of its WRITE, and one that it does not take. -/
theorem test_ring_record_cases :
    let p : Packet := { w1 0 with h3 := field 16 16 5 }
    let t := (ringState {}).record 6 p
    let key := ringKey 0
    (t.link 6).toInject.map (fun q => (q.pkt.h1, pLen q.pkt, q.own)) = [(mkAddr 0 true 0 0x0405 0x109E_B100, 128, true)] ∧
    bits (ringReg t 6 2) 0 48 = 1000006 ∧ bits (ringReg t 6 3) 0 48 = 1000005 ∧ (t.ring 6).pend = [(key, 1000005)] ∧
    bits (ringReg (t.ringAck 6 key) 6 3) 0 48 = 1000006 ∧ (t.ring 6).pend.find? (fun e => e.1 == key) = some (key, 1000005) ∧
    (let v := t.ringLoss 6 key
     bits (ringReg v 6 3) 0 48 = 1000005 ∧ bits (ringReg v 6 2) 48 16 = 1 ∧ (v.ring 6).lost = [1000005] ∧
     (v.router (linkNode 6)).offers.length = 1) ∧
    (ringRecord p 1000005 6).length = 128 ∧ pLen p ≤ 8256 ∧ ringTakes (ringState {}) 6 p = true ∧
    ringTakes (ringState {}) 6 { p with h3 := field 16 16 16 } = false ∧ 8256 < 64 + roundUp 8256 64 := by decide +kernel

/-- GO: refused, of no record, and of one; its record read, failing, short of bytes, and the last of two. -/
theorem test_replay_cases :
    let ask := fun (from_ count : Nat) (s : State) => withRegs [(bPass 6, 0xA0, BitVec.ofNat 64 from_),
      (bPass 6, 0xA8, field 0 16 count ||| field 16 4 2 ||| field 20 1 1)] s
    let go := fun (from_ count : Nat) => after (.ringReplay 6) (ask from_ count (ringState {}))
    let rst := fun (t : State) => bits (ringReg t 6 5) 25 3
    let o : Packet := { w1 0 with h3 := field 16 16 5 }
    let b := ringRecord o 1000000 6
    let rd : Packet := { h0 := mkH0 3 0 0 128 0, h1 := mkAddr 1 true 0 (linkNode 6) 0, h2 := 0, h3 := ringKey 4, data := b }
    let during := fun (left : Nat) (got : List Byte) => ask 1000000 left (ringState { replay := some ⟨1000000, left, ringKey 4, got⟩, nextKey := 5 })
    rst (go 1000000 6) = 3 ∧ rst (go 40004 1) = 3 ∧ rst (go 40005 0) = 2 ∧ rst (go 1000004 1) = 1 ∧
    ((go 1000004 1).ring 6).replay = some ⟨1000004, 1, ringKey 0, []⟩ ∧
    ((go 1000004 1).link 6).toInject.map (fun q => (pKind q.pkt, pLen q.pkt)) = [(2, 8192)] ∧
    b.length = 128 ∧ (quadAt b 32).toNat = 1000000 ∧ pKind rd = 3 ∧ o.data.length = pLen o ∧
    (let t := after (.ringReplayRecord 6 rd) (during 1 [])
     rst t = 2 ∧ (t.link 6).toInject.map (fun q => (pGen q.pkt, q.pkt.data)) = [(2, [1, 2, 3, 4])] ∧ bits (ringReg t 6 5) 32 16 = 1) ∧
    (let t := after (.ringReplayRecord 6 rd) (during 2 [])
     (t.ring 6).replay = some ⟨1000001, 1, ringKey 5, []⟩ ∧ (t.link 6).toInject.length = 2) ∧
    (let t := after (.ringReplayRecord 6 { rd with data := ringRecord o 7 6 }) (during 1 [])
     rst t = 4 ∧ (t.router (linkNode 6)).offers.length = 1 ∧ (t.ring 6).replay = none) ∧
    (let t := after (.ringReplayRecord 6 { rd with h0 := mkH0 3 0 0 64 0, data := b.take 64 }) (during 1 [])
     (t.ring 6).replay = some ⟨1000000, 1, ringKey 5, b.take 64⟩) := by decide +kernel

/-- The responses that reach a ring's link die. -/
theorem test_ring_responses :
    let n := linkNode 6
    let c := fun (k : Nat) => { h0 := mkH0 k 1 0 0 0, h1 := mkAddr 1 true 0 n 0, h2 := if k = 7 then 0x2_0000 else field 24 6 1, h3 := ringKey 0, data := [] : Packet }
    let s := ringState { pend := [(ringKey 0, 1000004)] }
    siteOf n = linkSite 6 ∧ aSpace (c 7).h1 = 1 ∧ ringOwes s 6 (c 7).h3 = true ∧
    ((after (.ack n 0 (c 7)) s).ring 6).pend = [] ∧
    ((after (.ack n 0 { c 7 with h2 := 0 }) s).ring 6).pend = [(ringKey 0, 1000004)] ∧ ((after (.fenceCredit n 0 (c 0x18)) s).ring 6).lost = [1000004] ∧
    (let u := ringState { replay := some ⟨9, 1, ringKey 0, []⟩ }
     bits (ringReg (after (.fenceCredit n 0 { c 0x18 with h2 := field 24 6 2 }) u) 6 5) 25 3 = 4) ∧
    inFarWindow s (c 7).h1 = false ∧ addrHere s (c 7).h1 = true := by decide +kernel

/-! ## The control port -/

/-- A control request from panel-local node 0x0100 for an address. -/
def ctlReq (op count : Nat) (a : Word) (data : List Byte) : Packet := {
  h0 := mkH0 0x10 1 0 (32 + data.length) 0
  h1 := mkAddr 5 true 0 leadNode 0x0030_8000
  h2 := field 59 1 1 ||| field 32 14 0x0100
  h3 := field 32 32 7
  data := quadBytes (field 0 4 op ||| field 8 8 count ||| field 32 32 0xABCD) ++ quadBytes a ++ List.replicate 16 0 ++ data }

/-- The steward's firmware runs. -/
def fwRuns : State := withRegs [(bStw 0, 0x20, 3)] State.reset

/-- Requests: before the firmware, ill formed, a slice, the service wiring read, written and misaligned, and the
sixty-fifth; another OP's row leaves them. -/
theorem test_request_cases :
    let reply := fun (t : State) => (t.router leadNode).offers.map fun o => (pKind o.pkt, bits (quadAt o.pkt.data 0) 16 8)
    let slice := mkAddr 0 true 0 0 0x40
    let reg := mkAddr 7 true 0 (nodeOf 0 0) 0x28
    let rd := ctlReq 1 1 slice []
    let t := after (.regRead rd) fwRuns
    reply (after (.regRead rd) State.reset) = [(0x10, 2)] ∧ reply (after (.regRead (ctlReq 1 29 slice [])) fwRuns) = [(0x10, 2)] ∧
    reply (after (.blockWrite (ctlReq 4 1 slice [])) fwRuns) = [(0x10, 2)] ∧
    (t.router leadNode).offers.map (fun o => (pKind o.pkt, o.pkt.h1)) = [(0x02, slice)] ∧ t.lead.reqs = [⟨rd, ctlKeyOf 0⟩] ∧
    ((after (.regWrite (ctlReq 2 1 slice (quadBytes 5))) fwRuns).router leadNode).offers.map
      (fun o => (pKind o.pkt, pAckReq o.pkt)) = [(0x01, true)] ∧
    ((after (.blockWrite (ctlReq 3 1 slice (quadBytes 5))) fwRuns).router leadNode).offers.map
      (fun o => (pKind o.pkt, pAckReq o.pkt)) = [(0x01, false)] ∧
    reply (after (.regRead (ctlReq 1 1 reg [])) fwRuns) = [(0x10, 0)] ∧
    reply (after (.regRead (ctlReq 1 1 (reg + 4) [])) fwRuns) = [(0x10, 0)] ∧
    reply (after (.regWrite (ctlReq 2 1 (mkAddr 7 true 0 leadNode 0x08) (quadBytes 0))) State.reset) = [(0x10, 0)] ∧
    reply (after (.regRead rd) { fwRuns with lead := { reqs := List.replicate 64 ⟨rd, 0⟩ } }) = [(0x10, 3)] ∧
    after (.regWrite rd) fwRuns = fwRuns := by decide +kernel

/-- The ends of a request: its response, its credit, its time limit; and a BLOCK_WRITE's injection. -/
theorem test_request_end_cases :
    let rd := ctlReq 1 1 (mkAddr 0 true 0 0 0x40) []
    let wr := ctlReq 2 1 (mkAddr 0 true 0 0 0x40) (quadBytes 5)
    let bw := ctlReq 3 1 (mkAddr 0 true 0 0 0x40) (quadBytes 5)
    let s := { State.reset with lead := { reqs := [⟨rd, 1⟩, ⟨wr, 2⟩, ⟨bw, 3⟩] } }
    let r := fun (k d : Nat) (tag : Nat) (key : Word) =>
      { h0 := mkH0 k 1 0 (if k = 3 then 8 else 0) 0, h1 := mkAddr 1 true 0 leadNode 0, h2 := field 0 30 (tag + d * 2 ^ 24), h3 := key, data := quadBytes 9 : Packet }
    let out := fun (t : State) => (t.router leadNode).offers.map fun o => (bits (quadAt o.pkt.data 0) 16 8, o.pkt.data.length)
    out (s.stewardResponse (r 3 0 0 1)) = [(0, 40)] ∧ (s.stewardResponse (r 3 0 0 1)).lead.reqs = [⟨wr, 2⟩, ⟨bw, 3⟩] ∧
    out (s.stewardResponse (r 7 0 (2 ^ 17) 2)) = [(0, 32)] ∧ out (s.stewardResponse (r 0x18 2 0 1)) = [(1, 32)] ∧
    out (s.stewardResponse (r 0x18 1 0 2)) = [(1, 32)] ∧ out (s.bridgeInjected (r 1 0 0 3)) = [(0, 32)] ∧
    out (after (.ctlRequestTimeout 0) s) = [(4, 32)] ∧ bits ((after (.ctlRequestTimeout 1) s).reg bCtl 0x20) 32 16 = 1 ∧
    after (.ctlRequestTimeout 2) s = s ∧ after (.ctlRequestTimeout 3) s = s ∧
    bits ((s.stewardResponse (r 7 0 (2 ^ 17) 9)).reg bCtl 0x20) 48 16 = 1 ∧ siteOf leadNode = 52 := by decide +kernel

/-- An ACK that no request awaits, at the lead steward. -/
def strayAck : Packet := { h0 := mkH0 7 1 0 0 0, h1 := mkAddr 1 true 0 leadNode 0, h2 := field 17 1 1, h3 := 9, data := [] }

theorem test_stray_response : Delivered State.reset leadNode 0 0x07 strayAck ∧ strayAck.h3 = 9 :=
  ⟨delivered (by decide +kernel), rfl⟩

/-- A credit for a packet of the load in progress, and one whose kind is another. -/
theorem test_load_credit :
    let c := fun (d : Nat) => { strayAck with h0 := mkH0 0x18 1 0 0 0, h2 := field 24 6 d, h3 := imgKey 2 }
    let s := { withRegs [(bImg, 0x10, 1)] State.reset with lead := { img := { loose := [(imgKey 2, 1)] } } }
    (imgOwns s (c 1), imgOwns s (c 4)) = (true, false) ∧ bits ((s.stewardResponse (c 1)).reg bImg 0x10) 0 16 = 0xD06 ∧
    bits ((s.stewardResponse (c 4)).reg bCtl 0x20) 48 16 = 1 := by decide +kernel

/-- A stray at steward 1 and at a link die is counted there. -/
theorem test_strays_counted :
    let at_ := fun (n : Nat) => { strayAck with h1 := mkAddr 1 true 0 n 0 }
    let n1 := nodeOf (stewardSite 1) 0
    ((after (.ack n1 0 (at_ n1)) State.reset).steward 1).strays = 1 ∧
    ((after (.ack (linkNode 6) 0 (at_ (linkNode 6))) State.reset).link 6).strays = 1 := by decide +kernel

/-- A CONTROL packet of the fibre, and one of another kind. -/
theorem test_control_ingress_cases :
    let p := ctlReq 1 1 0 []
    let s := { freed with links := [(8, { ingress := [⟨p, 2, false, false⟩] })] }
    (s.link 8).ingress = [] ++ ⟨p, 2, false, false⟩ :: [] ∧ pKind p = 0x10 ∧ pKind (w1 0) ≠ 0x10 ∧
    ((after (.controlIngress p) s).link 8).freed = 2 ∧ ((after (.controlIngress p) s).router leadNode).offers = [⟨p, none⟩] ∧
    bits ((after (.controlIngress (w1 0)) s).reg bCtl 0x20) 48 16 = 1 := by decide +kernel

/-- The pairs: retraining, one that leaves UP with and without the other UP, each training state, and failover. -/
theorem test_pair_cases :
    let i := fun (stat : Word) => withRegs [(bCtl, 0x10, stat)] { State.reset with pins := { resetHeld := false } }
    let stat := fun (t : State) => t.reg bCtl 0x10
    let notes := fun (t : State) => (t.router leadNode).offers.map fun o => noticeCode o.pkt
    stat (after (.ctlPairRetrain false true) (i 0)) = 1 ∧ stat (after (.ctlPairRetrain true true) (i 5)) = 0x15 ∧
    stat (after (.ctlPairRetrain true false) (i 5)) = 5 ∧ stat (after (.ctlPairRetrain false true) (i 5)) = 5 ∧
    stat ((i 0x55).pairDown 8) = 0x150 ∧ notes ((i 0x55).pairDown 8) = [0x0702, 0x0701] ∧
    stat ((i 5).pairDown 8) = 0 ∧ notes ((i 5).pairDown 8) = [0x0702] ∧ stat ((i 3).pairDown 8) = 0 ∧
    stat (after (.passOpticsDone 8) (i 1)) = 2 ∧ stat (after (.passLaneLockDone 8 true 15) (i 2)) = 3 ∧
    stat (after (.passLaneLockDone 8 true 7) (i 2)) = 0 ∧ stat (after (.passExchangeDone 9 farEnd) (i 0x40)) = 0x150 ∧
    notes (after (.passExchangeDone 9 farEnd) (i 0x40)) = [0x0701] ∧ stat (after (.passExchangeDone 9 farEnd) (i 0x45)) = 0x55 ∧
    stat (after (.passAlignDone 8 true) (i 3)) = 4 ∧ stat (after (.passExchangeDone 8 farEnd) (i 4)) = 5 ∧
    stat (after (.passExchangeDone 8 { farEnd with level := 0 }) (i 4)) = 0 ∧ stat (after (.passTrainTimeout 8) (i 1)) = 0 ∧
    stat (after (.passAckStall 9) (i 0x155)) = 5 ∧ after (.ctlPairRetrain true true) State.reset = State.reset := by
  decide +kernel

/-! ## Guest sites -/

/-- Guest bridge 1 over a guest die, with GUEST_CTL, GUEST_STAT and what it holds. -/
def guestIn (ctl stat : Word) (x : Guest) (st : Site) : State :=
  withRegs [(bFord 1, 0x08, ctl), (bFord 1, 0x10, stat), (bSp 8, 0x08, 4)]
    { State.reset with
      birth := { resetBirth with siteStatus := resetBirth.siteStatus.set 8 0x30 }
      pins := { resetHeld := false }
      guests := [(1, x)]
      sites := [(8, st)] }

/-- GUEST_STAT: UP on modules 0 and 15. -/
def guestUp : Word := field 0 3 3 ||| field 4 16 0x8001

/-- ENABLE with and without the rail, ENABLE = 0, RETRAIN, the rail coming on, and an over-current. -/
theorem test_guest_enable_cases :
    let off := guestIn 0 0 {} {}
    let railed := guestIn 0 0 {} { guestRail := true }
    let up := guestIn 1 guestUp { toGuest := [⟨w1 0, some 0⟩], header := true, tokens := 4 } { guestRail := true }
    let st := fun (t : State) => guestState t 1
    isBlank off.birth (guestSite 1) = false ∧ isBlank State.reset.birth (guestSite 1) = true ∧
    after (.guestEnable 1 true) State.reset = State.reset ∧ st (after (.guestEnable 1 true) off) = 1 ∧
    st (after (.guestEnable 1 true) railed) = 2 ∧ ((after (.guestEnable 1 true) railed).guest 1).header = true ∧
    (let t := after (.guestEnable 1 false) up
     st t = 0 ∧ (t.guest 1).toGuest = [] ∧ (t.guest 1).tokens = 0 ∧ bits (t.reg (bFord 1) 0x48) 16 16 = 1 ∧
     bits (t.reg (bFord 1) 0x10) 24 4 = 4) ∧
    st (after (.guestRetrain 1) up) = 2 ∧ after (.guestRetrain 1) off = off ∧
    st (after (.guestRailReady 1) (guestIn 1 1 {} {})) = 2 ∧ ((after (.guestRailReady 1) off).site 8).guestRail = true ∧
    (let t := after (.guestOvercurrent 1) up
     (t.site 8).guestRail = false ∧ st t = 0 ∧ bit (t.reg (bSp 8) 0x10) 15 = true ∧
     bit ((after (.guestOcClear 1) t).reg (bSp 8) 0x10) 15 = false ∧
     after (.guestRailReady 1) t = t) ∧
    bit ((after (.guestOvercurrent 1) off).reg (bSp 8) 0x10) 15 = true ∧ after (.guestOvercurrent 1) State.reset = State.reset ∧
    after (.guestRailReady 1) State.reset = State.reset := by decide +kernel

/-- Training that ends UP, and each reason for DOWN. -/
theorem test_guest_training_cases :
    let done := fun (m : BitVec 16) (l : BitVec 4) (to_ : Bool) =>
      let t := after (.guestTrainDone 1 m l 7 0x3FF to_) (guestIn 1 2 {} {})
      (guestState t 1, bits (t.reg (bFord 1) 0x10) 24 4, t.reg (bSm 8) 0x110, (t.router (guestNode 1)).plain.map noticeCode)
    done 0x8000 1 false = (3, 0, 0x1FF, [0x0710]) ∧ done 0 1 false = (4, 1, 0, [0x0711]) ∧
    done 1 0 false = (4, 2, 0, [0x0711]) ∧ done 1 1 true = (4, 3, 0, [0x0711]) := by decide +kernel

/-- The slots of the tracks of HOLD and GO: a byte, zeros, and the complement of their CRC. -/
def trackSlot (b : Byte) : SlotSeen := let w := b :: List.replicate 63 0; ⟨0, w, ~~~ crc16 w⟩
def holdSlot : SlotSeen := trackSlot 0x48
def goSlot : SlotSeen := trackSlot 0x47

/-- A packet for the guest die: handed over, buffered while every module is held, discarded; kinds it does not take. -/
theorem test_guest_packet_cases :
    let n := guestNode 1
    let p := pkt 0x01 0 8 n 0x10 [1]
    let row := fun (s : State) => after (.write n 0 p) s
    let heldUp := guestIn 1 guestUp { guestHolds := 0x8001 } {}
    aSpace p.h1 = 8 ∧ siteOf n = guestSite 1 ∧ aOff p.h1 < 0xF000_0000 ∧ inFarWindow State.reset p.h1 = false ∧
    ((row (guestIn 1 guestUp {} {})).guest 1).handed = [p] ∧ ((row heldUp).guest 1).toGuest = [⟨p, some 0⟩] ∧
    ((after (.guestGo 1 ⟨15, goSlot⟩) (row heldUp)).guest 1).handed = [p] ∧
    ((after (.guestHold 1 ⟨15, holdSlot⟩) (guestIn 1 guestUp {} {})).guest 1).guestHolds = 0x8000 ∧
    bits ((row (guestIn 1 4 {} {})).reg (bFord 1) 0x48) 16 16 = 1 ∧
    bits ((after (.readReq n 0 { p with h0 := mkH0 2 0 0 8 0 }) (guestIn 1 guestUp {} {})).reg (bFord 1) 0x48) 32 16 = 1 := by
  decide +kernel
theorem test_delivered_at_a_guest_site :
    Delivered (guestIn 1 guestUp {} {}) (guestNode 1) 0 0x01 (pkt 0x01 0 8 (guestNode 1) 0x10 [1]) := delivered (by decide +kernel)

/-- The Ford of the worked example. -/
def fordOn (x : Guest) : State := withRegs [(bFord 1, 0x18, 0x103), (bFord 1, 0x20, 0x22), (bFord 1, 0x100, 0x8000_0020_0F08_2F28),
  (bFord 1, 0x108, 0x0000_4000_0400_0000), (bFord 1, 0x110, 0x8000_0042_0F08_2F28), (bFord 1, 0x118, 0x0000_0001_0000_1000)]
  (guestIn 1 guestUp x {})

/-- The worked example: a WRITE that passes, a READ_REQ that does not, a SIGNAL that passes, a WRITE outside. -/
theorem test_ford_example :
    let wr : Packet := { h0 := mkH0 1 0 0 256 0, h1 := 0x0800_062D_0400_3F80, h2 := 0, h3 := 0, data := [] }
    let rd := { wr with h0 := mkH0 2 0 0 64 0 }
    let sig := { wr with h0 := mkH0 5 0 0 8 0, h1 := 0x2800_04A9_0000_1018 }
    let out := { wr with h1 := mkAddr 0 true 0 (12 * 128 + 48) 0x0400_3F80 }
    let t := after (.fordCheck 1 0 rd) (fordOn {})
    nodeX (aNode wr.h1) = 45 ∧ nodeY (aNode wr.h1) = 12 ∧ linkSlots wr = 5 ∧
    ((after (.fordCheck 1 0 wr) (fordOn {})).router (guestNode 1)).offers.map (fun o => (pGen o.pkt, o.pkt.h1)) =
      [(3, 0x0800_062D_0400_3F80)] ∧
    t.reg (bFord 1) 0x30 = field 0 32 1 ||| field 32 8 2 ∧ (t.router (guestNode 1)).plain.map noticeCode = [0x0712] ∧
    (t.guest 1).handed.map (fun c => (pKind c, pDkind c)) = [(0x18, 2)] ∧
    ((after (.fordCheck 1 0 sig) (fordOn {})).router (guestNode 1)).offers.length = 1 ∧ fordCause (fordOn {}) 1 out = some 5 ∧
    (let u := after (.fordCheck 1 0 out) t
     bits (u.reg (bFord 1) 0x30) 0 32 = 2 ∧ bits (u.reg (bFord 1) 0x30) 32 8 = 2 ∧ u.reg (bFord 1) 0x38 = rd.h0 ∧
     (u.router (guestNode 1)).plain.length = 1) := by decide +kernel

/-- Each check, and a kind that causes no credit. -/
theorem test_ford_causes :
    let wr : Packet := { h0 := mkH0 1 0 0 256 0, h1 := 0x0800_062D_0400_3F80, h2 := 0, h3 := 0, data := [] }
    fordCause (guestIn 1 guestUp {} {}) 1 wr = some 1 ∧ fordCause (fordOn {}) 1 { wr with h0 := mkH0 1 1 0 256 0 } = some 3 ∧
    fordCause (fordOn {}) 1 { wr with h1 := mkAddr 0 false 9 0x062D 0x0400_3F80 } = some 4 ∧
    fordCause (fordOn {}) 1 wr = none ∧ creditFor (fillSource (fordOn {}) (guestNode 1) { wr with h0 := mkH0 3 0 0 0 0 }) = none := by
  decide +kernel

/-- Tokens: enough, too few, and a refill. -/
theorem test_token_cases :
    let wr : Packet := { h0 := mkH0 1 0 0 256 0, h1 := 0x0800_062D_0400_3F80, h2 := 0, h3 := 0, data := [] }
    let s := fun (n : Nat) => withRegs [(bFord 1, 0x28, field 0 16 100 ||| field 16 16 130)] (fordOn { tokens := n })
    ((after (.fordCheck 1 0 wr) (s 5)).guest 1).tokens = 0 ∧ ((after (.fordCheck 1 0 wr) (s 5)).router (guestNode 1)).offers.length = 1 ∧
    ((after (.fordCheck 1 15 wr) (s 4)).guest 1).bridgeHolds = 0x8000 ∧ ((after (.fordCheck 1 15 wr) (s 4)).guest 1).tokens = 4 ∧
    ((after (.fordTokenRefill 1) (s 31)).guest 1).tokens = 130 ∧ ((after (.fordTokenRefill 1) (s 5)).guest 1).tokens = 105 ∧
    after (.fordTokenRefill 1) (fordOn {}) = fordOn {} ∧ after (.fordCheck 1 1 wr) (s 5) = s 5 := by decide +kernel

/-! ## Clocks -/

/-- The clock of a compute site, with what it holds. -/
def clkIn (l : List (Nat × Word)) (x : Site) : State :=
  withRegs (l.map fun e => (bClk 0, e.1, e.2)) { State.reset with sites := [(0, x)], pins := { resetHeld := false } }

/-- An oscillator on and off, and its lock. -/
theorem test_oscillator_cases :
    let live := clkIn [] {}
    let on := after (.oscEn 0 1 true) live
    let powered := withRegs [(bSp 0, 0x08, 0x2BC_0001)] (clkIn [(0x28, field 25 1 1 ||| field 0 7 80 ||| field 16 7 48)] { railOk := true })
    hasDomain 0 1 = true ∧ hasDomain 0 2 = false ∧ bit (State.reset.reg (bClk 0) 0x08) 1 = false ∧
    bit (on.reg (bClk 0) 0x28) 25 = true ∧ bit (on.reg (bClk 0) 0x28) 24 = false ∧
    bit ((after (.oscEn 32 2 false) (after (.oscEn 32 2 true) live)).reg (bClk 32) 0x08) 2 = false ∧ railHolds powered 0 1 = true ∧
    railHolds State.reset 0 1 = false ∧ bit ((after (.oscLock 0 1) powered).reg (bClk 0) 0x28) 24 = true ∧
    State.reset.lead.rom = .held ∧
    after (.oscEn 0 2 true) live = live ∧ after (.oscEn 0 1 true) State.reset = State.reset := by decide +kernel

/-- The references: a switch, a loss with the other good, a loss into holdover in and out of a step, and a return. -/
theorem test_reference_cases :
    let s := fun (r : Word) (x : Site) => clkIn [(0x10, r), (0x20, field 25 1 1 ||| field 24 1 1)] x
    let ref := fun (t : State) => t.reg (bClk 0) 0x10
    let notes := fun (t : State) => (t.router (nodeOf 0 0)).plain.map noticeCode
    ref (after (.refSwitch 0) (s 0xC {})) = 0x1000D ∧ after (.refSwitch 0) (s 4 {}) = s 4 {} ∧
    ref (after (.referenceLoss 0 false) (s 0xC {})) = 0x10009 ∧ notes (after (.referenceLoss 0 false) (s 0xC {})) = [0x0801] ∧
    ref (after (.referenceLoss 0 true) (s 0xC {})) = 4 ∧ after (.referenceLoss 0 true) (s 4 {}) = s 4 {} ∧
    (let t := after (.referenceLoss 0 false) (s 4 { stepPhase := .counting })
     ref t = 2 ∧ bit (t.reg (bClk 0) 0x20) 24 = false ∧ notes t = [0x0802] ∧ bit (t.reg (bClk 52) 0x88) 8 = true) ∧
    bit ((after (.referenceLoss 0 false) (s 4 {})).reg (bClk 52) 0x88) 8 = false ∧
    ref (after (.refGood 0 true) (s 2 {})) = 9 ∧ ref (after (.refGood 0 true) (s 4 {})) = 0xC := by decide +kernel

/-- Crossings: a first slip, one beyond the limit, a lead and a recalibration; which places are crossings. -/
theorem test_crossing_cases :
    let k := xingKey 63 3 4
    let s := clkIn [] {}
    let t := after (.xingSlip 0 63 3 4 .lag) s
    isXing 0 63 3 4 = true ∧ isXing 0 63 3 5 = true ∧ isXing 0 63 3 6 = false ∧ isXing 0 0 0 0 = false ∧ isXing 0 63 0 1 = true ∧
    (t.site 0).extra = [(k, 1)] ∧ t.reg (bClk 0) 0x48 = field 0 6 63 ||| field 6 2 3 ||| field 8 3 4 ||| field 11 1 1 ∧
    (t.router (nodeOf 0 0)).plain.map noticeCode = [0x0803] ∧ bits (t.reg (bClk 0) 0x40) 48 2 = 1 ∧
    ((after (.xingSlip 0 63 3 4 .ahead) t).site 0).extra = [] ∧
    ((after (.xingSlip 0 63 3 4 .lag) (clkIn [] { extra := [(k, 3)] })).site 0).extra = [(k, 3)] ∧
    ((after (.xingSlip 0 63 3 4 .ahead) s).site 0).early = [(k, 1)] ∧
    ((after (.xingSlip 0 63 3 4 .lag) (after (.xingSlip 0 63 3 4 .ahead) s)).site 0).early = [] ∧
    (((after (.xingSlip 0 63 3 4 .full) s).plane (nodeOf 0 63) 3).endOf 4).awaiting = none ∧
    (let w : InFlight := ⟨1, [⟨[], w1 0, false, true⟩]⟩
     let u := s.setPlane (nodeOf 0 63) 3 { ends := [(4, { wire := List.replicate 8 w }), (5, { sent := 20 })] }
     (((after (.xingSlip 0 63 3 4 .full) u).plane (nodeOf 0 63) 3).endOf 4).awaiting = some 12) ∧
    (let u := after (.recal 0) t
     bit (u.reg (bClk 0) 0x40) 1 = true ∧ ((after (.recalDone 0) u).site 0).extra = [] ∧ after (.recalDone 0) s = s) ∧
    ((after (.cal 0) s).site 0).calBusy = true := by decide +kernel

/-- ARM refused by each state and allowed; the phases of a step, in order. -/
theorem test_step_phase_cases :
    let s := fun (ph : StepPhase) => clkIn [(0x28, field 0 7 64 ||| field 16 7 80 ||| field 24 2 3)] { stepPhase := ph }
    let ph := fun (t : State) => (t.site 0).stepPhase
    bits ((after .arm (s .armed)).reg (bClk 52) 0x88) 4 4 = 1 ∧ bits ((after .arm (withRegs [(bClk 52, 0x80, field 16 16 63)] (s .none))).reg (bClk 52) 0x88) 4 4 = 2 ∧
    (let u := withRegs [(bClk 52, 0x80, field 16 16 64)] (s .none)
     bits ((after .arm u).reg (bClk 52) 0x88) 4 4 = 6 ∧ ((after .arm u).router leadNode).offers.length = 1) ∧
    ph (after (.fstepArrive 0) (s .armed)) = .counting ∧ ph (after (.fstepQuiet 0) (s .counting)) = .quiet ∧
    bits ((after (.fstepSwitch 0) (s .quiet)).reg (bClk 0) 0x28) 16 7 = 64 ∧
    bit ((after (.fstepSwitch 0) (s .quiet)).reg (bClk 0) 0x28) 24 = false ∧ ph (after (.fstepResume 0) (s .recalibrated)) = .ended ∧
    after (.fstepResume 0) (s .armed) = s .armed ∧ after .fstepDone (s .ended) = s .ended := by decide +kernel

/-- Site 0 with its oscillators locked, and none beside it running. -/
def lockedSite (x : Site) : State := clkIn [(0x20, field 24 2 3), (0x28, field 24 2 3)] x

/-- A calibration leaves latencies that are free values, so the states are shown field by field. -/
theorem test_calibration_cases :
    calReady (lockedSite {}) 0 = true ∧ calReady (clkIn [] {}) 0 = false ∧
    ((after (.calDone 0 [] 9) (lockedSite { calBusy := true, extra := [(4, 2)] })).site 0).extra = [] ∧
    ((after (.calDone 0 [] 9) (lockedSite { calBusy := true })).site 0).crossed = true ∧
    ((after (.calDone 0 [] 9) (clkIn [] { calBusy := true })).site 0).calBusy = true ∧
    after (.calDone 0 [] 9) (clkIn [] {}) = clkIn [] {} ∧
    ((after (.fstepRecal 0 []) (clkIn [] { stepPhase := .switched, extra := [(4, 2)] })).site 0).stepPhase = .recalibrated ∧
    (((clkIn [] { extra := [(xingKey 63 3 4, 2)], early := [] }).recalPort 0 63 3 4 false).site 0).extra = [] := by
  decide +kernel

/-- A step at a guest site: the guest die is held in the quiet period, and goes on after it. -/
theorem test_guest_step_cases :
    let s := fun (ph : StepPhase) => guestIn 1 guestUp { bridgeHolds := 0xFFFF, mods := [(15, { waiting := [w1 0] })] } { stepPhase := ph }
    ((after (.fstepQuiet 8) (s .counting)).guest 1).bridgeHolds = 0xFFFF ∧
    ((after (.fstepResume 8) (s .recalibrated)).guest 1).bridgeHolds = 0x8000 := by decide +kernel
theorem test_every_site_ended : ∃ s : State, ∀ st, st < 192 → (s.site st).stepPhase = .ended :=
  ⟨{ State.reset with sites := (List.range 192).map fun st => (st, { stepPhase := .ended }) }, by decide +kernel⟩

/-- A panel on which every site has been calibrated and a step may be armed. -/
def readyToStep : State := { State.reset with
  regs := ((bClk 52).key 0x80, field 16 16 64) :: (List.range 192).map fun st => ((bClk st).key 0x40, 4) }

theorem ready_reads {st off : Nat} (h : off < 65536) (h40 : off ≠ 0x40) (h80 : off ≠ 0x80) :
    readyToStep.reg (bClk st) off = State.reset.reg (bClk st) off := by
  have miss : ∀ l : List Nat, Sparse.find ((bClk st).key off) (l.map fun n => ((bClk n).key 0x40, (4 : Word))) = none := by
    intro l
    induction l with
    | nil => rfl
    | cons a l ih =>
      rw [List.map_cons, Sparse.find, if_neg, ih]
      simp only [bClk, Blk.key, Blk.num, BlkKind.num]
      omega
  have head : Sparse.find ((bClk st).key off) readyToStep.regs = none := by
    show (if (bClk 52).key 0x80 = (bClk st).key off then _ else _) = none
    rw [if_neg, miss]
    simp only [bClk, Blk.key, Blk.num, BlkKind.num]
    omega
  unfold State.reg
  rw [head]
  rfl

theorem none_of {f : Nat → Bool} (h : ∀ st ∈ List.range 192, f st = false) : firstSite f = none :=
  List.find?_eq_none.2 fun st hs => by simp [h st hs]

theorem reset_stopped (st d : Nat) (h : d < 3) : bit (State.reset.reg (bClk st) (oscOff d)) 25 = false := by
  have f : ∀ n, bit (field 0 7 n ||| field 8 3 4 ||| field 16 7 n) 25 = false := by
    intro n
    have e : ∀ m, m < 128 → bit (field 0 7 m ||| field 8 3 4 ||| field 16 7 m) 25 = false := by decide +kernel
    have g := e (n % 128) (Nat.mod_lt _ (by decide))
    simpa only [field, Nat.mod_mod, show (2 : Nat) ^ 7 = 128 from rfl] using g
  have r : ∀ c m, bit (((some (⟨if c = true then field 0 7 m ||| field 8 3 4 ||| field 16 7 m else 0,
      if c = true then msk 63 32 else 0, msk 6 0 ||| msk 10 8, 0⟩ : RegInfo)).map (·.reset)).getD 0) 25 = false := by
    intro c m
    cases c
    · exact (by decide : bit (0 : Word) 25 = false)
    · exact f m
  obtain rfl | rfl | rfl : d = 0 ∨ d = 1 ∨ d = 2 := by omega
  · exact r (hasDomain st 0) (domainN (domainKind st 0))
  · exact r (hasDomain st 1) (domainN (domainKind st 1))
  · exact r (hasDomain st 2) (domainN (domainKind st 2))

theorem no_refusal {s : State} (h1 : stepUnderWay s = false) (h2 : ¬ s.getField (bClk 52) 0x80 16 16 < 64)
    (h3 : ∀ st ∈ List.range 192, (activeRef s st == 2) = false) (h4 : ∀ st ∈ List.range 192, siteUnlocked s st = false)
    (h5 : ∀ st ∈ List.range 192, (bits (s.reg (bClk st) 0x00) 16 16 != 0) = false)
    (h6 : ∀ st ∈ List.range 192, (!bit (s.reg (bClk st) 0x40) 2) = false) : stepRefusal s = none := by
  unfold stepRefusal
  rw [h1, if_neg Bool.false_ne_true, if_neg h2]
  simp only [none_of h3, none_of h4, none_of h5, none_of h6]

theorem test_nothing_refuses_a_step : stepRefusal readyToStep = none := by
  refine no_refusal (by decide +kernel) (by decide +kernel) (fun st _ => ?_) (fun st _ => ?_) (fun st _ => ?_)
    (by decide +kernel)
  · rw [activeRef, State.getField, ready_reads (by decide) (by decide) (by decide)]
    exact (by decide : (bits 0xC 0 2 == 2) = false)
  · have o : ∀ d, d < 3 → domainRuns readyToStep st d = false := fun d hd => by
      rw [domainRuns, ready_reads (by omega) (by omega) (by omega)]
      exact reset_stopped st d hd
    simp [siteUnlocked, o]
  · rw [ready_reads (by decide) (by decide) (by decide)]
    exact (by decide : (bits 0 16 16 != 0) = false)

/-! ## Site power -/

/-- Site 0 with SITE_PWR_CTL, SITE_PWR_STAT and what its controller holds. -/
def siteIn (ctl stat : Word) (x : Site) : State :=
  withRegs [(bSp 0, 0x08, ctl), (bSp 0, 0x10, stat)] { State.reset with sites := [(0, x)], pins := { resetHeld := false } }

/-- The codes of the notices that site 0 has raised. -/
def siteNotes (t : State) : List Nat := (t.router (nodeOf 0 0)).plain.map noticeCode

/-- Phases: one that fails, the third, two trips and the third within 1 ms, one whose rail is off. -/
theorem test_phase_cases :
    let on := fun (failed : Nat) (x : Site) => siteIn 1 (field 0 3 2 ||| field 16 5 failed) { x with railOk := true }
    let t := after (.phaseImbalance 0 15) (on 0 {})
    isComputeSite 0 = true ∧ bit (t.reg (bSp 0) 0x18) 31 = true ∧ bits (t.reg (bSp 0) 0x10) 16 5 = 1 ∧ siteNotes t = [0x0901] ∧
    (after (.phaseImbalance 0 15) t).regs = t.regs ∧ (after (.phaseImbalance 0 0) (siteIn 1 0 {})).regs = (siteIn 1 0 {}).regs ∧
    bits ((after (.phaseImbalance 0 0) (siteIn 1 1 {})).reg (bSp 0) 0x10) 16 5 = 1 ∧
    (let u := after (.phaseSwitchFault 0 0) (on 2 {})
     bits (u.reg (bSp 0) 0x10) 0 3 = 3 ∧ siteNotes u = [0x0901, 0x0903]) ∧
    bits ((after (.phaseOcTrip 0 3 2000) (on 0 { ocTimes := [(3, [999, 1000])] })).reg (bSp 0) 0x10) 16 5 = 0 ∧
    bits ((after (.phaseOcTrip 0 3 2000) (on 0 { ocTimes := [(3, [1000, 1001])] })).reg (bSp 0) 0x10) 16 5 = 1 := by
  decide +kernel

/-- A CAPPED site's core with its headers on gets the cap 5. -/
theorem test_capped_core :
    let s := siteIn 1 (field 0 3 2 ||| field 16 5 2) { railOk := true, banks := [(0, 4)] }
    headerOn s (nodeOf 0 0) = true ∧ headerOn s (nodeOf 0 63) = false ∧
    bits ((after (.phaseImbalance 0 0) s).reg (bCore (nodeOf 0 0)) 0x40) 0 4 = 5 := by decide +kernel

/-- The fifth failed phase: the site is DARK. -/
theorem test_dark_site :
    let s := (siteIn 1 (field 0 3 3 ||| field 16 5 4) { railOk := true, banks := [(0, 4)] }).setCore 0 { clearing := true }
    let t := after (.phaseImbalance 0 0) s
    bits (t.reg (bSp 0) 0x10) 0 3 = 4 ∧ t.core 0 = {} ∧ (t.site 0).banks = [] ∧ bit (t.reg (bRtr 0) 0x10) 0 = true ∧
    siteNotes t = [0x0901, 0x0904, 0x0A06] ∧ bits (t.reg (bSm 0) 0x408) 0 2 = 3 := by decide +kernel

/-- Regulation, with and without three failed phases; a hold cleared where its cause has ended; the banks. -/
theorem test_rail_and_bank_cases :
    let st := fun (t : State) => bits (t.reg (bSp 0) 0x10) 0 3
    st (after (.railRegulation 0) (siteIn 1 1 {})) = 2 ∧ ((after (.railRegulation 0) (siteIn 1 1 {})).site 0).railOk = true ∧
    st (after (.railRegulation 0) (siteIn 1 (field 0 3 1 ||| field 16 5 3) {})) = 3 ∧
    after (.railRegulation 0) (siteIn 0 1 {}) = siteIn 0 1 {} ∧ after (.railRegulation 0) (siteIn 1 2 {}) = siteIn 1 2 {} ∧
    (after (.holdClear 0 (msk 15 12)) (siteIn 1 (field 12 4 15) {})).reg (bSp 0) 0x10 = 0 ∧
    (let w := withRegs [(bPwr, 0x10, 2)] (siteIn 1 (field 12 4 15) {})
     bits ((after (.holdClear 0 (msk 15 12)) w).reg (bSp 0) 0x10) 12 4 = 1) ∧
    (let on := siteIn 0x203 2 { railOk := true, banks := [(0, 2)] }
     let b := fun (g : Nat) (s : State) => Sparse.getD 0 ((after (.headerGroupStep 0 g) s).site 0).banks g
     b 0 on = 3 ∧ b 1 on = 1 ∧ b 2 on = 0 ∧ b 0 (siteIn 1 2 { railOk := true, banks := [(0, 2)] }) = 0 ∧
     b 1 (siteIn 1 2 { banks := [(0, 2), (1, 4)] }) = 4 ∧ b 1 (siteIn 1 2 { banks := [(1, 4)] }) = 0) ∧
    (let t := after (.headerGroupStep 0 7) (siteIn 3 2 { railOk := true, banks := (List.range 7).map (fun g => (g, 4)) ++ [(7, 3)] })
     t.core (nodeOf 0 63) = { clearing := true } ∧ bits (t.reg (bCore (nodeOf 0 63)) 0x40) 0 4 = 8 ∧ t.core (nodeOf 0 0) = {}) := by
  decide +kernel

/-- A droop 30 mV below the median marks its bond, at less than half the rated current only. -/
theorem test_open_bond_cases :
    let mv := 720 :: List.replicate 63 750
    let s := siteIn 1 2 { railOk := true }
    mv.length = 64 ∧ (after (.openBondCheck 0 mv 127) s).reg (bSp 0) 0x28 = 1 ∧ siteNotes (after (.openBondCheck 0 mv 127) s) = [0x0902] ∧
    (after (.openBondCheck 0 mv 128) s).reg (bSp 0) 0x28 = 0 ∧ bits ((after (.openBondCheck 0 mv 128) s).reg (bSp 0) 0x20) 0 10 = 720 ∧
    (after (.openBondCheck 0 (721 :: List.replicate 63 750) 0) s).reg (bSp 0) 0x28 = 0 := by decide +kernel

/-! ## The Watershed -/

/-- A panel out of reset with one powered site whose headers are effective, PWR_WS_STAT and the lead steward as given. -/
def wsIn (stat : Word) (l : Lead) : State :=
  withRegs [(bPwr, 0x10, stat), (bSp 0, 0x08, 3), (bSp 0, 0x10, 2)] { State.reset with lead := l, pins := { resetHeld := false }, sites := [(0, { banks := [(0, 4)] })] }

/-- VIN: 48 readings whose lowest is v. -/
def vin (v : Nat) : List Nat := v :: List.replicate 47 (v + 100)

/-- VIN below an entry threshold, above a leave threshold for long enough, and below 4.8 V. -/
theorem test_vin_cases :
    let m := fun (t : State) => (bits (t.reg bPwr 0x10) 0 3, bits (t.reg bPwr 0x10) 3 3)
    let long : Lead := { above := 1000000 }
    (vin 5599).length = 48 ∧ (wsIn 0 {}).pins.resetHeld = false ∧
    m (after (.vinSample (vin 5600)) (wsIn 0 { below := [(1, 255)] })) = (0, 0) ∧
    m (after (.vinSample (vin 5599)) (wsIn 0 { below := [(1, 255)] })) = (1, 1) ∧
    m (after (.vinSample (vin 5701)) (wsIn 9 long)) = (0, 0) ∧ m (after (.vinSample (vin 5700)) (wsIn 9 long)) = (1, 1) ∧
    (after (.vinSample (vin 4799)) (wsIn 0 {})).pins.resetHeld = true ∧ (after (.vinSample (vin 4799)) (wsIn 0 {})).fill = 1 ∧
    after (.vinSample (vin 4799)) State.reset = State.reset := by decide +kernel

/-- FORCE, the pins, the levels' effects and the trip. -/
theorem test_level_cases :
    let lv := fun (t : State) => bits (t.reg bPwr 0x10) 0 3
    let codes := fun (t : State) => (t.router leadNode).offers.map fun o => noticeCode o.pkt
    let w2 := after (.watershedForce 2) (wsIn 9 {})
    lv w2 = 2 ∧ bit (w2.reg (bSp 0) 0x10) 12 = true ∧ codes w2 = [0x0905] ∧
    (let w3 := after (.pwrOk false) (wsIn 0x12 {})
     lv w3 = 3 ∧ bit (w3.reg (bSp 0) 0x10) 14 = true) ∧
    codes (after (.coolOk false) (wsIn 0x12 {})) = [0x0905, 0x0909] ∧ lv (after (.watershedForce 7) (wsIn 0x1B {})) = 4 ∧
    lv (after (.tripClear) (wsIn (field 0 3 3 ||| field 8 1 1) {})) = 0 ∧
    after .tripClear (wsIn 0 {}) = wsIn 0 {} ∧ after .shedStep (wsIn 9 {}) = wsIn 9 {} ∧
    bit ((after .shedStep (wsIn 2 {})).reg (bSp 0) 0x10) 12 = true ∧
    shedOrder (wsIn 0 {}) = [[0]] ∧ headersOn (wsIn 0 {}) 0 = true ∧ after .shedStep { wsIn 2 {} with sites := [] } = { wsIn 2 {} with sites := [] } ∧
    (shedOrder (withRegs [(bImg, 0x10, 5)] (wsIn 0 {}))).length = 9 := by decide +kernel

/-! ## Heat and the PMBus -/

/-- Steward 0 with its caps and the readings of site 0. -/
def heatIn (th : Word) (x : Steward) : State :=
  withRegs [(bSm 0, 0x300, th)] { wsIn 0 {} with stewards := [(0, x)] }

/-- THM_SITE from TMAX, its core, PRED and the warming step. -/
def thm (tmax core pred warm : Nat) : Word := field 0 8 tmax ||| field 8 6 core ||| field 16 8 pred ||| field 24 4 warm

/-- The throttle step: above LIMIT, above with nothing to take, between, and below; the site that is switched off; warming. -/
theorem test_throttle_cases :
    let lim := bits (State.reset.reg (bThm 0) 0x08) 0 8
    let rel := bits (State.reset.reg (bThm 0) 0x08) 8 4
    let caps := fun (t : State) => (t.steward 0).caps
    let hot := nodeOf 0 63
    caps ((heatIn (thm 0 63 (lim + 1) 0) {}).throttle 0) = [(hot, 7)] ∧
    caps ((heatIn (thm 0 63 (lim + 1) 0) { caps := [(hot, 0)] }).throttle 0) = [(hot, 0)] ∧
    caps ((heatIn (thm 0 63 lim 0) { caps := [(hot, 7)] }).throttle 0) = [(hot, 7)] ∧
    caps ((heatIn (thm 0 63 (lim - rel) 0) { caps := [(hot, 7)] }).throttle 0) = [(hot, 7)] ∧
    caps ((heatIn (thm 0 63 (lim - rel - 1) 0) { caps := [(hot, 7)] }).throttle 0) = [] ∧
    caps ((heatIn (thm 0 63 0 0) { caps := [(3, 6), (hot, 5)] }).throttle 0) = [(3, 6), (hot, 6)] ∧
    (let s := heatIn (thm 0 63 (lim + 1) 0) { caps := [(hot, 0)], above := [(0, 19)] }
     bit ((s.siteHeat 0 0).reg (bSp 0) 0x10) 13 = true ∧ bit ((s.siteHeat 0 0).reg (bRtr 0) 0x10) 0 = true) ∧
    (let t := (heatIn (thm 0 63 (lim + 1) 0) { caps := [(hot, 0)] }).siteHeat 0 0
     (t.steward 0).above = [(0, 1)] ∧ bit (t.reg (bSp 0) 0x10) 13 = false) ∧
    bits (((withRegs [(bThm 0, 0x08, field 24 8 40)] (heatIn (thm 39 0 0 8) {})).warmSite 0 0).reg (bSm 0) 0x300) 24 4 = 8 ∧
    bits (((withRegs [(bThm 0, 0x08, field 24 8 40)] (heatIn (thm 43 0 0 8) {})).warmSite 0 0).reg (bSm 0) 0x300) 24 4 = 7 ∧
    bits (((withRegs [(bThm 0, 0x08, field 24 8 40)] (heatIn (thm 42 0 0 8) {})).warmSite 0 0).reg (bSm 0) 0x300) 24 4 = 8 := by
  decide +kernel
theorem test_thermal_sample_held : after (.stewardThermalSample 0) State.reset = State.reset ∧
    (wsIn 0 {}).pins.resetHeld = false ∧ isComputeSite 0 = true ∧ quadrantOf 0 = 0 := by decide +kernel

/-- What module addr answers to a read of a command, its packet error code with it. -/
def busRead (addr cmd : Nat) (d : List Byte) : BusAnswer :=
  ⟨d, pmbusPec ([BitVec.ofNat 8 (2 * addr), BitVec.ofNat 8 cmd, BitVec.ofNat 8 (2 * addr + 1)] ++ d), false⟩

/-- The answers of a module: 54 V, a current and a status. -/
def moduleSays (addr : Nat) (amps status : List Byte) : ModuleAnswer :=
  ⟨some (busRead addr 0x88 [54, 0]), some (busRead addr 0x89 amps), some (busRead addr 0x79 status)⟩

/-- The check value of the packet error code over the ASCII digits 1 to 9; LINEAR11 values with and without an exponent. -/
theorem test_pmbus_values : pmbusPec [0x31, 0x32, 0x33, 0x34, 0x35, 0x36, 0x37, 0x38, 0x39] = 0xF4 ∧
    linear11 [100, 0] = 100 * 65536 ∧ linear11 [101, 0xF8] = 3309568 ∧ linear11 [0xFF, 7] = -65536 := by decide +kernel

/-- A poll of three modules, of which one reports a fault and one is silent; of none; a code that does not match. -/
theorem test_poll_cases :
    let s := withRegs [(bPwr, 0x28, field 8 4 3)] (wsIn 0 {})
    let t := after (.pmbusPoll [moduleSays 0 [100, 0] [0, 0], moduleSays 1 [101, 0xF8] [1, 0], ⟨none, none, none⟩]) s
    let m := moduleSays 0 [100, 0] [0, 0]
    let u := after (.pmbusPoll [{ m with iin := some { busRead 0 0x89 [100, 0] with pec := 0 } }])
      (withRegs [(bPwr, 0x28, field 8 4 1)] (wsIn 0 {}))
    (bits (t.reg bPwr 0x18) 16 13, bits (t.reg bPwr 0x30) 0 16, bits (t.reg bPwr 0x30) 16 16) = (150, 6, 3) ∧
    (t.router leadNode).offers.map (fun o => noticeCode o.pkt) = [0x090B, 0x090B] ∧
    (bits (u.reg bPwr 0x18) 16 13, bits (u.reg bPwr 0x30) 0 16, bits (u.reg bPwr 0x30) 16 16) = (0, 1, 1) ∧
    after (.pmbusPoll []) (withRegs [(bPwr, 0x28, 0)] (wsIn 0 {})) = withRegs [(bPwr, 0x28, 0)] (wsIn 0 {}) := by decide +kernel

/-- A transaction of each kind, what the host drives, and its end. -/
theorem test_transaction_cases :
    let s := wsIn 0 {}
    let x := fun (w : Word) => after (.pmbusXact w) s
    let go : Word := setBit (field 0 8 0x85 ||| field 16 2 2) 63 true
    let ok := fun (d : List Byte) => busRead 5 0 d
    let res := fun (t : State) => t.reg bPwr 0x40
    x 0 = s ∧ bits (res (x go)) 0 2 = 1 ∧ bits (res (x (setBits go 16 2 3))) 0 2 = 3 ∧ (x go).lead.bus = [10, 0, 11] ∧
    (x (setBit (setBits go 32 16 0x0102) 7 false)).lead.bus = [10, 0, 2, 1, pmbusPec [10, 0, 2, 1]] ∧
    after (.pmbusXact go) (x go) = x go ∧ after (.pmbusXactDone true (ok [7, 0])) s = s ∧
    res (after (.pmbusXactDone true (ok [0xCD, 0xAB])) (x go)) = field 0 2 2 ||| field 16 16 0xABCD ∧
    res (after (.pmbusXactDone true (ok [0xCD])) (x (setBits go 16 2 1))) = field 0 2 2 ||| field 16 16 0xCD ∧
    bits (res (after (.pmbusXactDone true ⟨[], 0, false⟩) (x (setBit go 7 false)))) 0 2 = 2 ∧
    bits (res (after (.pmbusXactDone true ⟨[], 0, true⟩) (x (setBit go 7 false)))) 0 2 = 3 ∧
    bits (res (after (.pmbusXactDone true { ok [1, 0] with pec := 0 }) (x go))) 0 2 = 3 ∧
    bits ((after (.pmbusXactDone false (ok [1, 0])) (x go)).reg bPwr 0x30) 16 16 = 1 := by decide +kernel

/-! ## Bring-up -/

/-- A panel whose ROM is at a place, out of reset unless it is held. -/
def romAt (r : Rom) : State := { State.reset with lead := { rom := r }, pins := { resetHeld := false } }

/-- Reset and its release. -/
theorem test_reset_cases :
    let t := after .panelResetRelease State.reset
    State.reset.pins.resetHeld = true ∧ t.lead.rom = .startLock ∧ (t.pins.resetHeld, t.pins.vlink, t.pins.vctl) = (false, true, true) ∧
    t.reg bCtl 0x10 = 0x11 ∧ bits (t.reg (bClk 52) 0x08) 0 2 = 3 ∧
    after .panelResetRelease (romAt .waiting) = romAt .waiting ∧
    after .panelResetN (romAt .waiting) = { State.reset with fill := 1 } := by decide +kernel

/-- The ROM goes on once what it waits for has come about, and not before; pass boot where no pair is UP. -/
theorem test_rom_cases :
    let rom := fun (s : State) => s.romNext.lead.rom
    let lockd := fun (r : Rom) => withRegs [(bClk 52, 0x20, 0x100_0000), (bClk 52, 0x28, 0x100_0000)] (romAt r)
    let cald := fun (r : Rom) => withRegs [(bClk 52, 0x40, 4)] (romAt r)
    rom (lockd .startLock) = .startCal ∧ ((lockd .startLock).romNext.site 52).calBusy = true ∧ rom (romAt .startLock) = .startLock ∧
    rom (cald .startCal) = .startBond ∧ bondState (cald .startCal).romNext 52 = 1 ∧ rom (romAt .startCal) = .startCal ∧
    rom (romAt .startBond) = .waiting ∧ rom (withRegs [(bSm 52, 0x400, 4)] (romAt .startBond)) = .startBond ∧
    rom (romAt .bootLock) = .bootLock ∧ rom (romAt .bootCal) = .bootCal ∧ rom (romAt .waiting) = .waiting ∧
    after .passBoot (withRegs [(bCtl, 0x10, 0x50)] (romAt .waiting)) = withRegs [(bCtl, 0x10, 0x50)] (romAt .waiting) ∧
    (portState (romAt .waiting) 8 ≠ 5 ∧ portState (romAt .waiting) 9 ≠ 5 ∧ fwState (romAt .waiting) ≠ 3) ∧
    after .passBoot (romAt .bootCal) = romAt .bootCal := by decide +kernel

theorem find_const {k v : Nat} {w : Word} : ∀ {l : Sparse Word}, (∀ e ∈ l, e.2 = w) → (k, w) ∈ l ∨ (∃ e ∈ l, e.1 = k) →
    v = k → Sparse.find v l = some w := by
  intro l
  induction l with
  | nil => simp
  | cons a l ih =>
    rintro h hk rfl
    rw [Sparse.find]
    split
    · exact congrArg some (h a List.mem_cons_self)
    · rename_i ne
      refine ih (fun e he => h e (List.mem_cons_of_mem _ he)) (Or.inr ?_) rfl
      obtain hm | ⟨e, hm, he⟩ := hk
      · obtain rfl | hm := List.mem_cons.1 hm
        · exact absurd rfl ne
        · exact ⟨_, hm, rfl⟩
      · obtain rfl | hm := List.mem_cons.1 hm
        · exact absurd he ne
        · exact ⟨e, hm, he⟩

/-- A panel on which every oscillator of every site is LOCKED, and one on which every site has been calibrated. -/
def settledRegs : Sparse Word := (List.range 576).map fun i => ((bClk (i / 3)).key (oscOff (i % 3)), 0x100_0000)

theorem settled_find {st d : Nat} (h : st < 192) (hd : d < 3) :
    Sparse.find ((bClk st).key (oscOff d)) settledRegs = some 0x100_0000 := by
  refine find_const (k := (bClk st).key (oscOff d)) (fun e he => ?_) (Or.inr ?_) rfl
  · obtain ⟨i, -, rfl⟩ := List.mem_map.1 he
    rfl
  · refine ⟨_, List.mem_map.2 ⟨3 * st + d, List.mem_range.2 (by omega), rfl⟩, ?_⟩
    show (bClk ((3 * st + d) / 3)).key (oscOff ((3 * st + d) % 3)) = _
    rw [show (3 * st + d) / 3 = st by omega, show (3 * st + d) % 3 = d by omega]

theorem test_every_site_settled {st : Nat} (h : st < 192) :
    siteLocked { romAt .bootLock with regs := settledRegs } st = true := by
  have r : ∀ d, d < 3 → locked { romAt .bootLock with regs := settledRegs } st d = true := by
    intro d hd
    unfold locked State.reg
    rw [settled_find h hd]
    exact (by decide : bit 0x100_0000 24 = true)
  simp [siteLocked, r]
theorem test_every_site_calibrated : ∀ st ∈ List.range 192, siteCalibrated readyToStep st = true := by decide +kernel

/-- Pass boot trains the port of a link site whose bond is DONE, again too; the bond of site 52 ends the start. -/
theorem test_boot_training_cases :
    let s := withRegs [(bSm 32, 0x400, 8)] (romAt .bootTrain)
    let r : BondResult := ⟨true, []⟩
    portState (after .passBootRetrain s) 0 = 1 ∧ portState (after .passBootRetrain s) 1 = 0 ∧
    after .passBootRetrain (romAt .waiting) = romAt .waiting ∧
    portState (after (.bondTrainDone 32 r) (withRegs [(bSm 32, 0x400, 4)] (romAt .bootTrain))) 0 = 1 ∧
    (after (.bondTrainDone 52 r) (withRegs [(bSm 52, 0x400, 4)] (romAt .startBond))).lead.rom = .waiting := by decide +kernel

/-- Training of a site and its outcomes; a second dropped plane flags the site. -/
theorem test_site_training_cases :
    let up := withRegs [(bSp 0, 0x08, 1)] (romAt .waiting)
    let busy := fun (st : Nat) => withRegs [(bSm st, 0x400, 0x24)] (romAt .waiting)
    let done := fun (st : Nat) (r : BondResult) => after (.bondTrainDone st r) (busy st)
    bondState (after (.siteTrainBond 0) up) 0 = 1 ∧ after (.siteTrainBond 52) up = up ∧ after (.siteTrainBond 7) up = up ∧
    dramState (after (.siteTrainDram 0) up) 0 = 1 ∧ after (.siteTrainDram 1) up = up ∧ after (.siteTrainDram 32) up = up ∧
    bits ((after (.dramTrainDone 0 0) (busy 0)).reg (bSm 0) 0x400) 5 3 = 2 ∧
    bits ((after (.dramTrainDone 0 65) (busy 0)).reg (bSm 0) 0x400) 5 10 = 3 + 64 * 8 ∧
    siteNotes (after (.dramTrainDone 0 1) (busy 0)) = [0x0A06] ∧ after (.dramTrainDone 0 1) up = up ∧
    bondState (done 0 ⟨true, []⟩) 0 = 2 ∧ (done 0 ⟨true, []⟩).reg (bSm 0) 0x110 = 0x1FF ∧
    bits ((done 0 ⟨true, []⟩).reg (bSm 0) 0x100) 8 4 = 1 ∧ bits ((done 0 ⟨false, []⟩).reg (bSm 0) 0x100) 8 4 = 0 ∧
    bondState (done 0 ⟨false, []⟩) 0 = 3 ∧ bits ((done 0 ⟨false, []⟩).reg (bSm 0) 0x408) 0 4 = 9 ∧
    bits ((done 32 ⟨false, []⟩).reg (bSm 32) 0x408) 0 4 = 0 ∧
    (let t := done 0 ⟨true, [(0, 0), (0, 3)]⟩
     bits (t.reg (bRtr 0) 0x10) 2 4 = 9 ∧ bit (t.reg (bSm 0) 0x408) 2 = true ∧ siteNotes t = [0x0208, 0x0208, 0x0209, 0x0A06]) ∧
    bits ((after (.setHost 0) (after (.setHost 0) up)).reg (bSm 0) 0x408) 0 7 = 0x41 ∧ siteNotes (after (.setHost 0) (after (.setHost 0) up)) = [0x0A06] := by
  decide +kernel

/-- A bond that trains takes the repairs of the birth record again: a spare that one of them uses is not free. -/
theorem test_birth_repairs :
    let s := { withRegs [(bSp 0, 0x08, 1)] (romAt .waiting) with
      birth := { State.reset.birth with bondRepair := [0x2_4300] } }
    ((s.bondStart 0).router (nodeOf 0 3)).spares = [(6, 1)] ∧ ((s.bondStart 0).router (nodeOf 0 4)).spares = [] := by
  decide +kernel

/-- VNET rising over a field puts its routers at reset. -/
theorem test_vnet_cases :
    let s := withRegs [(bPwr, 0x20, 0x2F8_0000_0000_0001), (bRtr 0, 0x80, 3), (bRtr 100, 0x80, 3)] (romAt .waiting)
    vnetOn s (fieldOf 0) = bit (s.reg bPwr 0x20) (fieldOf 0) ∧
    (s.vnetRise (fieldOf 0)).reg (bRtr (nodeOf 0 0)) 0x80 = State.reset.reg (bRtr 0) 0x80 := by decide +kernel

/-! ## Firmware -/

/-- A panel whose lead steward is in a firmware state, with the bytes consumed and those waiting. -/
def fwIn (st : Nat) (got : List Byte) (waiting : Sparse Byte) : State :=
  { withRegs [(bStw 0, 0x20, field 0 3 st)] freed with lead := { fwFull := got, fwBytes := waiting } }

/-- BEGIN, ABORT, and a chunk: first, ahead, out of the window, and the one that completes. -/
theorem test_firmware_chunk_cases :
    let c := fun (off : Nat) (d : List Byte) => quadBytes (BitVec.ofNat 64 off) ++ d
    let st := fun (t : State) => fwState t
    let e : List Byte := List.replicate 8 7
    st (after .fwBegin (fwIn 4 e [])) = 1 ∧ (after .fwBegin (fwIn 4 e [])).lead.fwFull = [] ∧ after .fwBegin (fwIn 3 e []) = fwIn 3 e [] ∧
    st (after .fwAbort (fwIn 1 e [])) = 0 ∧ after .fwAbort (fwIn 3 e []) = fwIn 3 e [] ∧
    (after (.stwFwData (c 0 e)) (fwIn 1 [] [])).lead.fwFull = e ∧ bits ((after (.stwFwData (c 0 e)) (fwIn 1 [] [])).reg (bStw 0) 0x20) 16 25 = 8 ∧
    (after (.stwFwData (c 8 e)) (fwIn 1 [] [])).lead.fwBytes = (List.range 8).map (fun i => (8 + i, 7)) ∧
    bits ((after (.stwFwData (c (2 ^ 20) e)) (fwIn 1 [] [])).reg (bStw 0) 0x20) 48 16 = 1 ∧
    bits ((after (.stwFwData (c 0 e)) (fwIn 0 [] [])).reg (bStw 0) 0x20) 48 16 = 1 ∧
    (let t := after (.stwFwData (c 8 (quadBytes 16))) (fwIn 1 e [])
     st t = 2 ∧ t.lead.fwFull.length = 16) ∧
    (let t := after (.fwVerify true) (fwIn 2 (e ++ e) [])
     st t = 4 ∧ bits (t.reg (bStw 0) 0x20) 4 4 = 1 ∧ (t.router leadNode).offers.length = 1) ∧
    bits ((after (.fwVerify true) (fwIn 2 (quadBytes 0x444C_5446_4952_4D57 ++ quadBytes 16) [])).reg (bStw 0) 0x20) 4 4 = 2 ∧
    after (.fwVerify true) State.reset = State.reset := by decide +kernel

theorem sha512_len (m : List Byte) : (sha512 m).length = 64 := by
  simp [sha512, beBytes, leBytes_length]

theorem mgf1_len (m : List Byte) : (mgf1 m 447).length = 447 := by
  simp [mgf1, ceilDiv, List.length_flatMap, sha512_len]

theorem leNat_lt (l : List Byte) : leNat l < 256 ^ l.length := by
  induction l with
  | nil => simp [leNat]
  | cons b l ih =>
    have := b.isLt
    simp only [leNat, List.length_cons, Nat.pow_succ]
    omega

theorem leBytes_leNat (l : List Byte) : leBytes (leNat l) l.length = l := by
  induction l with
  | nil => rfl
  | cons b l ih =>
    have := b.isLt
    rw [List.length_cons, leBytes, leNat]
    have h1 : (b.toNat + 256 * leNat l) / 256 = leNat l := by omega
    rw [h1, ih]
    congr 1
    apply BitVec.eq_of_toNat_eq
    simp only [BitVec.toNat_ofNat]
    omega

theorem beNat_eq (l : List Byte) : beNat l = leNat l.reverse := by
  have g : ∀ (l : List Byte) a, l.foldl (fun a b => a * 256 + b.toNat) a = a * 256 ^ l.length + leNat l.reverse := by
    intro l
    induction l using List.reverseRecOn with
    | nil => simp [leNat]
    | append_singleton l b ih =>
      intro a
      rw [List.foldl_append, List.foldl_cons, List.foldl_nil, ih, List.reverse_append]
      simp only [List.reverse_cons, List.reverse_nil, List.nil_append, List.cons_append, leNat, List.length_append,
        List.length_cons, List.length_nil, Nat.pow_add, Nat.pow_one]
      ring
  rw [beNat, g]
  omega

/-- A big-endian number written again with as many bytes. -/
theorem beBytes_beNat (l : List Byte) : beBytes (beNat l) l.length = l := by
  rw [beBytes, beNat_eq, ← List.length_reverse, leBytes_leNat, List.reverse_reverse]

theorem leNat_append (a b : List Byte) : leNat (a ++ b) = leNat a + 256 ^ a.length * leNat b := by
  induction a with
  | nil => simp [leNat]
  | cons x a ih =>
    simp only [List.cons_append, leNat, ih, List.length_cons, Nat.pow_succ]
    ring

/-- The modulus of all ones is above every number whose first byte is below 128. -/
theorem below_ones {b : Byte} {l : List Byte} {n : Nat} (hb : b.toNat < 128) (hl : l.length = n) :
    beNat (b :: l) < beNat (List.replicate (n + 1) 0xFF) := by
  have ones : ∀ n, leNat (List.replicate n (0xFF : Byte)) + 1 = 256 ^ n := by
    intro n
    induction n with
    | zero => rfl
    | succ n ih =>
      rw [List.replicate_succ, leNat, Nat.pow_succ, ← ih]
      simp only [show (0xFF : Byte).toNat = 255 from rfl]
      ring
  have h1 := ones (n + 1)
  have h2 := leNat_lt l.reverse
  rw [List.length_reverse, hl] at h2
  rw [beNat_eq, beNat_eq, List.reverse_cons, leNat_append, List.length_reverse, hl, List.reverse_replicate]
  simp only [leNat, Nat.mul_zero, Nat.add_zero]
  have h3 : 256 ^ n * b.toNat ≤ 256 ^ n * 127 := Nat.mul_le_mul_left _ (by omega)
  rw [Nat.pow_succ] at h1
  omega

/-- A number to the power 1. -/
theorem modPow_one {s n : Nat} (h : s < n) (hn : 1 < n) : modPow s 1 n = s := by
  have key : ∀ k, k ≤ 63 → (List.range k).foldl (fun acc i =>
      let sq := acc * acc % n
      if (1 : Nat).testBit (63 - i) then sq * s % n else sq) (1 % n) = 1 := by
    intro k
    induction k with
    | zero => intro _; exact Nat.mod_eq_of_lt hn
    | succ k ih =>
      intro hk
      rw [List.range_succ, List.foldl_append, ih (by omega)]
      have t : (1 : Nat).testBit (63 - k) = false :=
        (by decide : ∀ j, j < 64 → 0 < j → (1 : Nat).testBit j = false) _ (by omega) (by omega)
      simp [t, Nat.mod_eq_of_lt hn]
  unfold modPow modPowBits
  rw [show (64 : Nat) = 63 + 1 from rfl, List.range_succ, List.foldl_append, key 63 (by omega)]
  simp [Nat.mod_eq_of_lt h]

/-- The encoded message of a hash with a salt of zeros. -/
def pssH (hash : List Byte) : List Byte := sha512 (List.replicate 8 0 ++ hash ++ List.replicate 64 0)
def pssD : List Byte := List.replicate 381 0 ++ 1 :: List.replicate 64 0
def pssEm (hash : List Byte) : List Byte :=
  (match mgf1 (pssH hash) 447 with
  | m :: ms => (m &&& 0x7F) :: List.zipWith (· ^^^ ·) pssD ms
  | [] => []) ++ pssH hash ++ [0xBC]

theorem low_small : ∀ m : Byte, (m &&& 0x7F).toNat < 128 := by decide
theorem low_xor : ∀ m : Byte, ((m &&& 0x7F) ^^^ m) &&& 0x7F = 0 := by decide
theorem byte_ne_succ : ∀ m : Byte, m ≠ m + 1 := by decide

theorem pssEm_ok (hash : List Byte) : (∃ b l, pssEm hash = b :: l ∧ b.toNat < 128 ∧ l.length = 511) ∧
    pssOk hash (pssEm hash) = true := by
  have hm := mgf1_len (pssH hash)
  have hh : (pssH hash).length = 64 := sha512_len _
  obtain ⟨m, ms, e⟩ : ∃ m ms, mgf1 (pssH hash) 447 = m :: ms := by
    cases h : mgf1 (pssH hash) 447 with
    | nil => simp [h] at hm
    | cons m ms => exact ⟨m, ms, rfl⟩
  have hms : ms.length = 446 := by simpa [e] using hm
  have hd : pssD.length = 446 := by
    simp only [pssD, List.length_append, List.length_cons, List.length_replicate]
  have hz : (List.zipWith (· ^^^ ·) pssD ms).length = 446 := by simp [hd, hms]
  have em : pssEm hash = (m &&& 0x7F) :: (List.zipWith (· ^^^ ·) pssD ms ++ pssH hash ++ [0xBC]) := by
    simp [pssEm, e]
  have small := low_small m
  refine ⟨⟨_, _, em, small, by simp [hz, hh]⟩, ?_⟩
  have t1 : (pssEm hash).take 447 = (m &&& 0x7F) :: List.zipWith (· ^^^ ·) pssD ms := by
    rw [em, List.take_succ_cons, List.append_assoc, List.take_left' hz]
  have t2 : ((pssEm hash).drop 447).take 64 = pssH hash := by
    rw [em, List.drop_succ_cons, List.append_assoc, List.drop_left' hz, List.take_left' hh]
  have t3 : (pssEm hash).getD 511 0 = 0xBC := by
    rw [em, List.getD_cons_succ, List.getD_append_right _ _ _ _ (by simp [hz, hh])]
    simp [hz, hh]
  have xx : ∀ (a b : List Byte), a.length = b.length →
      List.zipWith (· ^^^ ·) (List.zipWith (· ^^^ ·) a b) b = a := by
    intro a
    induction a with
    | nil => intro b _; rfl
    | cons x a ih =>
      intro b hb
      cases b with
      | nil => simp at hb
      | cons y b =>
        rw [List.zipWith_cons_cons, List.zipWith_cons_cons, ih b (by simpa using hb)]
        exact congrArg (· :: a) (by
          show x ^^^ y ^^^ y = x
          rw [BitVec.xor_assoc, BitVec.xor_self, BitVec.xor_zero])
  have z := low_xor m
  have t4 : ((pssEm hash).getD 0 0).toNat < 128 := by rw [em]; exact small
  have x := xx pssD ms (by rw [hd, hms])
  generalize pssEm hash = E at t1 t2 t3 t4
  unfold pssOk
  simp only [t1, t2, t3, t4, e, List.zipWith_cons_cons, x, z]
  have d1 : (((0 : Byte) :: pssD).take 382).all (· == 0) = true := by decide +kernel
  have d2 : ((0 : Byte) :: pssD).getD 382 0 = 1 := by decide +kernel
  have d3 : ((0 : Byte) :: pssD).drop 383 = List.replicate 64 0 := by decide +kernel
  rw [d1, d2, d3]
  simp only [decide_true, beq_self_eq_true, Bool.and_self, pssH]

/-- A signature under the exponent 1 and the modulus of all ones is the encoded message. -/
theorem ones_big : 1 < beNat (List.replicate 512 (0xFF : Byte)) := by decide +kernel
theorem exponent_one : beNat (List.replicate 7 (0 : Byte) ++ [1]) = 1 := by decide +kernel

theorem signed_iff {b : Byte} {l : List Byte} (msg : List Byte) (hb : b.toNat < 128) (hl : l.length = 511) :
    pssVerify (List.replicate 512 0xFF) (List.replicate 7 0 ++ [1]) msg (b :: l) = pssOk (sha512 msg) (b :: l) := by
  have h : beNat (b :: l) < beNat (List.replicate 512 0xFF) := below_ones hb hl
  unfold pssVerify
  simp only [exponent_one, modPow_one h ones_big, h, decide_true, Bool.true_and]
  rw [show (512 : Nat) = (b :: l).length by rw [List.length_cons, hl], beBytes_beNat]

/-- Firmware of 2,048 bytes with a signature and a hash of its last 512 bytes. -/
def fwHead (hash : List Byte) : List Byte :=
  quadBytes 0x444C_5446_4952_4D57 ++ (quadBytes 2048 ++ (List.replicate 48 0 ++ (hash ++ (List.replicate 512 0xFF ++
    ((List.replicate 7 0 ++ [1]) ++ List.replicate 120 0)))))
def fwOf (hash sig : List Byte) : List Byte := fwHead hash ++ (sig ++ (List.replicate 256 0 ++ List.replicate 512 0))
def fwKey : List Byte := List.replicate 512 0xFF ++ (List.replicate 7 0 ++ [1])

/-- The checks of such firmware, on a panel whose key hash is given. -/
theorem fw_reason {hash l : List Byte} {b : Byte} {s : State} (started : Bool) (hh : hash.length = 64)
    (hk : s.birth.fwKeyHash.length = 64) (hb : b.toNat < 128) (hl : l.length = 511) :
    fwReason s (fwOf hash (b :: l)) started = if sha512 fwKey ≠ s.birth.fwKeyHash then 3
      else if !pssOk (sha512 (fwHead hash)) (b :: l) then 4
      else if sha512 (List.replicate 512 0) ≠ hash then 5 else if !started then 6 else 0 := by
  have q : ∀ w, (quadBytes w).length = 8 := fun w => leBytes_length _ _
  have lh : (fwHead hash).length = 768 := by simp only [fwHead, q, hh, List.length_append, List.length_cons, List.length_nil, List.length_replicate]
  have a0 : quadAt (fwOf hash (b :: l)) 0 = 0x444C_5446_4952_4D57 := by
    unfold quadAt fwOf fwHead
    rw [List.drop_zero, List.append_assoc, List.take_left' (q _)]
    decide +kernel
  have a8 : quadAt (fwOf hash (b :: l)) 8 = 2048 := by
    unfold quadAt fwOf fwHead
    rw [List.append_assoc, List.drop_left' (q _), List.append_assoc, List.take_left' (q _)]
    decide +kernel
  have len : (fwOf hash (b :: l)).length = 2048 := by simp only [fwOf, lh, hl, List.length_append, List.length_cons, List.length_replicate]
  have key : ((fwOf hash (b :: l)).drop 0x80).take 520 = fwKey := by
    have p : fwOf hash (b :: l) = (quadBytes 0x444C_5446_4952_4D57 ++ (quadBytes 2048 ++ (List.replicate 48 0 ++ hash))) ++
        (fwKey ++ (List.replicate 120 0 ++ ((b :: l) ++ (List.replicate 256 0 ++ List.replicate 512 0)))) := by
      simp only [fwOf, fwHead, fwKey, List.append_assoc]
    rw [p, List.drop_left' (by simp only [q, hh, List.length_append, List.length_replicate]), List.take_left' (by simp only [fwKey, List.length_append, List.length_cons, List.length_nil, List.length_replicate])]
  have hash' : ((fwOf hash (b :: l)).drop 0x40).take 64 = hash := by
    have p : fwOf hash (b :: l) = (quadBytes 0x444C_5446_4952_4D57 ++ (quadBytes 2048 ++ List.replicate 48 0)) ++
        (hash ++ (fwKey ++ (List.replicate 120 0 ++ ((b :: l) ++ (List.replicate 256 0 ++ List.replicate 512 0))))) := by
      simp only [fwOf, fwHead, fwKey, List.append_assoc]
    rw [p, List.drop_left' (by simp only [q, List.length_append, List.length_replicate]), List.take_left' hh]
  have head : (fwOf hash (b :: l)).take 0x300 = fwHead hash := List.take_left' lh
  have sig : ((fwOf hash (b :: l)).drop 0x300).take 512 = b :: l := by
    rw [fwOf, List.drop_left' lh, List.take_left' (by rw [List.length_cons, hl])]
  have body : (fwOf hash (b :: l)).drop 0x600 = List.replicate 512 0 := by
    have p : fwOf hash (b :: l) = (fwHead hash ++ ((b :: l) ++ List.replicate 256 0)) ++ List.replicate 512 0 := by
      simp only [fwOf, List.append_assoc]
    rw [p, List.drop_left' (by simp only [lh, hl, List.length_append, List.length_cons, List.length_replicate])]
  have pad : padTo 64 s.birth.fwKeyHash = s.birth.fwKeyHash := by simp [padTo, hk]
  have k1 : fwKey.take 512 = List.replicate 512 0xFF := List.take_left' List.length_replicate
  have k2 : fwKey.drop 512 = List.replicate 7 0 ++ [1] := List.drop_left' List.length_replicate
  unfold fwReason
  simp only [a0, a8, len, key, hash', head, sig, body, pad, k1, k2, signed_iff _ hb hl]
  rw [if_neg (by decide), if_neg (by decide)]

/-- Firmware that fails each of the later checks, and firmware that passes them all. -/
theorem test_firmware_checks : (∃ s f, fwReason s f true = 0 ∧ fwReason s f false = 6) ∧
    (∃ s f, fwReason s f true = 3) ∧ (∃ s f, fwReason s f true = 4) ∧ ∃ s f, fwReason s f true = 5 := by
  have l64 : ∀ m, (sha512 m).length = 64 := sha512_len
  have change : ∀ m : List Byte, m.length = 64 → m ≠ m.map (· + 1) := by
    intro m hm h
    cases m with
    | nil => simp at hm
    | cons x m => exact absurd (List.cons.inj h).1 (byte_ne_succ x)
  let s (k : List Byte) : State := { State.reset with birth := { resetBirth with fwKeyHash := k } }
  have bad0 : ∀ h, pssOk h ((0 : Byte) :: List.replicate 511 0) = false := by
    intro h
    unfold pssOk
    rw [show ((0 : Byte) :: List.replicate 511 0).getD 511 0 = 0 by decide +kernel]
    simp only [show ((0 : Byte) == 0xBC) = false from rfl, Bool.false_and]
  refine ⟨?_, ?_, ?_, ?_⟩
  · obtain ⟨⟨b, l, e, hb, hl⟩, ok⟩ := pssEm_ok (sha512 (fwHead (sha512 (List.replicate 512 0))))
    rw [e] at ok
    refine ⟨s (sha512 fwKey), fwOf (sha512 (List.replicate 512 0)) (b :: l), ?_, ?_⟩ <;>
    · rw [fw_reason _ (l64 _) (l64 _) hb hl, ok]
      simp only [s, ne_eq, not_true, if_false, Bool.not_true, Bool.not_false, Bool.false_eq_true, if_true]
  · refine ⟨s ((sha512 fwKey).map (· + 1)), fwOf (sha512 []) ((0 : Byte) :: List.replicate 511 0), ?_⟩
    rw [fw_reason _ (l64 _) (by simp only [s, List.length_map, l64]) (by decide) (by rw [List.length_replicate])]
    exact if_pos (change _ (l64 _))
  · refine ⟨s (sha512 fwKey), fwOf (sha512 []) ((0 : Byte) :: List.replicate 511 0), ?_⟩
    rw [fw_reason _ (l64 _) (l64 _) (by decide) List.length_replicate, bad0]
    simp only [s, ne_eq, not_true, if_false, Bool.not_false, if_true]
  · obtain ⟨⟨b, l, e, hb, hl⟩, ok⟩ := pssEm_ok (sha512 (fwHead ((sha512 (List.replicate 512 0)).map (· + 1))))
    rw [e] at ok
    refine ⟨s (sha512 fwKey), fwOf ((sha512 (List.replicate 512 0)).map (· + 1)) (b :: l), ?_⟩
    rw [fw_reason _ (by simp only [List.length_map, l64]) (l64 _) hb hl, ok]
    simp only [s, ne_eq, not_true, if_false, Bool.not_true, Bool.false_eq_true]
    exact if_pos (change _ (l64 _))

/-! ## The watch for progress and compute reset -/

/-- Core 0 as a member of region 0, whose word of STW_RGN is given, watched by its steward. -/
def watchIn (rgn : Word) (c : Core) (x : Steward) : State :=
  withRegs [(bStw 0, 0x1000, rgn), (bStw 0, 0x10, field 0 8 20 ||| field 8 1 1), (bCore 0, 0x30, field 16 1 1)]
    { onState c with stewards := [(0, x)] }

/-- STW_RGN of a VALID region: its state, its policy, its window and what is left of its drain. -/
def rgnWord (state policy window drain : Nat) : Word :=
  field 0 1 1 ||| field 1 3 state ||| field 4 4 15 ||| field 11 2 policy ||| field 16 16 window ||| field 32 8 drain

/-- A hang at the end of the window, one before it, one already reported, and a fault; each with its policy. -/
theorem test_watch_cases :
    let c : Core := { ctxs := [(0, { state := .ready, cairn := 5 })] }
    let row := fun (policy still : Nat) (hung : List Nat) =>
      after (.cairnSample 0) (watchIn (rgnWord 2 policy 3 0) c { seenCairn := [(0, 5)], still := [(0, still)], hung := hung })
    let notes := fun (t : State) => (t.router leadNode).offers.map fun o => noticeCode o.pkt
    let t := row 0 2 []
    notes t = [0x0A01] ∧ t.reg (bStw 0) 0x40 = field 0 1 1 ||| field 32 16 1 ∧ (t.steward 0).hung = [0] ∧
    notes (row 0 1 []) = [] ∧ ((row 0 1 []).steward 0).still = [(0, 2)] ∧ notes (row 0 2 [0]) = [] ∧
    (let u := after (.cairnSample 0) (watchIn (rgnWord 2 0 3 1) { ctxs := [(0, { state := .faulted })] } {})
     bits (u.reg (bStw 0) 0x40) 0 24 = field 0 1 1 ||| field 22 1 1 ∧ (u.steward 0).seenFault = [0] ∧ notes u = [] ∧
     bits (rgnCfg u 0) 32 8 = 0) ∧
    (let v := row 1 2 []
     bits (v.reg (bStw 0) 0x38) 0 2 = 1 ∧ rgnState v 0 = 4 ∧ v.core 0 = { clearing := true } ∧ bits (rgnCfg v 0) 4 4 = 1) ∧
    rgnState (row 2 2 []) 0 = 3 ∧ bit ((row 2 2 []).reg (bRtr 0) 0x10) 0 = true := by decide +kernel

/-- Compute reset: not asked, while one runs, refused for a drain, and done. -/
theorem test_compute_reset_cases :
    let s := watchIn (rgnWord 2 0 3 0) { ctxs := [(0, { state := .ready })] } {}
    let go : Word := field 33 1 1 ||| field 0 1 1
    let t := after (.computeReset go) s
    let stat := fun (t : State) => t.reg (bStw 0) 0x38
    after (.computeReset 1) s = s ∧ after (.computeReset go) t = t ∧ t.lead.resetScope = [0] ∧ t.lead.resetRegions = [0] ∧
    bits (stat t) 0 2 = 1 ∧ bits (stat t) 16 16 = 1 ∧ bits (t.reg (bCore 0) 0x30) 8 4 = 1 ∧ bit (t.reg (bCore 0) 0x30) 16 = true ∧
    bits (rgnCfg t 0) 32 8 = 20 ∧
    (let u := after (.computeReset go) (watchIn (rgnWord 2 0 3 1) {} {})
     bits (stat u) 0 2 = 3 ∧ (u.router leadNode).offers.map (fun o => noticeCode o.pkt) = [0x0A03]) ∧
    after .resetDone t = t ∧
    (let v := after .resetDone (t.setCore 0 { clearDone := true })
     rgnState v 0 = 5 ∧ bits (stat v) 0 2 = 2 ∧ (v.router leadNode).offers.map (fun o => noticeCode o.pkt) = [0x0A02]) ∧
    coreServed s 0 = true ∧ isCoreNode 0 = true := by decide +kernel

/-! ## The panel as a whole -/

/-- A queue of two commands: the first one runs; with none the panel idles. -/
theorem test_step_cases :
    (match step { freed with pending := [.fwBegin, .fwAbort] } with
      | .next t => decide (t.pending = [.fwAbort]) && decide (fwState t = 1)
      | _ => false) = true ∧
    (match step State.reset with
      | .next t => decide (t = State.reset)
      | _ => false) = true ∧ (Instr.start 0).wellFormed = true ∧ (Instr.start 12288).unit.present = false := by decide +kernel

/-- The invariants hold at reset and in a state that a command leaves. -/
theorem test_invariants_are_met : Memory.wf State.reset = true ∧ Memory.wf (after (.start 0) (onState {})) = true ∧
    State.reset.pending = [] := by decide +kernel
theorem test_program_counters_at_reset : PcWf State.reset := by
  intro n i
  exact (by decide : (0 : Nat) % 8 = 0 ∧ (0 : Nat) ≤ 0x1_0000)

/-- Addition of accumulators (R113): N wraps at 2^60 and the flags are ORed; terms in another order; positions of
elements in registers and data areas. -/
theorem test_exact_sum_cases :
    exactAdd 60 ((2 ^ 60 - 1) * 16 + 1) (1 * 16 + 4) = 5 ∧ exactAdd 124 ((2 ^ 60 - 1) * 16 + 1) (1 * 16 + 4) = 2 ^ 64 + 5 ∧
    [17, 34, 51].Perm [51, 17, 34] ∧ [17, 34, 51].foldl (exactAdd 60) 0 = 6 * 16 + 3 ∧ 15 < 64 / 4 ∧
    1 < (List.replicate 16 (0 : Byte)).length / 8 := by decide +kernel

/-! ## States for the statements' further conditions -/

/-- The checks of R106 find nothing wrong. -/
theorem no_use_fails {c : Core} {desc : Nat} {places : List (Nat × Nat × Nat)} {tiles : List Nat} {bad : Prop} {verify : Bool}
    (h1 : ∀ p ∈ places, p.1 + p.2.1 ≤ 0x20_0000 ∧ p.1 % p.2.2 = 0)
    (h2 : ∀ o ∈ tiles, c.parityOk o (tileLen (readTile c o))) (h3 : ¬ bad)
    (h4 : ∀ o ∈ tiles, (readTile c o).consistent = true ∧ (readTile c o).crcOk = true) :
    ∀ code addr, ¬ UseFails c desc places tiles bad verify code addr := by
  intro code addr h
  have mem : ∀ {α : Type} {l : List α} {p : α → Prop} {x : α}, FirstOf l p x → x ∈ l ∧ p x := by
    rintro α l p x ⟨i, hi, hp, -⟩
    exact ⟨List.mem_of_getElem? hi, hp⟩
  cases h with
  | range p first => exact absurd (mem first).2 (by have := (h1 p (mem first).1).1; omega)
  | align p _ first => exact (mem first).2 (h1 p (mem first).1).2
  | parity o w _ first _ _ => exact (mem first).2 (h2 o (mem first).1)
  | desc _ _ wrong => exact h3 wrong
  | header _ _ _ _ first => exact absurd ((h4 _ (mem first).1).1.symm.trans (mem first).2) (by decide)
  | checksum _ _ _ _ _ _ first => exact absurd ((h4 _ (mem first).1).2.symm.trans (mem first).2) (by decide)

/-- What R136 calls a wrong VTLD descriptor, as the statement on VTLD has it. -/
def VtldWrong (c : Core) (desc reg : Nat) : Prop :=
  let q := fun i => quadAt (c.readSpad desc 64) (8 * i)
  let t := readTile c (bits (q 0) 0 21)
  let start := bits (q 0) 32 14
  let count := bits (q 0) 48 5
  let regs := if count = 0 then (t.dataLen - start + 255) / 256 else count
  (∃ i, i < 64 ∧ bit (q 0) i = true ∧ ¬ (i ≤ 20 ∨ (32 ≤ i ∧ i ≤ 45) ∨ (48 ≤ i ∧ i ≤ 52))) ∨
    (∃ i, 1 ≤ i ∧ i < 8 ∧ q i ≠ 0) ∨ start % 256 ≠ 0 ∨ t.dataLen < start ∨ 16 < count ∨ 16 < reg + regs

/-- A good VTLD, and one whose START is no multiple of 256. -/
theorem test_vtld_checks :
    (∀ code addr, ¬ UseFails (vtldOne.core 0) 0x40 [(0x1000, tileLen (readTile (vtldOne.core 0) 0x1000), 64)] [0x1000]
      (VtldWrong (vtldOne.core 0) 0x40 3) true code addr) ∧
    (let c := (withOp (opOf .vector 0) {} [(0x40, quadBytes (0x1000 ||| field 32 14 8))]).core 0
     UseFails c 0x40 [(0x1000, tileLen (readTile c 0x1000), 64)] [0x1000] (VtldWrong c 0x40 0) true 0x09 0x40) := by
  constructor
  · apply no_use_fails
    · decide +kernel
    · unfold Core.parityOk
      decide +kernel
    · unfold VtldWrong
      rintro (⟨i, hi, h⟩ | ⟨i, h1, h2, h⟩ | h)
      · exact absurd h (by revert i; decide +kernel)
      · exact absurd h (by revert i; decide +kernel)
      · exact absurd h (by decide +kernel)
    · decide +kernel
  · refine .desc (by decide +kernel) ?_ (.inr (.inr (.inl (by decide +kernel))))
    unfold Core.parityOk
    decide +kernel

/-- The slots of a packet at each end of a link: nothing on its way, one cycle or two away, a replay awaited. -/
theorem test_receive_cases :
    let p := pkt 0x01 0 1 9 0 (List.replicate 64 7)
    let ws := slotsOf p false
    let at_ := fun (i : InFlight) (x : LinkEnd) => meshAt 1 { ends := [(3, { x with wire := [i] })] }
    let got := fun (s : State) => ((State.receive 1 0 s 3).plane 1 0).inputs.map fun h => (h.pkt, h.toCome)
    ws.map WordSlot.first = [true, false] ∧ State.receive 1 0 meshOn 3 = meshOn ∧
    got (at_ ⟨1, ws⟩ {}) = [(p, 0)] ∧ got (at_ ⟨1, ws.take 1⟩ {}) = [(p, 1)] ∧ got (at_ ⟨2, ws⟩ {}) = [] ∧
    got (at_ ⟨1, ws⟩ { awaiting := some 0 }) = [] ∧
    ((State.receive 1 0 (at_ ⟨2, ws⟩ {}) 3).plane 1 0).endOf 3 = { wire := [⟨1, ws⟩] } := by decide +kernel

/-- An output that sends two slots, one beside a NAK, one that was held back, and none where it stalls. -/
theorem test_output_cases :
    let p := pkt 0x01 0 1 9 0 (List.replicate 64 7)
    let ws := slotsOf p false
    let at_ := fun (n : Nat) (e far : LinkEnd) =>
      (meshAt 0 { transit := [(1, { pkt := p, words := ws, toCome := n })], ends := [(1, e)] }).setPlane 1 0 { ends := [(3, far)] }
    let sent := fun (s : State) => (((State.drainPort 0 0 s 1).plane 0 0).endOf 1).sent
    let eight := List.replicate 8 (⟨5, ws⟩ : InFlight)
    sent (at_ 0 {} {}) = 2 ∧ sent (at_ 0 { nak := some 3 } {}) = 1 ∧ sent (at_ 1 {} {}) = 1 ∧ sent (at_ 0 {} { wire := eight }) = 0 ∧
    sent (at_ 0 { sent := 12 } { awaiting := some 0 }) = 12 ∧ sent (at_ 0 { sent := 11 } { awaiting := some 0 }) = 13 ∧
    (((State.drainPort 0 0 (at_ 0 {} {}) 1).plane 0 0).transit, ((State.drainPort 0 0 (at_ 0 {} {}) 1).plane 1 0).endOf 3) =
      ([], { wire := [⟨1, ws⟩] }) := by decide +kernel

/-- A header that is granted an output on which a packet has just ended, and a word at a closed port. -/
theorem test_half_and_closed_cases :
    let h := hd (w1 9) .n 0
    let s := meshAt 0 { half := [1] }
    let t := s.forward 0 0 1 h
    let shut := meshOn.setReg (bRtr 1) 0x18 8
    (t.plane 0 0).half = [] ∧ ((t.plane 0 0).endOf 1).sent = 1 ∧ ((t.plane 1 0).endOf 3).wire.map InFlight.left = [1] ∧
    closedPort shut 1 0 3 = true ∧
    bits ((State.takeWord 1 0 3 shut ⟨[], w1 9, true, false⟩).reg (bRtr 1) 0x50) 16 16 = 1 := by decide +kernel

/-- The ACK of a WRITE that has not been performed, injected: its request holds its place, and no ACK is due. -/
theorem test_ack_injected_first :
    let p := { dw 0 [1] with h0 := mkH0 1 0 0 1 5, h2 := setBit (setBit 0 59 true) 17 true }
    let a := (ackFor p).getD (w1 0)
    let s := (after (.write 0 0 p) (sliceOn {}))
    let on := { meshOn with slices := s.slices }
    (s.slice 0).ackOut = [⟨a, some 0⟩] ∧ (s.slice 0).queue.map Req.acked = [false] ∧
    ((after (.injection 0 0 a) on).slice 0).ackOut = [] ∧ ((after (.injection 0 0 a) on).slice 0).queue.map Req.acked = [true] ∧
    Sparse.find 5 (on.plane 0 0).transit = none ∧ ((on.plane 0 0).endOf 5).again = [] ∧ ((on.plane 0 0).endOf 4).wire = [] ∧
    (on.plane 0 0).hasRoom .v = true := by decide +kernel

/-- Accesses that meet an uncorrected and a corrected line, a whole line that mends one, and a ledger request that
meets one; a kind that no slice serves. -/
theorem test_line_error_cases :
    let q := fun (p : Packet) => (⟨p, 0, byteLines (aOff p.h1) (pLen p) |>.map (·, true), false, false⟩ : Req)
    let rd := q { dw 0 [] with h0 := mkH0 2 0 0 2 0 }
    let s := sliceOn { queue := [rd], dram := [(0, 9), (1, 8)], badLines := [0] }
    let t := after (.sliceAccess 0 0) s
    mayPerform s 0 0 = true ∧ bits (t.reg (bMc 0) 0x30) 0 16 + bits (t.reg (bMc 0) 0x30) 16 16 = 1 ∧
    ((after (.sliceAccess 0 0) (sliceOn { queue := [⟨dw 0 (List.replicate 128 1), 0, [], false, false⟩], badLines := [0] })).slice
      0).badLines = [] ∧
    (let l := shardWith 2 0 2 { badLines := List.range 4096 }
     (∃ x ∈ (ledgerRun l 0 (((l.slice 0).queue.map Req.pkt).headD (w1 0))).reads, x ∈ (l.slice 0).badLines) ∧
     ((after (.findOrInsert 0) l).slice 0).respOut.map (fun o => bits (quadAt o.pkt.data 0) 0 4) = [7]) ∧
    bits ((after (.msg 0 0 (pkt 0x04 0 0 0 0 [1])) (sliceOn {})).reg (bMc 0) 0x30) 48 16 = 1 := by decide +kernel

/-- With nothing in the mesh no word is in transit to be lost with a domain or a field. -/
theorem test_empty_mesh : ∀ n pl, State.reset.plane n pl = {} := fun _ _ => rfl

/-- Waits of one slot: MODE 1 releases both contexts that wait on it, MODE 0 with COUNT 1 the first alone, and LINK_EN
counts on the counter that a third awaits. -/
theorem test_wait_modes :
    let waits := fun (k : WaitFor) => ({ state := .parked, wait := k } : Ctx)
    let at_ := fun (mode : Nat) => onState { ctxs := [(0, waits (.slot 4 7)), (1, waits (.slot 4 7)), (2, waits (.count 9 1))]
                                             slots := [(4, field 32 2 mode ||| field 35 1 1 ||| field 36 12 9)]
                                             ccs := [(7, 1)] }
    let run := fun (mode : Nat) => let t := (at_ mode).signal 0 4 1
      ([0, 1, 2].map fun i => (t.ctx 0 i).state, bits ((t.core 0).slot 4) 0 32, (t.core 0).cc 9)
    run 1 = ([.ready, .ready, .ready], 1, 2) ∧ run 0 = ([.ready, .parked, .ready], 0, 1) := by decide +kernel

/-- A load in progress for a region of a powered site: W3 and a compute reset interrupt it. -/
theorem test_interrupted_load_cases :
    let s1 := withRegs [(bStw 0, 0x1000, 3), (bStw 0, 0x1008, 1), (bSp 0, 0x08, 0x2BC_0001), (bSp 0, 0x10, 2)] (imgIn 3 {})
    let v : Word := setBit (setBit 0 0 true) 33 true
    imgBusy s1 = true ∧ rgnState s1 0 = 1 ∧ 0 ∈ regionSites s1 0 ∧
    bits ((s1.enterW3).reg bImg 0x10) 0 3 = 6 ∧ bits ((after (.computeReset v) s1).reg bImg 0x10) 0 3 = 6 := by decide +kernel

/-- Packets to the registers of each space that some die of the node serves. -/
theorem test_register_spaces :
    let w := fun (sp n off : Nat) => pkt 0x01 0 sp n off (quadBytes 1)
    let ln := linkNode 2
    let gn := guestNode 1
    siteKind (siteOf 0) = .compute ∧ siteUnpowered (onState {}) 0 = false ∧ headerOn (onState {}) 0 = true ∧
    siteKind (siteOf leadNode) = .steward ∧ siteKind (siteOf ln) = .link ∧ siteKind (siteOf gn) = .guest ∧
    (after (.write 0 0 (w 2 0 0x30)) (onState {})).stagedReg (bCore 0) 0x30 = 1 ∧
    (after (.write 0 0 (w 4 0 0x10)) (sliceOn {})).stagedReg (bMc 0) 0x10 = 1 ∧ aSpace (w 4 0 0x10).h1 = 4 ∧
    addrHere (onState {}) (w 5 leadNode 0x10).h1 = true ∧ addrHere freed (w 6 ln 0x18).h1 = true ∧
    addrHere freed (w 8 gn 0xF000_0028).h1 = true ∧ inFarWindow freed (w 6 ln 0x18).h1 = false := by decide +kernel

/-- Numbers of the reduction's FP32 sum: finite, infinite, and not a number. -/
theorem test_fp_classes : FpFinite 0x3F80_0000 ∧ ¬ FpFinite 0x7F80_0000 ∧ ¬ FpNan 0x7F80_0000 ∧ FpNan 0x7FC0_0000 ∧
    (redAdd 4 0x3F80_0000 0x4000_0000).1 = 0x4040_0000 ∧ (redAdd 4 0x7F80_0000 0xFF80_0000).1 = 0x7FC0_0000 := by
  unfold FpFinite FpNan
  decide +kernel

/-- A NAK of the guest die: for a slot that is kept, for the eighth time, and for one that is not. -/
theorem test_guest_nak_cases :
    let p := pkt 0x01 0 8 (guestNode 1) 0x10 [1]
    let at_ := fun (naks : Nat) => guestIn 1 guestUp { mods := [(0, { sent := 3, retry := slotsOf p false, nakWord := 2, naks := naks })] } {}
    let row := fun (q : BitVec 4) (s : State) => after (.guestGo 1 ⟨0, ⟨0, (nakSlot q).1, (nakSlot q).2⟩⟩) s
    bits ((row 2 (at_ 0)).reg (bFord 1) 0x48) 0 16 = 1 ∧ bit ((row 2 (at_ 7)).reg (bFord 1) 0x10) 4 = false ∧
    bit ((row 2 (at_ 0)).reg (bFord 1) 0x10) 4 = true ∧ row 9 (at_ 0) = at_ 0 := by decide +kernel
end Sys2Proof.Tests
end

section
/-! SUPPORT. What the proofs of bring-up share: what a fold leaves and brings about, which registers lie under which keys,
and which nodes lie under which sites. -/

namespace Sys2Proof.Machine

/-! ## Folds -/

/-- What every step keeps, and the step for one element brings about, holds after a fold over that element. -/
theorem foldl_of_mem {σ α : Type} {P : σ → Prop} {f : σ → α → σ} {l : List α} {a : α} (ha : a ∈ l)
    (hit : ∀ s, P (f s a)) (keep : ∀ s b, P s → P (f s b)) (s : σ) : P (l.foldl f s) := by
  induction l generalizing s with
  | nil => exact absurd ha List.not_mem_nil
  | cons b l ih =>
    rcases List.mem_cons.1 ha with rfl | h
    · exact List.foldlRecOn l f (motive := P) (hit s) fun s hs b _ => keep s b hs
    · exact ih h _

/-- In a fold over distinct elements, the step for one element takes what holds until then to what holds from then on. -/
theorem foldl_at {σ α : Type} {P Q : σ → Prop} {f : σ → α → σ} {l : List α} {a : α} (ha : a ∈ l) (hl : l.Nodup) {s : σ}
    (hs : P s) (before : ∀ t, ∀ b ∈ l, b ≠ a → P t → P (f t b)) (hit : ∀ t, P t → Q (f t a))
    (behind : ∀ t, ∀ b ∈ l, b ≠ a → Q t → Q (f t b)) : Q (l.foldl f s) := by
  obtain ⟨l1, l2, rfl⟩ := List.append_of_mem ha
  obtain ⟨-, h2, hd⟩ := List.nodup_append.1 hl
  rw [List.foldl_append, List.foldl_cons]
  refine List.foldlRecOn l2 f (hit _ (List.foldlRecOn l1 f hs fun t ht b hb => ?_)) fun t ht b hb => ?_
  · exact before t b (by simp [hb]) (hd b hb a List.mem_cons_self) ht
  · exact behind t b (by simp [hb]) (fun e => (List.nodup_cons.1 h2).1 (e ▸ hb)) ht

/-- A fold of which one element alone has an effect. -/
theorem foldl_single {σ α : Type} {f : σ → α → σ} {l : List α} {a : α} (ha : a ∈ l) (hl : l.Nodup) {s : σ}
    (before : ∀ b ∈ l, b ≠ a → f s b = s) (behind : ∀ b ∈ l, b ≠ a → f (f s a) b = f s a) : l.foldl f s = f s a :=
  foldl_at (P := (· = s)) (Q := (· = f s a)) ha hl rfl (fun t b hb hne ht => by rw [ht, before b hb hne])
    (fun t ht => by rw [ht]) (fun t b hb hne ht => by rw [ht, behind b hb hne])

/-! ## Sparse data and registers -/

/-- A look-up in sparse data whose values are changed. -/
theorem Sparse.find_map {α β : Type} (f : α → β) (k : Nat) (m : Sparse α) :
    Sparse.find k (m.map fun e => (e.1, f e.2)) = (Sparse.find k m).map f := by
  induction m with
  | nil => rfl
  | cons e rest ih =>
    simp only [List.map_cons, Sparse.find]
    split
    · rfl
    · exact ih

theorem Sparse.getD_map {α β : Type} (f : α → β) (d : α) (k : Nat) (m : Sparse α) :
    Sparse.getD (f d) (m.map fun e => (e.1, f e.2)) k = f (Sparse.getD d m k) := by
  rw [Sparse.getD, Sparse.find_map, Option.getD_map, Sparse.getD]

/-- A register reads alike where its birth record and its listed value are alike. -/
theorem State.reg_congr {s t : State} {k : Blk} {off : Nat} (hb : t.birth = s.birth)
    (hf : Sparse.find (k.key off) t.regs = Sparse.find (k.key off) s.regs) : t.reg k off = s.reg k off := by
  unfold State.reg
  rw [hf, hb]

theorem State.find_setReg (s : State) (k : Blk) (off key : Nat) (w : Word) :
    Sparse.find key (s.setReg k off w).regs = if key = k.key off then some w else Sparse.find key s.regs :=
  Sparse.find_put _ _ _ _

/-- A register set twice holds the last value. -/
theorem State.setReg_setReg (s : State) (k : Blk) (off : Nat) (w w' : Word) :
    (s.setReg k off w).setReg k off w' = s.setReg k off w' := by
  simp [State.setReg]

theorem RoutersOnly.lead {s t : State} (h : RoutersOnly s t) : t.lead = s.lead := by
  rw [h]

theorem RoutersOnly.pins {s t : State} (h : RoutersOnly s t) : t.pins = s.pins := by
  rw [h]

/-! ## Keys of registers

Two registers share a key only where kind, unit and offset are the same, for the units that the panel has and the offsets
of their tables. -/

@[simp] theorem Blk.key_off_inj (k : Blk) {off off' : Nat} : k.key off = k.key off' ↔ off = off' := by
  simp [Blk.key]

theorem Blk.key_ne_of_unit {k k' : Blk} {off off' : Nat} (hu : k.unit ≠ k'.unit) (hk : k.kind = k'.kind := by rfl)
    (ho : off < 0x1_0000 := by decide) (ho' : off' < 0x1_0000 := by decide) : k.key off ≠ k'.key off' := by
  simp only [Blk.key, Blk.num, hk]
  omega

theorem Blk.key_ne_of_kind {k k' : Blk} {off off' : Nat} (hk : k.kind.num ≠ k'.kind.num := by exact Nat.ne_of_beq_eq_false rfl)
    (hu : k.unit < 16384 := by simp only [bRtr, bSm, bSp, bPass]; omega)
    (hu' : k'.unit < 16384 := by simp only [bRtr, bSm, bSp, bPass]; omega)
    (ho : off < 0x1_0000 := by decide) (ho' : off' < 0x1_0000 := by decide) : k.key off ≠ k'.key off' := by
  simp only [Blk.key, Blk.num]
  omega

/-! ## Nodes of sites -/

theorem siteOf_nodeOf {st i : Nat} (hi : i < 64) : siteOf (nodeOf st i) = st := by
  simp only [siteOf, nodeOf, nodeAt, nodeX, nodeY]
  omega

theorem localOf_nodeOf {st i : Nat} (hi : i < 64) : localOf (nodeOf st i) = i := by
  simp only [localOf, nodeOf, nodeAt, nodeX, nodeY]
  omega

theorem nodeOf_siteOf_localOf (n : Nat) : nodeOf (siteOf n) (localOf n) = n := by
  simp only [siteOf, localOf, nodeOf, nodeAt, nodeX, nodeY]
  omega

theorem localOf_lt (n : Nat) : localOf n < 64 := by
  simp only [localOf, nodeX, nodeY]
  omega

theorem mem_siteNodes {st n : Nat} : n ∈ siteNodes st ↔ siteOf n = st := by
  simp only [siteNodes, List.mem_map, List.mem_range]
  constructor
  · rintro ⟨i, hi, rfl⟩
    exact siteOf_nodeOf hi
  · rintro rfl
    exact ⟨localOf n, localOf_lt n, nodeOf_siteOf_localOf n⟩

theorem siteOf_lt {n : Nat} : siteOf n < 192 ↔ n < 12288 := by
  simp only [siteOf, nodeX, nodeY]
  omega

theorem siteNodes_nodup (st : Nat) : (siteNodes st).Nodup := by
  refine List.nodup_range.map_on fun i hi j hj h => ?_
  rw [← localOf_nodeOf (st := st) (List.mem_range.1 hi), h, localOf_nodeOf (List.mem_range.1 hj)]

/-- The nodes of a field's sites. -/
theorem mem_fieldNodes {f n : Nat} : n ∈ (fieldSites f).flatMap siteNodes ↔ n < 12288 ∧ fieldOf (siteOf n) = f := by
  simp only [fieldSites, List.mem_flatMap, List.mem_filter, List.mem_range, beq_iff_eq, mem_siteNodes]
  constructor
  · rintro ⟨st, ⟨hst, hf⟩, rfl⟩
    exact ⟨siteOf_lt.1 hst, hf⟩
  · rintro ⟨hn, hf⟩
    exact ⟨siteOf n, ⟨siteOf_lt.2 hn, hf⟩, rfl⟩

theorem isSite_iff {st : Nat} : isSite st = true ↔ st < 192 := by simp [isSite]

end Sys2Proof.Machine
end

section
/-! SUPPORT. What the loss of words leaves of a plane and of the panel (R359, R406; assumption 102): the routers alone
change, no plane's gate or count of deflections does, and a plane that is empty stays empty. -/

namespace Sys2Proof.Machine

/-! ## Empty planes -/

/-- An end that keeps nothing but the number of its next slot. -/
def LinkEnd.Bare (x : LinkEnd) : Prop := x = { sent := x.sent }

theorem LinkEnd.Bare.of_eq {x : LinkEnd} {n : Nat} (h : x = { sent := n }) : x.Bare := by
  subst h
  rfl

/-- A plane that holds no word, whose ends keep the number of their next slot alone. -/
structure RPlane.Emptied (r : RPlane) : Prop where
  fields : r = { gate := r.gate, defls := r.defls, ends := r.ends }
  ends : ∀ e, (r.endOf e).Bare

/-- What a loss of words may do to a plane. -/
structure RPlane.Loses (r r' : RPlane) : Prop where
  gate : r'.gate = r.gate
  defls : r'.defls = r.defls
  emptied : r.Emptied → r'.Emptied

theorem RPlane.Loses.refl (r : RPlane) : r.Loses r := ⟨rfl, rfl, id⟩

theorem RPlane.Loses.trans {a b c : RPlane} (h : a.Loses b) (h' : b.Loses c) : a.Loses c :=
  ⟨h'.gate.trans h.gate, h'.defls.trans h.defls, h'.emptied ∘ h.emptied⟩

/-- A plane that has lost every word is the one before but for its lists and its ends. -/
theorem RPlane.Emptied.eq_of_loses {r r' : RPlane} (e : r'.Emptied) (h : r.Loses r') :
    r' = { r with
      inputs := [], gather := [], transit := [], half := [], ends := r'.ends, vout := [], served := [], held := [] } := by
  have f := e.fields
  rw [h.gate, h.defls] at f
  exact f

/-- A plane that stays empty with its lists cut loses words at most. -/
theorem RPlane.loses_cut (r : RPlane) {i v : List Header} {g : List Held} {t : Sparse Transit}
    (hi : r.inputs = [] → i = []) (hv : r.vout = [] → v = []) (hg : r.gather = [] → g = [])
    (ht : r.transit = [] → t = []) : r.Loses { r with inputs := i, vout := v, gather := g, transit := t } where
  gate := rfl
  defls := rfl
  emptied h := by
    have f := h.fields
    rw [RPlane.mk.injEq] at f
    obtain ⟨fi, ft, fh, -, -, fv, fs, fg, fb, -⟩ := f
    refine ⟨?_, h.ends⟩
    simp [hi fi, hv fv, hg fg, ht ft, fh, fs, fb]

/-- A change of one end that keeps a bare end bare loses words at most. -/
theorem RPlane.loses_end (r : RPlane) (d : Nat) {x : LinkEnd} (hx : (r.endOf d).Bare → x.Bare) :
    r.Loses { r with ends := Sparse.put d x r.ends } where
  gate := rfl
  defls := rfl
  emptied h := by
    refine ⟨?_, fun e => ?_⟩
    · have f := h.fields
      rw [RPlane.mk.injEq] at f
      obtain ⟨fi, ft, fh, -, -, fv, fs, fg, fb, -⟩ := f
      simp [fi, ft, fh, fv, fs, fg, fb]
    · rw [RPlane.endOf_put]
      split
      · exact hx (h.ends d)
      · exact h.ends e

theorem LinkEnd.Bare.forget {x : LinkEnd} (h : x.Bare) (k : Nat) (p : Packet) : (x.forget k p).Bare := by
  rw [h]
  exact .of_eq (n := x.sent) (by simp [LinkEnd.forget])

theorem LinkEnd.Bare.dropWords {x : LinkEnd} (h : x.Bare) (f : WordSlot → Bool) : (x.dropWords f).Bare := by
  rw [h]
  exact .of_eq rfl

/-! ## Panels that have lost words -/

/-- t is s after words in the routers are lost. -/
structure WordsLost (s t : State) : Prop where
  only : RoutersOnly s t
  planes : ∀ n pl, (s.plane n pl).Loses (t.plane n pl)

theorem WordsLost.refl (s : State) : WordsLost s s := ⟨.refl s, fun _ _ => .refl _⟩

theorem WordsLost.trans {s t u : State} (h : WordsLost s t) (h' : WordsLost t u) : WordsLost s u :=
  ⟨h.only.trans h'.only, fun n pl => (h.planes n pl).trans (h'.planes n pl)⟩

/-- A fold whose every step loses words at most does so. -/
theorem WordsLost.foldl {α : Type} {f : State → α → State} (h : ∀ s a, WordsLost s (f s a)) (l : List α) (s : State) :
    WordsLost s (l.foldl f s) :=
  List.foldlRecOn l f (motive := WordsLost s) (.refl s) fun b hb a _ => hb.trans (h b a)

/-- A plane after a plane is changed. -/
@[simp] theorem State.plane_modPlane (s : State) (n pl m q : Nat) (f : RPlane → RPlane) :
    (s.modPlane n pl f).plane m q = if m = n ∧ q = pl then f (s.plane n pl) else s.plane m q := by
  simp only [State.modPlane_eq, State.setPlane_eq, State.plane_eq, State.router_setRouter]
  by_cases hm : m = n
  · subst hm
    by_cases hq : q = pl <;> simp [hq]
  · simp [hm]

theorem wordsLost_modPlane (s : State) (n pl : Nat) {f : RPlane → RPlane} (hf : ∀ r : RPlane, r.Loses (f r)) :
    WordsLost s (s.modPlane n pl f) := by
  refine ⟨routersOnly_modPlane s n pl f, fun m q => ?_⟩
  rw [State.plane_modPlane]
  split
  case isTrue h => obtain ⟨rfl, rfl⟩ := h; exact hf _
  case isFalse => exact .refl _

theorem wordsLost_modEnd (s : State) (n pl d : Nat) {f : LinkEnd → LinkEnd} (hf : ∀ x : LinkEnd, x.Bare → (f x).Bare) :
    WordsLost s (s.modEnd n pl d f) :=
  wordsLost_modPlane s n pl fun r => r.loses_end d (hf _)

/-- A packet cut off at an input is lost with what of it has gone on (R177, R189). -/
theorem wordsLost_cutOff (f : Nat) (s : State) (n pl : Nat) (pt : Port) : WordsLost s (s.cutOff f n pl pt) := by
  induction f generalizing s n pl pt with
  | zero => exact .refl s
  | succ f ih =>
    have input : WordsLost s (s.modPlane n pl fun r => { r with
        inputs := r.inputs.filter fun h => !(h.port == pt && h.toCome != 0)
        vout := r.vout.filter fun h => !(h.port == pt && h.toCome != 0)
        gather := r.gather.filter fun h => !(h.port == pt && h.left != 0) }) :=
      wordsLost_modPlane s n pl fun r =>
        r.loses_cut (fun h => by simp [h]) (fun h => by simp [h]) (fun h => by simp [h]) id
    refine input.trans (.foldl (fun s o => ?_) _ _)
    split
    case h_1 => exact .refl s
    case h_2 t _ =>
      split
      case isFalse => exact .refl s
      case isTrue =>
        have cut : ∀ k q g, WordsLost s (((s.modPlane n pl fun r => { r with transit := Sparse.del o r.transit }).modEnd n
            pl o fun x => x.forget k t.pkt).modEnd (farEnd n o).1 pl q fun x => x.dropWords g) := fun k q g =>
          ((wordsLost_modPlane s n pl fun r => r.loses_cut id id id fun h => by simp [h, Sparse.del]).trans
            (wordsLost_modEnd _ n pl o fun _ hx => hx.forget _ _)).trans
            (wordsLost_modEnd _ _ pl _ fun _ hx => hx.dropWords _)
        dsimp only
        split
        case isTrue => exact (cut _ _ _).trans (ih _ _ _ _)
        case isFalse => exact cut _ _ _

/-- The words lost with a sender (R359). -/
theorem wordsLost_loseSent (s : State) (n pl d : Nat) (f : WordSlot → Bool) : WordsLost s (s.loseSent n pl d f) := by
  unfold State.loseSent
  dsimp only
  split
  case isTrue => exact .refl s
  case isFalse =>
    generalize ((lostWords s n pl d).filter f).map WordSlot.pkt = gone
    have sender : WordsLost s ((s.modPlane n pl fun r => { r with
        transit := if (r.unsent d).any f then Sparse.del d r.transit else r.transit }).modEnd n pl d fun x =>
          { x with again := x.again.filter fun w => !gone.contains w.pkt }) := by
      refine (wordsLost_modPlane s n pl fun r => r.loses_cut id id id fun h => ?_).trans
        (wordsLost_modEnd _ n pl d fun x hx => ?_)
      · simp [h, Sparse.del]
      · rw [hx]
        exact .of_eq rfl
    have both := sender.trans (wordsLost_modEnd _ (farEnd n d).1 pl (farEnd n d).2 (f := fun x =>
      { x.dropWords (fun w => gone.contains w.pkt) with awaiting := none, fails := 0, nak := none, nakSent := false })
        fun x hx => by rw [hx]; exact .of_eq rfl)
    split
    case isTrue => exact both.trans (wordsLost_cutOff _ _ _ _ _)
    case isFalse => exact both

/-! ## A field whose VNET falls -/

/-- A plane whose router is stopped (R359). -/
def RPlane.stopped (r : RPlane) : RPlane :=
  { r with inputs := [], gather := [], transit := [], half := [], vout := [], served := [], held := []
           ends := r.ends.map fun x => (x.1, { sent := x.2.sent }) }

/-- The routers of a node are stopped. -/
def State.stopNode (s : State) (n : Nat) : State :=
  s.modRouter n fun r => { r with planes := r.planes.map fun e => (e.1, e.2.stopped) }

theorem RPlane.endOf_stopped (r : RPlane) (e : Nat) : r.stopped.endOf e = { sent := (r.endOf e).sent } :=
  Sparse.getD_map (fun x : LinkEnd => ({ sent := x.sent } : LinkEnd)) {} e r.ends

theorem RPlane.emptied_stopped (r : RPlane) : r.stopped.Emptied :=
  ⟨rfl, fun e => by rw [RPlane.endOf_stopped]; rfl⟩

theorem RPlane.loses_stopped (r : RPlane) : r.Loses r.stopped := ⟨rfl, rfl, fun _ => r.emptied_stopped⟩

theorem State.plane_stopNode (s : State) (n m pl : Nat) :
    (s.stopNode n).plane m pl = if m = n then (s.plane n pl).stopped else s.plane m pl := by
  unfold State.stopNode
  rw [State.modRouter_eq, State.plane_eq, State.router_setRouter]
  split
  · exact Sparse.getD_map RPlane.stopped {} pl (s.router n).planes
  · rfl

theorem wordsLost_stopNode (s : State) (n : Nat) : WordsLost s (s.stopNode n) := by
  refine ⟨rfl, fun m pl => ?_⟩
  rw [State.plane_stopNode]
  split
  case isTrue h => exact h ▸ (s.plane n pl).loses_stopped
  case isFalse => exact .refl _

/-- What the routers of node n send over crossings is lost. -/
def State.loseCrossing (s : State) (n : Nat) : State :=
  ([0, 1, 2, 3].filter (crosses n)).foldl (fun s d =>
    [0, 1, 2, 3].foldl (fun s pl => s.loseSent n pl d fun _ => true) s) s

theorem loseRouterWords_eq (s : State) (st : Nat) :
    loseRouterWords s st = (siteNodes st).foldl (fun s n => (s.loseCrossing n).stopNode n) s := rfl

theorem wordsLost_loseCrossing (s : State) (n : Nat) : WordsLost s (s.loseCrossing n) :=
  .foldl (fun _ _ => .foldl (fun _ _ => wordsLost_loseSent _ _ _ _ _) _ _) _ _

theorem wordsLost_loseNode (s : State) (n : Nat) : WordsLost s ((s.loseCrossing n).stopNode n) :=
  (wordsLost_loseCrossing s n).trans (wordsLost_stopNode _ n)

theorem wordsLost_loseRouterWords (s : State) (st : Nat) : WordsLost s (loseRouterWords s st) := by
  rw [loseRouterWords_eq]
  exact .foldl wordsLost_loseNode _ _

/-- No plane of a stopped site holds a word. -/
theorem emptied_loseRouterWords (s : State) {n : Nat} (pl : Nat) :
    ((loseRouterWords s (siteOf n)).plane n pl).Emptied := by
  rw [loseRouterWords_eq]
  refine foldl_of_mem (mem_siteNodes.2 rfl) (fun s => ?_) (fun s b hs => ((wordsLost_loseNode s b).planes n pl).emptied hs) s
  rw [State.plane_stopNode, if_pos rfl]
  exact RPlane.emptied_stopped _

end Sys2Proof.Machine
end

section
/-! SUPPORT. VNET of a field: what its fall loses, what its rise puts at reset, and what a commit of PWR brings about
(R359, R375, R406). -/

namespace Sys2Proof.Machine

/-! ## VNET falls -/

/-- The routers of a site stop, and its crossings are to be calibrated again. -/
def State.stopSite (s : State) (st : Nat) : State := (loseRouterWords s st).modSite st fun x => { x with crossed := false }

theorem vnetFall_eq (s : State) (f : Nat) : s.vnetFall f = (fieldSites f).foldl State.stopSite s := rfl

theorem State.plane_stopSite (s : State) (st n pl : Nat) : (s.stopSite st).plane n pl = (loseRouterWords s st).plane n pl := by
  simp [State.stopSite, State.plane_eq]

/-- Routers and site controllers alone change where a field stops, and planes lose words alone. -/
structure RoutersStop (s t : State) : Prop where
  frame : t = { s with sites := t.sites, routers := t.routers }
  planes : ∀ n pl, (s.plane n pl).Loses (t.plane n pl)

theorem RoutersStop.trans {s t u : State} (h : RoutersStop s t) (h' : RoutersStop t u) : RoutersStop s u := by
  refine ⟨?_, fun n pl => (h.planes n pl).trans (h'.planes n pl)⟩
  rw [h'.frame, h.frame]

theorem routersStop_stopSite (s : State) (st : Nat) : RoutersStop s (s.stopSite st) := by
  have w := wordsLost_loseRouterWords s st
  refine ⟨?_, fun n pl => ?_⟩
  · rw [State.stopSite, w.only]
    rfl
  · rw [State.plane_stopSite]
    exact w.planes n pl

theorem routersStop_vnetFall (s : State) (f : Nat) : RoutersStop s (s.vnetFall f) :=
  List.foldlRecOn (fieldSites f) State.stopSite (motive := RoutersStop s) ⟨rfl, fun _ _ => .refl _⟩
    fun t ht st _ => ht.trans (routersStop_stopSite t st)

/-- No router of a field without VNET holds a word (R359). -/
theorem emptied_vnetFall (s : State) {f n : Nat} (hn : n < 12288) (hf : fieldOf (siteOf n) = f) (pl : Nat) :
    ((s.vnetFall f).plane n pl).Emptied := by
  rw [vnetFall_eq]
  refine foldl_of_mem (a := siteOf n) ?_ (fun s => ?_) (fun s b hs => ((routersStop_stopSite s b).planes n pl).emptied hs) s
  · simp [fieldSites, siteOf_lt.2 hn, hf]
  · rw [State.plane_stopSite]
    exact emptied_loseRouterWords s pl

theorem State.site_stopSite (s : State) (st z : Nat) :
    (s.stopSite st).site z = if z = st then { s.site st with crossed := false } else s.site z := by
  have w : ∀ z, (loseRouterWords s st).site z = s.site z := fun z => by
    rw [(wordsLost_loseRouterWords s st).only]
    rfl
  simp [State.stopSite, w]

/-- The sites of a field without VNET are to be calibrated again. -/
theorem site_vnetFall (s : State) {f st : Nat} (hst : st < 192) :
    (s.vnetFall f).site st = if fieldOf st = f then { s.site st with crossed := false } else s.site st := by
  have fold : ∀ (l : List Nat) (s : State), (l.foldl State.stopSite s).site st =
      if st ∈ l then { s.site st with crossed := false } else s.site st := by
    intro l
    induction l with
    | nil => intro s; simp
    | cons z l ih =>
      intro s
      rw [List.foldl_cons, ih, State.site_stopSite]
      by_cases hz : st = z <;> by_cases hl : st ∈ l <;> simp [hz, hl]
  have mem : st ∈ fieldSites f ↔ fieldOf st = f := by simp [fieldSites, hst]
  rw [vnetFall_eq, fold, if_congr mem rfl rfl]

/-! ## A field with nothing in its crossings -/

/-- No router of a field has a word to send over a crossing, and no replay is awaited from one. -/
def CrossingsIdle (s : State) (f : Nat) : Prop :=
  ∀ n pl e, (n < 12288 ∧ fieldOf (siteOf n) = f) → pl < 4 → e < 4 → crosses n e = true →
    Sparse.find e (s.plane n pl).transit = none ∧ ((s.plane n pl).endOf e).again = [] ∧
      ((s.plane (farEnd n e).1 pl).endOf (farEnd n e).2).awaiting = none

theorem loseSent_of_idle {s : State} {n pl e : Nat} (ht : Sparse.find e (s.plane n pl).transit = none)
    (ha : ((s.plane n pl).endOf e).again = []) (hw : ((s.plane (farEnd n e).1 pl).endOf (farEnd n e).2).awaiting = none)
    (f : WordSlot → Bool) : s.loseSent n pl e f = s := by
  have : lostWords s n pl e = [] := by simp [lostWords, hw, ha, RPlane.unsent, ht]
  simp [State.loseSent, this]

theorem CrossingsIdle.loseCrossing {s : State} {f n : Nat} (h : CrossingsIdle s f) (hn : n < 12288)
    (hf : fieldOf (siteOf n) = f) : s.loseCrossing n = s := by
  refine List.foldlRecOn _ _ (motive := (· = s)) rfl fun t ht e he => ?_
  refine List.foldlRecOn _ _ (motive := (· = s)) ht fun t ht pl hpl => ?_
  subst ht
  obtain ⟨he, hc⟩ := List.mem_filter.1 he
  have four : ∀ i ∈ [0, 1, 2, 3], i < 4 := by decide
  obtain ⟨htr, hag, haw⟩ := h n pl e ⟨hn, hf⟩ (four pl hpl) (four e he) hc
  exact loseSent_of_idle htr hag haw _

theorem CrossingsIdle.stopNode {s : State} {f : Nat} (h : CrossingsIdle s f) (m : Nat) : CrossingsIdle (s.stopNode m) f := by
  intro n pl e hn hpl he hc
  obtain ⟨htr, hag, haw⟩ := h n pl e hn hpl he hc
  refine ⟨?_, ?_, ?_⟩
  · rw [State.plane_stopNode]
    split
    · rfl
    · exact htr
  · rw [State.plane_stopNode]
    split
    · rw [RPlane.endOf_stopped]
    · exact hag
  · rw [State.plane_stopNode]
    split
    · rw [RPlane.endOf_stopped]
    · exact haw

/-- t is s after routers of field f stop whose crossings are idle: no plane elsewhere changes, and every end keeps the
number of its next slot. -/
structure StopsIdle (f : Nat) (s t : State) : Prop where
  idle : CrossingsIdle t f
  elsewhere : ∀ n pl, n < 12288 → fieldOf (siteOf n) ≠ f → t.plane n pl = s.plane n pl
  sent : ∀ n pl e, ((t.plane n pl).endOf e).sent = ((s.plane n pl).endOf e).sent

theorem StopsIdle.refl {f : Nat} {s : State} (h : CrossingsIdle s f) : StopsIdle f s s :=
  ⟨h, fun _ _ _ _ => rfl, fun _ _ _ => rfl⟩

theorem StopsIdle.stopNode {f : Nat} {s t : State} (h : StopsIdle f s t) {m : Nat} (hm : m < 12288)
    (hf : fieldOf (siteOf m) = f) : StopsIdle f s ((t.loseCrossing m).stopNode m) := by
  rw [h.idle.loseCrossing hm hf]
  refine ⟨h.idle.stopNode m, fun n pl hn hne => ?_, fun n pl e => ?_⟩
  · rw [State.plane_stopNode, if_neg fun e : n = m => hne (e ▸ hf)]
    exact h.elsewhere n pl hn hne
  · rw [State.plane_stopNode, ← h.sent]
    split
    case isTrue e => rw [RPlane.endOf_stopped, e]
    case isFalse => rfl

theorem StopsIdle.congr {f : Nat} {s t u : State} (h : StopsIdle f s t) (hp : ∀ n pl, u.plane n pl = t.plane n pl) :
    StopsIdle f s u := by
  obtain ⟨hi, he, hs⟩ := h
  refine ⟨?_, ?_, ?_⟩
  · simpa only [CrossingsIdle, hp] using hi
  · simpa only [hp] using he
  · simpa only [hp] using hs

theorem stopsIdle_vnetFall {s : State} {f : Nat} (h : CrossingsIdle s f) : StopsIdle f s (s.vnetFall f) := by
  rw [vnetFall_eq]
  refine List.foldlRecOn (fieldSites f) State.stopSite (motive := StopsIdle f s) (.refl h) fun t ht st hst => ?_
  obtain ⟨hst, hf⟩ : st < 192 ∧ fieldOf st = f := by simpa [fieldSites] using hst
  refine StopsIdle.congr (t := loseRouterWords t st) ?_ fun n pl => t.plane_stopSite st n pl
  rw [loseRouterWords_eq]
  refine List.foldlRecOn (siteNodes st) _ (motive := StopsIdle f s) ht fun u hu n hn => ?_
  obtain rfl := mem_siteNodes.1 hn
  exact hu.stopNode (siteOf_lt.1 hst) hf

/-! ## VNET rises -/

/-- The routers of a node are at reset, but for what waits there to enter. -/
def State.resetRouter (s : State) (n : Nat) : State :=
  { (s.setRouter n { ({} : Router) with
      offers := (s.router n).offers, plain := (s.router n).plain
      vclosed := if fencedAtReset s.birth n then 0xFF else 0 }) with
    regs := Sparse.dropRange ((bRtr n).key 0) 0x1_0000 s.regs
    staged := Sparse.dropRange ((bRtr n).key 0) 0x1_0000 s.staged }

theorem vnetRise_eq (s : State) (f : Nat) :
    s.vnetRise f = ((fieldSites f).flatMap siteNodes).foldl State.resetRouter s := rfl

theorem vnetRise_frame (s : State) (f : Nat) :
    s.vnetRise f = { s with
      regs := (s.vnetRise f).regs, staged := (s.vnetRise f).staged, routers := (s.vnetRise f).routers } := by
  rw [vnetRise_eq]
  refine List.foldlRecOn (b := s) ((fieldSites f).flatMap siteNodes) State.resetRouter
    (motive := fun t => t = { s with regs := t.regs, staged := t.staged, routers := t.routers }) rfl fun t ht n _ => ?_
  rw [ht]
  rfl

theorem State.router_resetRouter (s : State) (n m : Nat) : (s.resetRouter n).router m =
    if m = n then { ({} : Router) with
      offers := (s.router n).offers, plain := (s.router n).plain
      vclosed := if fencedAtReset s.birth n then 0xFF else 0 }
    else s.router m :=
  s.router_setRouter n m _

/-- The routers of a field with VNET anew are at reset (R406). -/
theorem router_vnetRise (s : State) {f n : Nat} (hn : n < 12288) : (s.vnetRise f).router n =
    if fieldOf (siteOf n) = f then { ({} : Router) with
      offers := (s.router n).offers, plain := (s.router n).plain
      vclosed := if fencedAtReset s.birth n then 0xFF else 0 }
    else s.router n := by
  have fold : ∀ (l : List Nat) (s : State), (l.foldl State.resetRouter s).router n =
      if n ∈ l then { ({} : Router) with
        offers := (s.router n).offers, plain := (s.router n).plain
        vclosed := if fencedAtReset s.birth n then 0xFF else 0 }
      else s.router n := by
    intro l
    induction l with
    | nil => intro s; simp
    | cons m l ih =>
      intro s
      have hb : (s.resetRouter m).birth = s.birth := rfl
      rw [List.foldl_cons, ih, State.router_resetRouter, hb]
      by_cases hm : n = m <;> by_cases hl : n ∈ l <;> simp [hm, hl]
  rw [vnetRise_eq, fold, if_congr mem_fieldNodes rfl rfl]
  simp [hn]

theorem find_resetRouter (s : State) (n key : Nat) : Sparse.find key (s.resetRouter n).regs =
    if (bRtr n).key 0 ≤ key ∧ key < (bRtr n).key 0x1_0000 then none else Sparse.find key s.regs := by
  have hr : (bRtr n).key 0x1_0000 = (bRtr n).key 0 + 0x1_0000 := by simp only [Blk.key]
  unfold State.resetRouter
  rw [Sparse.find_dropRange, hr]

/-- No register of the routers of a field with VNET anew is held: each reads its reset value. -/
theorem find_vnetRise_in (s : State) {f n off : Nat} (hn : n < 12288) (hf : fieldOf (siteOf n) = f) (ho : off < 0x1_0000) :
    Sparse.find ((bRtr n).key off) (s.vnetRise f).regs = none := by
  rw [vnetRise_eq]
  refine foldl_of_mem (P := fun t : State => Sparse.find ((bRtr n).key off) t.regs = none) (mem_fieldNodes.2 ⟨hn, hf⟩)
    (fun s => ?_) (fun s b hs => ?_) s
  · rw [find_resetRouter, if_pos]
    simp only [Blk.key]
    omega
  · rw [find_resetRouter, hs, ite_self]

theorem reg_vnetRise (s : State) {f n off : Nat} (hn : n < 12288) (hf : fieldOf (siteOf n) = f) (ho : off < 0x1_0000) :
    (s.vnetRise f).reg (bRtr n) off = ((regInfo s.birth (bRtr n) off).map (·.reset)).getD 0 := by
  have hb : (s.vnetRise f).birth = s.birth := by rw [vnetRise_frame]
  rw [State.reg, find_vnetRise_in s hn hf ho, hb]
  cases regInfo s.birth (bRtr n) off <;> rfl

/-- Every other register is held as before. -/
theorem find_vnetRise_out (s : State) {f key : Nat}
    (h : ∀ n, n < 12288 ∧ fieldOf (siteOf n) = f → key < (bRtr n).key 0 ∨ (bRtr n).key 0x1_0000 ≤ key) :
    Sparse.find key (s.vnetRise f).regs = Sparse.find key s.regs := by
  refine List.foldlRecOn ((fieldSites f).flatMap siteNodes) State.resetRouter
    (motive := fun t => Sparse.find key t.regs = Sparse.find key s.regs) rfl fun t ht n hn => ?_
  rw [find_resetRouter, if_neg, ht]
  have := h n (mem_fieldNodes.1 hn)
  omega

/-- A router is reached while its field has VNET, the panel is out of reset, its oscillator runs and its site's crossings
have been calibrated since (R355, R359, R406). -/
theorem routerLive_iff (s : State) (n : Nat) : routerLive s n = true ↔ bit (s.reg bPwr 0x20) (fieldOf (siteOf n)) = true ∧
    s.pins.resetHeld = false ∧ bit (s.reg (bClk (siteOf n)) 0x20) 25 = true ∧ (s.site (siteOf n)).crossed = true := by
  simp [routerLive, vnetOn, domainRuns, and_assoc]

/-! ## A commit of PWR -/

theorem reg_pwr_vnetRise (s : State) (f off : Nat) : (s.vnetRise f).reg bPwr off = s.reg bPwr off := by
  have hk : Sparse.find (bPwr.key off) (s.vnetRise f).regs = Sparse.find (bPwr.key off) s.regs := by
    refine find_vnetRise_out s fun n hn => .inr ?_
    simp only [Blk.key, Blk.num, BlkKind.num, bPwr, bRtr]
    omega
  rw [State.reg, hk, vnetRise_frame]
  rfl

theorem reg_vnetFall (s : State) (f : Nat) (k : Blk) (off : Nat) : (s.vnetFall f).reg k off = s.reg k off := by
  rw [(routersStop_vnetFall s f).frame]
  rfl

/-- VNET of field f goes from what old gives to what PWR_VNET gives. -/
def State.vnetStep (old s : State) (f : Nat) : State :=
  match vnetOn old f, bit (s.reg bPwr 0x20) f with
  | false, true => s.vnetRise f
  | true, false => s.vnetFall f
  | _, _ => s

theorem pwrApplied_eq (s old : State) : s.pwrApplied old = (List.range 48).foldl (State.vnetStep old) s := rfl

theorem vnetStep_eq (old s : State) (f : Nat) : State.vnetStep old s f =
    if vnetOn old f = bit (s.reg bPwr 0x20) f then s
    else if bit (s.reg bPwr 0x20) f = true then s.vnetRise f else s.vnetFall f := by
  unfold State.vnetStep
  cases vnetOn old f <;> cases bit (s.reg bPwr 0x20) f <;> rfl

theorem reg_pwr_vnetStep (old s : State) (f off : Nat) : (State.vnetStep old s f).reg bPwr off = s.reg bPwr off := by
  rw [vnetStep_eq]
  split
  · rfl
  · split
    · exact reg_pwr_vnetRise s f off
    · exact reg_vnetFall s f bPwr off

/-- A commit that changes one VNET has the effect of that change. -/
theorem pwrApplied_single {s old : State} {f : Nat} (hf : f < 48)
    (h : ∀ g, g < 48 → g ≠ f → vnetOn old g = bit (s.reg bPwr 0x20) g) :
    s.pwrApplied old = State.vnetStep old s f := by
  rw [pwrApplied_eq]
  refine foldl_single (List.mem_range.2 hf) List.nodup_range (fun g hg hne => ?_) (fun g hg hne => ?_)
  · rw [vnetStep_eq, if_pos (h g (List.mem_range.1 hg) hne)]
  · rw [vnetStep_eq, reg_pwr_vnetStep, if_pos (h g (List.mem_range.1 hg) hne)]

end Sys2Proof.Machine
end

section
/-! SUPPORT. The sideband pins are no part of what a commit of PWR or of SITE_PWR changes (R375, R377, R379, R382). -/

namespace Sys2Proof.Machine

/-- A fold whose every step leaves the pins leaves them. -/
theorem foldl_pins {α : Type} {f : State → α → State} (h : ∀ s a, (f s a).pins = s.pins) (l : List α) (s : State) :
    (l.foldl f s).pins = s.pins :=
  List.foldlRecOn (b := s) l f (motive := fun t => t.pins = s.pins) rfl fun t ht a _ => (h t a).trans ht

/-! ## Headers, rails and fences -/

@[simp] theorem State.creditDie_pins (s : State) (n pl : Nat) (p : Packet) : (s.creditDie n pl p).pins = s.pins :=
  (routersOnly_creditDie s n pl p).pins

@[simp] theorem State.noticePlain_pins (s : State) (n code : Nat) (p : Option Packet) :
    (s.noticePlain n code p).pins = s.pins :=
  (routersOnly_noticePlain s n code p).pins

@[simp] theorem State.noticeSite_pins (s : State) (st code : Nat) : (s.noticeSite st code).pins = s.pins :=
  (routersOnly_noticeSite s st code).pins

@[simp] theorem State.flagRemap_pins (s : State) (st cause : Nat) : (s.flagRemap st cause).pins = s.pins := by
  obtain ⟨u, hu, h⟩ := flagRemap_spec s st cause
  rw [h.pins, hu, State.setReg_pins]

@[simp] theorem State.dropAdmission_pins (s : State) (n : Nat) : (s.dropAdmission n).pins = s.pins := by
  unfold State.dropAdmission
  split
  · exact State.creditDie_pins _ _ _ _
  · rfl

@[simp] theorem State.coreOff_pins (s : State) (n : Nat) : (s.coreOff n).pins = s.pins := by
  unfold State.coreOff State.coreReset
  dsimp only [State.setCore_pins]
  split
  · simp
  · rfl

@[simp] theorem State.loseDram_pins (s : State) (n : Nat) : (s.loseDram n).pins = s.pins := rfl

@[simp] theorem State.slicesOff_pins (s : State) (st : Nat) : (s.slicesOff st).pins = s.pins := by
  unfold State.slicesOff
  dsimp only
  rw [State.setField_eq, State.setReg_pins]
  refine foldl_pins (fun s n => ?_) _ _
  rw [State.loseDram_pins, State.setSlice_pins]

@[simp] theorem State.railsOff_pins (s : State) (st : Nat) : (s.railsOff st).pins = s.pins := by
  simp only [State.railsOff, State.modReg_eq, State.setReg_pins, State.slicesOff_pins, State.modSite_eq, State.setSite_pins]
  exact foldl_pins State.coreOff_pins _ _

@[simp] theorem State.fenceEffect_pins (s : State) (n : Nat) (now : Nat → Bool → Bool) :
    (s.fenceEffect n now).pins = s.pins := by
  unfold State.fenceEffect
  simp only [apply_ite State.pins, State.setField_eq, State.modRouter_eq, State.setReg_pins, State.setRouter_pins, ite_self]

@[simp] theorem State.setFence_pins (s : State) (n : Nat) (on : Bool) : (s.setFence n on).pins = s.pins :=
  (State.fenceEffect_pins _ _ _).trans rfl

@[simp] theorem State.fenceSite_pins (s : State) (st : Nat) : (s.fenceSite st).pins = s.pins :=
  foldl_pins (fun s n => State.setFence_pins s n true) _ _

@[simp] theorem State.writeCap_pins (s : State) (n : Nat) : (s.writeCap n).pins = s.pins := by
  unfold State.writeCap
  split <;> rfl

/-! ## Phases and the guest rail -/

@[simp] theorem State.goDark_pins (s : State) (st : Nat) : (s.goDark st).pins = s.pins := by simp [State.goDark]

@[simp] theorem State.goCapped_pins (s : State) (st : Nat) : (s.goCapped st).pins = s.pins := by
  unfold State.goCapped
  rw [foldl_pins State.writeCap_pins]
  simp

@[simp] theorem State.failPhase_pins (s : State) (st ph : Nat) : (s.failPhase st ph).pins = s.pins := by
  unfold State.failPhase
  dsimp only
  split
  · rfl
  · split
    · simp
    · split <;> simp

@[simp] theorem State.guestStall_pins (g : Nat) (s : State) (o : Offer) : (State.guestStall g s o).pins = s.pins := by
  unfold State.guestStall State.guestDrop State.guestNotice
  dsimp only
  split <;> simp

@[simp] theorem State.guestPurge_pins (s : State) (g : Nat) : (s.guestPurge g).pins = s.pins :=
  foldl_pins (State.guestStall_pins g) _ _

@[simp] theorem State.guestRailOff_pins (s : State) (st : Nat) : (s.guestRailOff st).pins = s.pins := by
  unfold State.guestRailOff
  dsimp only
  split
  · rfl
  · split
    · simp [State.guestNotice]
    · rfl

/-! ## Commits of PWR and SITE_PWR -/

@[simp] theorem State.pwrApplied_pins (s old : State) : (s.pwrApplied old).pins = s.pins := by
  rw [pwrApplied_eq]
  refine foldl_pins (fun s f => ?_) _ _
  rw [vnetStep_eq]
  split
  · rfl
  · split
    · rw [vnetRise_frame]
    · rw [(routersStop_vnetFall s f).frame]

@[simp] theorem State.sitePwrApplied_pins (s old : State) (st : Nat) : (s.sitePwrApplied old st).pins = s.pins := by
  have phases : ∀ t : State, ((List.range 16).foldl
      (fun s ph => if bit (s.reg (bSp st) 0x18) ph then s.failPhase st ph else s) t).pins = t.pins :=
    foldl_pins (fun t ph => by split <;> simp) _
  simp only [State.sitePwrApplied, apply_ite State.pins, phases, State.guestRailOff_pins, State.railsOff_pins,
    State.setField_eq, State.setReg_pins, ite_self]

@[simp] theorem State.stage_pins (s : State) (k : Blk) (off : Nat) (m v : Word) : (s.stage k off m v).pins = s.pins := by
  unfold State.stage
  split <;> rfl

@[simp] theorem State.activate_pins (s : State) (k : Blk) : (s.activate k).pins = s.pins := by
  simp only [State.activate, State.modReg_eq, State.setReg_pins]
  exact foldl_pins (f := fun x o => x.setReg k o (eff s k o)) (fun _ _ => rfl) _ s

/-- A GO whose effects leave the pins leaves them. -/
theorem State.go_pins {s : State} {k : Blk} (h : ∀ t : State, (t.applied s k).pins = t.pins) : (s.go k).pins = s.pins := by
  unfold State.go
  split
  · rfl
  · split
    · rfl
    · split
      · rfl
      · rw [h, State.activate_pins]

@[simp] theorem State.bootVnet_pins (s : State) : s.bootVnet.pins = s.pins := by
  rw [State.bootVnet, State.go_pins (k := bPwr) fun t => t.pwrApplied_pins _, State.stage_pins]

@[simp] theorem State.bootPower_pins (s : State) (st : Nat) : (s.bootPower st).pins = s.pins := by
  rw [State.bootPower, State.go_pins (k := bSp st) fun t => t.sitePwrApplied_pins _ st, State.stage_pins]

end Sys2Proof.Machine
end

section
/-! SUPPORT. Training of bonds and DRAM: what each step of it sets, and what it leaves (R20, R186, R188, R289, R408, R411,
R412). -/

namespace Sys2Proof.Machine

/-! ## The repairs of the birth record -/

/-- Counts kept by key, one for each element of a list. -/
theorem getD_countFold {α : Type} (key : α → Nat) (k : Nat) (l : List α) (m : Sparse Nat) :
    Sparse.getD 0 (l.foldl (fun m e => Sparse.set 0 (key e) (Sparse.getD 0 m (key e) + 1) m) m) k =
      Sparse.getD 0 m k + l.countP fun e => key e == k := by
  induction l generalizing m with
  | nil => rfl
  | cons e l ih =>
    rw [List.foldl_cons, ih, Sparse.getD_set, List.countP_cons]
    by_cases h : key e = k
    · simp [h]
      omega
    · have h' : ¬ k = key e := fun e => h e.symm
      simp [h, h']

/-- The spares used in one lane group are its repairs in the birth record (R20, R186). -/
theorem getD_birthSpares (b : Birth) (st loc : Nat) {pl g : Nat} (hg : g < 4) :
    Sparse.getD 0 (birthSpares b st loc) (4 * pl + g) = b.bondRepair.countP fun e =>
      let w := e.zeroExtend 64
      bits w 0 8 = st ∧ bits w 8 6 = loc ∧ bits w 14 2 = pl ∧ bits w 16 2 = g := by
  unfold birthSpares
  rw [getD_countFold fun e : BitVec 32 => 4 * bits (e.zeroExtend 64) 14 2 + bits (e.zeroExtend 64) 16 2,
    List.countP_filter, Sparse.getD_nil, Nat.zero_add]
  refine List.countP_congr fun e _ => ?_
  have hlt : bits (e.zeroExtend 64) 16 2 < 2 ^ 2 := bits_lt _ _ _
  simp only [Bool.and_eq_true, beq_iff_eq, decide_eq_true_eq]
  constructor
  · rintro ⟨hk, hs, hl⟩
    exact ⟨hs, hl, by omega, by omega⟩
  · rintro ⟨hs, hl, hp, hq⟩
    exact ⟨by omega, hs, hl⟩

/-! ## Bond training starts -/

/-- At one node the repairs of the birth record are applied again and VDROP is cleared. -/
def State.bondNode (st : Nat) (s : State) (n : Nat) : State :=
  (s.setField (bRtr n) 0x10 2 4 0).modRouter n fun r => { r with spares := birthSpares s.birth st (localOf n) }

theorem bondStart_eq (s : State) (st : Nat) :
    s.bondStart st = (siteNodes st).foldl (State.bondNode st) (s.setReg (bSm st) 0x400 (setBits (s.reg (bSm st) 0x400) 2 3 1)) :=
  rfl

theorem find_bondNode (st : Nat) (s : State) (n key : Nat) : Sparse.find key (s.bondNode st n).regs =
    if key = (bRtr n).key 0x10 then some (setBits (s.reg (bRtr n) 0x10) 2 4 0) else Sparse.find key s.regs :=
  Sparse.find_put _ _ _ _

theorem router_bondNode (st : Nat) (s : State) (n m : Nat) : (s.bondNode st n).router m =
    if m = n then { s.router n with spares := birthSpares s.birth st (localOf n) } else s.router m :=
  State.router_setRouter _ _ _ _

theorem bondStart_frame (s : State) (st : Nat) :
    s.bondStart st = { s with regs := (s.bondStart st).regs, routers := (s.bondStart st).routers } := by
  rw [bondStart_eq]
  refine List.foldlRecOn _ _ (motive := fun t : State => t = { s with regs := t.regs, routers := t.routers }) rfl
    fun t ht n _ => ?_
  rw [ht]
  rfl

theorem bondStart_birth (s : State) (st : Nat) : (s.bondStart st).birth = s.birth := by rw [bondStart_frame]

theorem bondStart_regsSame (s : State) (st : Nat) :
    RegsSame s (s.bondStart st) ((bSm st).key 0x400 :: (siteNodes st).map fun n => (bRtr n).key 0x10) := by
  intro key hkey
  obtain ⟨hsite, hnodes⟩ := List.mem_cons.not.1 hkey |> not_or.1
  rw [bondStart_eq]
  refine List.foldlRecOn _ _ (motive := fun t : State => Sparse.find key t.regs = Sparse.find key s.regs) ?_ fun t ht n hn => ?_
  · rw [State.find_setReg, if_neg hsite]
  · rw [find_bondNode, if_neg, ht]
    rintro rfl
    exact hnodes (List.mem_map.2 ⟨n, hn, rfl⟩)

/-- Bond training leaves the registers of other sites' controllers and blocks as they are. -/
theorem reg_bondStart_of_ne (s : State) {st : Nat} {k : Blk} {off : Nat} (hsite : k.key off ≠ (bSm st).key 0x400)
    (hrtr : ∀ n, siteOf n = st → k.key off ≠ (bRtr n).key 0x10) : (s.bondStart st).reg k off = s.reg k off := by
  refine State.reg_congr (bondStart_birth s st) (bondStart_regsSame s st _ ?_)
  simp only [List.mem_cons, List.mem_map, mem_siteNodes, not_or]
  exact ⟨hsite, fun ⟨n, hn, e⟩ => hrtr n hn e.symm⟩

theorem reg_siteTrain_bondStart (s : State) {st : Nat} (hst : st < 192) :
    (s.bondStart st).reg (bSm st) 0x400 = setBits (s.reg (bSm st) 0x400) 2 3 1 := by
  rw [bondStart_eq]
  refine List.foldlRecOn _ _ (motive := fun t : State => t.reg (bSm st) 0x400 = setBits (s.reg (bSm st) 0x400) 2 3 1) ?_
    fun t ht n hn => ?_
  · rw [State.reg_setReg, if_pos rfl]
  · rw [← ht]
    refine State.reg_congr rfl ?_
    rw [find_bondNode, if_neg]
    have hnode : n < 12288 := siteOf_lt.1 (mem_siteNodes.1 hn ▸ hst)
    exact Blk.key_ne_of_kind

theorem bondStart_routersSame (s : State) (st : Nat) : RoutersSame s (s.bondStart st) (siteNodes st) := by
  intro m hm
  rw [bondStart_eq]
  refine List.foldlRecOn _ _ (motive := fun t : State => t.router m = s.router m) (State.router_setReg _ _ _ _ _)
    fun t ht n hn => ?_
  rw [router_bondNode, if_neg, ht]
  rintro rfl
  exact hm hn

/-- At each node of a site that trains, the spares are those of the birth record and no plane is dropped (R20, R411). -/
theorem bondStart_node (s : State) {st n : Nat} (hst : st < 192) (hn : n ∈ siteNodes st) :
    (s.bondStart st).router n = { s.router n with spares := birthSpares s.birth st (localOf n) } ∧
      (s.bondStart st).reg (bRtr n) 0x10 = setBits (s.reg (bRtr n) 0x10) 2 4 0 := by
  rw [bondStart_eq]
  have hnode : n < 12288 := siteOf_lt.1 (mem_siteNodes.1 hn ▸ hst)
  refine foldl_at
    (P := fun t : State => t.birth = s.birth ∧ t.router n = s.router n ∧ t.reg (bRtr n) 0x10 = s.reg (bRtr n) 0x10)
    (Q := fun t : State => t.router n = { s.router n with spares := birthSpares s.birth st (localOf n) } ∧
      t.reg (bRtr n) 0x10 = setBits (s.reg (bRtr n) 0x10) 2 4 0)
    hn (siteNodes_nodup st) ⟨rfl, rfl, ?_⟩ (fun t m _ hne ⟨hb, hr, hw⟩ => ⟨hb, ?_, ?_⟩) (fun t ⟨hb, hr, hw⟩ => ⟨?_, ?_⟩)
    (fun t m _ hne ⟨hr, hw⟩ => ⟨?_, ?_⟩)
  · rw [State.reg_setReg, if_neg]
    exact Blk.key_ne_of_kind
  · rw [router_bondNode, if_neg hne.symm, hr]
  · rw [← hw]
    refine State.reg_congr rfl ?_
    rw [find_bondNode, if_neg]
    exact Blk.key_ne_of_unit hne.symm
  · rw [router_bondNode, if_pos rfl, hr, hb]
  · rw [State.reg, find_bondNode, if_pos rfl]
    dsimp only
    rw [hw]
  · rw [router_bondNode, if_neg hne.symm, hr]
  · rw [← hw]
    refine State.reg_congr rfl ?_
    rw [find_bondNode, if_neg]
    exact Blk.key_ne_of_unit hne.symm

/-! ## Bond training ends -/

/-- What a site controller reports as its bond's training ends (R289, R408). -/
def State.bondReport (s : State) (st : Nat) (ok : Bool) : State :=
  (if ok then s.noteAgreement st 1 0xA1 a1Features true else s.noteAgreement st 0 0 0 false).setField (bSm st) 0x400 2 3
    (if ok then 2 else 3)

/-- t is s after the training of the bond of site st has ended, good or not: the state of the bond, the level that is
agreed, the die's own level and step, and the two masks. -/
structure BondReported (s t : State) (st : Nat) (good : Bool) : Prop where
  bond : t.reg (bSm st) 0x400 = setBits (s.reg (bSm st) 0x400) 2 3 (if good then 2 else 3)
  trained : bit (t.reg (bSm st) 0x100) 32 = good
  level : bits (t.reg (bSm st) 0x100) 0 4 = if good then 1 else 0
  own : bits (t.reg (bSm st) 0x100) 4 4 = bits (s.reg (bSm st) 0x100) 4 4
  agreed : bits (t.reg (bSm st) 0x100) 8 4 = if good then 1 else 0
  step : bits (t.reg (bSm st) 0x100) 16 8 = if good then 0xA1 else 0
  mask : t.reg (bSm st) 0x108 = if good then 0x1FF else 0
  agreedMask : t.reg (bSm st) 0x110 = if good then 0x1FF else 0
  frame : t = { s with regs := t.regs }
  regs : RegsSame s t [(bSm st).key 0x400, (bSm st).key 0x100, (bSm st).key 0x108, (bSm st).key 0x110]

/-- The word of SITE_VERSION after a report. -/
def agreementWord (w : Word) (level agreed step : Nat) (trained : Bool) : Word :=
  setBits (setBits (setBits (setBits w 0 4 level) 8 4 agreed) 16 8 step) 32 1 trained.toNat

theorem bondReport_eq (s : State) (st : Nat) (ok : Bool) : s.bondReport st ok =
    (((s.setReg (bSm st) 0x100 (agreementWord (s.reg (bSm st) 0x100) (if ok then 1 else 0) (if ok then 1 else 0)
      (if ok then 0xA1 else 0) ok)).setReg (bSm st) 0x108 (if ok then 0x1FF else 0)).setReg (bSm st) 0x110
        (if ok then 0x1FF else 0)).setReg (bSm st) 0x400 (setBits (s.reg (bSm st) 0x400) 2 3 (if ok then 2 else 3)) := by
  cases ok <;>
    simp [State.bondReport, State.noteAgreement, agreementWord, a1Features]

theorem bit_agreementWord (w : Word) (level agreed step : Nat) (trained : Bool) :
    bit (agreementWord w level agreed step trained) 32 = trained := by
  rw [agreementWord, ← setBit, bit_setBit _ _ _ _ (by decide), if_pos rfl]

theorem bits_agreementWord (w : Word) (level agreed step : Nat) (trained : Bool) :
    bits (agreementWord w level agreed step trained) 0 4 = level % 16 ∧
    bits (agreementWord w level agreed step trained) 4 4 = bits w 4 4 ∧
    bits (agreementWord w level agreed step trained) 8 4 = agreed % 16 ∧
    bits (agreementWord w level agreed step trained) 16 8 = step % 256 := by
  simp [agreementWord, bits_setBits_other, bits_setBits_same]

theorem bondReport_reported (s : State) (st : Nat) (ok : Bool) : BondReported s (s.bondReport st ok) st ok := by
  obtain ⟨hl, ho, ha, hs⟩ := bits_agreementWord (s.reg (bSm st) 0x100) (if ok then 1 else 0) (if ok then 1 else 0)
    (if ok then 0xA1 else 0) ok
  have version : (s.bondReport st ok).reg (bSm st) 0x100 = agreementWord (s.reg (bSm st) 0x100) (if ok then 1 else 0)
      (if ok then 1 else 0) (if ok then 0xA1 else 0) ok := by simp [bondReport_eq]
  refine ⟨?_, ?_, ?_, ?_, ?_, ?_, ?_, ?_, ?_, fun key hk => ?_⟩
  · simp [bondReport_eq]
  · rw [version, bit_agreementWord]
  · rw [version, hl]
    cases ok <;> rfl
  · rw [version, ho]
  · rw [version, ha]
    cases ok <;> rfl
  · rw [version, hs]
    cases ok <;> rfl
  · simp [bondReport_eq]
  · simp [bondReport_eq]
  · rw [bondReport_eq]
    rfl
  · simp only [List.mem_cons, List.not_mem_nil, or_false, not_or] at hk
    obtain ⟨h1, h2, h3, h4⟩ := hk
    simp [bondReport_eq, State.find_setReg, h1, h2, h3, h4]

/-! ## Planes that are dropped -/

/-- One more plane of four is the second exactly where it was not dropped and one was. -/
theorem popCount_dropped : ∀ m : Fin 16, ∀ pl : Fin 4,
    (popCount (m.1 ||| 2 ^ pl.1) 4 = 2 ∧ popCount m.1 4 = 1) ↔ (m.1.testBit pl.1 = false ∧ popCount m.1 4 = 1) := by
  decide

/-- The four VDROP bits after one of them is set. -/
theorem vdrop_setBit (w : Word) {pl : Nat} (hpl : pl < 4) :
    bits (setBit (setBit w (2 + pl) true) (6 + pl) false) 2 4 = bits w 2 4 ||| 2 ^ pl := by
  apply Nat.eq_of_testBit_eq
  intro i
  have e : ∀ v : Word, (bits v 2 4).testBit i = (decide (i < 4) && bit v (2 + i)) := fun v => by
    simp only [bits, bit, Nat.testBit_mod_two_pow, Nat.testBit_shiftRight]
    rfl
  rw [Nat.testBit_or, Nat.testBit_two_pow, e, e, bit_setBit _ _ _ _ (by omega), bit_setBit _ _ _ _ (by omega)]
  by_cases hi : i < 4
  · have h6 : ¬ 2 + i = 6 + pl := by omega
    by_cases hp : i = pl
    · simp [hp, hpl]
    · have hp' : ¬ pl = i := fun e => hp e.symm
      simp [hi, hp, hp', h6]
  · have hp' : ¬ pl = i := by omega
    simp [hi, hp']

/-- The second plane dropped at a node: whether a drop of plane pl makes two. -/
theorem vdrop_second (w : Word) {pl : Nat} (hpl : pl < 4) :
    (popCount (bits (setBit (setBit w (2 + pl) true) (6 + pl) false) 2 4) 4 = 2 ∧ popCount (bits w 2 4) 4 = 1) ↔
      (bit w (2 + pl) = false ∧ popCount (bits w 2 4) 4 = 1) := by
  have hb : (bits w 2 4).testBit pl = bit w (2 + pl) := by
    simp only [bits, bit, Nat.testBit_mod_two_pow, Nat.testBit_shiftRight, hpl, decide_true, Bool.true_and]
    rfl
  rw [vdrop_setBit w hpl, ← hb]
  exact popCount_dropped ⟨bits w 2 4, bits_lt w 2 4⟩ ⟨pl, hpl⟩

/-- A plane's vertical port is dropped, and the site is flagged where it is the second of its node (R186, R188). -/
theorem dropPlane_eq (s : State) (n : Nat) {pl : Nat} (hpl : pl < 4) :
    let w := s.reg (bRtr n) 0x10
    let u := (s.setReg (bRtr n) 0x10 (setBit (setBit w (2 + pl) true) (6 + pl) false)).noticePlain n 0x0208 none
    s.dropPlane n pl = if isComputeSite (siteOf n) = true ∧ bit w (2 + pl) = false ∧ popCount (bits w 2 4) 4 = 1
      then (u.noticePlain (nodeOf (siteOf n) 0) 0x0209 none).flagRemap (siteOf n) 2 else u := by
  intro w u
  have hu : droppedPlanes u n = popCount (bits (setBit (setBit w (2 + pl) true) (6 + pl) false) 2 4) 4 := by
    rw [droppedPlanes, State.getField, (routersOnly_noticePlain _ _ _ _).reg, State.reg_setReg, if_pos rfl]
  have hs : droppedPlanes s n = popCount (bits w 2 4) 4 := rfl
  unfold State.dropPlane State.noticeSite
  refine if_congr ?_ rfl rfl
  show (isComputeSite (siteOf n) && droppedPlanes u n == 2 && droppedPlanes s n == 1) = true ↔ _
  rw [hu, hs, Bool.and_eq_true, Bool.and_eq_true, beq_iff_eq, beq_iff_eq, and_assoc, vdrop_second w hpl]

/-- A drop leaves the lead steward as it is. -/
theorem dropPlane_lead (s : State) (n : Nat) {pl : Nat} (hpl : pl < 4) : (s.dropPlane n pl).lead = s.lead := by
  rw [dropPlane_eq s n hpl]
  split
  case isTrue =>
    obtain ⟨v, hv, hr⟩ := flagRemap_spec ((State.noticePlain (s.setReg (bRtr n) 0x10 (setBit (setBit (s.reg (bRtr n) 0x10)
      (2 + pl) true) (6 + pl) false)) n 0x0208 none).noticePlain (nodeOf (siteOf n) 0) 0x0209 none) (siteOf n) 2
    rw [hr.lead, hv, State.setReg_lead, (routersOnly_noticePlain _ _ _ _).lead, (routersOnly_noticePlain _ _ _ _).lead,
      State.setReg_lead]
  case isFalse => rw [(routersOnly_noticePlain _ _ _ _).lead, State.setReg_lead]

end Sys2Proof.Machine
end

section
/-! SUPPORT. The steps of the lead steward's ROM: what it waits for, the oscillators it starts, and the sites and ports
it trains (R357, R364, R403 to R408). -/

namespace Sys2Proof.Machine

/-! ## What the ROM waits for -/

/-- Every oscillator of a site whose rail is on is locked (R357, R404; assumption 58). -/
theorem siteLocked_iff (s : State) (st : Nat) : siteLocked s st = true ↔ ∀ d, d < 3 → hasDomain st d = true →
    bit (s.reg (bClk st) (0x20 + 8 * d)) 24 = true ∨ domainKind st d = 2 ∧ bit (s.reg (bSp st) 0x08) 0 = false := by
  have range : [0, 1, 2] = List.range 3 := rfl
  rw [siteLocked, range, List.all_eq_true]
  refine forall_congr' fun d => ?_
  rw [List.mem_range]
  refine imp_congr_right fun _ => ?_
  cases hasDomain st d <;> simp [locked, oscOff, powerEn]

theorem siteCalibrated_iff (s : State) (st : Nat) : siteCalibrated s st = true ↔
    bit (s.reg (bClk st) 0x40) 2 = true ∧ (s.site st).calBusy = false := by
  simp [siteCalibrated]

theorem allSites_all_iff (p : Nat → Bool) : allSites.all p = true ↔ ∀ st, st < 192 → p st = true := by
  simp [allSites]

/-- Calibration starts at every site. -/
theorem foldl_cal (s : State) : ∃ t, allSites.foldl State.cal s = t ∧ t = { s with sites := t.sites } ∧
    SitesSame s t (List.range 192) ∧ ∀ st, st < 192 → t.site st = { s.site st with calBusy := true } := by
  have site : ∀ (u : State) (z st : Nat), (u.cal z).site st = if st = z then { u.site z with calBusy := true } else u.site st :=
    fun u z st => u.site_setSite z st _
  refine ⟨_, rfl, ?_, fun st hst => ?_, fun st hst => ?_⟩
  · refine List.foldlRecOn _ _ (motive := fun t : State => t = { s with sites := t.sites }) rfl fun t ht z _ => ?_
    rw [ht]
    rfl
  · refine List.foldlRecOn _ _ (motive := fun t : State => t.site st = s.site st) rfl fun t ht z hz => ?_
    rw [site, if_neg fun e : st = z => hst (e ▸ hz), ht]
  · refine foldl_at (P := fun t : State => t.site st = s.site st)
      (Q := fun t : State => t.site st = { s.site st with calBusy := true }) (List.mem_range.2 hst) List.nodup_range rfl
      (fun t z _ hne ht => ?_) (fun t ht => ?_) (fun t z _ hne ht => ?_)
    · rw [site, if_neg hne.symm, ht]
    · rw [site, if_pos rfl, ht]
    · rw [site, if_neg hne.symm, ht]

/-! ## Oscillators start (R359) -/

/-- What starting the oscillator of domain d of site st may change: its enable bit, its register and the count of its
stretched cycles. -/
structure OscStarts (s t : State) (st d : Nat) : Prop where
  frame : t = { s with regs := t.regs, sites := t.sites }
  regs : RegsSame s t [(bClk st).key 0x08, (bClk st).key (oscOff d)]
  elsewhere : ∀ z, z ≠ st → t.site z = s.site z
  site : t.site st = { s.site st with stretchAt := (t.site st).stretchAt }
  enabled : ∀ e, bit (t.reg (bClk st) 0x08) e =
    if e = d ∧ hasDomain st d = true ∧ s.pins.resetHeld = false then true else bit (s.reg (bClk st) 0x08) e

theorem OscStarts.pins {s t : State} {st d : Nat} (h : OscStarts s t st d) : t.pins = s.pins := by rw [h.frame]

theorem OscStarts.birth {s t : State} {st d : Nat} (h : OscStarts s t st d) : t.birth = s.birth := by rw [h.frame]

theorem oscEn_starts (s : State) (st : Nat) {d : Nat} (hd : d < 64) : OscStarts s (s.oscEn st d true) st d := by
  unfold State.oscEn
  split
  case isTrue h =>
    refine ⟨rfl, fun _ _ => rfl, fun _ _ => rfl, rfl, fun e => ?_⟩
    split
    case isTrue h' =>
      obtain ⟨rfl, hdom, hheld⟩ := h'
      simpa [hdom, hheld] using h
    case isFalse => rfl
  case isFalse h =>
    simp only [Bool.or_eq_true, Bool.not_eq_true', beq_iff_eq, not_or, Bool.not_eq_false, Bool.not_eq_true] at h
    obtain ⟨⟨hdom, -⟩, hheld⟩ := h
    have ho : (0x08 : Nat) ≠ oscOff d := by simp only [oscOff]; omega
    simp only [if_true, State.countStretches, State.modReg_eq, State.modSite_eq]
    refine ⟨rfl, fun key hk => ?_, fun z hz => ?_, ?_, fun e => ?_⟩
    · simp only [List.mem_cons, List.not_mem_nil, or_false, not_or] at hk
      simp only [State.setSite_regs, State.find_setReg, hk.1, hk.2, if_false]
    · simp [hz]
    · simp
    · simp only [State.reg_setSite, State.reg_setReg, Blk.key_off_inj, ho, if_false, if_true]
      rw [bit_setBit _ _ _ _ hd]
      simp [hdom, hheld]

/-- A register that no start of this oscillator concerns reads as before. -/
theorem OscStarts.reg {s t : State} {st d : Nat} (h : OscStarts s t st d) {k : Blk} {off : Nat}
    (he : k.key off ≠ (bClk st).key 0x08) (ho : k.key off ≠ (bClk st).key (oscOff d)) : t.reg k off = s.reg k off :=
  State.reg_congr h.birth (h.regs _ (by simp [he, ho]))

/-- An oscillator that is enabled stays so as others start. -/
theorem OscStarts.keeps {s t : State} {st d : Nat} (h : OscStarts s t st d) (hd : d < 64) {z e : Nat}
    (he : bit (s.reg (bClk z) 0x08) e = true) : bit (t.reg (bClk z) 0x08) e = true := by
  by_cases hz : z = st
  · subst hz
    rw [h.enabled]
    split
    · rfl
    · exact he
  · have ho : oscOff d < 0x1_0000 := by simp only [oscOff]; omega
    have same : t.reg (bClk z) 0x08 = s.reg (bClk z) 0x08 := h.reg (Blk.key_ne_of_unit hz) (Blk.key_ne_of_unit hz (ho' := ho))
    rwa [same]

theorem domain_lt : ∀ d ∈ [0, 1, 2], d < 64 := by decide

/-- The ROM starts every oscillator of a site. -/
def State.startSite (s : State) (st : Nat) : State := [0, 1, 2].foldl (fun s d => s.oscEn st d true) s

theorem startSite_keeps (s : State) (st : Nat) {z e : Nat} (he : bit (s.reg (bClk z) 0x08) e = true) :
    bit ((s.startSite st).reg (bClk z) 0x08) e = true := by
  refine List.foldlRecOn _ _ (motive := fun t : State => bit (t.reg (bClk z) 0x08) e = true) he fun t ht d hd => ?_
  exact (oscEn_starts t st (domain_lt d hd)).keeps (domain_lt d hd) ht

theorem startSite_pins (s : State) (st : Nat) : (s.startSite st).pins = s.pins := by
  refine List.foldlRecOn _ _ (motive := fun t : State => t.pins = s.pins) rfl fun t ht d hd => ?_
  rw [(oscEn_starts t st (domain_lt d hd)).pins, ht]

theorem startSite_enables (s : State) {st d : Nat} (hd : d < 3) (hdom : hasDomain st d = true)
    (hheld : s.pins.resetHeld = false) : bit ((s.startSite st).reg (bClk st) 0x08) d = true := by
  refine foldl_at (P := fun t : State => t.pins.resetHeld = false)
    (Q := fun t : State => bit (t.reg (bClk st) 0x08) d = true) (a := d) (by simp; omega) (by decide) hheld
    (fun t e he _ ht => ?_) (fun t ht => ?_) (fun t e he _ ht => ?_)
  · rw [(oscEn_starts t st (domain_lt e he)).pins, ht]
  · rw [(oscEn_starts t st (by omega)).enabled, if_pos ⟨rfl, hdom, ht⟩]
  · exact (oscEn_starts t st (domain_lt e he)).keeps (domain_lt e he) ht

/-- Every oscillator of the panel is enabled once the ROM has started them (R407). -/
theorem foldl_startSite_enables (s : State) (hheld : s.pins.resetHeld = false) {st d : Nat} (hst : st < 192) (hd : d < 3)
    (hdom : hasDomain st d = true) : bit ((allSites.foldl State.startSite s).reg (bClk st) 0x08) d = true := by
  refine foldl_at (P := fun t : State => t.pins.resetHeld = false)
    (Q := fun t : State => bit (t.reg (bClk st) 0x08) d = true) (List.mem_range.2 hst) List.nodup_range hheld
    (fun t z _ _ ht => ?_) (fun t ht => startSite_enables t hd hdom ht) (fun t z _ _ ht => startSite_keeps t z ht)
  rw [startSite_pins, ht]

/-! ## Pass boot trains the sites (R407) -/

/-- SITE_TRAIN after pass boot has asked for bond training: it trains but at guest sites and at site 52. -/
def bondAsked (st : Nat) (w : Word) : Word :=
  if bits w 2 3 = 1 ∨ siteKind st = .guest ∨ st = 52 then w else setBits w 2 3 1

theorem bondAsked_lead (w : Word) : bondAsked 52 w = w := if_pos (.inr (.inr rfl))

theorem bits_bondAsked {st : Nat} (h : st ≠ 52) (w : Word) :
    bits (bondAsked st w) 2 3 = if siteKind st = .guest then bits w 2 3 else 1 := by
  unfold bondAsked
  by_cases hb : bits w 2 3 = 1
  · simp [hb]
  · by_cases hg : siteKind st = .guest
    · simp [hg]
    · rw [if_neg (by simp [hb, hg, h]), if_neg hg, bits_setBits_same _ _ _ _ (by decide)]
      rfl

theorem trainBond_frame (s : State) (st : Nat) :
    s.trainBond st = { s with regs := (s.trainBond st).regs, routers := (s.trainBond st).routers } := by
  unfold State.trainBond
  split
  · rfl
  · exact bondStart_frame s st

theorem reg_trainBond (s : State) {st : Nat} (hst : st < 192) :
    (s.trainBond st).reg (bSm st) 0x400 = bondAsked st (s.reg (bSm st) 0x400) := by
  unfold State.trainBond bondAsked bondState State.getField
  split
  · rfl
  · exact reg_siteTrain_bondStart s hst

theorem reg_trainBond_of_ne (s : State) {st : Nat} {k : Blk} {off : Nat} (hsite : k.key off ≠ (bSm st).key 0x400)
    (hrtr : ∀ n, siteOf n = st → k.key off ≠ (bRtr n).key 0x10) : (s.trainBond st).reg k off = s.reg k off := by
  unfold State.trainBond
  split
  · rfl
  · exact reg_bondStart_of_ne s hsite hrtr

/-- The panel after pass boot has asked every site for bond training. -/
theorem foldl_trainBond (s : State) {st : Nat} (hst : st < 192) :
    (allSites.foldl State.trainBond s).reg (bSm st) 0x400 = bondAsked st (s.reg (bSm st) 0x400) ∧
      (allSites.foldl State.trainBond s).reg (bSp st) 0x08 = s.reg (bSp st) 0x08 := by
  constructor
  · have other : ∀ t : State, ∀ z ∈ allSites, z ≠ st → (t.trainBond z).reg (bSm st) 0x400 = t.reg (bSm st) 0x400 := by
      intro t z hz hne
      refine reg_trainBond_of_ne t (Blk.key_ne_of_unit hne.symm) fun n hn => ?_
      have hnode : n < 12288 := siteOf_lt.1 (hn ▸ List.mem_range.1 hz)
      exact Blk.key_ne_of_kind
    refine foldl_at (P := fun t : State => t.reg (bSm st) 0x400 = s.reg (bSm st) 0x400)
      (Q := fun t : State => t.reg (bSm st) 0x400 = bondAsked st (s.reg (bSm st) 0x400)) (List.mem_range.2 hst)
      List.nodup_range rfl (fun t z hz hne ht => (other t z hz hne).trans ht) (fun t ht => ?_)
      (fun t z hz hne ht => (other t z hz hne).trans ht)
    rw [reg_trainBond t hst, ht]
  · refine List.foldlRecOn _ _ (motive := fun t : State => t.reg (bSp st) 0x08 = s.reg (bSp st) 0x08) rfl
      fun t ht z hz => ?_
    have hz := List.mem_range.1 hz
    refine (reg_trainBond_of_ne t Blk.key_ne_of_kind fun n hn => ?_).trans ht
    have hnode : n < 12288 := siteOf_lt.1 (hn ▸ hz)
    exact Blk.key_ne_of_kind

theorem trainDram_eq (s : State) (st : Nat) : s.trainDram st =
    if dramState s st = 1 ∨ siteKind st ≠ .compute ∨ bit (s.reg (bSp st) 0x08) 0 = false then s
    else s.setReg (bSm st) 0x400 (setBits (s.reg (bSm st) 0x400) 5 3 1) := by
  simp [State.trainDram, powerEn]

theorem reg_trainDram_of_ne (s : State) {st : Nat} {k : Blk} {off : Nat} (h : k.key off ≠ (bSm st).key 0x400) :
    (s.trainDram st).reg k off = s.reg k off := by
  rw [trainDram_eq]
  split
  · rfl
  · rw [State.reg_setReg, if_neg h]

/-- A powered compute site that is asked for it trains its DRAM. -/
theorem bits_trainDram (s : State) {st : Nat} (hk : siteKind st = .compute) (hp : bit (s.reg (bSp st) 0x08) 0 = true) :
    bits ((s.trainDram st).reg (bSm st) 0x400) 5 3 = 1 ∧
      bits ((s.trainDram st).reg (bSm st) 0x400) 2 3 = bits (s.reg (bSm st) 0x400) 2 3 := by
  rw [trainDram_eq]
  split
  case isTrue h =>
    rcases h with h | h | h
    · exact ⟨h, rfl⟩
    · exact absurd hk h
    · rw [hp] at h
      cases h
  case isFalse =>
    rw [State.reg_setReg, if_pos rfl, bits_setBits_same _ _ _ _ (by decide), bits_setBits_other _ _ _ _ _ _ (by decide) (by decide)]
    exact ⟨rfl, rfl⟩

theorem mem_poweredSites {s : State} {st : Nat} :
    st ∈ poweredSites s ↔ isComputeSite st = true ∧ siteUnpowered s st = false := by
  simp only [poweredSites, computeSites, List.mem_filter, List.mem_range, Bool.not_eq_true']
  refine and_congr_left fun _ => and_iff_right_of_imp fun h => ?_
  simp only [isComputeSite, Bool.and_eq_true] at h
  exact isSite_iff.1 h.1

/-- The panel after pass boot has asked for DRAM training at a list of sites. -/
theorem foldl_trainDram (s : State) {l : List Nat} (hl : l.Nodup) {st : Nat}
    (hst : st < 192) (hon : st ∈ l → siteKind st = .compute ∧ bit (s.reg (bSp st) 0x08) 0 = true) (hlt : ∀ z ∈ l, z < 192) :
    bits ((l.foldl State.trainDram s).reg (bSm st) 0x400) 2 3 = bits (s.reg (bSm st) 0x400) 2 3 ∧
      bits ((l.foldl State.trainDram s).reg (bSm st) 0x400) 5 3 =
        if st ∈ l then 1 else bits (s.reg (bSm st) 0x400) 5 3 := by
  have other : ∀ t : State, ∀ z, z ≠ st → (t.trainDram z).reg (bSm st) 0x400 = t.reg (bSm st) 0x400 :=
    fun t z hne => reg_trainDram_of_ne t (Blk.key_ne_of_unit hne.symm)
  have power : ∀ t : State, ∀ z ∈ l, (t.trainDram z).reg (bSp st) 0x08 = t.reg (bSp st) 0x08 :=
    fun t z hz => have := hlt z hz; reg_trainDram_of_ne t Blk.key_ne_of_kind
  split
  case isTrue hm =>
    obtain ⟨hk, hp⟩ := hon hm
    refine foldl_at
      (P := fun t : State => t.reg (bSm st) 0x400 = s.reg (bSm st) 0x400 ∧ t.reg (bSp st) 0x08 = s.reg (bSp st) 0x08)
      (Q := fun t : State => bits (t.reg (bSm st) 0x400) 2 3 = bits (s.reg (bSm st) 0x400) 2 3 ∧
        bits (t.reg (bSm st) 0x400) 5 3 = 1) hm hl ⟨rfl, rfl⟩
      (fun t z hz hne ht => ⟨(other t z hne).trans ht.1, (power t z hz).trans ht.2⟩) (fun t ht => ?_)
      (fun t z _ hne ht => by rwa [other t z hne])
    obtain ⟨h5, h2⟩ := bits_trainDram t hk (by rw [ht.2, hp])
    exact ⟨by rw [h2, ht.1], h5⟩
  case isFalse hm =>
    have : (l.foldl State.trainDram s).reg (bSm st) 0x400 = s.reg (bSm st) 0x400 :=
      List.foldlRecOn _ _ (motive := fun t : State => t.reg (bSm st) 0x400 = s.reg (bSm st) 0x400) rfl fun t ht z hz =>
        (other t z fun e => hm (e ▸ hz)).trans ht
    rw [this]
    exact ⟨rfl, rfl⟩

/-- The panel after pass boot has begun to train every site. -/
def State.bootTraining (s : State) : State := (poweredSites s).foldl State.trainDram (allSites.foldl State.trainBond s)

theorem bootTraining_frame (s : State) :
    s.bootTraining = { s with regs := s.bootTraining.regs, routers := s.bootTraining.routers } := by
  refine List.foldlRecOn _ _ (motive := fun t : State => t = { s with regs := t.regs, routers := t.routers })
    (List.foldlRecOn _ _ (motive := fun t : State => t = { s with regs := t.regs, routers := t.routers }) rfl
      fun t ht z _ => ?_) fun t ht z _ => ?_
  · rw [trainBond_frame, ht]
  · rw [trainDram_eq]
    split
    · exact ht
    · rw [ht]
      rfl

/-- The bond and DRAM state of a site as pass boot begins to train. -/
theorem bootTraining_site (s : State) {st : Nat} (hst : st < 192) :
    bits (s.bootTraining.reg (bSm st) 0x400) 2 3 = bits (bondAsked st (s.reg (bSm st) 0x400)) 2 3 ∧
      bits (s.bootTraining.reg (bSm st) 0x400) 5 3 = if isComputeSite st = true ∧ siteUnpowered s st = false then 1
        else bits (s.reg (bSm st) 0x400) 5 3 := by
  obtain ⟨hb, hp⟩ := foldl_trainBond s hst
  have on : ∀ z, z ∈ poweredSites s → z < 192 ∧ siteKind z = .compute ∧ bit (s.reg (bSp z) 0x08) 0 = true := by
    intro z hz
    obtain ⟨hc, hu⟩ := mem_poweredSites.1 hz
    simp only [isComputeSite, Bool.and_eq_true, beq_iff_eq] at hc
    simp only [siteUnpowered, hc.2, powerEn, BEq.rfl, Bool.true_and, Bool.or_eq_false_iff, Bool.not_eq_false'] at hu
    exact ⟨isSite_iff.1 hc.1, hc.2, hu.1⟩
  have nd : (poweredSites s).Nodup := (List.nodup_range.filter _).filter _
  obtain ⟨h2, h5⟩ := foldl_trainDram (allSites.foldl State.trainBond s) nd hst
    (fun h => ⟨(on st h).2.1, by rw [hp]; exact (on st h).2.2⟩) fun z hz => (on z hz).1
  have keep : bits (bondAsked st (s.reg (bSm st) 0x400)) 5 3 = bits (s.reg (bSm st) 0x400) 5 3 := by
    unfold bondAsked
    split
    · rfl
    · exact bits_setBits_other _ _ _ _ _ _ (by decide) (by decide)
  refine ⟨by rw [← hb]; exact h2, ?_⟩
  rw [hb, keep] at h5
  rw [State.bootTraining, h5, if_congr mem_poweredSites rfl rfl]

/-! ## Pass boot trains the ports again (R407) -/

/-- PASS_BOOT_RETRAIN at one port. -/
def State.retrainPort (s : State) (k : Nat) : State := if portState s k = 0 then s.bootPort k else s

/-- A port trains that is DOWN, whose bond is DONE and whose optics and rail are on. -/
theorem retrainPort_eq (s : State) {k : Nat} (hk : k < 8) : s.retrainPort k =
    if portState s k = 0 ∧ bondState s (linkSite k) = 2 ∧ ¬ bit (s.reg (bPass k) 0x10) 2 = true ∧ s.pins.resetHeld = false then
      (s.setReg (bPass k) 0x20 (setBits (s.reg (bPass k) 0x20) 0 3 1)).setLink k { s.link k with
        resuming := false, laserOn := true, laneErrs := [], rxSeq := 0
        trainMode := bit (s.reg (bPass k) 0x18) 2 }
    else s := by
  by_cases h0 : portState s k = 0
  · by_cases h1 : bondState s (linkSite k) = 2
    · by_cases h2 : bit (s.reg (bPass k) 0x10) 2 = true
      · simp [State.retrainPort, State.bootPort, State.passTrain, h0, h1, h2]
      · cases h3 : s.pins.resetHeld <;>
          simp [State.retrainPort, State.bootPort, State.passTrain, State.setPort, h0, h1, h2, h3, hk]
    · simp [State.retrainPort, State.bootPort, h0, h1]
  · simp [State.retrainPort, h0]

theorem retrainPort_on {s : State} {k : Nat} (hk : k < 8) (h : portState s k = 0 ∧ bondState s (linkSite k) = 2 ∧
    ¬ bit (s.reg (bPass k) 0x10) 2 = true ∧ s.pins.resetHeld = false) :
    (s.retrainPort k).reg (bPass k) 0x20 = setBits (s.reg (bPass k) 0x20) 0 3 1 ∧
      (s.retrainPort k).link k = { s.link k with
        resuming := false, laserOn := true, laneErrs := [], rxSeq := 0
        trainMode := bit (s.reg (bPass k) 0x18) 2 } := by
  rw [retrainPort_eq s hk, if_pos h]
  simp

theorem retrainPort_off {s : State} {k : Nat} (hk : k < 8) (h : ¬ (portState s k = 0 ∧ bondState s (linkSite k) = 2 ∧
    ¬ bit (s.reg (bPass k) 0x10) 2 = true ∧ s.pins.resetHeld = false)) : s.retrainPort k = s := by
  rw [retrainPort_eq s hk, if_neg h]

/-- What training one port again leaves. -/
structure PortTrains (s t : State) (k : Nat) : Prop where
  frame : t = { s with regs := t.regs, links := t.links }
  regs : RegsSame s t [(bPass k).key 0x20]
  links : ∀ j, j ≠ k → t.link j = s.link j

theorem retrainPort_trains (s : State) {k : Nat} (hk : k < 8) : PortTrains s (s.retrainPort k) k := by
  rw [retrainPort_eq s hk]
  split
  · refine ⟨rfl, fun key h => ?_, fun j h => ?_⟩
    · simp only [List.mem_singleton] at h
      simp [State.find_setReg, h]
    · simp [h]
  · exact ⟨rfl, fun _ _ => rfl, fun _ _ => rfl⟩

theorem PortTrains.reg {s t : State} {k : Nat} (h : PortTrains s t k) {b : Blk} {off : Nat}
    (hne : b.key off ≠ (bPass k).key 0x20) : t.reg b off = s.reg b off :=
  State.reg_congr (by rw [h.frame]) (h.regs _ (by simpa using hne))

theorem linkSite_lt : ∀ k, k < 8 → linkSite k < 192 := by decide

/-- What decides whether a port trains, and what its training starts from. -/
structure PortAlike (s t : State) (k : Nat) : Prop where
  regs : ∀ off, off < 0x1_0000 → t.reg (bPass k) off = s.reg (bPass k) off
  link : t.link k = s.link k
  bond : bondState t (linkSite k) = bondState s (linkSite k)
  pins : t.pins = s.pins

theorem PortAlike.of_trains {s t u : State} {j k : Nat} (h : PortAlike s t k) (hu : PortTrains t u j) (hj : j < 8)
    (hk : k < 8) (hne : j ≠ k) : PortAlike s u k := by
  refine ⟨fun off ho => ?_, ?_, ?_, ?_⟩
  · exact (hu.reg (Blk.key_ne_of_unit hne.symm (ho := ho))).trans (h.regs off ho)
  · rw [hu.links k hne.symm, h.link]
  · have := linkSite_lt k hk
    have same : u.reg (bSm (linkSite k)) 0x400 = t.reg (bSm (linkSite k)) 0x400 := hu.reg Blk.key_ne_of_kind
    rw [← h.bond, bondState, State.getField, same]
    rfl
  · rw [hu.frame, h.pins]

/-- A port that stands alike in two panels trains alike. -/
theorem PortAlike.retrain {s t : State} {k : Nat} (h : PortAlike s t k) (hk : k < 8) :
    (t.retrainPort k).reg (bPass k) 0x20 = (s.retrainPort k).reg (bPass k) 0x20 ∧
      (t.retrainPort k).link k = (s.retrainPort k).link k := by
  have hstate : portState t k = portState s k := by
    simp only [portState, hk, if_true, State.getField, h.regs 0x20 (by decide)]
  rw [retrainPort_eq t hk, retrainPort_eq s hk, hstate, h.bond, h.pins, h.link, h.regs 0x10 (by decide),
    h.regs 0x18 (by decide), h.regs 0x20 (by decide)]
  split
  · simp
  · exact ⟨h.regs 0x20 (by decide), h.link⟩

/-- PASS_BOOT_RETRAIN trains each port by itself, and changes nothing else. -/
theorem foldl_retrainPort (s : State) : ∃ t, (List.range 8).foldl State.retrainPort s = t ∧
    t = { s with regs := t.regs, links := t.links } ∧ LinksSame s t (List.range 8) ∧
    RegsSame s t ((List.range 8).map fun k => (bPass k).key 0x20) ∧
    ∀ k, k < 8 → t.reg (bPass k) 0x20 = (s.retrainPort k).reg (bPass k) 0x20 ∧ t.link k = (s.retrainPort k).link k := by
  refine ⟨_, rfl, ?_, fun j hj => ?_, fun key hkey => ?_, fun k hk => ?_⟩
  · refine List.foldlRecOn _ _ (motive := fun t : State => t = { s with regs := t.regs, links := t.links }) rfl
      fun t ht k hk => ?_
    rw [(retrainPort_trains t (List.mem_range.1 hk)).frame, ht]
  · refine List.foldlRecOn _ _ (motive := fun t : State => t.link j = s.link j) rfl fun t ht k hk => ?_
    rw [(retrainPort_trains t (List.mem_range.1 hk)).links j fun e => hj (e ▸ hk), ht]
  · refine List.foldlRecOn _ _ (motive := fun t : State => Sparse.find key t.regs = Sparse.find key s.regs) rfl
      fun t ht k hk => ?_
    rw [(retrainPort_trains t (List.mem_range.1 hk)).regs key, ht]
    rw [List.mem_singleton]
    rintro rfl
    exact hkey (List.mem_map.2 ⟨k, hk, rfl⟩)
  · refine foldl_at (P := fun t : State => PortAlike s t k)
      (Q := fun t : State => t.reg (bPass k) 0x20 = (s.retrainPort k).reg (bPass k) 0x20 ∧
        t.link k = (s.retrainPort k).link k) (List.mem_range.2 hk) List.nodup_range ⟨fun _ _ => rfl, rfl, rfl, rfl⟩
      (fun t j hj hne ht => ht.of_trains (retrainPort_trains t (List.mem_range.1 hj)) (List.mem_range.1 hj) hk hne)
      (fun t ht => ht.retrain hk) (fun t j hj hne ht => ?_)
    have hu := retrainPort_trains t (List.mem_range.1 hj)
    exact ⟨(hu.reg (Blk.key_ne_of_unit hne.symm)).trans ht.1, (hu.links k hne.symm).trans ht.2⟩

end Sys2Proof.Machine
end

section
/-! PROOFS. The commands of bring-up (R5, R20, R22, R288, R403, R404, R406 to R408, R411, R412, R434): each by its equation,
and from these the statement on bring-up. -/

namespace Sys2Proof.Machine

/-! ## Reset and release -/

/-- The start of step 2 of bring-up: the oscillators of site 52 start, and both pairs train (R404). -/
def State.romStart (r : State) : State :=
  ((((r.oscEn 52 0 true).oscEn 52 1 true).setPort 8 1).setPort 9 1).setRom .startLock

/-- What step 2 of bring-up starts, the panel released from reset. -/
theorem romStart_spec {r : State} (hr : r.pins.resetHeld = false) :
    r.romStart = { r with
      regs := r.romStart.regs, sites := r.romStart.sites
      lead := { r.lead with rom := .startLock } } ∧
    SitesSame r r.romStart [52] ∧
    r.romStart.site 52 = { r.site 52 with stretchAt := (r.romStart.site 52).stretchAt } ∧
    bits (r.romStart.reg bCtl 0x10) 0 3 = 1 ∧ bits (r.romStart.reg bCtl 0x10) 4 3 = 1 ∧
    bit (r.romStart.reg (bClk 52) 0x08) 0 = true ∧ bit (r.romStart.reg (bClk 52) 0x08) 1 = true ∧
    RegsSame r r.romStart [bCtl.key 0x10, (bClk 52).key 0x08, (bClk 52).key 0x20, (bClk 52).key 0x28] := by
  have first := oscEn_starts r 52 (d := 0) (by decide)
  have second := oscEn_starts (r.oscEn 52 0 true) 52 (d := 1) (by decide)
  generalize hu : (r.oscEn 52 0 true).oscEn 52 1 true = u at second
  have ctl : r.romStart = (u.setReg bCtl 0x10 (setBits (setBits (u.reg bCtl 0x10) 0 3 1) 4 3 1)).setRom .startLock := by
    simp [State.romStart, State.setPort, hu, State.setReg_setReg]
  have clk : ∀ w : Word, (u.setReg bCtl 0x10 w).reg (bClk 52) 0x08 = u.reg (bClk 52) 0x08 := fun w => by
    rw [State.reg_setReg, if_neg (by decide)]
  have on : ∀ d, d < 2 → bit (u.reg (bClk 52) 0x08) d = true := fun d hd => by
    rw [second.enabled, first.enabled, first.pins, hr]
    have : d = 0 ∨ d = 1 := by omega
    rcases this with rfl | rfl
    · simp [show hasDomain 52 0 = true by decide]
    · simp [show hasDomain 52 1 = true by decide]
  rw [ctl]
  simp only [State.setRom, State.reg_modLead, State.site_modLead, State.site_setReg, clk]
  refine ⟨?_, fun z hz => ?_, ?_, ?_, ?_, on 0 (by decide), on 1 (by decide), fun key hkey => ?_⟩
  · rw [second.frame, first.frame]
    rfl
  · rw [List.mem_singleton] at hz
    exact (second.elsewhere z hz).trans (first.elsewhere z hz)
  · rw [second.site, first.site]
  · rw [State.reg_setReg, if_pos rfl, bits_setBits_other _ _ _ _ _ _ (by decide) (by decide),
      bits_setBits_same _ _ _ _ (by decide)]
    rfl
  · rw [State.reg_setReg, if_pos rfl, bits_setBits_same _ _ _ _ (by decide)]
    rfl
  · simp only [List.mem_cons, List.not_mem_nil, or_false, not_or] at hkey
    obtain ⟨hctl, hen, h0, h1⟩ := hkey
    rw [State.modLead_regs, State.find_setReg, if_neg hctl, second.regs key (by simp [oscOff, hen, h1]),
      first.regs key (by simp [oscOff, hen, h0])]

/-! ## Pass boot -/

/-- Pass boot begins in step 2 of bring-up or after it, where no pair is UP and no firmware runs (R407). -/
theorem execPassBoot_eq (s : State) : exec .passBoot s = .next (
    if s.lead.rom ∈ [Rom.startLock, .startCal, .startBond, .waiting] ∧
        ¬ (bits (s.reg bCtl 0x10) 0 3 = 5 ∨ bits (s.reg bCtl 0x10) 4 3 = 5) ∧ ¬ bits (s.reg (bStw 0) 0x20) 0 3 = 3 then
      (allSites.foldl State.startSite ((activeSites s).foldl State.bootPower (s.setField bCtl 0x10 10 1 1).bootVnet)).setRom
        .bootLock
    else s) := by
  refine congrArg _ (if_congr ?_ rfl rfl)
  simp only [portState, fwState, State.getField, List.mem_cons, List.not_mem_nil, or_false, not_or, ne_eq,
    show ¬ 8 < 8 by decide, show ¬ 9 < 8 by decide, show ¬ 9 = 8 by decide, if_false, if_true, and_assoc]

theorem execPassBootRetrain_eq (s : State) : exec .passBootRetrain s = .next (
    if s.lead.rom = .bootTrain ∧ ¬ bits (s.reg (bStw 0) 0x20) 0 3 = 3 then (List.range 8).foldl State.retrainPort s else s) :=
  rfl

/-- Pass boot enables every oscillator where the panel is out of reset. -/
theorem passBoot_enables (s : State) (l : List Nat) (hheld : s.pins.resetHeld = false) {st d : Nat} (hst : st < 192)
    (hd : d < 3) (hdom : hasDomain st d = true) :
    bit ((allSites.foldl State.startSite (l.foldl State.bootPower (s.setField bCtl 0x10 10 1 1).bootVnet)).reg (bClk st) 0x08)
      d = true := by
  refine foldl_startSite_enables _ ?_ hst hd hdom
  rw [foldl_pins State.bootPower_pins, State.bootVnet_pins]
  exact hheld

/-! ## The ROM goes on -/

section
variable {s : State}

theorem romNext_startLock (h : s.lead.rom = .startLock) :
    s.romNext = if siteLocked s 52 = true then (s.cal 52).setRom .startCal else s := by
  rw [State.romNext, h]

theorem romNext_startCal (h : s.lead.rom = .startCal) :
    s.romNext = if siteCalibrated s 52 = true then (s.bondStart 52).setRom .startBond else s := by
  rw [State.romNext, h]

theorem romNext_startBond (h : s.lead.rom = .startBond) :
    s.romNext = if bits (s.reg (bSm 52) 0x400) 2 3 = 1 then s else s.setRom .waiting := by
  rw [State.romNext, h]
  rfl

theorem romNext_bootLock (h : s.lead.rom = .bootLock) :
    s.romNext = if allSites.all (siteLocked s) = true then (allSites.foldl State.cal s).setRom .bootCal else s := by
  rw [State.romNext, h]

theorem romNext_bootCal (h : s.lead.rom = .bootCal) :
    s.romNext = if allSites.all (siteCalibrated s) = true then s.bootTraining.setRom .bootTrain else s := by
  rw [State.romNext, h]
  rfl

/-- The ROM does nothing more where it waits for no step of bring-up. -/
theorem romNext_rests (h : s.lead.rom ∈ [Rom.held, .waiting, .bootTrain]) : s.romNext = s := by
  simp only [List.mem_cons, List.not_mem_nil, or_false] at h
  rcases h with h | h | h <;> rw [State.romNext, h]

end

/-! ## Commands of one site -/

section
variable {s : State} {st : Nat} (hst : isSite st = true)
include hst

theorem onSite_eq (f : State → State) : onSite st s f = .next (f s) := if_pos hst

theorem exec_siteTrainBond : exec (.siteTrainBond st) s = .next (
    if bits (s.reg (bSm st) 0x400) 2 3 = 1 ∨ siteKind st = .guest ∨ st = 52 then s else s.bondStart st) :=
  onSite_eq hst fun s => s.trainBond st

theorem exec_siteTrainDram : exec (.siteTrainDram st) s = .next (
    if bits (s.reg (bSm st) 0x400) 5 3 = 1 ∨ siteKind st ≠ .compute ∨ bit (s.reg (bSp st) 0x08) 0 = false then s
    else s.setReg (bSm st) 0x400 (setBits (s.reg (bSm st) 0x400) 5 3 1)) :=
  (onSite_eq hst fun s => s.trainDram st).trans (congrArg _ (trainDram_eq s st))

theorem exec_dramTrainDone (failed : Nat) : exec (.dramTrainDone st failed) s = .next (
    if bits (s.reg (bSm st) 0x400) 5 3 ≠ 1 then s
    else
      let u := s.setReg (bSm st) 0x400 (setBits (setBits (s.reg (bSm st) 0x400) 8 7 (min failed 64)) 5 3
        (if failed = 0 then 2 else 3))
      if failed = 0 then u else u.flagRemap st 4) := by
  show execDramTrainDone st failed s = _
  rw [execDramTrainDone, onSite_eq hst]
  simp only [dramState, State.getField, State.setField_eq, State.reg_setReg, if_true, State.setReg_setReg]

theorem exec_setHost : exec (.setHost st) s = .next (s.flagRemap st 6) :=
  onSite_eq hst fun s => s.flagRemap st 6

/-- The outcome of bond training; then the ROM goes on (R408). -/
theorem exec_bondTrainDone (r : BondResult) : exec (.bondTrainDone st r) s = .next (
    if bits (s.reg (bSm st) 0x400) 2 3 ≠ 1 then s
    else
      let t := s.bondReport st r.ok
      let u := if r.ok then t.bondFailed st r.failed else if siteKind st = .compute then t.flagRemap st 3 else t
      (match portOfSite st with
      | some k => if s.lead.rom == Rom.bootTrain && fwState s != 3 then u.bootPort k else u
      | none => u).romNext) := by
  show execBondTrainDone st r s = _
  rw [execBondTrainDone, onSite_eq hst]
  rfl

end

theorem flagRemap_eq (s : State) (st cause : Nat) :
    let u := s.setReg (bSm st) 0x408 (setBit (setBit (s.reg (bSm st) 0x408) cause true) 0 true)
    s.flagRemap st cause =
      if bit (s.reg (bSm st) 0x408) 0 = true then u else u.noticePlain (nodeOf st 0) 0x0A06 none := rfl

/-! ## Outcomes of bond training -/

theorem portOfSite_linkSite : ∀ k, k < 8 → portOfSite (linkSite k) = some k := by decide

theorem bondFailed_lead (s : State) (st : Nat) (l : List (Nat × Nat)) : (s.bondFailed st l).lead = s.lead := by
  refine List.foldlRecOn _ _ (motive := fun t : State => t.lead = s.lead) rfl fun t ht f hf => ?_
  have : f.2 < 4 := by
    have := (List.mem_filter.1 hf).2
    simp only [Bool.and_eq_true, decide_eq_true_eq] at this
    exact this.2
  rw [dropPlane_lead t _ this, ht]

theorem flagRemap_lead (s : State) (st cause : Nat) : (s.flagRemap st cause).lead = s.lead := by
  obtain ⟨u, hu, h⟩ := flagRemap_spec s st cause
  rw [h.lead, hu, State.setReg_lead]

/-- The report of a bond's training leaves the lead steward as it is. -/
theorem bondReport_lead (s : State) (st : Nat) (ok : Bool) : (s.bondReport st ok).lead = s.lead := by
  rw [(bondReport_reported s st ok).frame]

/-- The ROM waits for no step of bring-up where it is held, or has made every step. -/
theorem Rom.rests_of_not_waits : ∀ r : Rom, r ∉ [Rom.startLock, .startCal, .startBond, .bootLock, .bootCal, .bootTrain] →
    r = .held ∨ r = .waiting := by
  intro r
  cases r <;> decide

/-- There the bond is reported, and its failed planes are dropped or its site is flagged (R408). -/
theorem bondTrainDone_at_rest {s : State} {st : Nat} (hst : isSite st = true)
    (hb : bits (s.reg (bSm st) 0x400) 2 3 = 1) (r : BondResult) (hrom : s.lead.rom = .held ∨ s.lead.rom = .waiting) :
    exec (.bondTrainDone st r) s = .next (
      if r.ok then (s.bondReport st r.ok).bondFailed st r.failed
      else if siteKind st = .compute then (s.bondReport st r.ok).flagRemap st 3 else s.bondReport st r.ok) := by
  have hboot : (s.lead.rom == Rom.bootTrain && fwState s != 3) = false := by
    rcases hrom with h | h <;> rw [h] <;> rfl
  rw [exec_bondTrainDone hst, if_neg (not_not.2 hb)]
  dsimp only
  generalize hu : (if r.ok = true then _ else _ : State) = u
  have hlead : u.lead = s.lead := by
    rw [← hu]
    split
    · rw [bondFailed_lead, bondReport_lead]
    · split
      · rw [flagRemap_lead, bondReport_lead]
      · exact bondReport_lead s st _
  have hport : (match portOfSite st with
      | some k => if s.lead.rom == Rom.bootTrain && fwState s != 3 then u.bootPort k else u
      | none => u) = u := by
    split
    · rw [if_neg (by simp [hboot])]
    · rfl
  rw [hport, romNext_rests]
  rw [hlead]
  rcases hrom with h | h <;> rw [h] <;> decide

/-- The bond of site 52 lets step 2 of bring-up end, whether it trains or not (R404). -/
theorem bondTrainDone_lead {s : State} (hb : bits (s.reg (bSm 52) 0x400) 2 3 = 1) (hrom : s.lead.rom = .startBond)
    {r : BondResult} (hr : r.failed = []) :
    exec (.bondTrainDone 52 r) s = .next ((s.bondReport 52 r.ok).setRom .waiting) := by
  have rep := bondReport_reported s 52 r.ok
  have hu : (if r.ok then (s.bondReport 52 r.ok).bondFailed 52 r.failed else if siteKind 52 = .compute then
      (s.bondReport 52 r.ok).flagRemap 52 3 else s.bondReport 52 r.ok) = s.bondReport 52 r.ok := by
    rw [hr, if_neg (show siteKind 52 ≠ .compute by decide)]
    cases r.ok <;> rfl
  rw [exec_bondTrainDone (by decide), if_neg (not_not.2 hb)]
  dsimp only
  rw [hu, show portOfSite 52 = none by decide]
  dsimp only
  rw [romNext_startBond (by rw [bondReport_lead, hrom]), if_neg]
  rw [rep.bond, bits_setBits_same _ _ _ _ (by decide)]
  cases r.ok <;> decide

/-- In pass boot a link die's port trains as its bond is DONE (R407). -/
theorem bondTrainDone_port {s : State} {k : Nat} (hk : k < 8) (hb : bits (s.reg (bSm (linkSite k)) 0x400) 2 3 = 1)
    (hrom : s.lead.rom = .bootTrain) (hfw : bits (s.reg (bStw 0) 0x20) 0 3 ≠ 3) {r : BondResult} (hok : r.ok = true)
    (hr : r.failed = []) :
    exec (.bondTrainDone (linkSite k) r) s = .next ((s.bondReport (linkSite k) r.ok).passTrain k) := by
  rw [hok]
  have rep := bondReport_reported s (linkSite k) true
  have hboot : (s.lead.rom == Rom.bootTrain && fwState s != 3) = true := by
    simpa [hrom, fwState, State.getField] using hfw
  have hdone : bondState (s.bondReport (linkSite k) true) (linkSite k) = 2 := by
    rw [bondState, State.getField, rep.bond, bits_setBits_same _ _ _ _ (by decide)]
    rfl
  rw [exec_bondTrainDone (isSite_iff.2 (linkSite_lt k hk)), if_neg (not_not.2 hb)]
  dsimp only
  rw [portOfSite_linkSite k hk, hok, if_pos rfl, hr]
  dsimp only
  rw [if_pos hboot]
  show Host.Outcome.next (State.bootPort (s.bondReport (linkSite k) true) k).romNext = _
  rw [State.bootPort, if_pos hdone, romNext_rests]
  have : ((s.bondReport (linkSite k) true).passTrain k).lead = s.lead := by
    rw [← bondReport_lead s (linkSite k) true]
    unfold State.passTrain
    split
    · rfl
    · simp [State.setPort, hk]
  simp [this, hrom]

/-- Settles O51, clause by clause: each command of bring-up by its equation, each fold over sites, nodes or ports by what
the step for one of them brings about and the others leave, and the fall of VNET by what a loss of words leaves. -/
theorem bringUpFollowsTheRom : Obligations.BringUpFollowsTheRom := by
  unfold Obligations.BringUpFollowsTheRom
  refine ⟨fun s => ?_, fun s st hst => ?_, fun s n pl _ hpl => ?_, fun s old f hf => ?_, fun s f hf => ?_,
    fun s n => ?_⟩
  · intro rom at_ bond pair running opticsOff settled centred
    have locked : ∀ st, siteLocked s st = true ↔ settled st := siteLocked_iff s
    have calibrated : ∀ st, siteCalibrated s st = true ↔ centred st := siteCalibrated_iff s
    have allLocked : allSites.all (siteLocked s) = true ↔ ∀ st, st < 192 → settled st := by
      simp only [allSites_all_iff, locked]
    have allCalibrated : allSites.all (siteCalibrated s) = true ↔ ∀ st, st < 192 → centred st := by
      simp only [allSites_all_iff, calibrated]
    refine ⟨⟨_, rfl, rfl, rfl, fun _ _ => rfl⟩, fun h => ?_, fun h => ?_, fun h hw => ?_, fun h hw => ?_, fun h hw => ?_,
      fun h hw => ?_, fun h hw => ?_, fun h => ?_, fun h => ?_, fun h hp hr => ?_, fun h => ?_, fun h hr => ?_⟩
    · exact congrArg _ (if_neg (by simp [h]))
    · exact ⟨_, congrArg _ (if_pos h), romStart_spec rfl⟩
    · exact (romNext_startLock h).trans (if_pos ((locked 52).2 hw))
    · exact (romNext_startCal h).trans (if_pos ((calibrated 52).2 hw))
    · exact (romNext_startBond h).trans (if_neg hw)
    · obtain ⟨t, ht, rest⟩ := foldl_cal s
      refine ⟨t, ?_, rest⟩
      rw [romNext_bootLock h, if_pos (allLocked.2 hw), ht]
      rfl
    · refine ⟨s.bootTraining, (romNext_bootCal h).trans (if_pos (allCalibrated.2 hw)), bootTraining_frame s, ?_,
        fun st hst hne => ?_⟩
      · exact (bootTraining_site s (st := 52) (by decide)).1.trans (congrArg (bits · 2 3) (bondAsked_lead _))
      · obtain ⟨hb, hd⟩ := bootTraining_site s hst
        exact ⟨hb.trans (bits_bondAsked hne _), hd⟩
    · rcases h with ⟨h, hw⟩ | ⟨h, hw⟩ | ⟨h, hw⟩ | ⟨h, st, hst, hw⟩ | ⟨h, st, hst, hw⟩ | h
      · exact (romNext_startLock h).trans (if_neg fun e => hw ((locked 52).1 e))
      · exact (romNext_startCal h).trans (if_neg fun e => hw ((calibrated 52).1 e))
      · exact (romNext_startBond h).trans (if_pos hw)
      · exact (romNext_bootLock h).trans (if_neg fun e => hw (allLocked.1 e st hst))
      · exact (romNext_bootCal h).trans (if_neg fun e => hw (allCalibrated.1 e st hst))
      · exact romNext_rests h
    · rw [execPassBoot_eq, if_neg]
      rintro ⟨h1, h2, h3⟩
      rcases h with h | h | h
      · exact h h1
      · exact h2 h
      · exact h3 h
    · refine ⟨s.setField bCtl 0x10 10 1 1, (s.setField bCtl 0x10 10 1 1).bootVnet,
        allSites.foldl State.startSite ((activeSites s).foldl State.bootPower (s.setField bCtl 0x10 10 1 1).bootVnet),
        ?_, rfl, rfl, rfl, fun hheld st d hst hd hdom => ?_⟩
      · rw [execPassBoot_eq, if_pos ⟨h, hp, hr⟩]
        rfl
      · exact passBoot_enables s _ hheld hst hd hdom
    · rw [execPassBootRetrain_eq, if_neg]
      rintro ⟨h1, h2⟩
      exact h.elim (· h1) h2
    · obtain ⟨t, ht, hframe, hlinks, hregs, hports⟩ := foldl_retrainPort s
      refine ⟨t, ?_, hframe, hlinks, hregs, fun k hk => ?_⟩
      · rw [execPassBootRetrain_eq, if_pos ⟨h, hr⟩, ht]
      · obtain ⟨hreg, hlink⟩ := hports k hk
        refine ⟨fun on => ?_, fun off => ?_⟩
        · rw [hreg, hlink]
          exact retrainPort_on hk on
        · rw [hreg, hlink, retrainPort_off hk off]
          exact ⟨rfl, rfl⟩
  · have hlt : st < 192 := isSite_iff.1 hst
    intro w health busyB busyD rom waits
    refine ⟨fun h => ?_, fun hb hg h52 => ?_, ?_, fun h => ?_, fun hb hk hp => ?_, fun failed => ?_, exec_setHost hst,
      fun cause _ _ => flagRemap_eq s st cause, fun r => ?_⟩
    · rw [exec_siteTrainBond hst, if_pos h]
    · rw [exec_siteTrainBond hst, if_neg]
      exact not_or.2 ⟨hb, not_or.2 ⟨hg, h52⟩⟩
    · refine ⟨bondStart_frame s st, reg_siteTrain_bondStart s hlt, bondStart_routersSame s st, bondStart_regsSame s st,
        fun n hn => ?_⟩
      obtain ⟨hr, hw⟩ := bondStart_node s hlt hn
      refine ⟨by rw [hr], fun pl g hpl hg => ?_, hw⟩
      rw [hr]
      exact getD_birthSpares s.birth st (localOf n) hg
    · rw [exec_siteTrainDram hst, if_pos h]
    · rw [exec_siteTrainDram hst, if_neg]
      exact not_or.2 ⟨hb, not_or.2 ⟨not_not.2 hk, by simp [hp]⟩⟩
    · rw [exec_dramTrainDone hst]
      refine ⟨fun h => ?_, fun h h0 => ?_, fun h h0 => ?_⟩
      · rw [if_pos h]
      · rw [if_neg (not_not.2 h), h0]
        rfl
      · rw [if_neg (not_not.2 h)]
        simp only [if_neg h0]
        rfl
    · intro row ok after
      have report : ∀ good, r.ok = good → after (s.bondReport st r.ok) good := fun good hgood => by
        have b : BondReported s (s.bondReport st r.ok) st good := hgood ▸ bondReport_reported s st r.ok
        exact ⟨b.bond, b.trained, b.level, b.own, b.agreed, b.step, b.mask, b.agreedMask, b.frame, b.regs⟩
      refine ⟨fun h => ?_, fun hb hw => ⟨s.bondReport st r.ok, fun hok => ⟨report true hok, ?_⟩,
        fun hok => ⟨report false (Bool.eq_false_iff.2 hok), ?_⟩⟩, fun hb hrom h52 hf => ⟨_, report r.ok rfl, ?_⟩,
        fun k hb hrom hk hs hok hf hfw => ⟨_, report true hok, ?_⟩⟩
      · exact (exec_bondTrainDone hst r).trans (congrArg _ (if_pos h))
      · exact (bondTrainDone_at_rest hst hb r (Rom.rests_of_not_waits _ hw)).trans (congrArg _ (if_pos hok))
      · exact (bondTrainDone_at_rest hst hb r (Rom.rests_of_not_waits _ hw)).trans (congrArg _ (if_neg hok))
      · subst h52
        refine (bondTrainDone_lead hb hrom hf).trans ?_
        rw [State.setRom, State.modLead, bondReport_lead]
      · subst hs
        exact bondTrainDone_port hk hb hrom hfw hok hf
  · rw [dropPlane_eq s n hpl]
    exact ⟨fun h => if_pos h, fun h => if_neg h⟩
  · intro on h
    rw [pwrApplied_single hf h, vnetStep_eq]
  · intro mine up down
    have stop := routersStop_vnetFall s f
    refine ⟨vnetRise_frame s f, fun n hn => router_vnetRise s hn, fun n off hn ho => reg_vnetRise s hn.1 hn.2 ho,
      fun key h => find_vnetRise_out s h, stop.frame, fun st hst => site_vnetFall s hst, fun n pl hn => ?_, fun h n pl hn => ?_⟩
    · intro y
      have e := emptied_vnetFall s hn.1 hn.2 pl
      exact ⟨e.eq_of_loses (stop.planes n pl), e.ends⟩
    · have idle := stopsIdle_vnetFall h
      exact ⟨fun hne => idle.elsewhere n pl hn hne, fun _ e => idle.sent n pl e⟩
  · exact routerLive_iff s n

end Sys2Proof.Machine
end

section
/-! SUPPORT. What every command leaves of the panel: the birth record and the queue stay as they are, and the
    counters of
free values and of DRAM losses never fall (R20 to R22, R403). -/

namespace Sys2Proof.Machine

/-- The part of the panel that no command takes back: the birth record, the queue, and the two counters. -/
structure Imprint where
  birth : Birth
  pending : List Instr
  fill : Nat
  free : Nat

/-- The imprint of a panel. -/
def State.imprint (s : State) : Imprint := ⟨s.birth, s.pending, s.fill, s.free⟩

/-- Record and queue are the same, and no counter has fallen. -/
structure Imprint.Le (a b : Imprint) : Prop where
  birth : b.birth = a.birth
  pending : b.pending = a.pending
  fill : a.fill ≤ b.fill
  free : a.free ≤ b.free

@[simp] theorem Imprint.Le.refl (a : Imprint) : a.Le a := ⟨rfl, rfl, le_refl _, le_refl _⟩

theorem Imprint.Le.trans {a b c : Imprint} (h : a.Le b) (h' : b.Le c) : a.Le c :=
  ⟨h'.birth.trans h.birth, h'.pending.trans h.pending, h.fill.trans h'.fill, h.free.trans h'.free⟩

/-- An update of any other fields leaves the imprint. -/
@[simp] theorem State.imprint_update (s : State) (pins : Pins) (regs staged : Sparse Word) (cores : Sparse Core)
    (routers : Sparse Router) (slices : Sparse Slice) (sites : Sparse Site) (links : Sparse Link) (guests : Sparse
        Guest)
    (stewards : Sparse Steward) (lead : Lead) :
    (State.mk s.pending s.free s.fill s.birth pins regs staged cores routers slices sites links guests stewards
      lead).imprint = s.imprint := rfl

theorem RoutersOnly.imprint {s t : State} (h : RoutersOnly s t) : t.imprint = s.imprint := by
  rw [h]
  rfl

@[simp] theorem State.imprint_ite (c : Prop) [Decidable c] (s t : State) :
    (if c then s else t).imprint = if c then s.imprint else t.imprint := apply_ite State.imprint c s t

/-- A fold whose every step leaves the imprint leaves it. -/
@[simp] theorem imprint_foldl {α : Type} {f : State → α → State} (h : ∀ s a, (f s a).imprint = s.imprint) (l : List α)
    (s : State) : (l.foldl f s).imprint = s.imprint :=
  List.foldlRecOn (b := s) l f (motive := fun t => t.imprint = s.imprint) rfl fun t ht a _ => (h t a).trans ht

/-! ## Units, registers, notices and fences -/

@[simp] theorem imprint_setCore (s : State) (n : Nat) (c : Core) : (s.setCore n c).imprint = s.imprint := by
  simp [State.setCore]

@[simp] theorem imprint_modCore (s : State) (n : Nat) (f : Core → Core) :
    (s.modCore n f).imprint = s.imprint := by
  simp [State.modCore]

@[simp] theorem imprint_setRouter (s : State) (n : Nat) (r : Router) :
    (s.setRouter n r).imprint = s.imprint := by
  simp [State.setRouter]

@[simp] theorem imprint_modRouter (s : State) (n : Nat) (f : Router → Router) :
    (s.modRouter n f).imprint = s.imprint := by
  simp [State.modRouter]

@[simp] theorem imprint_setPlane (s : State) (n pl : Nat) (p : RPlane) :
    (s.setPlane n pl p).imprint = s.imprint := by
  simp [State.setPlane]

@[simp] theorem imprint_modPlane (s : State) (n pl : Nat) (f : RPlane → RPlane) :
    (s.modPlane n pl f).imprint = s.imprint := by
  simp [State.modPlane]

@[simp] theorem imprint_setSlice (s : State) (n : Nat) (c : Slice) : (s.setSlice n c).imprint = s.imprint := by
  simp [State.setSlice]

@[simp] theorem imprint_modSlice (s : State) (n : Nat) (f : Slice → Slice) :
    (s.modSlice n f).imprint = s.imprint := by
  simp [State.modSlice]

@[simp] theorem imprint_setSite (s : State) (st : Nat) (c : Site) : (s.setSite st c).imprint = s.imprint := by
  simp [State.setSite]

@[simp] theorem imprint_modSite (s : State) (st : Nat) (f : Site → Site) :
    (s.modSite st f).imprint = s.imprint := by
  simp [State.modSite]

@[simp] theorem imprint_setLink (s : State) (k : Nat) (c : Link) : (s.setLink k c).imprint = s.imprint := by
  simp [State.setLink]

@[simp] theorem imprint_modLink (s : State) (k : Nat) (f : Link → Link) :
    (s.modLink k f).imprint = s.imprint := by
  simp [State.modLink]

@[simp] theorem imprint_setGuest (s : State) (g : Nat) (c : Guest) : (s.setGuest g c).imprint = s.imprint := by
  simp [State.setGuest]

@[simp] theorem imprint_modGuest (s : State) (g : Nat) (f : Guest → Guest) :
    (s.modGuest g f).imprint = s.imprint := by
  simp [State.modGuest]

@[simp] theorem imprint_setSteward (s : State) (q : Nat) (c : Steward) :
    (s.setSteward q c).imprint = s.imprint := by
  simp [State.setSteward]

@[simp] theorem imprint_modSteward (s : State) (q : Nat) (f : Steward → Steward) :
    (s.modSteward q f).imprint = s.imprint := by
  simp [State.modSteward]

@[simp] theorem imprint_modLead (s : State) (f : Lead → Lead) : (s.modLead f).imprint = s.imprint := by
  simp [State.modLead]

@[simp] theorem imprint_setReg (s : State) (k : Blk) (off : Nat) (w : Word) :
    (s.setReg k off w).imprint = s.imprint := by
  simp [State.setReg]

@[simp] theorem imprint_modReg (s : State) (k : Blk) (off : Nat) (f : Word → Word) :
    (s.modReg k off f).imprint = s.imprint := by
  simp [State.modReg]

@[simp] theorem imprint_setField (s : State) (k : Blk) (off lo len v : Nat) :
    (s.setField k off lo len v).imprint = s.imprint := by
  simp [State.setField]

@[simp] theorem imprint_countField (s : State) (k : Blk) (off lo len : Nat) :
    (s.countField k off lo len).imprint = s.imprint := by
  simp [State.countField]

/-- What the panel counts on of the free values never falls. -/
@[simp] theorem imprint_le_tick {s : State} {x : Imprint} (h : x.Le s.imprint) : x.Le s.tick.imprint :=
  h.trans ⟨rfl, rfl, le_refl _, Nat.le_succ _⟩

/-- A fold whose every step keeps to the imprint does so. -/
@[simp] theorem imprint_le_foldl {α : Type} {f : State → α → State} {x : Imprint}
    (h : ∀ s a, x.Le s.imprint → x.Le (f s a).imprint) (l : List α) {s : State} (hs : x.Le s.imprint) :
    x.Le (l.foldl f s).imprint :=
  List.foldlRecOn (b := s) l f (motive := fun t => x.Le t.imprint) hs fun t ht a _ => h t a ht

@[simp] theorem imprint_setCtx (s : State) (n i : Nat) (x : Ctx) : (s.setCtx n i x).imprint = s.imprint := by
  simp [State.setCtx]

@[simp] theorem imprint_modCtx (s : State) (n i : Nat) (f : Ctx → Ctx) :
    (s.modCtx n i f).imprint = s.imprint := by
  simp [State.modCtx]

@[simp] theorem imprint_spun (s : State) (n : Nat) : (s.spun n).imprint = s.imprint := by
  simp [State.spun]

@[simp] theorem imprint_noteSpin (s : State) : s.noteSpin.imprint = s.imprint := by
  simp [State.noteSpin]

@[simp] theorem imprint_offer (s : State) (n : Nat) (p : Packet) (pl : Option Nat) :
    (s.offer n p pl).imprint = s.imprint := by
  simp [State.offer]

@[simp] theorem imprint_noticeDie (s : State) (n code : Nat) (p : Option Packet) :
    (s.noticeDie n code p).imprint = s.imprint := by
  unfold State.noticeDie
  split <;> simp

@[simp] theorem imprint_noticePlain (s : State) (n code : Nat) (p : Option Packet) :
    (s.noticePlain n code p).imprint = s.imprint := by
  unfold State.noticePlain
  split <;> simp

@[simp] theorem imprint_noticeSite (s : State) (st code : Nat) : (s.noticeSite st code).imprint = s.imprint := by
  simp [State.noticeSite]

@[simp] theorem imprint_noticeLead (s : State) (code : Nat) : (s.noticeLead code).imprint = s.imprint := by
  simp [State.noticeLead]

@[simp] theorem imprint_creditDie (s : State) (n pl : Nat) (p : Packet) :
    (s.creditDie n pl p).imprint = s.imprint := by
  unfold State.creditDie
  split <;> simp

@[simp] theorem imprint_discardDie (s : State) (n pl : Nat) (p : Packet) (code : Nat) :
    (s.discardDie n pl p code).imprint = s.imprint := by
  simp [State.discardDie]

@[simp] theorem imprint_ackDie (s : State) (n pl : Nat) (p : Packet) :
    (s.ackDie n pl p).imprint = s.imprint := by
  unfold State.ackDie
  split <;> simp

@[simp] theorem imprint_flagRemap (s : State) (st cause : Nat) : (s.flagRemap st cause).imprint = s.imprint := by
  simp [State.flagRemap]

@[simp] theorem imprint_fenceEffect (s : State) (n : Nat) (now : Nat → Bool → Bool) :
    (s.fenceEffect n now).imprint = s.imprint := by
  simp [State.fenceEffect]

@[simp] theorem imprint_setFence (s : State) (n : Nat) (on : Bool) : (s.setFence n on).imprint = s.imprint := by
  simp [State.setFence]

/-! ## Waits, releases and faults of contexts -/

@[simp] theorem imprint_cairn (s : State) (n i : Nat) : (s.cairn n i).imprint = s.imprint := by
  simp [State.cairn]

@[simp] theorem imprint_release (s : State) (n i : Nat) : (s.release n i).imprint = s.imprint := by
  simp [State.release]

@[simp] theorem imprint_bump (s : State) (n k : Nat) : (s.bump n k).imprint = s.imprint := by
  simp [State.bump]

@[simp] theorem imprint_testCtx (n : Nat) (sel : WaitFor → Bool) (a : State × List Nat) (i : Nat) :
    (testCtx n sel a i).1.imprint = a.1.imprint := by
  unfold testCtx
  dsimp only
  split
  · split
    · split <;> simp
    · split <;> simp
    · rfl
  · rfl

@[simp] theorem imprint_testAll (s : State) (n : Nat) (sel : WaitFor → Bool) :
    (testAll s n sel).1.imprint = s.imprint := by
  simp [testAll]

@[simp] theorem imprint_addCounts (f : Nat) (s : State) (n : Nat) (ks : List Nat) :
    (addCounts f s n ks).imprint = s.imprint := by
  induction f generalizing s ks with
  | zero => rfl
  | succ f ih =>
    cases ks with
    | nil => rfl
    | cons k rest => simp [addCounts, ih]

@[simp] theorem imprint_addCount (s : State) (n k : Nat) : (s.addCount n k).imprint = s.imprint := by
  simp [State.addCount]

@[simp] theorem imprint_testSlot (s : State) (n sl : Nat) : (s.testSlot n sl).imprint = s.imprint := by
  simp [State.testSlot]

@[simp] theorem imprint_signal (s : State) (n sl e : Nat) : (s.signal n sl e).imprint = s.imprint := by
  simp [State.signal]

@[simp] theorem imprint_writeSlot (s : State) (n sl : Nat) (v : Word) :
    (s.writeSlot n sl v).imprint = s.imprint := by
  simp [State.writeSlot]

@[simp] theorem imprint_writeCc (s : State) (n k : Nat) (v : Word) : (s.writeCc n k v).imprint = s.imprint := by
  simp [State.writeCc]

@[simp] theorem imprint_wakeParked (s : State) (n : Nat) : (s.wakeParked n).imprint = s.imprint := by
  simp [State.wakeParked]

@[simp] theorem imprint_faultCtx (s : State) (n i code unit pc : Nat) (addr : Word) :
    (s.faultCtx n i code unit pc addr).imprint = s.imprint := by
  simp [State.faultCtx]

@[simp] theorem imprint_asyncFault (s : State) (n i code unit pc : Nat) (addr : Word) :
    (s.asyncFault n i code unit pc addr).imprint = s.imprint := by
  simp [State.asyncFault]

@[simp] theorem imprint_drain (s : State) (n i : Nat) : (s.drain n i).imprint = s.imprint := by
  unfold State.drain
  dsimp only
  repeat' split
  all_goals simp

/-! ## Issue and retirement -/

@[simp] theorem imprint_beginIssue (s : State) (n : Nat) (who : Option Nat) :
    (beginIssue s n who).imprint = s.imprint := by
  simp [beginIssue]

@[simp] theorem imprint_retire (s : State) (n i : Nat) (f : Ctx → Ctx) :
    (s.retire n i f).imprint = s.imprint := by
  simp [State.retire]

@[simp] theorem imprint_retireTo (s : State) (n i t : Nat) (f : Ctx → Ctx) :
    (s.retireTo n i t f).imprint = s.imprint := by
  simp [State.retireTo]

/-- Issuing keeps to the imprint where what the instruction does keeps to it. -/
theorem imprint_le_issue {s : State} {x : Imprint} (hs : x.Le s.imprint) (n : Nat) (row : Word → Bool)
    {act : State → Nat → Word → State} (h : ∀ (t : State) i w, x.Le t.imprint → x.Le (act t i w).imprint) :
    x.Le (issue s n row act).imprint := by
  unfold issue
  split
  · split
    · dsimp only
      split
      · simp [hs]
      · exact h _ _ _ (by simp [hs])
    · exact hs
  · exact hs
  · split <;> simp [hs]

@[simp] theorem imprint_issueFault (s : State) (n i code unit : Nat) (addr : Word) :
    (s.issueFault n i code unit addr).imprint = s.imprint := by
  simp [State.issueFault]

/-! ## Units that take descriptors -/

@[simp] theorem imprint_handOver (s : State) (n i : Nat) (w : Word) (u : UnitKind) (unit : Nat) :
    (handOver s n i w u unit).imprint = s.imprint := by
  unfold handOver
  dsimp only
  split <;> simp

/-! ## The inbox chain -/

@[simp] theorem imprint_feed (s : State) (n : Nat) : (feed s n).imprint = s.imprint := by
  unfold feed
  dsimp only
  split <;> simp

@[simp] theorem imprint_admitPacket (s : State) (n pl : Nat) (p : Packet) :
    (admitPacket s n pl p).imprint = s.imprint := by
  simp [admitPacket]

@[simp] theorem imprint_flush (s : State) (n : Nat) : (s.flush n).imprint = s.imprint := by
  simp [State.flush]

/-! ## Control of contexts and cores -/

@[simp] theorem imprint_park (s : State) (n i : Nat) (wf : WaitFor) (idle : Bool) :
    (s.park n i wf idle).imprint = s.imprint := by
  simp [State.park]

@[simp] theorem imprint_haltOne (s : State) (n i : Nat) (on : Bool) :
    (s.haltOne n i on).imprint = s.imprint := by
  unfold State.haltOne
  dsimp only
  repeat' split
  all_goals simp

@[simp] theorem imprint_halt (s : State) (n : Nat) (bits4 : Nat) : (s.halt n bits4).imprint = s.imprint := by
  simp [State.halt]

@[simp] theorem imprint_clearFaultOne (s : State) (n i : Nat) : (s.clearFaultOne n i).imprint = s.imprint := by
  simp [State.clearFaultOne]

@[simp] theorem imprint_clearFault (s : State) (n : Nat) (bits4 : Nat) :
    (s.clearFault n bits4).imprint = s.imprint := by
  simp [State.clearFault]

@[simp] theorem imprint_startRefused (s : State) (n : Nat) : (s.startRefused n).imprint = s.imprint := by
  simp [State.startRefused]

@[simp] theorem imprint_start (s : State) (n : Nat) : (s.start n).imprint = s.imprint := by
  simp [State.start]

@[simp] theorem imprint_clearRegs (s : State) (n : Nat) : (clearRegs s n).imprint = s.imprint := by
  simp [clearRegs]

@[simp] theorem imprint_dropAdmission (s : State) (n : Nat) : (s.dropAdmission n).imprint = s.imprint := by
  unfold State.dropAdmission
  split <;> simp

@[simp] theorem imprint_beginClear (s : State) (n : Nat) : (s.beginClear n).imprint = s.imprint := by
  simp [State.beginClear]

@[simp] theorem imprint_clear (s : State) (n : Nat) : (s.clear n).imprint = s.imprint := by
  simp [State.clear]

@[simp] theorem imprint_clearDone (s : State) (n : Nat) : (s.clearDone n).imprint = s.imprint := by
  simp [State.clearDone]

@[simp] theorem imprint_writeCtl (s : State) (n : Nat) (v : Word) : (s.writeCtl n v).imprint = s.imprint := by
  simp [State.writeCtl]

/-! ## The control bridge -/

@[simp] theorem imprint_bridgeReply (s : State) (p : Packet) (status : Nat) (data : List Byte) :
    (s.bridgeReply p status data).imprint = s.imprint := by
  simp [State.bridgeReply]

@[simp] theorem imprint_countStray (s : State) : s.countStray.imprint = s.imprint := by
  simp [State.countStray]

@[simp] theorem imprint_bridgeEnd (s : State) (r : CtlReq) (status : Nat) (data : List Byte) :
    (s.bridgeEnd r status data).imprint = s.imprint := by
  simp [State.bridgeEnd]

@[simp] theorem imprint_bridgeInjected (s : State) (p : Packet) : (s.bridgeInjected p).imprint = s.imprint := by
  unfold State.bridgeInjected
  repeat' split
  all_goals simp

/-! ## Crossings -/

@[simp] theorem imprint_modEnd (s : State) (n pl d : Nat) (f : LinkEnd → LinkEnd) :
    (s.modEnd n pl d f).imprint = s.imprint := by
  simp [State.modEnd]

@[simp] theorem imprint_sendWords (s : State) (n pl d : Nat) (join : Bool) (ws : List WordSlot) :
    (s.sendWords n pl d join ws).imprint = s.imprint := by
  simp [State.sendWords]

/-! ## The ends of unit operations -/

@[simp] theorem imprint_opEnd (s : State) (n : Nat) (op : UnitOp) (ok : Bool) :
    (s.opEnd n op ok).imprint = s.imprint := by
  simp [State.opEnd]

@[simp] theorem imprint_opFinish (s : State) (n : Nat) (op : UnitOp) :
    (s.opFinish n op).imprint = s.imprint := by
  simp [State.opFinish]

@[simp] theorem imprint_opFault (s : State) (n : Nat) (op : UnitOp) (code : Nat) (addr : Nat) :
    (s.opFault n op code addr).imprint = s.imprint := by
  simp [State.opFault]

/-! ## The tensor engine -/

@[simp] theorem imprint_writeResult (s : State) (n : Nat) (op : UnitOp) (at_ : Nat) (d : Desc) (r : TResult) :
    (writeResult s n op at_ d r).imprint = s.imprint := by
  unfold writeResult
  split <;> simp

@[simp] theorem imprint_tensorStep (s : State) (n fn : Nat) (isSeal : Bool) (run : Core → UnitOp → Desc → Nat ×
    TResult) :
    (tensorStep s n fn isSeal run).imprint = s.imprint := by
  unfold tensorStep
  dsimp only
  repeat' split
  all_goals simp

/-! ## The message engine and the ledger port -/

@[simp] theorem imprint_msgStep (s : State) (n row : Nat) : (msgStep s n row).imprint = s.imprint := by
  unfold msgStep
  dsimp only
  repeat' split
  all_goals simp

@[simp] theorem imprint_msgInjected (s : State) (n pl : Nat) : (s.msgInjected n pl).imprint = s.imprint := by
  unfold State.msgInjected
  dsimp only
  repeat' split
  all_goals simp

@[simp] theorem imprint_lopDone (s : State) (n seq : Nat) : (s.lopDone n seq).imprint = s.imprint := by
  unfold State.lopDone
  split <;> simp

@[simp] theorem imprint_lopLost (s : State) (n seq : Nat) : (s.lopLost n seq).imprint = s.imprint := by
  unfold State.lopLost
  split <;> simp

/-! ## Slices -/

@[simp] theorem imprint_le_loseDram {s : State} {x : Imprint} (h : x.Le s.imprint) (n : Nat) : x.Le (s.loseDram
    n).imprint :=
  h.trans ⟨rfl, rfl, Nat.le_succ _, le_refl _⟩

@[simp] theorem imprint_countMc (s : State) (n off lo k : Nat) : (s.countMc n off lo k).imprint = s.imprint := by
  simp [State.countMc]

@[simp] theorem imprint_readLines (s : State) (n : Nat) (lines : List Nat) :
    (s.readLines n lines).imprint = s.imprint := by
  simp [State.readLines]

@[simp] theorem imprint_storeLines (s : State) (n : Nat) (lines : List Nat) :
    (s.storeLines n lines).imprint = s.imprint := by
  simp [State.storeLines]

@[simp] theorem imprint_writeSlice (s : State) (n a : Nat) (b : List Byte) :
    (s.writeSlice n a b).imprint = s.imprint := by
  simp [State.writeSlice]

@[simp] theorem imprint_queueReq (s : State) (n pl : Nat) (p : Packet) :
    (s.queueReq n pl p).imprint = s.imprint := by
  simp [State.queueReq]

@[simp] theorem imprint_creditSlice (s : State) (n pl : Nat) (p : Packet) :
    (s.creditSlice n pl p).imprint = s.imprint := by
  unfold State.creditSlice
  split <;> simp

@[simp] theorem imprint_discardSlice (s : State) (n pl : Nat) (p : Packet) (code : Nat) :
    (s.discardSlice n pl p code).imprint = s.imprint := by
  simp [State.discardSlice]

@[simp] theorem imprint_mcOverflow (s : State) (n pl : Nat) (p : Packet) :
    (s.mcOverflow n pl p).imprint = s.imprint := by
  simp [State.mcOverflow]

@[simp] theorem imprint_mcKind (s : State) (n pl : Nat) (p : Packet) :
    (s.mcKind n pl p).imprint = s.imprint := by
  simp [State.mcKind]

@[simp] theorem imprint_acceptReq (s : State) (n pl : Nat) (p : Packet) :
    (s.acceptReq n pl p).imprint = s.imprint := by
  simp [State.acceptReq]

@[simp] theorem imprint_toDram (s : State) (n pl : Nat) (p : Packet) :
    (s.toDram n pl p).imprint = s.imprint := by
  simp [State.toDram]

@[simp] theorem imprint_respond (s : State) (n pl : Nat) (p : Packet) :
    (s.respond n pl p).imprint = s.imprint := by
  simp [State.respond]

@[simp] theorem imprint_sliceRead (s : State) (n : Nat) (r : Req) : (s.sliceRead n r).imprint = s.imprint := by
  simp [State.sliceRead]

@[simp] theorem imprint_sliceReduce (s : State) (n : Nat) (r : Req) :
    (s.sliceReduce n r).imprint = s.imprint := by
  unfold State.sliceReduce
  dsimp only
  repeat' split
  all_goals simp

/-! ## The mesh -/

@[simp] theorem imprint_creditHere (s : State) (n pl : Nat) (pt : Port) (p : Packet) :
    (s.creditHere n pl pt p).imprint = s.imprint := by
  unfold State.creditHere
  split <;> simp

@[simp] theorem imprint_countDiscard (s : State) (n pl : Nat) : (s.countDiscard n pl).imprint = s.imprint := by
  simp [State.countDiscard]

@[simp] theorem imprint_routerDrop (s : State) (n pl : Nat) (pt : Port) (p : Packet) (credit : Bool) (code : Option
    Nat) :
    (s.routerDrop n pl pt p credit code).imprint = s.imprint := by
  unfold State.routerDrop
  dsimp only
  split <;> simp

@[simp] theorem imprint_meet (n pl : Nat) (s : State) (h : Held) : (State.meet n pl s h).imprint = s.imprint := by
  unfold State.meet
  dsimp only
  repeat' split
  all_goals simp

@[simp] theorem imprint_enter (s : State) (n pl : Nat) (h : Header) : (s.enter n pl h).imprint = s.imprint := by
  simp [State.enter]

@[simp] theorem imprint_takeWord (n pl e : Nat) (s : State) (w : WordSlot) :
    (State.takeWord n pl e s w).imprint = s.imprint := by
  simp [State.takeWord]

@[simp] theorem imprint_takeWords (s : State) (n pl e : Nat) (ws : List WordSlot) :
    (s.takeWords n pl e ws).imprint = s.imprint := by
  simp [State.takeWords]

@[simp] theorem imprint_receive (n pl : Nat) (s : State) (e : Nat) : (State.receive n pl s e).imprint = s.imprint := by
  unfold State.receive
  dsimp only
  split <;> simp

@[simp] theorem imprint_occupy (s : State) (n pl d : Nat) (h : Header) (cross : Bool) :
    (s.occupy n pl d h cross).imprint = s.imprint := by
  simp [State.occupy]

@[simp] theorem imprint_forward (s : State) (n pl d : Nat) (h : Header) :
    (s.forward n pl d h).imprint = s.imprint := by
  simp [State.forward]

@[simp] theorem imprint_rootOnly (s : State) (n pl : Nat) (pt : Port) (q : Packet) {f : State → State}
    (h : ∀ s, (f s).imprint = s.imprint) : (s.rootOnly n pl pt q f).imprint = s.imprint := by
  simp [State.rootOnly, h]

@[simp] theorem imprint_enterChecked (s : State) (n pl : Nat) (pt : Port) (p : Packet) (keep : Bool) :
    (s.enterChecked n pl pt p keep).imprint = s.imprint := by
  unfold State.enterChecked
  dsimp only
  repeat' split
  all_goals simp

@[simp] theorem imprint_inject (s : State) (n pl : Nat) (pt : Port) (p : Packet) (keep : Bool) :
    (s.inject n pl pt p keep).imprint = s.imprint := by
  simp [State.inject]

@[simp] theorem imprint_dieSends (s : State) (n pl : Nat) (p : Packet) (cross : Bool) :
    (s.dieSends n pl p cross).imprint = s.imprint := by
  simp [State.dieSends]

@[simp] theorem imprint_injectFrom (s : State) (n pl : Nat) (p : Packet) (cross keep : Bool) :
    (s.injectFrom n pl p cross keep).imprint = s.imprint := by
  simp [State.injectFrom]

@[simp] theorem imprint_drainPort (n pl : Nat) (s : State) (d : Nat) :
    (State.drainPort n pl s d).imprint = s.imprint := by
  simp [State.drainPort]

@[simp] theorem imprint_portCycle (s : State) (n pl : Nat) : (s.portCycle n pl).imprint = s.imprint := by
  simp [State.portCycle]

@[simp] theorem imprint_leave (s : State) (n pl : Nat) (h : Header) : (s.leave n pl h).imprint = s.imprint := by
  simp [State.leave]

@[simp] theorem imprint_handUp (s : State) (n pl : Nat) (h : Header) :
    (s.handUp n pl h).imprint = s.imprint := by
  simp [State.handUp]

@[simp] theorem imprint_handPlain (s : State) (n pl : Nat) (h : Header) :
    (s.handPlain n pl h).imprint = s.imprint := by
  simp [State.handPlain]

@[simp] theorem imprint_transfer (s : State) (n pl q : Nat) (p : Packet) (kids : Option (List Port)) :
    (s.transfer n pl q p kids).imprint = s.imprint := by
  simp [State.transfer]

@[simp] theorem imprint_deflect (s : State) (n pl : Nat) (h : Header) :
    (s.deflect n pl h).imprint = s.imprint := by
  unfold State.deflect
  repeat' split
  all_goals simp

@[simp] theorem imprint_passDest (s : State) (n pl : Nat) (h : Header) :
    (s.passDest n pl h).imprint = s.imprint := by
  unfold State.passDest
  repeat' split
  all_goals simp

@[simp] theorem imprint_passRoute (s : State) (n pl d : Nat) (h : Header) :
    (s.passRoute n pl d h).imprint = s.imprint := by
  unfold State.passRoute
  dsimp only
  repeat' split
  all_goals simp

@[simp] theorem imprint_passCopy (s : State) (n pl : Nat) (h : Header) (pt : Port) :
    (s.passCopy n pl h pt).1.imprint = s.imprint := by
  unfold State.passCopy
  split
  · split
    · split
      · split <;> simp
      · split <;> simp
    · rfl
    · simp
    · split <;> simp
    · split <;> simp
  · split
    · simp
    · split <;> simp

@[simp] theorem imprint_passCopies (s : State) (n pl : Nat) (h : Header) (ps : List Port) :
    (s.passCopies n pl h ps).1.imprint = s.imprint := by
  induction ps generalizing s with
  | nil => rfl
  | cons pt rest ih => simp [State.passCopies, ih]

@[simp] theorem imprint_passTree_go (n pl : Nat) (h : Header) (s : State) (ks : List Port) :
    (State.passTree.go n pl h s ks).imprint = s.imprint := by
  unfold State.passTree.go
  dsimp only
  split <;> simp

@[simp] theorem imprint_passTree (s : State) (n pl : Nat) (h : Header) :
    (s.passTree n pl h).imprint = s.imprint := by
  unfold State.passTree
  dsimp only
  split <;> simp

@[simp] theorem imprint_passOne (n pl : Nat) (s : State) (h : Header) :
    (State.passOne n pl s h).imprint = s.imprint := by
  unfold State.passOne
  repeat' split
  all_goals simp

@[simp] theorem imprint_enterPlain (s : State) (n pl : Nat) : (s.enterPlain n pl).imprint = s.imprint := by
  unfold State.enterPlain
  split <;> simp

@[simp] theorem imprint_cutOff (f : Nat) (s : State) (n pl : Nat) (pt : Port) :
    (s.cutOff f n pl pt).imprint = s.imprint :=
  (wordsLost_cutOff f s n pl pt).only.imprint

@[simp] theorem imprint_cutLink (s : State) (n pl d : Nat) : (s.cutLink n pl d).imprint = s.imprint := by
  unfold State.cutLink
  dsimp only
  split <;> simp

@[simp] theorem imprint_loseSent (s : State) (n pl d : Nat) (f : WordSlot → Bool) :
    (s.loseSent n pl d f).imprint = s.imprint :=
  (wordsLost_loseSent s n pl d f).only.imprint

@[simp] theorem imprint_linkLost (s : State) (n pl d : Nat) : (s.linkLost n pl d).imprint = s.imprint := by
  unfold State.linkLost
  split <;> simp

@[simp] theorem imprint_linkBack (s : State) (n pl d : Nat) : (s.linkBack n pl d).imprint = s.imprint := by
  unfold State.linkBack
  split <;> simp

@[simp] theorem imprint_vertFailing (s : State) (n pl : Nat) : (s.vertFailing n pl).imprint = s.imprint := by
  simp [State.vertFailing]

@[simp] theorem imprint_crcFailure (s : State) (n pl : Nat) (pt : Port) (sl : BitVec 4) :
    (s.crcFailure n pl pt sl).imprint = s.imprint := by
  simp [State.crcFailure]

@[simp] theorem imprint_dropPlane (s : State) (n pl : Nat) : (s.dropPlane n pl).imprint = s.imprint := by
  simp [State.dropPlane]

/-! ## Clocks -/

@[simp] theorem imprint_loseRouterWords (s : State) (st : Nat) : (loseRouterWords s st).imprint = s.imprint := by
  simp [loseRouterWords]

@[simp] theorem imprint_loseDieWords (s : State) (st : Nat) : (loseDieWords s st).imprint = s.imprint := by
  simp [loseDieWords]

@[simp] theorem imprint_loseWords (s : State) (st d : Nat) : (loseWords s st d).imprint = s.imprint := by
  unfold loseWords
  repeat' split
  all_goals simp

@[simp] theorem imprint_countStretches (s : State) (st d : Nat) :
    (s.countStretches st d).imprint = s.imprint := by
  simp [State.countStretches]

@[simp] theorem imprint_oscEn (s : State) (st d : Nat) (on : Bool) : (s.oscEn st d on).imprint = s.imprint := by
  simp [State.oscEn]

@[simp] theorem imprint_linksBack (s : State) (st : Nat) (cross : Bool) (fails : List (Nat × Nat × Port)) :
    (s.linksBack st cross fails).imprint = s.imprint := by
  simp [State.linksBack]

@[simp] theorem imprint_oscLock (s : State) (st d : Nat) : (s.oscLock st d).imprint = s.imprint := by
  simp [State.oscLock]

@[simp] theorem imprint_moveRef (s : State) (st a : Nat) (counted : Bool) :
    (s.moveRef st a counted).imprint = s.imprint := by
  simp [State.moveRef]

@[simp] theorem imprint_refSwitch (s : State) (st : Nat) : (s.refSwitch st).imprint = s.imprint := by
  simp [State.refSwitch]

@[simp] theorem imprint_degrade (s : State) (st : Nat) : (s.degrade st).imprint = s.imprint := by
  simp [State.degrade]

@[simp] theorem imprint_holdover (s : State) (st : Nat) : (s.holdover st).imprint = s.imprint := by
  simp [State.holdover]

@[simp] theorem imprint_noteExtra (s : State) (st : Nat) : (s.noteExtra st).imprint = s.imprint := by
  simp [State.noteExtra]

@[simp] theorem imprint_noteCal (s : State) (st : Nat) : (s.noteCal st).imprint = s.imprint := by
  simp [State.noteCal]

@[simp] theorem imprint_failXing (s : State) (st : Nat) (f : Nat × Nat × Port) :
    (s.failXing st f).imprint = s.imprint := by
  simp [State.failXing]

@[simp] theorem imprint_stepCalFail (s : State) (st : Nat) (failed : Bool) :
    (s.stepCalFail st failed).imprint = s.imprint := by
  simp [State.stepCalFail]

@[simp] theorem imprint_le_calibrate {s : State} {x : Imprint} (h : x.Le s.imprint) (st : Nat) (fails : List (Nat ×
    Nat ×
    Port)) :
    x.Le (s.calibrate st fails).imprint := by
  simp [State.calibrate, h]

@[simp] theorem imprint_cal (s : State) (st : Nat) : (s.cal st).imprint = s.imprint := by
  simp [State.cal]

@[simp] theorem imprint_le_calEnd {s : State} {x : Imprint} (h : x.Le s.imprint) (st : Nat) (fails : List (Nat × Nat
    × Port))
    (offset : Nat) :
    x.Le (s.calEnd st fails offset).imprint := by
  unfold State.calEnd
  split <;> simp [h]

@[simp] theorem imprint_le_recalPort {s : State} {x : Imprint} (h : x.Le s.imprint) (st loc pl d : Nat) (failed :
    Bool) :
    x.Le (s.recalPort st loc pl d failed).imprint := by
  unfold State.recalPort
  split <;> simp [h]

@[simp] theorem imprint_recal (s : State) (st : Nat) : (s.recal st).imprint = s.imprint := by
  simp [State.recal]

@[simp] theorem imprint_slip (s : State) (st loc pl port : Nat) :
    (s.slip st loc pl port).imprint = s.imprint := by
  simp [State.slip]

@[simp] theorem imprint_xingWord (s : State) (st loc pl port : Nat) :
    (s.xingWord st loc pl port).imprint = s.imprint := by
  simp [State.xingWord]

@[simp] theorem imprint_arm (s : State) : s.arm.imprint = s.imprint := by
  unfold State.arm
  split <;> simp

@[simp] theorem imprint_switchDomains (s : State) (st : Nat) : (s.switchDomains st).imprint = s.imprint := by
  simp [State.switchDomains]

/-! ## Replay rings -/

@[simp] theorem imprint_setRing (s : State) (u i lo len v : Nat) :
    (s.setRing u i lo len v).imprint = s.imprint := by
  simp [State.setRing]

@[simp] theorem imprint_modRing (s : State) (u : Nat) (f : Ring → Ring) :
    (s.modRing u f).imprint = s.imprint := by
  simp [State.modRing]

@[simp] theorem imprint_dieSend (s : State) (u : Nat) (p : Packet) (own : Bool) :
    (s.dieSend u p own).imprint = s.imprint := by
  simp [State.dieSend]

@[simp] theorem imprint_ringNotice (s : State) (u code : Nat) : (s.ringNotice u code).imprint = s.imprint := by
  simp [State.ringNotice]

@[simp] theorem imprint_noteDurable (s : State) (u : Nat) : (s.noteDurable u).imprint = s.imprint := by
  simp [State.noteDurable]

@[simp] theorem imprint_record (s : State) (u : Nat) (p : Packet) : (s.record u p).imprint = s.imprint := by
  simp [State.record]

@[simp] theorem imprint_resetRing (s : State) (u : Nat) : (s.resetRing u).imprint = s.imprint := by
  simp [State.resetRing]

@[simp] theorem imprint_ringAck (s : State) (u : Nat) (key : Word) : (s.ringAck u key).imprint = s.imprint := by
  simp [State.ringAck]

@[simp] theorem imprint_ringLoss (s : State) (u : Nat) (key : Word) :
    (s.ringLoss u key).imprint = s.imprint := by
  unfold State.ringLoss
  split <;> simp

@[simp] theorem imprint_setRstatus (s : State) (u v : Nat) : (s.setRstatus u v).imprint = s.imprint := by
  simp [State.setRstatus]

@[simp] theorem imprint_ringRead (s : State) (u q b n : Nat) (left : Nat) (got : List Byte) :
    (s.ringRead u q b n left got).imprint = s.imprint := by
  simp [State.ringRead]

@[simp] theorem imprint_replayNext (s : State) (u q left : Nat) :
    (s.replayNext u q left).imprint = s.imprint := by
  simp [State.replayNext]

@[simp] theorem imprint_ringReplay (s : State) (u : Nat) : (s.ringReplay u).imprint = s.imprint := by
  simp [State.ringReplay]

@[simp] theorem imprint_ringStale (s : State) (u : Nat) : (s.ringStale u).imprint = s.imprint := by
  simp [State.ringStale]

@[simp] theorem imprint_ringData (s : State) (u : Nat) (d : List Byte) :
    (s.ringData u d).imprint = s.imprint := by
  unfold State.ringData
  split <;> simp

/-! ## Pass ports -/

@[simp] theorem imprint_setPort (s : State) (k v : Nat) : (s.setPort k v).imprint = s.imprint := by
  simp [State.setPort]

@[simp] theorem imprint_passNotice (s : State) (k code : Nat) (p : Option Packet) :
    (s.passNotice k code p).imprint = s.imprint := by
  simp [State.passNotice]

@[simp] theorem imprint_sendEnd (s : State) (k : Nat) : (s.sendEnd k).imprint = s.imprint := by
  simp [State.sendEnd]

@[simp] theorem imprint_dropEgress (s : State) (k : Nat) : (s.dropEgress k).imprint = s.imprint := by
  simp [State.dropEgress]

@[simp] theorem imprint_goDown (s : State) (k reason : Nat) : (s.goDown k reason).imprint = s.imprint := by
  simp [State.goDown]

@[simp] theorem imprint_pairDown (s : State) (k : Nat) : (s.pairDown k).imprint = s.imprint := by
  simp [State.pairDown]

@[simp] theorem imprint_pairUp (s : State) (k next : Nat) : (s.pairUp k next).imprint = s.imprint := by
  simp [State.pairUp]

@[simp] theorem imprint_portDown (s : State) (k reason : Nat) : (s.portDown k reason).imprint = s.imprint := by
  simp [State.portDown]

@[simp] theorem imprint_passTrain (s : State) (k : Nat) : (s.passTrain k).imprint = s.imprint := by
  simp [State.passTrain]

@[simp] theorem imprint_opticsOff (s : State) (k : Nat) (off : Bool) :
    (s.opticsOff k off).imprint = s.imprint := by
  simp [State.opticsOff]

@[simp] theorem imprint_q1Drop (s : State) (k n pl : Nat) (p : Packet) :
    (s.q1Drop k n pl p).imprint = s.imprint := by
  simp [State.q1Drop]

@[simp] theorem imprint_q1Purge (s : State) (k : Nat) : (s.q1Purge k).imprint = s.imprint := by
  simp [State.q1Purge]

@[simp] theorem imprint_noteFar (s : State) (k : Nat) (far : FarEnd) :
    (s.noteFar k far).imprint = s.imprint := by
  simp [State.noteFar]

@[simp] theorem imprint_passUp (s : State) (k : Nat) (far : FarEnd) : (s.passUp k far).imprint = s.imprint := by
  simp [State.passUp]

@[simp] theorem imprint_remap (s : State) (k : Nat) (lanes : List Nat) :
    (s.remap k lanes).imprint = s.imprint := by
  simp [State.remap]

@[simp] theorem imprint_failing (s : State) (k : Nat) : (s.failing k).imprint = s.imprint := by
  unfold State.failing
  repeat' split
  all_goals simp

@[simp] theorem imprint_txFails (s : State) (k : Nat) : (s.txFails k).imprint = s.imprint := by
  simp [State.txFails]

@[simp] theorem imprint_remapEnd (s : State) (k : Nat) (far : FarLanes) :
    (s.remapEnd k far).imprint = s.imprint := by
  simp [State.remapEnd]

@[simp] theorem imprint_frameAck (s : State) (k : Nat) (f : Frame) : (s.frameAck k f).imprint = s.imprint := by
  simp [State.frameAck]

@[simp] theorem imprint_frameBad (s : State) (k : Nat) (f : Frame) : (s.frameBad k f).imprint = s.imprint := by
  simp [State.frameBad]

@[simp] theorem imprint_takeCell (k : Nat) (s : State) (c : List Byte) :
    (State.takeCell k s c).imprint = s.imprint := by
  unfold State.takeCell
  split <;> simp

@[simp] theorem imprint_countRetry (s : State) (k : Nat) : (s.countRetry k).imprint = s.imprint := by
  simp [State.countRetry]

@[simp] theorem imprint_dieDrop (s : State) (k n pl : Nat) (p : Packet) (off lo len code : Nat) :
    (s.dieDrop k n pl p off lo len code).imprint = s.imprint := by
  simp [State.dieDrop]

@[simp] theorem imprint_toFibre (s : State) (k n pl : Nat) (p : Packet) :
    (s.toFibre k n pl p).imprint = s.imprint := by
  simp [State.toFibre]

@[simp] theorem imprint_linkEgress (s : State) (k n pl : Nat) (p : Packet) :
    (s.linkEgress k n pl p).imprint = s.imprint := by
  unfold State.linkEgress
  repeat' split
  all_goals simp

@[simp] theorem imprint_takeUp (s : State) (n pl : Nat) (p : Packet) :
    (s.takeUp n pl p).imprint = s.imprint := by
  unfold State.takeUp
  dsimp only
  repeat' split
  all_goals simp

/-! ## Guest bridges -/

@[simp] theorem imprint_guestNotice (s : State) (g code : Nat) (p : Option Packet) :
    (s.guestNotice g code p).imprint = s.imprint := by
  simp [State.guestNotice]

@[simp] theorem imprint_guestDrop (s : State) (g : Nat) (o : Offer) (n lo code : Nat) :
    (s.guestDrop g o n lo code).imprint = s.imprint := by
  simp [State.guestDrop]

@[simp] theorem imprint_guestStall (g : Nat) (s : State) (o : Offer) :
    (State.guestStall g s o).imprint = s.imprint := by
  simp [State.guestStall]

@[simp] theorem imprint_modMod (s : State) (g m : Nat) (f : GuestMod → GuestMod) :
    (s.modMod g m f).imprint = s.imprint := by
  simp [State.modMod]

@[simp] theorem imprint_guestHand (s : State) (g : Nat) : (s.guestHand g).imprint = s.imprint := by
  unfold State.guestHand
  split <;> simp

@[simp] theorem imprint_guestTake (s : State) (g pl : Nat) (p : Packet) :
    (s.guestTake g pl p).imprint = s.imprint := by
  simp [State.guestTake]

@[simp] theorem imprint_guestPurge (s : State) (g : Nat) : (s.guestPurge g).imprint = s.imprint := by
  simp [State.guestPurge]

@[simp] theorem imprint_guestTrain (s : State) (g : Nat) : (s.guestTrain g).imprint = s.imprint := by
  simp [State.guestTrain]

@[simp] theorem imprint_guestEnable (s : State) (g : Nat) (on : Bool) :
    (s.guestEnable g on).imprint = s.imprint := by
  simp [State.guestEnable]

@[simp] theorem imprint_guestRetrain (s : State) (g : Nat) : (s.guestRetrain g).imprint = s.imprint := by
  simp [State.guestRetrain]

@[simp] theorem imprint_noteAgreement (s : State) (st level step : Nat) (feat : Word) (trained : Bool) :
    (s.noteAgreement st level step feat trained).imprint = s.imprint := by
  simp [State.noteAgreement]

@[simp] theorem imprint_guestOcClear (s : State) (st : Nat) : (s.guestOcClear st).imprint = s.imprint := by
  simp [State.guestOcClear]

@[simp] theorem imprint_fordDrop (s : State) (g : Nat) (p : Packet) (cause : Nat) :
    (s.fordDrop g p cause).imprint = s.imprint := by
  unfold State.fordDrop
  split <;> simp

@[simp] theorem imprint_ford (s : State) (g : Nat) (p : Packet) : (s.ford g p).imprint = s.imprint := by
  unfold State.ford
  split <;> simp

@[simp] theorem imprint_bridgeHold (s : State) (g m : Nat) (held : Bool) :
    (s.bridgeHold g m held).imprint = s.imprint := by
  simp [State.bridgeHold]

@[simp] theorem imprint_dropModule (s : State) (g m : Nat) : (s.dropModule g m).imprint = s.imprint := by
  simp [State.dropModule]

@[simp] theorem imprint_guestCrcFailure (s : State) (g m : Nat) (sl : BitVec 4) :
    (s.guestCrcFailure g m sl).imprint = s.imprint := by
  simp [State.guestCrcFailure]

@[simp] theorem imprint_guestNak (s : State) (g m : Nat) (q : BitVec 4) :
    (s.guestNak g m q).imprint = s.imprint := by
  simp [State.guestNak]

@[simp] theorem imprint_guestSlot (s : State) (g m : Nat) (sl : SlotSeen) (hold : Bool) :
    (s.guestSlot g m sl hold).imprint = s.imprint := by
  unfold State.guestSlot
  repeat' split
  all_goals simp

/-! ## The ledger -/

@[simp] theorem imprint_countLgr (s : State) (n code : Nat) : (s.countLgr n code).imprint = s.imprint := by
  unfold State.countLgr
  split <;> simp

@[simp] theorem imprint_ledgerApply (s : State) (n pl : Nat) (p : Packet) (o : LOut) :
    (s.ledgerApply n pl p o).imprint = s.imprint := by
  simp [State.ledgerApply]

@[simp] theorem imprint_lgrApplied (s old : State) (n : Nat) : (s.lgrApplied old n).imprint = s.imprint := by
  simp [State.lgrApplied]

@[simp] theorem imprint_zeroDram (s : State) (n a len : Nat) : (s.zeroDram n a len).imprint = s.imprint := by
  simp [State.zeroDram]

/-! ## The state of a load -/

@[simp] theorem imprint_dropStaged (s : State) (k : Blk) : (s.dropStaged k).imprint = s.imprint := by
  simp [State.dropStaged]

@[simp] theorem imprint_discardBlk (s : State) (k : Blk) : (s.discardBlk k).imprint = s.imprint := by
  simp [State.discardBlk]

@[simp] theorem imprint_setRgnState (s : State) (r v : Nat) : (s.setRgnState r v).imprint = s.imprint := by
  simp [State.setRgnState]

@[simp] theorem imprint_imgFail (s : State) (code sec : Nat) (node : Option Nat) :
    (s.imgFail code sec node).imprint = s.imprint := by
  unfold State.imgFail
  split <;> simp

@[simp] theorem imprint_imgInterrupt (s : State) (lost : Nat → Bool) :
    (s.imgInterrupt lost).imprint = s.imprint := by
  simp [State.imgInterrupt]

/-! ## Power and heat -/

@[simp] theorem imprint_writeCap (s : State) (n : Nat) : (s.writeCap n).imprint = s.imprint := by
  simp [State.writeCap]

@[simp] theorem imprint_coreReset (s : State) (n : Nat) : (s.coreReset n).imprint = s.imprint := by
  simp [State.coreReset]

@[simp] theorem imprint_coreOff (s : State) (n : Nat) : (s.coreOff n).imprint = s.imprint := by
  simp [State.coreOff]

@[simp] theorem imprint_coreOn (s : State) (n : Nat) : (s.coreOn n).imprint = s.imprint := by
  simp [State.coreOn]

@[simp] theorem imprint_le_slicesOff {s : State} {x : Imprint} (h : x.Le s.imprint) (st : Nat) :
    x.Le (s.slicesOff st).imprint := by
  unfold State.slicesOff
  dsimp only
  rw [imprint_setField]
  refine imprint_le_foldl (fun s n hs => ?_) _ h
  simp [hs]

@[simp] theorem imprint_le_railsOff {s : State} {x : Imprint} (h : x.Le s.imprint) (st : Nat) :
    x.Le (s.railsOff st).imprint := by
  simp [State.railsOff, h]

@[simp] theorem imprint_fenceSite (s : State) (st : Nat) : (s.fenceSite st).imprint = s.imprint := by
  simp [State.fenceSite]

@[simp] theorem imprint_le_goDark {s : State} {x : Imprint} (h : x.Le s.imprint) (st : Nat) :
    x.Le (s.goDark st).imprint := by
  simp [State.goDark, h]

@[simp] theorem imprint_goCapped (s : State) (st : Nat) : (s.goCapped st).imprint = s.imprint := by
  simp [State.goCapped]

@[simp] theorem imprint_le_failPhase {s : State} {x : Imprint} (h : x.Le s.imprint) (st ph : Nat) :
    x.Le (s.failPhase st ph).imprint := by
  unfold State.failPhase
  dsimp only
  repeat' split
  all_goals simp [h]

@[simp] theorem imprint_hold (s : State) (st i : Nat) : (s.hold st i).imprint = s.imprint := by
  simp [State.hold]

@[simp] theorem imprint_shed (s : State) : s.shed.imprint = s.imprint := by
  unfold State.shed
  split <;> simp

@[simp] theorem imprint_warmOff (s : State) (f : Nat → Bool) : (s.warmOff f).imprint = s.imprint := by
  simp [State.warmOff]

@[simp] theorem imprint_enterW3 (s : State) : s.enterW3.imprint = s.imprint := by
  simp [State.enterW3]

@[simp] theorem imprint_enterW4 (s : State) : s.enterW4.imprint = s.imprint := by
  simp [State.enterW4]

@[simp] theorem imprint_updateLevel (s : State) : s.updateLevel.imprint = s.imprint := by
  simp [State.updateLevel]

theorem imprint_le_powerLoss (s : State) : s.imprint.Le s.powerLoss.imprint := ⟨rfl, rfl, Nat.le_succ _, le_refl _⟩

@[simp] theorem imprint_measureVin (s : State) (v : Nat) : (s.measureVin v).imprint = s.imprint := by
  simp [State.measureVin]

@[simp] theorem imprint_force (s : State) (f : Nat) : (s.force f).imprint = s.imprint := by
  simp [State.force]

@[simp] theorem imprint_pinLevel (s : State) : s.pinLevel.imprint = s.imprint := by
  simp [State.pinLevel]

@[simp] theorem imprint_holdClear (s : State) (st : Nat) (v : Word) :
    (s.holdClear st v).imprint = s.imprint := by
  simp [State.holdClear]

@[simp] theorem imprint_trip (s : State) : s.trip.imprint = s.imprint := by
  simp [State.trip]

@[simp] theorem imprint_reportTemps (s : State) (st : Nat) (temps : List (BitVec 8)) :
    (s.reportTemps st temps).imprint = s.imprint := by
  simp [State.reportTemps]

@[simp] theorem imprint_noticeSteward (s : State) (q code : Nat) :
    (s.noticeSteward q code).imprint = s.imprint := by
  simp [State.noticeSteward]

@[simp] theorem imprint_le_predict {s : State} {x : Imprint} (h : x.Le s.imprint) (q : Nat) :
    x.Le (s.predict q).imprint := by
  simp [State.predict, h]

@[simp] theorem imprint_setThermalCap (s : State) (q n c : Nat) :
    (s.setThermalCap q n c).imprint = s.imprint := by
  simp [State.setThermalCap]

@[simp] theorem imprint_throttle (s : State) (q : Nat) : (s.throttle q).imprint = s.imprint := by
  unfold State.throttle
  dsimp only
  repeat' split
  all_goals simp

@[simp] theorem imprint_siteHeat (q : Nat) (s : State) (st : Nat) : (State.siteHeat q s st).imprint = s.imprint := by
  simp [State.siteHeat]

@[simp] theorem imprint_le_warmSite {s : State} {x : Imprint} (h : x.Le s.imprint) (q : Nat) (st : Nat) :
    x.Le (State.warmSite q s st).imprint := by
  simp [State.warmSite, h]

@[simp] theorem imprint_tripClear (s : State) : s.tripClear.imprint = s.imprint := by
  simp [State.tripClear]

@[simp] theorem imprint_pollModule (answers : List ModuleAnswer) (s : State) (m : Nat) :
    (State.pollModule answers s m).imprint = s.imprint := by
  simp [State.pollModule]

@[simp] theorem imprint_pmbusXact (s : State) (v : Word) : (s.pmbusXact v).imprint = s.imprint := by
  simp [State.pmbusXact]

/-! ## Commits -/

@[simp] theorem imprint_stage (s : State) (k : Blk) (off : Nat) (m v : Word) :
    (s.stage k off m v).imprint = s.imprint := by
  simp [State.stage]

@[simp] theorem imprint_plainWrite (s : State) (k : Blk) (off : Nat) (i : RegInfo) (v : Word) :
    (s.plainWrite k off i v).imprint = s.imprint := by
  simp [State.plainWrite]

@[simp] theorem imprint_le_rtrApplied {s : State} {x : Imprint} (h : x.Le s.imprint) (old : State) (n : Nat) :
    x.Le (s.rtrApplied old n).imprint := by
  unfold State.rtrApplied
  dsimp only
  split
  · simpa using h
  · refine imprint_le_foldl (fun s i hs => ?_) _ (by simpa using h)
    split
    · exact imprint_le_recalPort hs _ _ _ _ _
    · exact hs

@[simp] theorem imprint_vnetRise (s : State) (f : Nat) : (s.vnetRise f).imprint = s.imprint := by
  rw [vnetRise_frame]
  rfl

@[simp] theorem imprint_vnetFall (s : State) (f : Nat) : (s.vnetFall f).imprint = s.imprint := by
  simp [State.vnetFall]

@[simp] theorem imprint_pwrApplied (s old : State) : (s.pwrApplied old).imprint = s.imprint := by
  rw [pwrApplied_eq]
  refine imprint_foldl (fun s f => ?_) _ _
  rw [vnetStep_eq]
  simp

@[simp] theorem imprint_ringApplied (s old : State) (u : Nat) : (s.ringApplied old u).imprint = s.imprint := by
  simp [State.ringApplied]

@[simp] theorem imprint_passApplied (s old : State) (k : Nat) : (s.passApplied old k).imprint = s.imprint := by
  simp [State.passApplied]

@[simp] theorem imprint_domApplied (s old : State) : (s.domApplied old).imprint = s.imprint := by
  simp [State.domApplied]

@[simp] theorem imprint_guestRailOff (s : State) (st : Nat) : (s.guestRailOff st).imprint = s.imprint := by
  unfold State.guestRailOff
  split <;> simp

@[simp] theorem imprint_le_sitePwrApplied {s : State} {x : Imprint} (h : x.Le s.imprint) (old : State) (st : Nat) :
    x.Le (s.sitePwrApplied old st).imprint := by
  unfold State.sitePwrApplied
  dsimp only
  split
  · refine imprint_le_foldl (fun s ph hs => ?_) _ ?_
    · split <;> simp [hs]
    · repeat' split
      all_goals simp [h]
  · repeat' split
    all_goals simp [h]

@[simp] theorem imprint_le_applied {s : State} {x : Imprint} (h : x.Le s.imprint) (old : State) (k : Blk) :
    x.Le (s.applied old k).imprint := by
  unfold State.applied
  split <;> simp [h]

@[simp] theorem imprint_activate (s : State) (k : Blk) : (s.activate k).imprint = s.imprint := by
  simp [State.activate]

@[simp] theorem imprint_le_go {s : State} {x : Imprint} (h : x.Le s.imprint) (k : Blk) : x.Le (s.go k).imprint := by
  unfold State.go
  split
  · simp [h]
  · split
    · simp [h]
    · split <;> simp [h]

@[simp] theorem imprint_le_goSite {s : State} {x : Imprint} (h : x.Le s.imprint) (st : Nat) : x.Le (s.goSite
    st).imprint := by
  unfold State.goSite
  dsimp only
  split
  · simp [h]
  · split
    · exact imprint_le_foldl (fun t k ht => imprint_le_applied (by simpa using ht) _ _) _ h
    · simp [h]

@[simp] theorem imprint_le_writeCommit {s : State} {x : Imprint} (h : x.Le s.imprint) (k : Blk) (v : Word) :
    x.Le (s.writeCommit k v).imprint := by
  unfold State.writeCommit
  repeat' split
  all_goals simp [h]

@[simp] theorem imprint_le_writeCommitSite {s : State} {x : Imprint} (h : x.Le s.imprint) (st : Nat) (v : Word) :
    x.Le (s.writeCommitSite st v).imprint := by
  unfold State.writeCommitSite
  repeat' split
  all_goals simp [h]

/-! ## Panel images -/

@[simp] theorem imprint_modImg (s : State) (f : ImgEngine → ImgEngine) : (s.modImg f).imprint = s.imprint := by
  simp [State.modImg]

@[simp] theorem imprint_secFail (s : State) (code : Nat) (node : Option Nat) :
    (s.secFail code node).imprint = s.imprint := by
  simp [State.secFail]

@[simp] theorem imprint_imgOffer (s : State) (n : Nat) (p : Packet) : (s.imgOffer n p).imprint = s.imprint := by
  simp [State.imgOffer]

@[simp] theorem imprint_imgLoose (s : State) (n : Nat) (p : Packet) : (s.imgLoose n p).imprint = s.imprint := by
  simp [State.imgLoose]

@[simp] theorem imprint_sendUnicast (s : State) (cc off : Nat) (d : List Byte) (t : Nat) :
    (s.sendUnicast cc off d t).imprint = s.imprint := by
  simp [State.sendUnicast]

@[simp] theorem imprint_sendTree (s : State) (cc off : Nat) (d : List Byte) (root t : Nat) :
    (s.sendTree cc off d root t).imprint = s.imprint := by
  simp [State.sendTree]

@[simp] theorem imprint_sendPiece (s : State) (cc off : Nat) (d : List Byte) (tree : Option (Nat × Nat)) (ts : List
    Nat) :
    (s.sendPiece cc off d tree ts).imprint = s.imprint := by
  unfold State.sendPiece
  dsimp only
  repeat' split
  all_goals simp

@[simp] theorem imprint_sendDram (s : State) (n off : Nat) (d : List Byte) :
    (s.sendDram n off d).imprint = s.imprint := by
  simp [State.sendDram]

@[simp] theorem imprint_touch (s : State) (applied : Bool) (k : Blk) :
    (s.touch applied k).imprint = s.imprint := by
  simp [State.touch]

@[simp] theorem imprint_recordWrite (s : State) (off : Nat) (v : Word) (k : Blk) :
    (s.recordWrite off v k).imprint = s.imprint := by
  unfold State.recordWrite
  split <;> simp

@[simp] theorem imprint_recordAct (s : State) (ty : Nat) (a v : Word) : (s.recordAct ty a v).imprint = s.imprint := by
  unfold State.recordAct
  dsimp only
  split
  · simp
  · split
    · simp
    · split
      · simp
      · split
        · simp
        · split
          · simp
          · split <;> simp

@[simp] theorem imprint_le_commitRecords {s : State} {x : Imprint} (h : x.Le s.imprint) (l : List (Blk × Bool × Nat)) :
    x.Le (s.commitRecords l).imprint := by
  induction l generalizing s with
  | nil => exact h
  | cons c rest ih =>
    have h0 : x.Le (if c.1.kind = .lgr then
        (s.recordWrite 0x18 (s.reg bImg 0x80) c.1).recordWrite 0x20 (s.reg bImg 0x88) c.1 else s).imprint := by
      simpa using h
    unfold State.commitRecords
    dsimp only
    generalize (if c.1.kind = .lgr then _ else s) = s0 at h0 ⊢
    have h1 : x.Le (if c.2.1 then s0.goSite (siteOf c.2.2) else s0.go c.1).imprint := by
      split
      · exact imprint_le_goSite h0 _
      · exact imprint_le_go h0 _
    generalize (if c.2.1 then s0.goSite (siteOf c.2.2) else s0.go c.1) = s1 at h1 ⊢
    split
    · simpa using h1
    · exact ih (by simpa using h1)

@[simp] theorem imprint_le_recordsEnd {s : State} {x : Imprint} (h : x.Le s.imprint) (ty : Nat) :
    x.Le (s.recordsEnd ty).imprint := by
  unfold State.recordsEnd
  dsimp only
  repeat' split
  all_goals simp [h]

@[simp] theorem imprint_siteMapQuad (s : State) (l : Nat) (v : Word) : (s.siteMapQuad l v).imprint = s.imprint := by
  simp [State.siteMapQuad]

@[simp] theorem imprint_le_siteMapEnd {s : State} {x : Imprint} (h : x.Le s.imprint) : x.Le s.siteMapEnd.imprint := by
  unfold State.siteMapEnd
  split <;> simp [h]

@[simp] theorem imprint_advanceGen (s : State) (r : Nat) : (s.advanceGen r).imprint = s.imprint := by
  simp [State.advanceGen]

@[simp] theorem imprint_writeRegion (s : State) (r : Nat) : (s.writeRegion r).imprint = s.imprint := by
  simp [State.writeRegion]

@[simp] theorem imprint_firstGen (s : State) (r : Nat) : (s.firstGen r).imprint = s.imprint := by
  simp [State.firstGen]

@[simp] theorem imprint_regionsEnd (s : State) : s.regionsEnd.imprint = s.imprint := by
  unfold State.regionsEnd
  dsimp only
  repeat' split
  all_goals simp

@[simp] theorem imprint_writeEntry (s : State) (entry t : Nat) : (s.writeEntry entry t).imprint = s.imprint := by
  unfold State.writeEntry
  split <;> simp

@[simp] theorem imprint_programAct (s : State) (r : Nat) (p : Program) :
    (s.programAct r p).imprint = s.imprint := by
  unfold State.programAct
  dsimp only
  repeat' split
  all_goals simp

@[simp] theorem imprint_tileAct (s : State) (r : Nat) (t : TileRec) : (s.tileAct r t).imprint = s.imprint := by
  unfold State.tileAct
  dsimp only
  split <;> simp

@[simp] theorem imprint_headAct (s : State) (e : Section) : (s.headAct e).imprint = s.imprint := by
  simp [State.headAct]

@[simp] theorem imprint_placementAct (s : State) (q : Word) : (s.placementAct q).imprint = s.imprint := by
  simp [State.placementAct]

@[simp] theorem imprint_itemAct (s : State) (e : Section) (o : Nat) : (s.itemAct e o).imprint = s.imprint := by
  unfold State.itemAct
  dsimp only
  split <;> simp

theorem imprint_sectionStep {s t : State} {e : Section} (h : sectionStep s e = some t) : t.imprint = s.imprint := by
  unfold sectionStep at h
  dsimp only at h
  repeat' split at h
  all_goals first | contradiction | (cases h; simp)

@[simp] theorem imprint_sectionRun (e : Section) (f : Nat) (s : State) : (s.sectionRun e f).imprint = s.imprint := by
  induction f generalizing s with
  | zero => rfl
  | succ f ih =>
    unfold State.sectionRun
    split
    case h_1 t ht => rw [ih, imprint_sectionStep ht]
    case h_2 => rfl

@[simp] theorem imprint_le_sectionEnd {s : State} {x : Imprint} (h : x.Le s.imprint) (e : Section) :
    x.Le (s.sectionEnd e).imprint := by
  unfold State.sectionEnd
  dsimp only
  repeat' split
  all_goals simp [h]

@[simp] theorem imprint_setConsumed (s : State) (c : Nat) : (s.setConsumed c).imprint = s.imprint := by
  simp [State.setConsumed]

@[simp] theorem imprint_imgClear (s : State) (n : Nat) : (s.imgClear n).imprint = s.imprint := by
  simp [State.imgClear]

@[simp] theorem imprint_headerEnd (s : State) : s.headerEnd.imprint = s.imprint := by
  unfold State.headerEnd
  dsimp only
  repeat' split
  all_goals simp

@[simp] theorem imprint_toSection (s : State) (i : Nat) : (s.toSection i).imprint = s.imprint := by
  simp [State.toSection]

theorem imprint_eat {s t : State} {k : Nat} {b : List Byte} (h : s.eat k = some (b, t)) : t.imprint = s.imprint := by
  unfold State.eat at h
  dsimp only at h
  split at h
  · contradiction
  · cases h
    simp

theorem imprint_le_imgStep {s t : State} {x : Imprint} (hs : x.Le s.imprint) (h : imgStep s = some t) : x.Le
    t.imprint := by
  unfold imgStep at h
  dsimp only at h
  split at h
  case isTrue => contradiction
  case isFalse =>
    split at h
    case isTrue =>
      split at h
      case h_1 => contradiction
      case h_2 he =>
        cases h
        simp [imprint_eat he, hs]
    case isFalse =>
      split at h
      case isTrue =>
        cases h
        simp [hs]
      case isFalse =>
        split at h
        case isTrue =>
          cases h
          simp [hs]
        case isFalse =>
          split at h
          case isTrue =>
            split at h
            case h_1 => contradiction
            case h_2 he =>
              cases h
              have hb := imprint_eat he
              split <;> simp [hb, hs]
          case isFalse =>
            split at h
            case isTrue =>
              obtain ⟨⟨b, u⟩, he, rfl⟩ := Option.map_eq_some_iff.1 h
              simpa [imprint_eat he] using hs
            case isFalse =>
              cases h
              simp [hs]

@[simp] theorem imprint_le_imgRun (f : Nat) {s : State} {x : Imprint} (h : x.Le s.imprint) : x.Le (s.imgRun
    f).imprint := by
  induction f generalizing s with
  | zero => exact h
  | succ f ih =>
    unfold State.imgRun
    split
    case h_1 t ht => exact ih (imprint_le_imgStep h ht)
    case h_2 => exact h

@[simp] theorem imprint_le_imgData {s : State} {x : Imprint} (h : x.Le s.imprint) (chunk : List Byte) :
    x.Le (s.imgData chunk).imprint := by
  unfold State.imgData
  split <;> simp [h]

@[simp] theorem imprint_imgBegin (s : State) (v : Word) : (s.imgBegin v).imprint = s.imprint := by
  simp [State.imgBegin]

@[simp] theorem imprint_imgAbort (s : State) : s.imgAbort.imprint = s.imprint := by
  simp [State.imgAbort]

@[simp] theorem imprint_le_commitCore {s : State} {x : Imprint} (h : x.Le s.imprint) (n : Nat) (l : List (Nat × Word)) :
    x.Le (s.commitCore n l).imprint := by
  refine imprint_le_go (imprint_le_foldl (fun s e hs => ?_) _ h) _
  split <;> simp [hs]

@[simp] theorem imprint_le_joinCore {s : State} {x : Imprint} (h : x.Le s.imprint) (r n : Nat) :
    x.Le (s.joinCore r n).imprint := by
  unfold State.joinCore
  repeat' split
  all_goals simp [h]

@[simp] theorem imprint_imgStart (s : State) : s.imgStart.imprint = s.imprint := by
  unfold State.imgStart
  dsimp only
  generalize started : List.foldl _ s (sortNats s.lead.img.targets) = s1
  have h1 : s1.imprint = s.imprint := by
    rw [← started]
    refine imprint_foldl (fun s t => ?_) _ _
    split
    · rfl
    · split <;> simp
  split <;> simp [h1]

@[simp] theorem imprint_imgMatched (s : State) : s.imgMatched.imprint = s.imprint := by
  simp [State.imgMatched]

@[simp] theorem imprint_loadShort (s : State) (t : Nat) : (s.loadShort t).imprint = s.imprint := by
  simp [State.loadShort]

@[simp] theorem imprint_enterRepair (s : State) (short : List Nat) :
    (s.enterRepair short).imprint = s.imprint := by
  simp [State.enterRepair]

@[simp] theorem imprint_loadCheck (s : State) : s.loadCheck.imprint = s.imprint := by
  unfold State.loadCheck
  dsimp only
  split <;> simp

@[simp] theorem imprint_imgRelease (s : State) : s.imgRelease.imprint = s.imprint := by
  simp [State.imgRelease]

@[simp] theorem imprint_imgAck (s : State) (key : Word) : (s.imgAck key).imprint = s.imprint := by
  simp [State.imgAck]

@[simp] theorem imprint_imgCredit (s : State) (p : Packet) : (s.imgCredit p).imprint = s.imprint := by
  simp [State.imgCredit]

@[simp] theorem imprint_attest (s : State) : s.attest.imprint = s.imprint := by
  simp [State.attest]

@[simp] theorem imprint_writeImgCtl (s : State) (v : Word) : (s.writeImgCtl v).imprint = s.imprint := by
  simp [State.writeImgCtl]

/-! ## Bring-up and recovery -/

@[simp] theorem imprint_bondStart (s : State) (st : Nat) : (s.bondStart st).imprint = s.imprint := by
  simp [State.bondStart]

@[simp] theorem imprint_trainBond (s : State) (st : Nat) : (s.trainBond st).imprint = s.imprint := by
  simp [State.trainBond]

@[simp] theorem imprint_trainDram (s : State) (st : Nat) : (s.trainDram st).imprint = s.imprint := by
  simp [State.trainDram]

@[simp] theorem imprint_setRom (s : State) (r : Rom) : (s.setRom r).imprint = s.imprint := by
  simp [State.setRom]

@[simp] theorem imprint_bootPort (s : State) (k : Nat) : (s.bootPort k).imprint = s.imprint := by
  simp [State.bootPort]

@[simp] theorem imprint_romNext (s : State) : s.romNext.imprint = s.imprint := by
  unfold State.romNext
  split <;> simp

@[simp] theorem imprint_bondFailed (s : State) (st : Nat) (l : List (Nat × Nat)) :
    (s.bondFailed st l).imprint = s.imprint := by
  simp [State.bondFailed]

@[simp] theorem imprint_le_bootVnet {s : State} {x : Imprint} (h : x.Le s.imprint) : x.Le s.bootVnet.imprint := by
  simp [State.bootVnet, h]

@[simp] theorem imprint_le_bootPower {s : State} {x : Imprint} (h : x.Le s.imprint) (st : Nat) :
    x.Le (s.bootPower st).imprint := by
  simp [State.bootPower, h]

@[simp] theorem imprint_setFw (s : State) (st reason : Nat) : (s.setFw st reason).imprint = s.imprint := by
  simp [State.setFw]

@[simp] theorem imprint_fwBegin (s : State) : s.fwBegin.imprint = s.imprint := by
  simp [State.fwBegin]

@[simp] theorem imprint_fwAbort (s : State) : s.fwAbort.imprint = s.imprint := by
  simp [State.fwAbort]

@[simp] theorem imprint_writeFwCtl (s : State) (v : Word) : (s.writeFwCtl v).imprint = s.imprint := by
  simp [State.writeFwCtl]

@[simp] theorem imprint_fwConsume (s : State) : s.fwConsume.imprint = s.imprint := by
  simp [State.fwConsume]

@[simp] theorem imprint_fwData (s : State) (chunk : List Byte) : (s.fwData chunk).imprint = s.imprint := by
  simp [State.fwData]

@[simp] theorem imprint_le_rejoin {s : State} {x : Imprint} (h : x.Le s.imprint) (n : Nat) :
    x.Le (s.rejoin n).imprint := by
  unfold State.rejoin
  split <;> simp [h]

@[simp] theorem imprint_le_computeReset {s : State} {x : Imprint} (h : x.Le s.imprint) (v : Word) :
    x.Le (s.computeReset v).imprint := by
  unfold State.computeReset
  split
  · exact h
  · dsimp only
    split
    · simpa using h
    · simp only [imprint_modLead]
      exact imprint_le_foldl (fun s n hs => imprint_le_rejoin (by simpa using hs) _) _ (by simp [h])

@[simp] theorem imprint_noteSample (s : State) (q : Nat) : (s.noteSample q).imprint = s.imprint := by
  simp [State.noteSample]

@[simp] theorem imprint_noteEvent (q : Nat) (s : State) (e : Event) : (State.noteEvent q s e).imprint = s.imprint := by
  simp [State.noteEvent]

@[simp] theorem imprint_stopRegion (s : State) (r : Nat) (nodes : List Nat) :
    (s.stopRegion r nodes).imprint = s.imprint := by
  simp [State.stopRegion]

@[simp] theorem imprint_le_askReset {s : State} {x : Imprint} (h : x.Le s.imprint) (q : Nat) (r : Nat) :
    x.Le (State.askReset q s r).imprint := by
  simp [State.askReset, h]

@[simp] theorem imprint_le_applyPolicies {s : State} {x : Imprint} (h : x.Le s.imprint) (q : Nat) (es : List Event) :
    x.Le (s.applyPolicies q es).imprint := by
  unfold State.applyPolicies
  exact imprint_le_foldl (fun s r hs => imprint_le_askReset hs _ _) _ (by simp [h])

@[simp] theorem imprint_drainSample (s : State) : s.drainSample.imprint = s.imprint := by
  simp [State.drainSample]

/-! ## Register writes -/

@[simp] theorem imprint_plain (s : State) (k : Blk) (off : Nat) (v : Word) :
    (s.plain k off v).imprint = s.imprint := by
  unfold State.plain
  split <;> simp

@[simp] theorem imprint_writeCore (s : State) (n off : Nat) (v : Word) :
    (s.writeCore n off v).imprint = s.imprint := by
  simp [State.writeCore]

@[simp] theorem imprint_le_writeStw {s : State} {x : Imprint} (h : x.Le s.imprint) (q off : Nat) (v : Word) :
    x.Le (s.writeStw q off v).imprint := by
  unfold State.writeStw
  repeat' split
  all_goals simp [h]

@[simp] theorem imprint_le_writeImg {s : State} {x : Imprint} (h : x.Le s.imprint) (off : Nat) (v : Word) :
    x.Le (s.writeImg off v).imprint := by
  unfold State.writeImg
  repeat' split
  all_goals simp [h]

@[simp] theorem imprint_writePwr (s : State) (off : Nat) (v : Word) :
    (s.writePwr off v).imprint = s.imprint := by
  simp [State.writePwr]

@[simp] theorem imprint_writePassCtl (s : State) (k : Nat) (v : Word) :
    (s.writePassCtl k v).imprint = s.imprint := by
  simp [State.writePassCtl]

@[simp] theorem imprint_writeReplay (s : State) (u off : Nat) (v : Word) :
    (s.writeReplay u off v).imprint = s.imprint := by
  simp [State.writeReplay]

@[simp] theorem imprint_writeClk (s : State) (st off : Nat) (v : Word) :
    (s.writeClk st off v).imprint = s.imprint := by
  simp [State.writeClk]

@[simp] theorem imprint_writeMisc (s : State) (st off : Nat) (v : Word) :
    (s.writeMisc st off v).imprint = s.imprint := by
  simp [State.writeMisc]

@[simp] theorem imprint_writeFord (s : State) (g off : Nat) (v : Word) :
    (s.writeFord g off v).imprint = s.imprint := by
  simp [State.writeFord]

@[simp] theorem imprint_le_writeBlk {s : State} {x : Imprint} (h : x.Le s.imprint) (k : Blk) (off : Nat) (v : Word) :
    x.Le (s.writeBlk k off v).imprint := by
  unfold State.writeBlk
  repeat' split
  all_goals simp [h]

@[simp] theorem imprint_le_writePlace {s : State} {x : Imprint} (h : x.Le s.imprint) (p : Place) (v : Word) :
    x.Le (s.writePlace p v).imprint := by
  unfold State.writePlace
  split
  · exact imprint_le_writeBlk h _ _ _
  · split
    · exact imprint_le_writeCommitSite h _ _
    · exact imprint_le_foldl (fun s k hs => imprint_le_writeBlk hs _ _ _) _ h
  · simpa using h
  · simpa using h
  · exact h

@[simp] theorem imprint_le_writeRegs {s : State} {x : Imprint} (h : x.Le s.imprint) (sp n off : Nat) (vs : List Word) :
    x.Le (s.writeRegs sp n off vs).1.imprint := by
  induction vs generalizing s off with
  | nil => exact h
  | cons v rest ih =>
    unfold State.writeRegs
    split
    · refine ih ?_ _
      split <;> simp [h]
    · exact ih h _

/-! ## Link dies -/

@[simp] theorem imprint_farAnswer (s : State) (k : Nat) (q : Option Packet) :
    (s.farAnswer k q).imprint = s.imprint := by
  unfold State.farAnswer
  split <;> simp

@[simp] theorem imprint_le_farServe {s : State} {x : Imprint} (h : x.Le s.imprint) (k : Nat) (p : Packet) :
    x.Le (s.farServe k p).imprint := by
  unfold State.farServe
  dsimp only
  repeat' split
  all_goals simp [h]

@[simp] theorem imprint_refuseIn (s : State) (k : Nat) (p : Packet) (off lo len code : Nat) :
    (s.refuseIn k p off lo len code).imprint = s.imprint := by
  simp [State.refuseIn]

@[simp] theorem imprint_takeIngress (s : State) (k : Nat) (p : Packet) :
    (s.takeIngress k p).1.imprint = s.imprint := by
  unfold State.takeIngress
  split <;> simp

@[simp] theorem imprint_le_linkIngress {s : State} {x : Imprint} (h : x.Le s.imprint) (k : Nat) (p : Packet) (frames
    : Nat) :
    x.Le (s.linkIngress k p frames).imprint := by
  unfold State.linkIngress
  dsimp only
  repeat' split
  all_goals simp [h]

@[simp] theorem imprint_takeSite (s : State) (st : Nat) (p : Packet) :
    (s.takeSite st p).imprint = s.imprint := by
  unfold State.takeSite
  split <;> simp

/-! ## The control port -/

@[simp] theorem imprint_le_serviceAccess {s : State} {x : Imprint} (h : x.Le s.imprint) (p : Packet) :
    x.Le (s.serviceAccess p).imprint := by
  unfold State.serviceAccess
  dsimp only
  repeat' split
  all_goals simp [h]

@[simp] theorem imprint_le_bridgeTake {s : State} {x : Imprint} (h : x.Le s.imprint) (p : Packet) :
    x.Le (s.bridgeTake p).imprint := by
  unfold State.bridgeTake
  dsimp only
  repeat' split
  all_goals simp [h]

@[simp] theorem imprint_stewardResponse (s : State) (p : Packet) :
    (s.stewardResponse p).imprint = s.imprint := by
  unfold State.stewardResponse
  dsimp only
  repeat' split
  all_goals simp

@[simp] theorem imprint_ctlEgress (s : State) (p : Packet) : (s.ctlEgress p).imprint = s.imprint := by
  simp [State.ctlEgress]

@[simp] theorem imprint_takeReply (s : State) (p : Packet) : (s.takeReply p).imprint = s.imprint := by
  simp [State.takeReply]

@[simp] theorem imprint_takeNotice (s : State) (p : Packet) : (s.takeNotice p).imprint = s.imprint := by
  simp [State.takeNotice]

/-! ## Packets at their destination -/

@[simp] theorem imprint_answer (s : State) (n pl : Nat) (pt : Port) (p q : Packet) :
    (s.answer n pl pt p q).imprint = s.imprint := by
  unfold State.answer
  dsimp only
  repeat' split
  all_goals simp

@[simp] theorem imprint_answer? (s : State) (n pl : Nat) (pt : Port) (p : Packet) (q : Option Packet) :
    (s.answer? n pl pt p q).imprint = s.imprint := by
  unfold State.answer?
  split <;> simp

@[simp] theorem imprint_noticeAt (s : State) (n code : Nat) (p : Packet) :
    (s.noticeAt n code p).imprint = s.imprint := by
  simp [State.noticeAt]

@[simp] theorem imprint_discardAt (s : State) (n pl : Nat) (pt : Port) (p : Packet) (code : Nat) :
    (s.discardAt n pl pt p code).imprint = s.imprint := by
  simp [State.discardAt]

@[simp] theorem imprint_notTaken (s : State) (n pl : Nat) (pt : Port) (p : Packet) :
    (s.notTaken n pl pt p).imprint = s.imprint := by
  unfold State.notTaken
  dsimp only
  repeat' split
  all_goals simp

@[simp] theorem imprint_genDrop (s : State) (n : Nat) (p : Packet) : (s.genDrop n p).imprint = s.imprint := by
  simp [State.genDrop]

@[simp] theorem imprint_atCore (s : State) (n pl : Nat) (p : Packet) {f : State → State}
    (h : ∀ s, (f s).imprint = s.imprint) : (s.atCore n pl p f).imprint = s.imprint := by
  simp [State.atCore, h]

@[simp] theorem imprint_le_regStore {s : State} {x : Imprint} (h : x.Le s.imprint) (n pl : Nat) (pt : Port) (p :
    Packet) :
    x.Le (s.regStore n pl pt p).imprint := by
  unfold State.regStore
  dsimp only
  repeat' split
  all_goals simp [h]

@[simp] theorem imprint_le_regLoad {s : State} {x : Imprint} (h : x.Le s.imprint) (n pl : Nat) (pt : Port) (p :
    Packet) :
    x.Le (s.regLoad n pl pt p).imprint := by
  unfold State.regLoad
  split <;> simp [h]

@[simp] theorem imprint_le_spaceStore {s : State} {x : Imprint} (h : x.Le s.imprint) (n pl : Nat) (pt : Port) (p :
    Packet) :
    x.Le (s.spaceStore n pl pt p).imprint := by
  unfold State.spaceStore
  repeat' split
  all_goals simp [h]

@[simp] theorem imprint_memStore (s : State) (n pl : Nat) (p : Packet) :
    (s.memStore n pl p).imprint = s.imprint := by
  simp [State.memStore]

@[simp] theorem imprint_memLoad (s : State) (n pl : Nat) (p : Packet) :
    (s.memLoad n pl p).imprint = s.imprint := by
  simp [State.memLoad]

@[simp] theorem imprint_memLand (s : State) (n pl : Nat) (p : Packet) :
    (s.memLand n pl p).imprint = s.imprint := by
  simp [State.memLand]

@[simp] theorem imprint_coreCredit (s : State) (n : Nat) (p : Packet) :
    (s.coreCredit n p).imprint = s.imprint := by
  simp [State.coreCredit]

@[simp] theorem imprint_coreReduce (s : State) (n pl : Nat) (p : Packet) :
    (s.coreReduce n pl p).imprint = s.imprint := by
  unfold State.coreReduce
  dsimp only
  repeat' split
  all_goals simp

theorem imprint_ringResponse {s t : State} {u : Nat} {p : Packet} (h : s.ringResponse u p = some t) :
    t.imprint = s.imprint := by
  unfold State.ringResponse at h
  dsimp only at h
  repeat' split at h
  all_goals first | contradiction | (cases h; simp)

@[simp] theorem imprint_ringResponse_getD {s t : State} (u : Nat) (p : Packet) (ht : t.imprint = s.imprint) :
    ((s.ringResponse u p).getD t).imprint = s.imprint := by
  cases h : s.ringResponse u p with
  | none => exact ht
  | some r => exact imprint_ringResponse h

@[simp] theorem imprint_portResponse (s : State) (n pl : Nat) (p : Packet) :
    (s.portResponse n pl p).imprint = s.imprint := by
  unfold State.portResponse
  dsimp only
  split
  · simp
  · split
    · simp
    · split
      · simp
      · split <;> simp

end Sys2Proof.Machine
end

section
/-! SUPPORT. What each command answers: the next state where its unit is there and its operands are in range, and in it
the imprint of the panel (R14, R15, R17, R18, R20 to R22). -/

namespace Sys2Proof.Machine

/-- What a command answers that can be given where b holds: the next state, which keeps to the imprint; else it is
    refused
for its unit. -/
structure Gives (b : Bool) (s : State) (r : Res) : Prop where
  next : b = true → ∃ t, r = .next t ∧ s.imprint.Le t.imprint
  refused : b = false → r = .refused .noSuchUnit

theorem gives_next {s t : State} (h : s.imprint.Le t.imprint) : Gives true s (.next t) :=
  ⟨fun _ => ⟨t, rfl, h⟩, fun h => Bool.noConfusion h⟩

theorem gives_onUnit {s : State} {b : Bool} {f : State → State} (h : s.imprint.Le (f s).imprint) :
    Gives b s (onUnit b s f) :=
  ⟨fun e => ⟨f s, onUnit_next s f e, h⟩, onUnit_absent s f⟩

theorem gives_onCore {s : State} {n : Nat} {f : State → State} (h : s.imprint.Le (f s).imprint) :
    Gives (isCoreNode n) s (onCore n s f) := gives_onUnit h

theorem gives_onPlane {s : State} {n pl : Nat} {f : State → State} (h : s.imprint.Le (f s).imprint) :
    Gives (isNode n && decide (pl < 4)) s (onPlane n pl s f) := gives_onUnit h

theorem gives_onSite {s : State} {st : Nat} {f : State → State} (h : s.imprint.Le (f s).imprint) :
    Gives (isSite st) s (onSite st s f) := gives_onUnit h

theorem gives_onPort {s : State} {k : Nat} {f : State → State} (h : s.imprint.Le (f s).imprint) :
    Gives (decide (k < 8)) s (onPort k s f) := gives_onUnit h

theorem gives_onLink {s : State} {k : Nat} {f : State → State} (h : s.imprint.Le (f s).imprint) :
    Gives (decide (k < 10)) s (onLink k s f) := gives_onUnit h

theorem gives_onGuest {s : State} {g : Nat} {f : State → State} (h : s.imprint.Le (f s).imprint) :
    Gives (decide (g < 4)) s (onGuest g s f) := gives_onUnit h

theorem gives_onSteward {s : State} {q : Nat} {f : State → State} (h : s.imprint.Le (f s).imprint) :
    Gives (decide (q < 4)) s (onSteward q s f) := gives_onUnit h

/-- An instruction that keeps to the imprint, once issued. -/
theorem gives_issue {s : State} {n : Nat} {row : Word → Bool} {act : State → Nat → Word → State}
    (h : ∀ (t : State) i w, s.imprint.Le t.imprint → s.imprint.Le (act t i w).imprint) :
    Gives (isCoreNode n) s (onCore n s fun s => issue s n row act) :=
  gives_onCore (imprint_le_issue (.refl _) n row h)

theorem gives_stepFrom {s : State} {st : Nat} {a b : StepPhase} {f : State → State}
    (h : ∀ t : State, s.imprint.Le t.imprint → s.imprint.Le (f t).imprint) : Gives (isSite st) s (stepFrom st a b s
        f) := by
  refine gives_onSite ?_
  split
  · exact h _ (by simp)
  · exact .refl _

theorem gives_inState {s : State} {k a : Nat} {f : State → State} (h : s.imprint.Le (f s).imprint) :
    Gives (decide (k < 10)) s (inState k a s f) := by
  refine gives_onLink ?_
  split
  · exact h
  · exact .refl _

theorem gives_onFrame {s : State} {k row : Nat} {f : Frame} {act : State → State}
    (h : ∀ t : State, (act t).imprint = t.imprint) : Gives (decide (k < 10)) s (onFrame k row f s act) := by
  refine gives_onLink ?_
  simp [h]

theorem gives_onPhase {s : State} {st ph : Nat} {f : State → State} (h : s.imprint.Le (f s).imprint) :
    Gives (isSite st && decide (ph < 16)) s (onPhase st ph s f) := by
  refine gives_onUnit ?_
  dsimp only
  split
  · exact h
  · exact .refl _

theorem gives_ledgerRow (s : State) (n row : Nat) : Gives (isCoreNode n) s (ledgerRow n row s) := by
  refine gives_onCore ?_
  dsimp only
  split
  · exact .refl _
  · split
    · exact .refl _
    · split <;> simp

theorem gives_onPlace {s : State} {l : Loc} {f : Place → State} (h : ∀ p, s.imprint.Le (f p).imprint) :
    Gives (isNode l.node) s (onPlace l s f) := by
  refine gives_onUnit ?_
  split
  · split
    · exact h _
    · exact .refl _
  · exact .refl _

theorem gives_ctlRow (s : State) (op : Nat) (p : Packet) : Gives true s (ctlRow op p s) := by
  refine gives_next ?_
  split <;> simp

/-- A packet delivered at its node: what is discarded leaves the imprint, and so does what f does not change. -/
theorem gives_onDelivery {s : State} {n pl k : Nat} {p : Packet} {f : State → Port → Resource → State}
    (h : ∀ (t : State) pt r, s.imprint.Le t.imprint → s.imprint.Le (f t pt r).imprint) :
    Gives (isNode n && decide (pl < 4)) s (onDelivery n pl k p s f) := by
  have ht : s.imprint.Le (s.takeUp n pl p).imprint := by simp
  refine gives_onPlane ?_
  split
  · exact .refl _
  · dsimp only
    split
    · simp
    · split
      · simp
      · split
        · unfold State.atCore
          split
          · simp
          · split
            · simp
            · exact h _ _ _ ht
        · exact h _ _ _ ht

theorem gives_inboxRow (s : State) (n pl k : Nat) (p : Packet) :
    Gives (isNode n && decide (pl < 4)) s (inboxRow n pl k p s) := by
  unfold inboxRow
  split
  · exact gives_onPlane (.refl _)
  · refine gives_onDelivery fun t pt r ht => ?_
    split <;> simp [ht]

theorem gives_execAlu (n : Nat) (s : State) :
    Gives (isCoreNode n) s (execAlu n s) :=
  gives_issue fun s i w ht => by simp [ht]

theorem gives_execAlui (n : Nat) (s : State) :
    Gives (isCoreNode n) s (execAlui n s) :=
  gives_issue fun s i w ht => by simp [ht]

theorem gives_execCmp (n : Nat) (s : State) :
    Gives (isCoreNode n) s (execCmp n s) :=
  gives_issue fun s i w ht => by simp [ht]

theorem gives_execCmpi (n : Nat) (s : State) :
    Gives (isCoreNode n) s (execCmpi n s) :=
  gives_issue fun s i w ht => by simp [ht]

theorem gives_execLi (n : Nat) (s : State) :
    Gives (isCoreNode n) s (execLi n s) :=
  gives_issue fun s i w ht => by simp [ht]

theorem gives_execLih (n : Nat) (s : State) :
    Gives (isCoreNode n) s (execLih n s) :=
  gives_issue fun s i w ht => by simp [ht]

theorem gives_execPlog (n : Nat) (s : State) :
    Gives (isCoreNode n) s (execPlog n s) :=
  gives_issue fun s i w ht => by simp [ht]

theorem gives_execSel (n : Nat) (s : State) :
    Gives (isCoreNode n) s (execSel n s) :=
  gives_issue fun s i w ht => by simp [ht]

theorem gives_execBr (n : Nat) (s : State) :
    Gives (isCoreNode n) s (execBr n s) :=
  gives_issue fun s i w ht => by simp [ht]

theorem gives_execBrp (n : Nat) (s : State) :
    Gives (isCoreNode n) s (execBrp n s) :=
  gives_issue fun s i w ht => by simp [ht]

theorem gives_execCall (n : Nat) (s : State) :
    Gives (isCoreNode n) s (execCall n s) :=
  gives_issue fun s i w ht => by simp [ht]

theorem gives_execJr (n : Nat) (s : State) :
    Gives (isCoreNode n) s (execJr n s) :=
  gives_issue fun s i w ht => by simp [ht]

theorem gives_execLoop (n : Nat) (s : State) :
    Gives (isCoreNode n) s (execLoop n s) :=
  gives_issue fun s i w ht => by simp [ht]

theorem gives_execLd (n : Nat) (s : State) :
    Gives (isCoreNode n) s (execLd n s) := by
  refine gives_issue fun s i w ht => ?_
  dsimp only
  split <;> simp [ht]

theorem gives_execSt (n : Nat) (s : State) :
    Gives (isCoreNode n) s (execSt n s) := by
  refine gives_issue fun s i w ht => ?_
  dsimp only
  split <;> simp [ht]

theorem gives_execVop (n : Nat) (s : State) :
    Gives (isCoreNode n) s (execVop n s) :=
  gives_issue fun s i w ht => by simp [ht]

theorem gives_execVld (n : Nat) (s : State) :
    Gives (isCoreNode n) s (execVld n s) := by
  refine gives_issue fun s i w ht => ?_
  dsimp only
  split <;> simp [ht]

theorem gives_execVst (n : Nat) (s : State) :
    Gives (isCoreNode n) s (execVst n s) := by
  refine gives_issue fun s i w ht => ?_
  dsimp only
  split <;> simp [ht]

theorem gives_execVbcast (n : Nat) (s : State) :
    Gives (isCoreNode n) s (execVbcast n s) :=
  gives_issue fun s i w ht => by simp [ht]

theorem gives_execVget (n : Nat) (s : State) :
    Gives (isCoreNode n) s (execVget n s) :=
  gives_issue fun s i w ht => by simp [ht]

theorem gives_execVput (n : Nat) (s : State) :
    Gives (isCoreNode n) s (execVput n s) :=
  gives_issue fun s i w ht => by simp [ht]

theorem gives_execVred (n : Nat) (s : State) :
    Gives (isCoreNode n) s (execVred n s) :=
  gives_issue fun s i w ht => by simp [ht]

theorem gives_execVsort (n : Nat) (s : State) :
    Gives (isCoreNode n) s (execVsort n s) :=
  gives_issue fun s i w ht => by simp [ht]

theorem gives_execVxadd (n : Nat) (s : State) :
    Gives (isCoreNode n) s (execVxadd n s) :=
  gives_issue fun s i w ht => by simp [ht]

theorem gives_execVtld (n : Nat) (s : State) :
    Gives (isCoreNode n) s (execVtld n s) :=
  gives_issue fun s i w ht => by simp [ht]

theorem gives_execTissue (n : Nat) (s : State) :
    Gives (isCoreNode n) s (execTissue n s) :=
  gives_issue fun s i w ht => by simp [ht]

theorem gives_execMsend (n : Nat) (s : State) :
    Gives (isCoreNode n) s (execMsend n s) :=
  gives_issue fun s i w ht => by simp [ht]

theorem gives_execLop (n : Nat) (s : State) :
    Gives (isCoreNode n) s (execLop n s) :=
  gives_issue fun s i w ht => by simp [ht]

theorem gives_execInmv (n : Nat) (s : State) :
    Gives (isCoreNode n) s (execInmv n s) := by
  refine gives_issue fun s i w ht => ?_
  dsimp only
  repeat' split
  all_goals simp [ht]

theorem gives_execWaitSlot (n : Nat) (s : State) :
    Gives (isCoreNode n) s (execWaitSlot n s) :=
  gives_issue fun s i w ht => by simp [ht]

theorem gives_execWaitCount (n : Nat) (s : State) :
    Gives (isCoreNode n) s (execWaitCount n s) :=
  gives_issue fun s i w ht => by simp [ht]

theorem gives_execSig (n : Nat) (s : State) :
    Gives (isCoreNode n) s (execSig n s) :=
  gives_issue fun s i w ht => by simp [ht]

theorem gives_execSpawn (n : Nat) (s : State) :
    Gives (isCoreNode n) s (execSpawn n s) := by
  refine gives_issue fun s i w ht => ?_
  split <;> simp [ht]

theorem gives_execEndCtx (n : Nat) (s : State) :
    Gives (isCoreNode n) s (execEndCtx n s) :=
  gives_issue fun s i w ht => by simp [ht]

theorem gives_execPark (n : Nat) (s : State) :
    Gives (isCoreNode n) s (execPark n s) :=
  gives_issue fun s i w ht => by simp [ht]

theorem gives_execSelf (n : Nat) (s : State) :
    Gives (isCoreNode n) s (execSelf n s) :=
  gives_issue fun s i w ht => by simp [ht]

theorem gives_execRreg (n : Nat) (s : State) : Gives (isCoreNode n) s (execRreg n s) := by
  refine gives_issue fun s i w ht => ?_
  dsimp only
  split <;> simp [ht]

theorem gives_execWreg (n : Nat) (s : State) : Gives (isCoreNode n) s (execWreg n s) := by
  refine gives_issue fun s i w ht => ?_
  dsimp only
  split <;> simp [ht]

theorem gives_execFence (n : Nat) (s : State) :
    Gives (isCoreNode n) s (execFence n s) :=
  gives_issue fun s i w ht => by simp [ht]

theorem gives_execBreakCtx (n : Nat) (s : State) :
    Gives (isCoreNode n) s (execBreakCtx n s) :=
  gives_issue fun s i w ht => by simp [ht]

theorem gives_execNop (n : Nat) (s : State) :
    Gives (isCoreNode n) s (execNop n s) :=
  gives_issue fun s i w ht => by simp [ht]

theorem gives_execVtldDone (n : Nat) (s : State) :
    Gives (isCoreNode n) s (execVtldDone n s) := by
  refine gives_onCore ?_
  dsimp only
  repeat' split
  all_goals simp

theorem gives_execDot (n : Nat) (s : State) :
    Gives (isCoreNode n) s (execDot n s) := by
  refine gives_onCore ?_
  split <;> simp

theorem gives_execForest (n : Nat) (s : State) :
    Gives (isCoreNode n) s (execForest n s) := by
  refine gives_onCore ?_
  split <;> simp

theorem gives_execConvert (n : Nat) (s : State) :
    Gives (isCoreNode n) s (execConvert n s) :=
  gives_onCore (by simp)

theorem gives_execSealTile (n : Nat) (s : State) :
    Gives (isCoreNode n) s (execSealTile n s) :=
  gives_onCore (by simp)

theorem gives_execMsendWrite (n : Nat) (s : State) :
    Gives (isCoreNode n) s (execMsendWrite n s) :=
  gives_onCore (by simp)

theorem gives_execMsendTile (n : Nat) (s : State) :
    Gives (isCoreNode n) s (execMsendTile n s) :=
  gives_onCore (by simp)

theorem gives_execMsendRead (n : Nat) (s : State) :
    Gives (isCoreNode n) s (execMsendRead n s) :=
  gives_onCore (by simp)

theorem gives_execMsendMsg (n : Nat) (s : State) :
    Gives (isCoreNode n) s (execMsendMsg n s) :=
  gives_onCore (by simp)

theorem gives_execMsendSignal (n : Nat) (s : State) :
    Gives (isCoreNode n) s (execMsendSignal n s) :=
  gives_onCore (by simp)

theorem gives_execMsendMcastWrite (n : Nat) (s : State) :
    Gives (isCoreNode n) s (execMsendMcastWrite n s) :=
  gives_onCore (by simp)

theorem gives_execMsendMcastTile (n : Nat) (s : State) :
    Gives (isCoreNode n) s (execMsendMcastTile n s) :=
  gives_onCore (by simp)

theorem gives_execMsendCell (n : Nat) (s : State) :
    Gives (isCoreNode n) s (execMsendCell n s) :=
  gives_onCore (by simp)

theorem gives_execMsendRed (n : Nat) (s : State) :
    Gives (isCoreNode n) s (execMsendRed n s) :=
  gives_onCore (by simp)

theorem gives_execLedgerPortRequest (n : Nat) (s : State) :
    Gives (isCoreNode n) s (execLedgerPortRequest n s) := by
  refine gives_onCore ?_
  dsimp only
  repeat' split
  all_goals simp

theorem imprint_injection_other (n pl : Nat) (p : Packet) (s : State) (c : Core) (next : Nat) :
    (execInjection.other n pl p s c next).imprint = s.imprint := by
  unfold execInjection.other
  split
  · split <;> simp
  · split
    · simp
    · split
      · simp
      · split <;> simp

theorem gives_execInjection (n pl : Nat) (p : Packet) (s : State) :
    Gives (isNode n && decide (pl < 4)) s (execInjection n pl p s) := by
  refine gives_onPlane ?_
  split
  · exact .refl _
  · dsimp only
    split
    · split
      · split <;> simp
      · simp [imprint_injection_other]
    · simp [imprint_injection_other]

theorem gives_execInjectionGateEval (n pl : Nat) (s : State) :
    Gives (isNode n && decide (pl < 4)) s (execInjectionGateEval n pl s) :=
  gives_onPlane (by simp)

theorem gives_execArbitrationPass (n pl : Nat) (s : State) :
    Gives (isNode n && decide (pl < 4)) s (execArbitrationPass n pl s) :=
  gives_onPlane (by simp)

theorem gives_execLinkCrcFailure (n pl : Nat) (pt : Port) (sl : SlotSeen) (s : State) :
    Gives (isNode n && decide (pl < 4) && hasPort n pt) s (execLinkCrcFailure n pl pt sl s) :=
  gives_onUnit (by simp)

theorem gives_execLinkNak (n pl : Nat) (pt : Port) (sl : SlotSeen) (s : State) :
    Gives (isNode n && decide (pl < 4) && hasPort n pt) s (execLinkNak n pl pt sl s) := by
  refine gives_onUnit ?_
  split <;> simp

theorem gives_execBondLaneRepaired (n pl : Nat) (wires : List Nat) (check : Bool) (s : State) :
    Gives (isNode n && decide (pl < 4)) s (execBondLaneRepaired n pl wires check s) :=
  gives_onPlane (by simp)

theorem gives_execInboxRefusal (n pl : Nat) (p : Packet) (s : State) :
    Gives (isNode n && decide (pl < 4)) s (execInboxRefusal n pl p s) := by
  refine gives_onPlane ?_
  repeat' split
  all_goals simp

theorem gives_execCombineRelease (n pl i : Nat) (s : State) :
    Gives (isNode n && decide (pl < 4)) s (execCombineRelease n pl i s) := by
  refine gives_onPlane ?_
  dsimp only
  split <;> simp

theorem gives_execWrite (n pl : Nat) (p : Packet) (s : State) :
    Gives (isNode n && decide (pl < 4)) s (execWrite n pl p s) := by
  refine gives_onDelivery fun t pt r ht => ?_
  split <;> simp [ht]

theorem gives_execReadReq (n pl : Nat) (p : Packet) (s : State) :
    Gives (isNode n && decide (pl < 4)) s (execReadReq n pl p s) := by
  refine gives_onDelivery fun t pt r ht => ?_
  split <;> simp [ht]

theorem gives_execReadResp (n pl : Nat) (p : Packet) (s : State) :
    Gives (isNode n && decide (pl < 4)) s (execReadResp n pl p s) := by
  refine gives_onDelivery fun t pt r ht => ?_
  split <;> simp [ht]

theorem gives_execMsg (n pl : Nat) (p : Packet) (s : State) : Gives (isNode n && decide (pl < 4)) s (execMsg n pl p
    s) :=
  gives_inboxRow s n pl kMsg p

theorem gives_execCell (n pl : Nat) (p : Packet) (s : State) : Gives (isNode n && decide (pl < 4)) s (execCell n pl p
    s) :=
  gives_inboxRow s n pl kCell p

theorem gives_execSignal (n pl : Nat) (p : Packet) (s : State) :
    Gives (isNode n && decide (pl < 4)) s (execSignal n pl p s) := by
  refine gives_onDelivery fun t pt r ht => ?_
  repeat' split
  all_goals simp [ht]

theorem gives_execMcastWrite (n pl : Nat) (p : Packet) (s : State) :
    Gives (isNode n && decide (pl < 4)) s (execMcastWrite n pl p s) := by
  refine gives_onDelivery fun t pt r ht => ?_
  split <;> simp [ht]

theorem gives_execAck (n pl : Nat) (p : Packet) (s : State) :
    Gives (isNode n && decide (pl < 4)) s (execAck n pl p s) := by
  refine gives_onDelivery fun t pt r ht => ?_
  split <;> simp [ht]

theorem gives_execFenceCredit (n pl : Nat) (p : Packet) (s : State) :
    Gives (isNode n && decide (pl < 4)) s (execFenceCredit n pl p s) := by
  refine gives_onDelivery fun t pt r ht => ?_
  split <;> simp [ht]

theorem gives_execRedPart (n pl : Nat) (p : Packet) (s : State) :
    Gives (isNode n && decide (pl < 4)) s (execRedPart n pl p s) := by
  refine gives_onDelivery fun t pt r ht => ?_
  split <;> simp [ht]

theorem gives_execRedDone (n pl : Nat) (p : Packet) (s : State) :
    Gives (isNode n && decide (pl < 4)) s (execRedDone n pl p s) := by
  refine gives_onDelivery fun t pt r ht => ?_
  split <;> simp [ht]

theorem gives_execLedgerReply (n pl : Nat) (p : Packet) (s : State) :
    Gives (isNode n && decide (pl < 4)) s (execLedgerReply n pl p s) := by
  refine gives_onDelivery fun t pt r ht => ?_
  split <;> simp [ht]

theorem gives_execNotice (n pl : Nat) (p : Packet) (s : State) :
    Gives (isNode n && decide (pl < 4)) s (execNotice n pl p s) :=
  gives_onDelivery fun t pt r ht => by simp [ht]

theorem gives_execNoticeForward (s : State) :
    Gives true s (execNoticeForward s) := by
  refine gives_next ?_
  split <;> simp

theorem gives_execSliceAccess (n i : Nat) (s : State) :
    Gives (isCoreNode n) s (execSliceAccess n i s) := by
  refine gives_onCore ?_
  split <;> simp

theorem gives_execMergeSetClose (n line : Nat) (s : State) :
    Gives (isCoreNode n) s (execMergeSetClose n line s) :=
  gives_onCore (by simp)

theorem gives_execDramThermalSample (st : Nat) (temps : List (BitVec 8)) (s : State) :
    Gives (isSite st && decide (temps.length = 64)) s (execDramThermalSample st temps s) :=
  gives_onUnit (by simp)

theorem gives_execFind (n : Nat) (s : State) :
    Gives (isCoreNode n) s (execFind n s) :=
  gives_ledgerRow s n 1

theorem gives_execFindOrInsert (n : Nat) (s : State) :
    Gives (isCoreNode n) s (execFindOrInsert n s) :=
  gives_ledgerRow s n 2

theorem gives_execUpdate (n : Nat) (s : State) :
    Gives (isCoreNode n) s (execUpdate n s) :=
  gives_ledgerRow s n 3

theorem gives_execRemove (n : Nat) (s : State) :
    Gives (isCoreNode n) s (execRemove n s) :=
  gives_ledgerRow s n 4

theorem gives_execScan (n : Nat) (s : State) :
    Gives (isCoreNode n) s (execScan n s) :=
  gives_ledgerRow s n 5

theorem gives_execShardInitDone (n : Nat) (s : State) :
    Gives (isCoreNode n) s (execShardInitDone n s) :=
  gives_onCore (by simp)

theorem gives_execRegisterWrite (l : Loc) (v : Word) (s : State) :
    Gives (isNode l.node) s (execRegisterWrite l v s) :=
  gives_onPlace fun p => by simp

theorem gives_execCommitGo (l : Loc) (s : State) :
    Gives (isNode l.node) s (execCommitGo l s) := by
  refine gives_onPlace fun p => ?_
  split <;> simp

theorem gives_execDiscard (l : Loc) (s : State) :
    Gives (isNode l.node) s (execDiscard l s) := by
  refine gives_onPlace fun p => ?_
  split <;> simp

theorem gives_execStart (n : Nat) (s : State) :
    Gives (isCoreNode n) s (execStart n s) :=
  gives_onCore (by simp)

theorem gives_execClear (n : Nat) (s : State) :
    Gives (isCoreNode n) s (execClear n s) :=
  gives_onCore (by simp)

theorem gives_execClearDone (n : Nat) (s : State) :
    Gives (isCoreNode n) s (execClearDone n s) :=
  gives_onCore (by simp)

theorem gives_execHalt (n : Nat) (b : BitVec 4) (s : State) :
    Gives (isCoreNode n) s (execHalt n b s) :=
  gives_onCore (by simp)

theorem gives_execClearFault (n : Nat) (b : BitVec 4) (s : State) :
    Gives (isCoreNode n) s (execClearFault n b s) :=
  gives_onCore (by simp)

theorem gives_execFlush (n : Nat) (s : State) :
    Gives (isCoreNode n) s (execFlush n s) :=
  gives_onCore (by simp)

theorem gives_execFlushComplete (n : Nat) (s : State) :
    Gives (isCoreNode n) s (execFlushComplete n s) :=
  gives_onCore (by simp)

theorem gives_execSlotWrite (n sl : Nat) (v : Word) (s : State) :
    Gives (isCoreNode n && decide (sl < 64)) s (execSlotWrite n sl v s) :=
  gives_onUnit (by simp)

theorem gives_execCcWrite (n c : Nat) (v : Word) (s : State) :
    Gives (isCoreNode n && decide (c < 4096)) s (execCcWrite n c v s) :=
  gives_onUnit (by simp)

theorem gives_execVfence (n : Nat) (close : Bool) (s : State) :
    Gives (isNode n) s (execVfence n close s) :=
  gives_onUnit (by simp)

theorem gives_execVfenceEffect (n pl : Nat) (out : Bool) (s : State) :
    Gives (isNode n && decide (pl < 4)) s (execVfenceEffect n pl out s) :=
  gives_onPlane (by simp)

theorem gives_execImgBegin (ctl : Word) (s : State) :
    Gives true s (execImgBegin ctl s) :=
  gives_next (by simp)

theorem gives_execImgAbort (s : State) :
    Gives true s (execImgAbort s) :=
  gives_next (by simp)

theorem gives_execAttest (s : State) :
    Gives true s (execAttest s) :=
  gives_next (by simp)

theorem gives_execAttReady (s : State) :
    Gives true s (execAttReady s) :=
  gives_next (by simp)

theorem gives_execRelease (s : State) :
    Gives true s (execRelease s) :=
  gives_next (by simp)

theorem gives_execImgData (chunk : List Byte) (s : State) :
    Gives true s (execImgData chunk s) :=
  gives_next (by simp)

theorem gives_execLoadCheck (s : State) :
    Gives true s (execLoadCheck s) :=
  gives_next (by simp)

theorem gives_execGenAdvance (r : Nat) (s : State) : Gives true s (execGenAdvance r s) := by
  refine gives_next ?_
  dsimp only
  split
  · refine imprint_le_imgRun _ ?_
    rw [imprint_modImg]
    exact imprint_le_foldl (fun s n hs => imprint_le_joinCore hs _ _) _ (by simp)
  · exact .refl _

theorem gives_execPassTrain (k : Nat) (s : State) :
    Gives (decide (k < 8)) s (execPassTrain k s) :=
  gives_onPort (by simp)

theorem gives_execPassCtlDown (k : Nat) (s : State) :
    Gives (decide (k < 8)) s (execPassCtlDown k s) :=
  gives_onPort (by simp)

theorem gives_execOpticsOff (k : Nat) (off : Bool) (s : State) :
    Gives (decide (k < 8)) s (execOpticsOff k off s) :=
  gives_onPort (by simp)

theorem gives_execPassOpticsDone (k : Nat) (s : State) :
    Gives (decide (k < 10)) s (execPassOpticsDone k s) :=
  gives_inState (by simp)

theorem gives_execPassLaneLockDone (k : Nat) (light : Bool) (good : BitVec 34) (s : State) :
    Gives (decide (k < 10)) s (execPassLaneLockDone k light good s) :=
  gives_inState (by simp)

theorem gives_execPassAlignDone (k : Nat) (locked : Bool) (s : State) :
    Gives (decide (k < 10)) s (execPassAlignDone k locked s) :=
  gives_inState (by simp)

theorem gives_execPassExchangeDone (k : Nat) (far : FarEnd) (s : State) :
    Gives (decide (k < 10)) s (execPassExchangeDone k far s) :=
  gives_inState (by simp)

theorem gives_execPassTrainTimeout (k : Nat) (s : State) :
    Gives (decide (k < 10)) s (execPassTrainTimeout k s) :=
  gives_onLink (by simp)

theorem gives_execFrameData (k : Nat) (f : Frame) (s : State) :
    Gives (decide (k < 10)) s (execFrameData k f s) :=
  gives_onFrame fun s => by simp

theorem gives_execFrameIdle (k : Nat) (f : Frame) (s : State) : Gives (decide (k < 10)) s (execFrameIdle k f s) := by
  unfold execFrameIdle
  split
  case isTrue h =>
    rw [decide_eq_true h.1]
    refine gives_next ?_
    split <;> simp
  case isFalse => exact gives_onFrame fun _ => rfl

theorem gives_execFrameNak (k : Nat) (f : Frame) (s : State) :
    Gives (decide (k < 10)) s (execFrameNak k f s) :=
  gives_onFrame fun s => by simp

theorem gives_execFrameCells (k : Nat) (f : Frame) (s : State) :
    Gives (decide (k < 10)) s (execFrameCells k f s) :=
  gives_onFrame fun s => by simp

theorem gives_execPassRetryTimeout (k : Nat) (s : State) :
    Gives (decide (k < 10)) s (execPassRetryTimeout k s) :=
  gives_onLink (by simp)

theorem gives_execPassAckStall (k : Nat) (s : State) :
    Gives (decide (k < 10)) s (execPassAckStall k s) :=
  gives_onLink (by simp)

theorem gives_execLaneErrCheck (k : Nat) (errs : List Nat) (s : State) :
    Gives (decide (k < 8)) s (execLaneErrCheck k errs s) :=
  gives_onPort (by simp)

theorem gives_execRemapDone (k : Nat) (farGood : FarLanes) (s : State) :
    Gives (decide (k < 8)) s (execRemapDone k farGood s) :=
  gives_onPort (by simp)

theorem gives_execLinkDieEgress (k pl : Nat) (p : Packet) (s : State) :
    Gives (decide (k < 8) && decide (pl < 4)) s (execLinkDieEgress k pl p s) :=
  gives_onUnit (by simp)

theorem gives_execLinkDieIngress (k : Nat) (p : Packet) (s : State) :
    Gives (decide (k < 8)) s (execLinkDieIngress k p s) :=
  gives_onPort (by simp)

theorem gives_execLinkInject (k n pl : Nat) (s : State) :
    Gives (decide (k < 8) && isNode n && decide (pl < 4)) s (execLinkInject k n pl s) := by
  refine gives_onUnit ?_
  split <;> simp

theorem gives_execRingReplay (u : Nat) (s : State) :
    Gives (decide (u < 12)) s (execRingReplay u s) :=
  gives_onUnit (by simp)

theorem gives_execRingReplayRecord (u : Nat) (p : Packet) (s : State) :
    Gives (decide (u < 12)) s (execRingReplayRecord u p s) := by
  refine gives_onUnit ?_
  split
  · exact .refl _
  · split
    case h_1 t h => simp [imprint_ringResponse h]
    case h_2 => exact .refl _

theorem gives_execControlIngress (p : Packet) (s : State) :
    Gives true s (execControlIngress p s) :=
  gives_next (by simp)

theorem gives_execRegRead (p : Packet) (s : State) :
    Gives true s (execRegRead p s) :=
  gives_ctlRow s 1 p

theorem gives_execRegWrite (p : Packet) (s : State) :
    Gives true s (execRegWrite p s) :=
  gives_ctlRow s 2 p

theorem gives_execBlockWrite (p : Packet) (s : State) :
    Gives true s (execBlockWrite p s) :=
  gives_ctlRow s 3 p

theorem gives_execCtlRequestTimeout (i : Nat) (s : State) :
    Gives true s (execCtlRequestTimeout i s) := by
  refine gives_next ?_
  split <;> simp

theorem gives_execCtlPairRetrain (b up : Bool) (s : State) : Gives true s (execCtlPairRetrain b up s) :=
  gives_next (by simp)

theorem gives_execGuestEnable (g : Nat) (on : Bool) (s : State) :
    Gives (decide (g < 4)) s (execGuestEnable g on s) :=
  gives_onGuest (by simp)

theorem gives_execGuestRetrain (g : Nat) (s : State) :
    Gives (decide (g < 4)) s (execGuestRetrain g s) :=
  gives_onGuest (by simp)

theorem gives_execGuestTrainDone (g : Nat) (modules : BitVec 16) (level : BitVec 4) (step : BitVec 8) (feat : Word)
    (timeout : Bool) (s : State) :
    Gives (decide (g < 4)) s (execGuestTrainDone g modules level step feat timeout s) :=
  gives_onGuest (by simp)

@[simp] theorem imprint_fordRun (g m : Nat) (ps : List Packet) (s : State) :
    (s.fordRun g m ps).imprint = s.imprint := by
  induction ps generalizing s with
  | nil => simp [State.fordRun]
  | cons p rest ih =>
    unfold State.fordRun
    split
    · simp [ih]
    · split <;> simp [ih]

theorem gives_execFordCheck (g m : Nat) (p : Packet) (s : State) :
    Gives (decide (g < 4) && decide (m < 16)) s (execFordCheck g m p s) := by
  refine gives_onUnit ?_
  dsimp only
  split <;> simp

theorem gives_execGuestHold (g : Nat) (m : ModuleSlot) (s : State) :
    Gives (decide (g < 4) && decide (m.lane < 16)) s (execGuestHold g m s) :=
  gives_onUnit (by simp)

theorem gives_execGuestGo (g : Nat) (m : ModuleSlot) (s : State) :
    Gives (decide (g < 4) && decide (m.lane < 16)) s (execGuestGo g m s) :=
  gives_onUnit (by simp)

theorem gives_execFordTokenRefill (g : Nat) (s : State) :
    Gives (decide (g < 4)) s (execFordTokenRefill g s) := by
  refine gives_onGuest ?_
  dsimp only
  refine imprint_le_foldl (fun s e hs => ?_) _ ?_
  · split <;> simp [hs]
  · split <;> simp

theorem gives_execGuestOvercurrent (g : Nat) (s : State) :
    Gives (decide (g < 4)) s (execGuestOvercurrent g s) :=
  gives_onGuest (by simp)

theorem gives_execGuestRailReady (g : Nat) (s : State) :
    Gives (decide (g < 4)) s (execGuestRailReady g s) :=
  gives_onGuest (by simp)

theorem gives_execOscEn (st d : Nat) (on : Bool) (s : State) :
    Gives (isSite st && decide (d < 3)) s (execOscEn st d on s) :=
  gives_onUnit (by simp)

theorem gives_execOscLock (st d : Nat) (s : State) :
    Gives (isSite st && decide (d < 3)) s (execOscLock st d s) :=
  gives_onUnit (by simp)

theorem gives_execCal (st : Nat) (s : State) :
    Gives (isSite st) s (execCal st s) :=
  gives_onSite (by simp)

theorem gives_execCalDone (st : Nat) (fails : List (Nat × Nat × Port)) (offset : BitVec 8) (s : State) :
    Gives (isSite st) s (execCalDone st fails offset s) :=
  gives_onSite (by simp)

theorem gives_execRecal (st : Nat) (s : State) :
    Gives (isSite st) s (execRecal st s) :=
  gives_onSite (by simp)

theorem gives_execRecalDone (st : Nat) (s : State) :
    Gives (isSite st) s (execRecalDone st s) :=
  gives_onSite (by simp)

theorem gives_execRefSwitch (st : Nat) (s : State) :
    Gives (isSite st) s (execRefSwitch st s) :=
  gives_onSite (by simp)

theorem gives_execReferenceLoss (st : Nat) (b : Bool) (s : State) :
    Gives (isSite st) s (execReferenceLoss st b s) :=
  gives_onSite (by simp)

theorem gives_execRefGood (st : Nat) (b : Bool) (s : State) :
    Gives (isSite st) s (execRefGood st b s) :=
  gives_onSite (by simp)

theorem gives_execXingSlip (st loc pl port : Nat) (lead : Slip) (s : State) :
    Gives (isSite st && isXing st loc pl port) s (execXingSlip st loc pl port lead s) := by
  refine gives_onUnit ?_
  split <;> simp

theorem gives_execArm (s : State) :
    Gives true s (execArm s) :=
  gives_next (by simp)

theorem gives_execFstepArrive (st : Nat) (s : State) :
    Gives (isSite st) s (execFstepArrive st s) :=
  gives_stepFrom fun t ht => by simp [ht]

theorem gives_execFstepQuiet (st : Nat) (s : State) :
    Gives (isSite st) s (execFstepQuiet st s) := by
  refine gives_stepFrom fun t ht => ?_
  split <;> simp [ht]

theorem gives_execFstepSwitch (st : Nat) (s : State) :
    Gives (isSite st) s (execFstepSwitch st s) :=
  gives_stepFrom fun t ht => by simp [ht]

theorem gives_execFstepRecal (st : Nat) (fails : List (Nat × Nat × Port)) (s : State) :
    Gives (isSite st) s (execFstepRecal st fails s) :=
  gives_stepFrom fun t ht => by simp [ht]

theorem gives_execFstepResume (st : Nat) (s : State) :
    Gives (isSite st) s (execFstepResume st s) := by
  refine gives_stepFrom fun t ht => ?_
  split <;> simp [ht]

theorem gives_execFstepDone (s : State) :
    Gives true s (execFstepDone s) :=
  gives_next (by simp)

theorem gives_execPhaseOcTrip (st ph at_ : Nat) (s : State) :
    Gives (isSite st && decide (ph < 16)) s (execPhaseOcTrip st ph at_ s) := by
  refine gives_onPhase ?_
  dsimp only
  split <;> simp

theorem gives_execPhaseImbalance (st ph : Nat) (s : State) :
    Gives (isSite st && decide (ph < 16)) s (execPhaseImbalance st ph s) :=
  gives_onPhase (by simp)

theorem gives_execOpenBondCheck (st : Nat) (mv : List Nat) (amps : Nat) (s : State) :
    Gives (isComputeSite st && decide (mv.length = 64)) s (execOpenBondCheck st mv amps s) :=
  gives_onUnit (by simp)

theorem gives_execRailRegulation (st : Nat) (s : State) :
    Gives (isComputeSite st) s (execRailRegulation st s) := by
  have lost : s.imprint.Le
      ((siteNodes st).foldl State.loseDram (s.modSite st fun x => { x with railOk := true })).imprint :=
    imprint_le_foldl (fun s n hs => imprint_le_loseDram hs n) _ (by simp)
  refine gives_onUnit ?_
  split
  · dsimp only
    split
    · rw [imprint_goCapped]
      exact lost
    · rw [imprint_setField]
      exact lost
  · exact .refl _

theorem gives_execHeaderGroupStep (st g : Nat) (s : State) :
    Gives (isComputeSite st && decide (g < 8)) s (execHeaderGroupStep st g s) :=
  gives_onUnit (by simp)

theorem gives_execHoldClear (st : Nat) (v : Word) (s : State) :
    Gives (isSite st) s (execHoldClear st v s) :=
  gives_onSite (by simp)

theorem gives_execVinSample (mv : List Nat) (s : State) :
    Gives (decide (mv.length = 48)) s (execVinSample mv s) := by
  refine gives_onUnit ?_
  dsimp only
  split
  · exact .refl _
  · split
    · exact imprint_le_powerLoss s
    · simp

theorem gives_execShedStep (s : State) :
    Gives true s (execShedStep s) :=
  gives_next (by simp)

theorem gives_execWatershedForce (f : BitVec 3) (s : State) :
    Gives true s (execWatershedForce f s) :=
  gives_next (by simp)

theorem gives_execPwrOk (high : Bool) (s : State) :
    Gives true s (execPwrOk high s) :=
  gives_next (by simp)

theorem gives_execCoolOk (high : Bool) (s : State) : Gives true s (execCoolOk high s) :=
  gives_next (by simp)

theorem gives_execStewardThermalSample (q : Nat) (s : State) :
    Gives (decide (q < 4)) s (execStewardThermalSample q s) := by
  refine gives_onSteward ?_
  split
  · exact .refl _
  · dsimp only
    refine imprint_le_foldl (fun s st hs => imprint_le_warmSite hs _ _) _ ?_
    simp

theorem gives_execTripClear (s : State) :
    Gives true s (execTripClear s) :=
  gives_next (by simp)

theorem gives_execPmbusPoll (answers : List ModuleAnswer) (s : State) :
    Gives true s (execPmbusPoll answers s) :=
  gives_next (by simp)

theorem gives_execPmbusXact (v : Word) (s : State) :
    Gives true s (execPmbusXact v s) :=
  gives_next (by simp)

theorem gives_execPmbusXactDone (ok : Bool) (data : BusAnswer) (s : State) :
    Gives true s (execPmbusXactDone ok data s) :=
  gives_next (by simp)

theorem gives_execPanelResetN (s : State) : Gives true s (execPanelResetN s) :=
  gives_next (imprint_le_powerLoss s)

theorem gives_execPanelResetRelease (s : State) : Gives true s (execPanelResetRelease s) := by
  refine gives_next ?_
  split
  · dsimp only
    simpa using imprint_le_powerLoss s
  · exact .refl _

theorem gives_execPassBoot (s : State) : Gives true s (execPassBoot s) := by
  refine gives_next ?_
  dsimp only
  split
  · rw [imprint_setRom]
    refine imprint_le_foldl (fun s st hs => by simpa using hs) _ (imprint_le_foldl (fun s st hs =>
        imprint_le_bootPower hs st) _ ?_)
    simp
  · exact .refl _

theorem gives_execPassBootRetrain (s : State) :
    Gives true s (execPassBootRetrain s) :=
  gives_next (by simp)

theorem gives_execFwBegin (s : State) :
    Gives true s (execFwBegin s) :=
  gives_next (by simp)

theorem gives_execFwAbort (s : State) :
    Gives true s (execFwAbort s) :=
  gives_next (by simp)

theorem gives_execStwFwData (chunk : List Byte) (s : State) :
    Gives true s (execStwFwData chunk s) :=
  gives_next (by simp)

theorem gives_execFwVerify (started : Bool) (s : State) :
    Gives true s (execFwVerify started s) :=
  gives_next (by simp)

theorem gives_execSiteTrainBond (st : Nat) (s : State) :
    Gives (isSite st) s (execSiteTrainBond st s) :=
  gives_onSite (by simp)

theorem gives_execSiteTrainDram (st : Nat) (s : State) :
    Gives (isSite st) s (execSiteTrainDram st s) :=
  gives_onSite (by simp)

theorem gives_execBondTrainDone (st : Nat) (r : BondResult) (s : State) :
    Gives (isSite st) s (execBondTrainDone st r s) := by
  refine gives_onSite ?_
  repeat' split
  all_goals simp

theorem gives_execDramTrainDone (st failed : Nat) (s : State) :
    Gives (isSite st) s (execDramTrainDone st failed s) :=
  gives_onSite (by simp)

theorem gives_execSetHost (st : Nat) (s : State) :
    Gives (isSite st) s (execSetHost st s) :=
  gives_onSite (by simp)

theorem gives_execCairnSample (q : Nat) (s : State) :
    Gives (decide (q < 4)) s (execCairnSample q s) :=
  gives_onSteward (by simp)

theorem gives_execComputeReset (v : Word) (s : State) :
    Gives true s (execComputeReset v s) :=
  gives_next (by simp)

theorem gives_execResetDone (s : State) :
    Gives true s (execResetDone s) :=
  gives_next (by simp)

theorem gives_execOpcodeReserved (n : Nat) (s : State) :
    Gives (isCoreNode n) s (execOpcodeReserved n s) := by
  refine gives_onCore ?_
  repeat' split
  all_goals simp

theorem gives_execPhaseSwitchFault (st ph : Nat) (s : State) :
    Gives (isSite st && decide (ph < 16)) s (execPhaseSwitchFault st ph s) :=
  gives_onPhase (by simp)

/-- A packet that waits nowhere is taken from plane 0. -/
theorem planeOf_lt (s : State) (n : Nat) (p : Packet) : planeOf s n p < 4 := by
  have below : ∀ pl ∈ [0, 1, 2, 3], pl < 4 := by decide
  unfold planeOf
  cases h : [0, 1, 2, 3].find? _ with
  | none => decide
  | some pl => exact below pl (List.mem_of_find?_eq_some h)

/-- A reply is taken on the plane that brings it. -/
theorem gives_execControlReply (n : Nat) (p : Packet) (s : State) : Gives (isNode n) s (execControlReply n p s) := by
  have plane : (isNode n && decide (planeOf s n p < 4)) = isNode n := by simp [planeOf_lt]
  unfold execControlReply
  dsimp only
  split
  · exact plane ▸ gives_onPlane (.refl _)
  · refine plane ▸ gives_onDelivery fun t pt r ht => ?_
    split <;> simp [ht]

theorem gives_execLedgerOp (n pl : Nat) (p : Packet) (s : State) :
    Gives (isNode n && decide (pl < 4)) s (execLedgerOp n pl p s) :=
  gives_onDelivery fun t pt r ht => by simp [ht]

theorem gives_execGuestOcClear (g : Nat) (s : State) :
    Gives (decide (g < 4)) s (execGuestOcClear g s) :=
  gives_onGuest (by simp)

theorem gives_execFrameSend (k : Nat) (s : State) :
    Gives (decide (k < 10)) s (execFrameSend k s) :=
  gives_onLink (by simp)


/-! ## What a command answers -/

/-- A command that can be given answers a next state that keeps to the imprint; one to a unit that the panel does not
    have
is refused as such; and a command answers nothing else. -/
structure Completes (c : Instr) (s : State) : Prop where
  next : c.wellFormed = true → ∃ t, exec c s = .next t
  absent : c.unit.present = false → exec c s = .refused .noSuchUnit
  answers : (∃ t, exec c s = .next t ∧ s.imprint.Le t.imprint) ∨ exec c s = .refused .noSuchUnit

theorem Gives.completes {c : Instr} {s : State} {b : Bool} (h : Gives b s (exec c s))
    (given : c.wellFormed = true → b = true) (present : b = true → c.unit.present = true) : Completes c s where
  next hc := by
    obtain ⟨t, ht, -⟩ := h.next (given hc)
    exact ⟨t, ht⟩
  absent hc := h.refused (Bool.eq_false_iff.2 fun hb => Bool.false_ne_true (hc.symm.trans (present hb)))
  answers := by
    cases b with
    | true => exact .inl (h.next rfl)
    | false => exact .inr (h.refused rfl)

/-- A command that is taken wherever its unit is. -/
theorem completes_of_present {c : Instr} {s : State} (h : Gives c.unit.present s (exec c s)) : Completes c s :=
  h.completes (Laws.Families.holds c) id

/-- A command that is taken where its unit is and its operands are in range. -/
theorem completes_of_wellFormed {c : Instr} {s : State} (h : Gives c.wellFormed s (exec c s)) : Completes c s :=
  h.completes id (Laws.Families.holds c)

/-- The ports of a router are the sides on which it has a link, and its vertical port (R18, R164). -/
theorem hasPort_eq_linkExists (n : Nat) (pt : Port) : hasPort n pt = linkExists n pt := by
  cases pt <;> rfl

theorem completes_linkCrcFailure (n pl : Nat) (pt : Port) (sl : SlotSeen) (s : State) :
    Completes (.linkCrcFailure n pl pt sl) s := by
  have unit : (Instr.linkCrcFailure n pl pt sl).unit.present = (isNode n && decide (pl < 4) && hasPort n pt) := by
    rw [hasPort_eq_linkExists]
    rfl
  exact completes_of_present (unit ▸ gives_execLinkCrcFailure n pl pt sl s)

theorem completes_linkNak (n pl : Nat) (pt : Port) (sl : SlotSeen) (s : State) : Completes (.linkNak n pl pt sl) s := by
  have unit : (Instr.linkNak n pl pt sl).unit.present = (isNode n && decide (pl < 4) && hasPort n pt) := by
    rw [hasPort_eq_linkExists]
    rfl
  exact completes_of_present (unit ▸ gives_execLinkNak n pl pt sl s)

theorem completes_linkInject (k n pl : Nat) (s : State) : Completes (.linkInject k n pl) s := by
  have given : (Instr.linkInject k n pl).wellFormed = (decide (k < 8) && isNode n && decide (pl < 4)) := by
    rw [Bool.and_assoc, Bool.and_comm]
    rfl
  exact completes_of_wellFormed (given ▸ gives_execLinkInject k n pl s)

/-- The lane of a module's slot alone decides whether it is taken. -/
theorem lane_lt_of_operandsOk {m : ModuleSlot} (h : (decide (m.lane < 16) && decide (m.slot.word.length = 64)) = true) :
    decide (m.lane < 16) = true := (Bool.and_eq_true_iff.1 h).1

theorem completes_guestHold (g : Nat) (m : ModuleSlot) (s : State) : Completes (.guestHold g m) s := by
  refine (gives_execGuestHold g m s).completes (fun h => ?_) fun h => (Bool.and_eq_true_iff.1 h).1
  obtain ⟨present, operands⟩ := Bool.and_eq_true_iff.1 h
  exact Bool.and_eq_true_iff.2 ⟨present, lane_lt_of_operandsOk operands⟩

theorem completes_guestGo (g : Nat) (m : ModuleSlot) (s : State) : Completes (.guestGo g m) s := by
  refine (gives_execGuestGo g m s).completes (fun h => ?_) fun h => (Bool.and_eq_true_iff.1 h).1
  obtain ⟨present, operands⟩ := Bool.and_eq_true_iff.1 h
  exact Bool.and_eq_true_iff.2 ⟨present, lane_lt_of_operandsOk operands⟩

theorem exec_completes (c : Instr) (s : State) : Completes c s := by
  cases c with
  | alu n => exact completes_of_present (gives_execAlu n s)
  | alui n => exact completes_of_present (gives_execAlui n s)
  | cmp n => exact completes_of_present (gives_execCmp n s)
  | cmpi n => exact completes_of_present (gives_execCmpi n s)
  | li n => exact completes_of_present (gives_execLi n s)
  | lih n => exact completes_of_present (gives_execLih n s)
  | plog n => exact completes_of_present (gives_execPlog n s)
  | sel n => exact completes_of_present (gives_execSel n s)
  | br n => exact completes_of_present (gives_execBr n s)
  | brp n => exact completes_of_present (gives_execBrp n s)
  | call n => exact completes_of_present (gives_execCall n s)
  | jr n => exact completes_of_present (gives_execJr n s)
  | loop n => exact completes_of_present (gives_execLoop n s)
  | ld n => exact completes_of_present (gives_execLd n s)
  | st n => exact completes_of_present (gives_execSt n s)
  | vop n => exact completes_of_present (gives_execVop n s)
  | vld n => exact completes_of_present (gives_execVld n s)
  | vst n => exact completes_of_present (gives_execVst n s)
  | vbcast n => exact completes_of_present (gives_execVbcast n s)
  | vget n => exact completes_of_present (gives_execVget n s)
  | vput n => exact completes_of_present (gives_execVput n s)
  | vred n => exact completes_of_present (gives_execVred n s)
  | vsort n => exact completes_of_present (gives_execVsort n s)
  | vxadd n => exact completes_of_present (gives_execVxadd n s)
  | vtld n => exact completes_of_present (gives_execVtld n s)
  | tissue n => exact completes_of_present (gives_execTissue n s)
  | msend n => exact completes_of_present (gives_execMsend n s)
  | lop n => exact completes_of_present (gives_execLop n s)
  | inmv n => exact completes_of_present (gives_execInmv n s)
  | waitSlot n => exact completes_of_present (gives_execWaitSlot n s)
  | waitCount n => exact completes_of_present (gives_execWaitCount n s)
  | sig n => exact completes_of_present (gives_execSig n s)
  | spawn n => exact completes_of_present (gives_execSpawn n s)
  | endCtx n => exact completes_of_present (gives_execEndCtx n s)
  | park n => exact completes_of_present (gives_execPark n s)
  | self n => exact completes_of_present (gives_execSelf n s)
  | rreg n => exact completes_of_present (gives_execRreg n s)
  | wreg n => exact completes_of_present (gives_execWreg n s)
  | fence n => exact completes_of_present (gives_execFence n s)
  | breakCtx n => exact completes_of_present (gives_execBreakCtx n s)
  | nop n => exact completes_of_present (gives_execNop n s)
  | vtldDone n => exact completes_of_present (gives_execVtldDone n s)
  | dot n => exact completes_of_present (gives_execDot n s)
  | forest n => exact completes_of_present (gives_execForest n s)
  | convert n => exact completes_of_present (gives_execConvert n s)
  | sealTile n => exact completes_of_present (gives_execSealTile n s)
  | msendWrite n => exact completes_of_present (gives_execMsendWrite n s)
  | msendTile n => exact completes_of_present (gives_execMsendTile n s)
  | msendRead n => exact completes_of_present (gives_execMsendRead n s)
  | msendMsg n => exact completes_of_present (gives_execMsendMsg n s)
  | msendSignal n => exact completes_of_present (gives_execMsendSignal n s)
  | msendMcastWrite n => exact completes_of_present (gives_execMsendMcastWrite n s)
  | msendMcastTile n => exact completes_of_present (gives_execMsendMcastTile n s)
  | msendCell n => exact completes_of_present (gives_execMsendCell n s)
  | msendRed n => exact completes_of_present (gives_execMsendRed n s)
  | ledgerPortRequest n => exact completes_of_present (gives_execLedgerPortRequest n s)
  | injection n pl p => exact completes_of_present (gives_execInjection n pl p s)
  | injectionGateEval n pl => exact completes_of_present (gives_execInjectionGateEval n pl s)
  | arbitrationPass n pl => exact completes_of_present (gives_execArbitrationPass n pl s)
  | linkCrcFailure n pl pt sl => exact completes_linkCrcFailure n pl pt sl s
  | linkNak n pl pt sl => exact completes_linkNak n pl pt sl s
  | bondLaneRepaired n pl wires check => exact completes_of_present (gives_execBondLaneRepaired n pl wires check s)
  | inboxRefusal n pl p => exact completes_of_present (gives_execInboxRefusal n pl p s)
  | combineRelease n pl j => exact completes_of_present (gives_execCombineRelease n pl j s)
  | write n pl p => exact completes_of_present (gives_execWrite n pl p s)
  | readReq n pl p => exact completes_of_present (gives_execReadReq n pl p s)
  | readResp n pl p => exact completes_of_present (gives_execReadResp n pl p s)
  | msg n pl p => exact completes_of_present (gives_execMsg n pl p s)
  | cell n pl p => exact completes_of_present (gives_execCell n pl p s)
  | signal n pl p => exact completes_of_present (gives_execSignal n pl p s)
  | mcastWrite n pl p => exact completes_of_present (gives_execMcastWrite n pl p s)
  | ack n pl p => exact completes_of_present (gives_execAck n pl p s)
  | fenceCredit n pl p => exact completes_of_present (gives_execFenceCredit n pl p s)
  | redPart n pl p => exact completes_of_present (gives_execRedPart n pl p s)
  | redDone n pl p => exact completes_of_present (gives_execRedDone n pl p s)
  | ledgerReply n pl p => exact completes_of_present (gives_execLedgerReply n pl p s)
  | notice n pl p => exact completes_of_present (gives_execNotice n pl p s)
  | noticeForward => exact completes_of_present (gives_execNoticeForward s)
  | sliceAccess n j => exact completes_of_present (gives_execSliceAccess n j s)
  | mergeSetClose n line => exact completes_of_present (gives_execMergeSetClose n line s)
  | dramThermalSample st temps => exact completes_of_wellFormed (gives_execDramThermalSample st temps s)
  | find n => exact completes_of_present (gives_execFind n s)
  | findOrInsert n => exact completes_of_present (gives_execFindOrInsert n s)
  | update n => exact completes_of_present (gives_execUpdate n s)
  | remove n => exact completes_of_present (gives_execRemove n s)
  | scan n => exact completes_of_present (gives_execScan n s)
  | shardInitDone n => exact completes_of_present (gives_execShardInitDone n s)
  | registerWrite l v => exact completes_of_present (gives_execRegisterWrite l v s)
  | commitGo l => exact completes_of_present (gives_execCommitGo l s)
  | discard l => exact completes_of_present (gives_execDiscard l s)
  | start n => exact completes_of_present (gives_execStart n s)
  | clear n => exact completes_of_present (gives_execClear n s)
  | clearDone n => exact completes_of_present (gives_execClearDone n s)
  | halt n bits => exact completes_of_present (gives_execHalt n bits s)
  | clearFault n bits => exact completes_of_present (gives_execClearFault n bits s)
  | flush n => exact completes_of_present (gives_execFlush n s)
  | flushComplete n => exact completes_of_present (gives_execFlushComplete n s)
  | slotWrite n sl v => exact completes_of_wellFormed (gives_execSlotWrite n sl v s)
  | ccWrite n c v => exact completes_of_wellFormed (gives_execCcWrite n c v s)
  | vfence n close => exact completes_of_present (gives_execVfence n close s)
  | vfenceEffect n pl out => exact completes_of_present (gives_execVfenceEffect n pl out s)
  | imgBegin ctl => exact completes_of_present (gives_execImgBegin ctl s)
  | imgAbort => exact completes_of_present (gives_execImgAbort s)
  | attest => exact completes_of_present (gives_execAttest s)
  | attReady => exact completes_of_present (gives_execAttReady s)
  | release => exact completes_of_present (gives_execRelease s)
  | imgData chunk => exact completes_of_present (gives_execImgData chunk s)
  | loadCheck => exact completes_of_present (gives_execLoadCheck s)
  | genAdvance r => exact completes_of_present (gives_execGenAdvance r s)
  | passTrain k => exact completes_of_present (gives_execPassTrain k s)
  | passCtlDown k => exact completes_of_present (gives_execPassCtlDown k s)
  | opticsOff k off => exact completes_of_present (gives_execOpticsOff k off s)
  | passOpticsDone k => exact completes_of_present (gives_execPassOpticsDone k s)
  | passLaneLockDone k light good => exact completes_of_present (gives_execPassLaneLockDone k light good s)
  | passAlignDone k locked => exact completes_of_present (gives_execPassAlignDone k locked s)
  | passExchangeDone k far => exact completes_of_present (gives_execPassExchangeDone k far s)
  | passTrainTimeout k => exact completes_of_present (gives_execPassTrainTimeout k s)
  | frameData k f => exact completes_of_present (gives_execFrameData k f s)
  | frameIdle k f => exact completes_of_present (gives_execFrameIdle k f s)
  | frameNak k f => exact completes_of_present (gives_execFrameNak k f s)
  | frameCells k f => exact completes_of_present (gives_execFrameCells k f s)
  | passRetryTimeout k => exact completes_of_present (gives_execPassRetryTimeout k s)
  | passAckStall k => exact completes_of_present (gives_execPassAckStall k s)
  | laneErrCheck k errs => exact completes_of_present (gives_execLaneErrCheck k errs s)
  | remapDone k farGood => exact completes_of_present (gives_execRemapDone k farGood s)
  | linkDieEgress k pl p => exact completes_of_wellFormed (gives_execLinkDieEgress k pl p s)
  | linkDieIngress k p => exact completes_of_present (gives_execLinkDieIngress k p s)
  | linkInject k n pl => exact completes_linkInject k n pl s
  | ringReplay u => exact completes_of_present (gives_execRingReplay u s)
  | ringReplayRecord u p => exact completes_of_present (gives_execRingReplayRecord u p s)
  | controlIngress p => exact completes_of_present (gives_execControlIngress p s)
  | regRead p => exact completes_of_present (gives_execRegRead p s)
  | regWrite p => exact completes_of_present (gives_execRegWrite p s)
  | blockWrite p => exact completes_of_present (gives_execBlockWrite p s)
  | ctlRequestTimeout j => exact completes_of_present (gives_execCtlRequestTimeout j s)
  | ctlPairRetrain b up => exact completes_of_present (gives_execCtlPairRetrain b up s)
  | guestEnable g on => exact completes_of_present (gives_execGuestEnable g on s)
  | guestRetrain g => exact completes_of_present (gives_execGuestRetrain g s)
  | guestTrainDone g modules level step feat timeout => exact completes_of_present (gives_execGuestTrainDone g
      modules level step feat timeout s)
  | fordCheck g m p => exact completes_of_wellFormed (gives_execFordCheck g m p s)
  | guestHold g m => exact completes_guestHold g m s
  | guestGo g m => exact completes_guestGo g m s
  | fordTokenRefill g => exact completes_of_present (gives_execFordTokenRefill g s)
  | guestOvercurrent g => exact completes_of_present (gives_execGuestOvercurrent g s)
  | guestRailReady g => exact completes_of_present (gives_execGuestRailReady g s)
  | oscEn st d on => exact completes_of_present (gives_execOscEn st d on s)
  | oscLock st d => exact completes_of_present (gives_execOscLock st d s)
  | cal st => exact completes_of_present (gives_execCal st s)
  | calDone st fails offset => exact completes_of_present (gives_execCalDone st fails offset s)
  | recal st => exact completes_of_present (gives_execRecal st s)
  | recalDone st => exact completes_of_present (gives_execRecalDone st s)
  | refSwitch st => exact completes_of_present (gives_execRefSwitch st s)
  | referenceLoss st b => exact completes_of_present (gives_execReferenceLoss st b s)
  | refGood st b => exact completes_of_present (gives_execRefGood st b s)
  | xingSlip st loc pl port lead => exact completes_of_wellFormed (gives_execXingSlip st loc pl port lead s)
  | arm => exact completes_of_present (gives_execArm s)
  | fstepArrive st => exact completes_of_present (gives_execFstepArrive st s)
  | fstepQuiet st => exact completes_of_present (gives_execFstepQuiet st s)
  | fstepSwitch st => exact completes_of_present (gives_execFstepSwitch st s)
  | fstepRecal st fails => exact completes_of_present (gives_execFstepRecal st fails s)
  | fstepResume st => exact completes_of_present (gives_execFstepResume st s)
  | fstepDone => exact completes_of_present (gives_execFstepDone s)
  | phaseOcTrip st ph t => exact completes_of_wellFormed (gives_execPhaseOcTrip st ph t s)
  | phaseImbalance st ph => exact completes_of_wellFormed (gives_execPhaseImbalance st ph s)
  | openBondCheck st mv amps => exact completes_of_wellFormed (gives_execOpenBondCheck st mv amps s)
  | railRegulation st => exact completes_of_present (gives_execRailRegulation st s)
  | headerGroupStep st g => exact completes_of_wellFormed (gives_execHeaderGroupStep st g s)
  | holdClear st v => exact completes_of_present (gives_execHoldClear st v s)
  | vinSample mv => exact completes_of_wellFormed (gives_execVinSample mv s)
  | shedStep => exact completes_of_present (gives_execShedStep s)
  | watershedForce f => exact completes_of_present (gives_execWatershedForce f s)
  | pwrOk high => exact completes_of_present (gives_execPwrOk high s)
  | coolOk high => exact completes_of_present (gives_execCoolOk high s)
  | stewardThermalSample q => exact completes_of_present (gives_execStewardThermalSample q s)
  | tripClear => exact completes_of_present (gives_execTripClear s)
  | pmbusPoll answers => exact completes_of_present (gives_execPmbusPoll answers s)
  | pmbusXact v => exact completes_of_present (gives_execPmbusXact v s)
  | pmbusXactDone ok data => exact completes_of_present (gives_execPmbusXactDone ok data s)
  | panelResetN => exact completes_of_present (gives_execPanelResetN s)
  | panelResetRelease => exact completes_of_present (gives_execPanelResetRelease s)
  | passBoot => exact completes_of_present (gives_execPassBoot s)
  | passBootRetrain => exact completes_of_present (gives_execPassBootRetrain s)
  | fwBegin => exact completes_of_present (gives_execFwBegin s)
  | fwAbort => exact completes_of_present (gives_execFwAbort s)
  | stwFwData chunk => exact completes_of_present (gives_execStwFwData chunk s)
  | fwVerify started => exact completes_of_present (gives_execFwVerify started s)
  | siteTrainBond st => exact completes_of_present (gives_execSiteTrainBond st s)
  | siteTrainDram st => exact completes_of_present (gives_execSiteTrainDram st s)
  | bondTrainDone st r => exact completes_of_present (gives_execBondTrainDone st r s)
  | dramTrainDone st failed => exact completes_of_present (gives_execDramTrainDone st failed s)
  | setHost st => exact completes_of_present (gives_execSetHost st s)
  | cairnSample q => exact completes_of_present (gives_execCairnSample q s)
  | computeReset v => exact completes_of_present (gives_execComputeReset v s)
  | resetDone => exact completes_of_present (gives_execResetDone s)
  | opcodeReserved n => exact completes_of_present (gives_execOpcodeReserved n s)
  | phaseSwitchFault st ph => exact completes_of_wellFormed (gives_execPhaseSwitchFault st ph s)
  | controlReply n p => exact completes_of_present (gives_execControlReply n p s)
  | ledgerOp n pl p => exact completes_of_present (gives_execLedgerOp n pl p s)
  | guestOcClear g => exact completes_of_present (gives_execGuestOcClear g s)
  | frameSend k => exact completes_of_present (gives_execFrameSend k s)

/-- Settles O60: each command completes within the imprint of the panel, and a step takes the front command off the
    queue. -/
theorem commandsKeepTheBirthRecordAndTheQueue : Obligations.CommandsKeepTheBirthRecordAndTheQueue := by
  have within : ∀ (c : Instr) (s t : State), exec c s = .next t → s.imprint.Le t.imprint := by
    intro c s t h
    rcases (exec_completes c s).answers with ⟨u, hu, le⟩ | hr
    · rw [h] at hu
      cases hu
      exact le
    · rw [h] at hr
      contradiction
  refine ⟨fun c s t h => ?_, fun s t h => ?_⟩
  · obtain ⟨birth, pending, fill, free⟩ := within c s t h
    exact ⟨birth, pending, fill, free⟩
  · unfold step at h
    split at h
    case h_1 hp =>
      cases h
      simp [hp]
    case h_2 c rest hp =>
      obtain ⟨birth, pending, -, -⟩ := within c _ t h
      exact ⟨birth, pending.trans (by rw [hp]; rfl)⟩

/-- Settles O57: each command completes, by the unit that it names and the range of its operands. -/
theorem everyCommandThatCanBeGivenCompletes : Obligations.EveryCommandThatCanBeGivenCompletes := by
  intro c s
  obtain ⟨next, absent, answers⟩ := exec_completes c s
  refine ⟨next, absent, answers.imp (fun ⟨t, ht, _⟩ => ⟨t, ht⟩) id⟩

end Sys2Proof.Machine
end

section
/-! SUPPORT. A core's accesses to its own registers (R67, R96, R97). -/
namespace Sys2Proof.Machine

/-- A notice tells the same in states whose PASS_DOM_ID reads the same. -/
theorem mkNotice_congr {s t : State} (h : t.reg bDom 0x08 = s.reg bDom 0x08) (n code : Nat) (d1 d2 d3 : Word) :
    mkNotice t n code d1 d2 d3 = mkNotice s n code d1 d2 d3 := by
  simp only [mkNotice, h]

/-- PASS_DOM_ID is no register of a core. -/
theorem Retired.reg_dom {s t : State} {c : Core} {n i pc : Nat} (h : Retired s t c n i pc) (hn : isCoreNode n = true) :
    t.reg bDom 0x08 = s.reg bDom 0x08 := by
  have unit : n < 12288 := by simpa [isNode] using (Bool.and_eq_true_iff.1 hn).1
  refine State.reg_congr (by rw [h.only.rest]) (h.regs _ ?_)
  have ne : bDom.key 0x08 ≠ (bCore n).key 0x48 :=
    Blk.key_ne_of_kind (hu := by decide) (hu' := by simp only [bCore]; omega)
  simpa using ne

/-- The notice of a retired instruction's core is the one that it would have raised before (R339). -/
theorem Retired.noticeDie_none {s t : State} {c : Core} {n i pc : Nat} (h : Retired s t c n i pc)
    (hn : isCoreNode n = true) (code : Nat) : t.noticeDie n code none = t.offer n (mkNotice s n code 0 0 0) none := by
  simp only [State.noticeDie, noticeAbout, mkNotice_congr (h.reg_dom hn)]

theorem Retired.tick {s t : State} {c : Core} {n i pc : Nat} (h : Retired s t c n i pc) :
    t.tick = { t with free := s.free + 1 } := by
  have : t.free = s.free := by rw [h.only.rest]
  rw [State.tick, this]

/-- The register that an offset of the core's own space names does not hang on what issues (R67). -/
theorem localPlace_afterIssue (s : State) (n i off : Nat) :
    localPlace n (afterIssue s n i id) off = localPlace n s off := by
  obtain ⟨c, h, -⟩ := beginIssue_spec s n i
  have : (afterIssue s n i id).birth = s.birth := by
    rw [← afterIssue_id, h]
    rfl
  simp only [localPlace, corePlace, regAt, this]

theorem effAddr_held (x : Ctx) (b : Bool) (w : Word) : effAddr { x with held := b } w = effAddr x w := rfl

/-- What issues leaves the slots and counters of its core. -/
theorem core_afterIssue_slot (s : State) (n i sl : Nat) :
    ((afterIssue s n i id).core n).slot sl = (s.core n).slot sl := by
  obtain ⟨cs, h⟩ := afterIssue_core s n i coreOnly_id
  rw [h]
  rfl

theorem core_afterIssue_cc (s : State) (n i c : Nat) : ((afterIssue s n i id).core n).cc c = (s.core n).cc c := by
  obtain ⟨cs, h⟩ := afterIssue_core s n i coreOnly_id
  rw [h]
  rfl

/-- A core that the panel has takes its command. -/
theorem onCore_next {n : Nat} (h : isCoreNode n = true) (s : State) (f : State → State) : onCore n s f = .next (f s) :=
  onUnit_next s f h

/-- RREG of a register that there is (R96). -/
theorem rreg_some {s : State} {n i : Nat} {w : Word} {p : Place} (h : Issues s n i w 0xA0)
    (hp : localPlace n s (effAddr (s.ctx n i) w).toNat = some p) : ∃ t,
    exec (.rreg n) s = .next { t with free := s.free + 1 } ∧
    WritesG s t (s.core n) n i (pcOf s n i + 8) (iD w) (readPlace (beginIssue s n (some i)) p) := by
  have wr := writesG (s := s) (n := n) (i := i) (pc := pcOf s n i + 8) (d := iD w)
    (f := fun _ => readPlace (beginIssue s n (some i)) p) _ rfl coreOnly_id
  refine ⟨_, ?_, wr⟩
  rw [← wr.retired.tick, ← retire_eq s n i _ coreOnly_id]
  change execRreg n s = _
  rw [execRreg, onCore_next h.node, issue_eq h (by decide), afterIssue_id]
  simp only [afterIssue_ctx s n i coreOnly_id, effAddr_held, localPlace_afterIssue, hp]

/-- RREG of an offset that names no register (R30, R97). -/
theorem rreg_none {s : State} {n i : Nat} {w : Word} (h : Issues s n i w 0xA0)
    (hp : localPlace n s (effAddr (s.ctx n i) w).toNat = none) : ∃ t,
    exec (.rreg n) s =
      .next (t.offer n (mkNotice s n (localNotice (effAddr (s.ctx n i) w).toNat) 0 0 0) none) ∧
    WritesG s t (s.core n) n i (pcOf s n i + 8) (iD w) 0 := by
  have wr := writesG (s := s) (n := n) (i := i) (pc := pcOf s n i + 8) (d := iD w) (f := fun _ => 0) 0 rfl coreOnly_id
  refine ⟨_, ?_, wr⟩
  rw [← wr.retired.noticeDie_none h.node, ← retire_eq s n i _ coreOnly_id]
  change execRreg n s = _
  rw [execRreg, onCore_next h.node, issue_eq h (by decide), afterIssue_id]
  simp only [afterIssue_ctx s n i coreOnly_id, effAddr_held, localPlace_afterIssue, hp]

/-- WREG of a register that there is (R96). -/
theorem wreg_some {s : State} {n i : Nat} {w : Word} {p : Place} (h : Issues s n i w 0xA1)
    (hp : localPlace n s (effAddr (s.ctx n i) w).toNat = some p) : ∃ t,
    exec (.wreg n) s = .next (t.writePlace p ((s.ctx n i).getG (iB w))) ∧
    WritesNone s t (s.core n) n i (pcOf s n i + 8) := by
  refine ⟨_, ?_, writesNone s n i (pcOf s n i + 8) coreOnly_id⟩
  rw [← retire_eq s n i _ coreOnly_id]
  change execWreg n s = _
  rw [execWreg, onCore_next h.node, issue_eq h (by decide), afterIssue_id]
  simp only [afterIssue_ctx s n i coreOnly_id, effAddr_held, localPlace_afterIssue, hp]
  rfl

/-- WREG of an offset that names no register (R30, R97). -/
theorem wreg_none {s : State} {n i : Nat} {w : Word} (h : Issues s n i w 0xA1)
    (hp : localPlace n s (effAddr (s.ctx n i) w).toNat = none) : ∃ t,
    exec (.wreg n) s =
      .next (t.offer n (mkNotice s n (localNotice (effAddr (s.ctx n i) w).toNat) 0 0 0) none) ∧
    WritesNone s t (s.core n) n i (pcOf s n i + 8) := by
  have wr := writesNone s n i (pcOf s n i + 8) coreOnly_id
  refine ⟨_, ?_, wr⟩
  rw [← wr.retired.noticeDie_none h.node, ← retire_eq s n i _ coreOnly_id]
  change execWreg n s = _
  rw [execWreg, onCore_next h.node, issue_eq h (by decide), afterIssue_id]
  simp only [afterIssue_ctx s n i coreOnly_id, effAddr_held, localPlace_afterIssue, hp]

theorem localPlace_aligned (s : State) (n : Nat) {off : Nat} (h : off % 8 = 0) :
    localPlace n s off = corePlace s n off :=
  if_pos h

theorem localPlace_absent {s : State} {n off : Nat} (h : off % 8 ≠ 0 ∨ corePlace s n off = none) :
    localPlace n s off = none := by
  unfold localPlace
  split
  · exact h.resolve_left (not_not.2 ‹_›)
  · rfl

theorem corePlace_slot (s : State) (n : Nat) {sl : Nat} (h : sl < 64) :
    corePlace s n (0x1000 + 8 * sl) = some (.slot n sl) := by
  have e : (0x1000 + 8 * sl - 0x1000) / 8 = sl := by omega
  simp only [corePlace, e]
  rw [if_neg (by omega), if_pos (by omega)]

theorem corePlace_cc (s : State) (n : Nat) {c : Nat} (h : c < 4096) :
    corePlace s n (0x1_0000 + 8 * c) = some (.cc n c) := by
  have e : (0x1_0000 + 8 * c - 0x1_0000) / 8 = c := by omega
  simp only [corePlace, e]
  rw [if_neg (by omega), if_neg (by omega), if_pos (by omega)]

/-- Settles O12: RREG and WREG at a place of the core's own space, and at none. -/
theorem localRegisterAccess : Obligations.LocalRegisterAccess := by
  intro s n i w off next code
  refine ⟨fun p h ho hp => ?_, fun sl h hs ho => ?_, fun c h hc ho => ?_, fun h ho => ?_, fun p h ho hp => ?_,
    fun h ho => ?_⟩
  · exact rreg_some h ((localPlace_aligned s n ho).trans hp)
  · have place : localPlace n s off = some (.slot n sl) := by
      rw [ho, localPlace_aligned s n (by omega), corePlace_slot s n hs]
    obtain ⟨t, ht, wr⟩ := rreg_some h place
    refine ⟨t, ht, ?_⟩
    rw [afterIssue_id] at wr
    simpa only [readPlace, core_afterIssue_slot] using wr
  · have place : localPlace n s off = some (.cc n c) := by
      rw [ho, localPlace_aligned s n (by omega), corePlace_cc s n hc]
    obtain ⟨t, ht, wr⟩ := rreg_some h place
    refine ⟨t, ht, ?_⟩
    rw [afterIssue_id] at wr
    simpa only [readPlace, core_afterIssue_cc] using wr
  · exact rreg_none h (localPlace_absent ho)
  · exact wreg_some h ((localPlace_aligned s n ho).trans hp)
  · exact wreg_none h (localPlace_absent ho)

end Sys2Proof.Machine
end

section
/-! SUPPORT. The panel after reset (R32, R403, R434): no register is listed, and what reads zero. -/

namespace Sys2Proof.Machine

/-- No register is listed after reset: each reads the value of its table, and 0 where there is none (R32). -/
theorem reg_reset (k : Blk) (off : Nat) :
    State.reset.reg k off = ((regInfo resetBirth k off).map RegInfo.reset).getD 0 := by
  have held : State.reset.reg k off = match regInfo resetBirth k off with
    | some i => i.reset
    | none => 0 := rfl
  rw [held]
  cases regInfo resetBirth k off <;> rfl

theorem reg_reset_of {k : Blk} {off : Nat} {i : RegInfo} (h : regInfo resetBirth k off = some i) :
    State.reset.reg k off = i.reset := by
  rw [reg_reset, h]
  rfl

theorem headerOn_reset (n : Nat) : headerOn State.reset n = false := rfl

/-- POWER_EN is clear whatever VDD_SET the kind of the site gives (R402). -/
theorem powerEn_reset (st : Nat) : powerEn State.reset st = false := by
  have table : regInfo resetBirth (bSp st) 0x08 =
      some (rwsReg (field 8 8 4 ||| if siteKind st = .compute then field 16 10 750 else 0)
        (msk 2 0 ||| msk 15 8 ||| msk 35 16)) := rfl
  rw [powerEn, reg_reset_of table]
  change bit (field 8 8 4 ||| if siteKind st = .compute then field 16 10 750 else 0) 0 = false
  split <;> decide

theorem coreMember_reset (n : Nat) : coreMember State.reset n = false := by
  have table : regInfo resetBirth (bCore n) 0x30 = some (rwsReg 0 (msk 4 0 ||| msk 11 8 ||| msk 16 16)) := rfl
  rw [coreMember, reg_reset_of table]
  decide

theorem siteTrain_reset (st : Nat) : State.reset.reg (bSm st) 0x400 = 0 := by
  have table : regInfo resetBirth (bSm st) 0x400 = some (roReg 0) := rfl
  rw [reg_reset_of table]
  rfl

theorem portState_reset (k : Nat) : portState State.reset k = 0 := by
  unfold portState
  split
  · rw [State.getField, reg_reset]
    rfl
  · split <;> decide

/-- Settles O56: after reset nothing is listed, so that everything reads as the tables and the defaults give it. -/
theorem resetHoldsThePanel : Obligations.ResetHoldsThePanel := by
  refine ⟨rfl, rfl, rfl, rfl, rfl, Memory.wf_reset, fun n i => ⟨rfl, Nat.zero_le _⟩, fun k off i h => ?_,
    fun n i => ⟨rfl, rfl, fun r => ?_, fun r hr => ?_, fun r l => rfl⟩,
    fun n k => ⟨rfl, rfl, rfl, rfl, rfl, ?_, coreMember_reset n⟩, fun n pl => ⟨rfl, rfl, rfl, rfl, rfl⟩,
    fun n => ⟨rfl, rfl, rfl⟩, fun k => ⟨portState_reset k, rfl, rfl⟩, fun st hst => ⟨?_, ?_, ?_⟩, by decide, by decide,
    by decide, fun r hr => ?_⟩
  · have table : regInfo resetBirth k off = some i := h
    rw [reg_reset_of table]
  · exact ite_self _
  · exact BitVec.getLsbD_zero
  · rw [coreServed, headerOn_reset, Bool.false_and]
  · have kind := (Bool.and_eq_true_iff.1 hst).2
    rw [siteUnpowered, powerEn_reset, kind]
    rfl
  · rw [bondState, State.getField, siteTrain_reset]
    decide
  · rw [dramState, State.getField, siteTrain_reset]
    decide
  · have tables : ∀ r, r < 32 →
        ((regInfo resetBirth (bStw 0) (rgnOff r)).map RegInfo.reset).getD 0 = 0 := by decide
    rw [rgnState, rgnCfg, reg_reset, tables r hr]
    decide

end Sys2Proof.Machine
end

section
/-! SUPPORT. What the injecting router does with a packet, check by check (R26, R138 to R141, R181, R290). -/

namespace Sys2Proof.Machine

/-! ## The source fields (R138) -/

theorem fillSource_h2 (s : State) (n : Nat) (p : Packet) : (fillSource s n p).h2 =
    setBits (setBits (setBits p.h2 59 1 1) 46 13 0) 32 14 (logicalNode s n) := rfl

/-- The router writes bits 32 to 59 of H2 alone. -/
theorem bits_fillSource_h2 (s : State) (n : Nat) (p : Packet) {lo len : Nat} (h : lo + len ≤ 32 ∨ 60 ≤ lo) :
    bits (fillSource s n p).h2 lo len = bits p.h2 lo len := by
  rw [fillSource_h2, bits_setBits_other _ _ _ _ _ _ (by omega) (by omega),
    bits_setBits_other _ _ _ _ _ _ (by omega) (by omega), bits_setBits_other _ _ _ _ _ _ (by omega) (by omega)]

theorem bit_fillSource_h2 (s : State) (n : Nat) (p : Packet) {i : Nat} (h : i < 32) :
    bit (fillSource s n p).h2 i = bit p.h2 i := by
  rw [fillSource_h2, bit_setBits_other _ _ _ _ _ (by omega) (by omega),
    bit_setBits_other _ _ _ _ _ (by omega) (by omega), bit_setBits_other _ _ _ _ _ (by omega) (by omega)]

theorem pSrcLocal_fillSource (s : State) (n : Nat) (p : Packet) : pSrcLocal (fillSource s n p) = true := by
  rw [pSrcLocal, fillSource_h2, bit_setBits_other _ _ _ _ _ (by decide) (by decide),
    bit_setBits_other _ _ _ _ _ (by decide) (by decide)]
  exact (bit_setBit p.h2 59 59 true (by decide)).trans (if_pos rfl)

theorem pSrcPanel_fillSource (s : State) (n : Nat) (p : Packet) : pSrcPanel (fillSource s n p) = 0 := by
  rw [pSrcPanel, fillSource_h2, bits_setBits_other _ _ _ _ _ _ (by decide) (by decide),
    bits_setBits_same _ _ _ _ (by decide),
    Nat.zero_mod]

theorem pSrcNode_fillSource (s : State) (n : Nat) (p : Packet) :
    pSrcNode (fillSource s n p) = logicalNode s n % 2 ^ 14 := by
  rw [pSrcNode, fillSource_h2, bits_setBits_same _ _ _ _ (by decide)]

theorem isTree_fillSource (s : State) (n : Nat) (p : Packet) : isTree (fillSource s n p) = isTree p := by
  unfold isTree
  rw [bit_fillSource_h2 s n p (by decide)]
  rfl

/-- The source fields hang on the site map of the router. -/
theorem fillSource_congr {s t : State} (h : ∀ k off, t.reg k off = s.reg k off) (n : Nat) (p : Packet) :
    fillSource t n p = fillSource s n p := by
  simp only [fillSource, logicalNode, mapSite, h]

/-! ## The level and the address -/

theorem levelBad_eq_false {p : Packet} {lv : Nat} : levelBad p lv = false ↔ pLevel p ≠ 0 ∧ pLevel p ≤ lv := by
  simp [levelBad]

theorem addrCheck_space {p : Packet} (h : 9 ≤ aSpace p.h1) : addrCheck p = some 0x0210 := if_pos h

theorem addrCheck_node {p : Packet} (h : aSpace p.h1 < 9) (hn : 12288 ≤ aNode p.h1) : addrCheck p = some 0x0211 := by
  rw [addrCheck, if_neg (by omega), if_pos hn]

theorem addrCheck_none {p : Packet} (h : aSpace p.h1 < 9) (hn : aNode p.h1 < 12288) : addrCheck p = none := by
  rw [addrCheck, if_neg (by omega), if_neg (by omega)]

/-- The source fields are no part of the address. -/
theorem addrCheck_fillSource (s : State) (n : Nat) (p : Packet) : addrCheck (fillSource s n p) = addrCheck p := rfl

/-! ## Entering -/

/-- A packet whose level the site takes goes on to the checks of the router. -/
theorem inject_of_level {s : State} {n : Nat} {p : Packet}
    (h : pLevel p ≠ 0 ∧ pLevel p ≤ siteLevel s (siteOf n)) (pl : Nat) (pt : Port) (keep : Bool) :
    s.inject n pl pt p keep = s.enterChecked n pl pt p keep := by
  rw [State.inject, levelBad_eq_false.2 h]
  exact if_neg Bool.false_ne_true

/-- A packet that passes every check is taken at the root of its tree. -/
theorem enterChecked_good {s : State} {p : Packet} (hc : headerCheck p = none) (hs : aSpace p.h1 < 9)
    (hn : aNode p.h1 < 12288) (n pl : Nat) (pt : Port) : s.enterChecked n pl pt p false =
      s.rootOnly n pl pt (fillSource s n p) fun t => t.enter n pl { arrived (fillSource s n p) pt with
        toCome := if pt = .v then linkSlots (fillSource s n p) - 1 else 0 } := by
  unfold State.enterChecked
  rw [hc]
  simp only [Bool.false_eq_true, if_false, addrCheck_fillSource, addrCheck_none hs hn]

/-- No packet of a tree may combine (R255). -/
theorem combinable_of_isTree {p : Packet} (h : isTree p = true) : combinable p = false := by
  have kind : pKind p ≠ kRedPart := by
    intro e
    simp [isTree, e, kRedPart, kMcastWrite, kReadResp] at h
  rw [combinable, beq_false_of_ne kind]
  rfl

theorem combines_of_bit {s : State} {n pl : Nat} (h : bit (s.reg (bRtr n) 0x80) pl = false) :
    combines s n pl = false := by
  rw [combines, h, Bool.false_and]

/-- A packet that does not meet the combining buffers waits at its input as it arrives (R169). -/
theorem enter_waits {s : State} {n pl : Nat} {q : Packet} (h : (combines s n pl && combinable q) = false) (pt : Port)
    (more : Nat) : s.enter n pl { arrived q pt with toCome := more } = s.setPlane n pl { s.plane n pl with
      inputs := (s.plane n pl).inputs ++ [⟨q, pt, 0, false, none, decide (pt = .v), more⟩] } := by
  have header : ({ arrived q pt with toCome := more } : Header) = ⟨q, pt, 0, false, none, decide (pt = .v), more⟩ := by
    cases pt <;> rfl
  have may : (combines s n pl && combinable { arrived q pt with toCome := more }.pkt) = false := h
  rw [State.enter, may, header]
  rfl

/-- A packet of a tree is taken at the root of the tree alone (R181). -/
theorem rootOnly_eq (s : State) (n pl : Nat) (pt : Port) (q : Packet) (f : State → State) : s.rootOnly n pl pt q f =
    if isTree q = false then f s
    else if (s.router n).badTree.contains (pGroup q) = true then s.routerDrop n pl pt q true (some 0x0202)
    else if bit (treeEntry s n (pGroup q)) 0 = true ∧ bits (treeEntry s n (pGroup q)) 1 3 = 4 then f s
    else s.routerDrop n pl pt q false (some 0x0203) := by
  simp [State.rootOnly]

/-- A notice that waits alone in the Plain enters by the plane-transfer path, with no level check (R290, R447). -/
theorem enterPlain_single {s : State} {n pl : Nat} {p : Packet} (h : (s.router n).plain = [p]) (hp : pl = n % 4) :
    s.enterPlain n pl =
      (s.setRouter n { s.router n with plain := [] }).enterChecked n pl .x p false := by
  unfold State.enterPlain
  rw [h]
  simp only [if_pos hp, State.modRouter_eq, List.foldl_cons, List.foldl_nil]

/-! ## The checks of the header (R139 to R141) -/

/-- The kinds that are defined (R139). -/
theorem mem_kinds (k : Nat) : k ∈ kinds ↔
    k ∈ [0x01, 0x02, 0x03, 0x04, 0x05, 0x06, 0x07, 0x08, 0x09, 0x0C, 0x0D, 0x10, 0x11, 0x14, 0x18] := Iff.rfl

theorem classOk_iff (k c : Nat) : classOk k c = true ↔
    if k ∈ [0x06, 0x08, 0x0C, 0x0D, 0x14] then c = 0
    else if k ∈ [0x07, 0x09, 0x10, 0x11, 0x18] then c = 1
    else c ≤ 1 := by
  unfold classOk
  have data : (k = kMcastWrite ∨ k = kRedPart ∨ k = kLedgerOp ∨ k = kLedgerReply ∨ k = kCell) ↔
      k ∈ [0x06, 0x08, 0x0C, 0x0D, 0x14] := by simp [kMcastWrite, kRedPart, kLedgerOp, kLedgerReply, kCell]
  have small : (k = kAck ∨ k = kRedDone ∨ k = kControl ∨ k = kNotice ∨ k = kCredit) ↔
      k ∈ [0x07, 0x09, 0x10, 0x11, 0x18] := by simp [kAck, kRedDone, kControl, kNotice, kCredit]
  rw [if_congr data rfl rfl, if_congr small rfl rfl]
  split
  · simp
  · split
    · simp
    · simp only [decide_eq_true_eq]
      omega

theorem lenOk_iff (p : Packet) : lenOk p = true ↔ pLen p ≤ 8256 ∧ (pClass p = 1 → pLen p ≤ 256) ∧
    (pKind p = 0x05 → pLen p = 8) ∧ (pKind p = 0x14 → pLen p = 32) ∧
    (pKind p = 0x07 ∨ pKind p = 0x18 → pLen p = 0) := by
  have fixed : (if pKind p = kSignal then pLen p == 8 else if pKind p = kCell then pLen p == 32
      else if pKind p = kAck ∨ pKind p = kCredit then pLen p == 0 else true) = true ↔
      (pKind p = 0x05 → pLen p = 8) ∧ (pKind p = 0x14 → pLen p = 32) ∧
        (pKind p = 0x07 ∨ pKind p = 0x18 → pLen p = 0) := by
    simp only [kSignal, kCell, kAck, kCredit]
    by_cases h5 : pKind p = 0x05
    · simp [h5]
    · by_cases h14 : pKind p = 0x14
      · simp [h14]
      · by_cases h0 : pKind p = 0x07 ∨ pKind p = 0x18 <;> simp [h5, h14, h0]
  unfold lenOk
  dsimp only
  rw [Bool.and_eq_true, fixed]
  simp only [Bool.and_eq_true, decide_eq_true_eq, Bool.not_eq_true', Bool.and_eq_false_imp, beq_iff_eq,
    decide_eq_false_iff_not, not_lt, and_assoc]

theorem isMcOrigin_iff (p : Packet) :
    isMcOrigin p = true ↔ pKind p = 0x06 ∨ pKind p = 0x02 ∧ bit p.h2 17 = true := by
  simp [isMcOrigin, kMcastWrite, kReadReq, pMc]

/-- A packet names a group beyond those of its kind (R140, R141). -/
def groupBad (p : Packet) : Bool :=
  (isMcOrigin p && decide (4095 < pGroup p)) ||
    ((pKind p == kRedPart || pKind p == kRedDone) && decide (16383 < pGroup p))

theorem groupBad_iff (p : Packet) : groupBad p = false ↔
    (isMcOrigin p = true → pGroup p ≤ 4095) ∧ (pKind p = 0x08 ∨ pKind p = 0x09 → pGroup p ≤ 16383) := by
  simp [groupBad, kRedPart, kRedDone]

/-- The first check that fails gives its notice. -/
theorem headerCheck_eq (p : Packet) : headerCheck p =
    if pKind p ∉ kinds then some 0x0220
    else if classOk (pKind p) (pClass p) = false then some 0x0221
    else if lenOk p = false then some 0x0222
    else if groupBad p = true then some 0x0223
    else if isMcOrigin p = true ∧ aLocal p.h1 = false then some 0x0224
    else none := by
  simp [headerCheck, groupBad]

/-- Settles O22: the checks in their order, and what each leaves to do. -/
theorem injectingRouterChecksAndFillsTheHeader : Obligations.InjectingRouterChecksAndFillsTheHeader := by
  refine ⟨?_, ?_⟩
  · intro s n pl pt p r q more levelOk
    refine ⟨fun h => ?_, fun c hl hc => ?_, fun hl hc hs => ?_, fun hl hc hs hn => ?_, fun hl hc hs hn ht hb => ?_,
      fun hl hc hs hn ht => ?_, fun hq hp hc hs hn ht hb => ?_, rfl, rfl, rfl, rfl, pSrcLocal_fillSource s n p,
      pSrcPanel_fillSource s n p, pSrcNode_fillSource s n p, bits_fillSource_h2 s n p (by decide),
      bits_fillSource_h2 s n p (by decide)⟩
    · have bad : levelBad p (siteLevel s (siteOf n)) = true := by
        rw [← Bool.not_eq_false, levelBad_eq_false]
        exact h
      rw [State.inject, if_pos bad]
    · rw [inject_of_level hl, State.enterChecked, hc]
      rfl
    · rw [inject_of_level hl, State.enterChecked, hc]
      simp only [Bool.false_eq_true, if_false, addrCheck_fillSource, addrCheck_space hs, q]
    · rw [inject_of_level hl, State.enterChecked, hc]
      simp only [Bool.false_eq_true, if_false, addrCheck_fillSource, addrCheck_node hs hn, q]
    · have may : (combines s n pl && combinable (fillSource s n p)) = false := by
        rw [combines_of_bit hb, Bool.false_and]
      rw [inject_of_level hl, enterChecked_good hc hs hn, rootOnly_eq, if_pos ((isTree_fillSource s n p).trans ht),
        enter_waits may]
    · have tree : isTree (fillSource s n p) = true := (isTree_fillSource s n p).trans ht
      have may : (combines s n pl && combinable (fillSource s n p)) = false := by
        rw [combinable_of_isTree tree, Bool.and_false]
      have entered : s.inject n pl pt p false = if (s.router n).badTree.contains (pGroup q) = true
          then s.routerDrop n pl pt q true (some 0x0202)
          else if bit (treeEntry s n (pGroup q)) 0 = true ∧ bits (treeEntry s n (pGroup q)) 1 3 = 4
          then s.setPlane n pl { r with inputs := r.inputs ++ [⟨q, pt, 0, false, none, decide (pt = .v), more⟩] }
          else s.routerDrop n pl pt q false (some 0x0203) := by
        rw [inject_of_level hl, enterChecked_good hc hs hn, rootOnly_eq, if_neg (by simp [tree]), enter_waits may]
      exact entered
    · have source : fillSource (s.setRouter n { s.router n with plain := [] }) n p = q :=
        fillSource_congr (fun k off => s.reg_setRouter n _ k off) n p
      have may : (combines (s.setRouter n { s.router n with plain := [] }) n pl && combinable q) = false := by
        rw [combines_of_bit ((congrArg (bit · pl) (s.reg_setRouter n _ _ _)).trans hb), Bool.false_and]
      have plane : (s.setRouter n { s.router n with plain := [] }).plane n pl = r := by
        rw [State.plane_eq, State.router_setRouter, if_pos rfl]
        rfl
      rw [enterPlain_single hq hp, enterChecked_good hc hs hn, source, rootOnly_eq,
        if_pos ((isTree_fillSource s n p).trans ht), enter_waits may, plane]
      rfl
  · intro p k kindOk cOk lOk mc gOk
    have hk : kindOk ↔ ¬ k ∉ kinds := not_not.symm
    have hc : cOk ↔ ¬ classOk k (pClass p) = false := by rw [Bool.not_eq_false, classOk_iff]
    have hl : lOk ↔ ¬ lenOk p = false := by rw [Bool.not_eq_false, lenOk_iff]
    have hm : mc ↔ isMcOrigin p = true := (isMcOrigin_iff p).symm
    have hg : gOk ↔ ¬ groupBad p = true := by
      rw [Bool.not_eq_true, groupBad_iff, isMcOrigin_iff]
    rw [headerCheck_eq p]
    refine ⟨fun nk => ?_, fun pk nc => ?_, fun pk pc nl => ?_, fun pk pc pl ng => ?_, fun pk pc pl pg pm far => ?_,
      fun pk pc pl pg pm => ?_⟩
    · exact if_pos (not_not.1 (mt hk.2 nk))
    · rw [if_neg (hk.1 pk), if_pos (not_not.1 (mt hc.2 nc))]
    · rw [if_neg (hk.1 pk), if_neg (hc.1 pc), if_pos (not_not.1 (mt hl.2 nl))]
    · rw [if_neg (hk.1 pk), if_neg (hc.1 pc), if_neg (hl.1 pl), if_pos (not_not.1 (mt hg.2 ng))]
    · rw [if_neg (hk.1 pk), if_neg (hc.1 pc), if_neg (hl.1 pl), if_neg (hg.1 pg), if_pos ⟨hm.1 pm, far⟩]
    · have near : ¬ (isMcOrigin p = true ∧ aLocal p.h1 = false) := fun ⟨m, f⟩ =>
        pm.elim (fun nm => nm (hm.2 m)) fun t => Bool.false_ne_true (f.symm.trans t)
      rw [if_neg (hk.1 pk), if_neg (hc.1 pc), if_neg (hl.1 pl), if_neg (hg.1 pg), if_neg near]

end Sys2Proof.Machine
end

section
/-! SUPPORT. A packet delivered at a node meets its resource (R25, R26, R62, R386, R421, R446). -/

namespace Sys2Proof.Machine

/-! ## What a change of routers leaves of the checks -/

section
variable {s t : State} (h : RoutersOnly s t)
include h

theorem RoutersOnly.addrHere (a : Word) : addrHere t a = addrHere s a := by
  rw [h]
  rfl

theorem RoutersOnly.siteUnpowered (st : Nat) : siteUnpowered t st = siteUnpowered s st := by
  rw [h]
  rfl

theorem RoutersOnly.toCore (n : Nat) (p : Packet) : toCore t n p = toCore s n p := by
  rw [h]
  rfl

theorem RoutersOnly.coreDenies (n : Nat) (p : Packet) : coreDenies t n p = coreDenies s n p := by
  rw [h]
  rfl

theorem RoutersOnly.genDiffers (n : Nat) (p : Packet) : genDiffers t n p = genDiffers s n p := by
  rw [h]
  rfl

theorem RoutersOnly.atCore (n pl : Nat) (p : Packet) (f : State → State) : t.atCore n pl p f =
    if Machine.coreDenies s n p = true then t.creditDie n pl p
    else if Machine.genDiffers s n p = true then t.genDrop n p else f t := by
  unfold State.atCore
  rw [h.coreDenies, h.genDiffers]

end

/-! ## The packet leaves its place -/

theorem takeFirst_of_mem {α : Type} {f : α → Bool} {x : α} (post : List α) (hx : f x = true) :
    ∀ pre : List α, (∀ y ∈ pre, f y = false) → takeFirst f (pre ++ x :: post) = some (x, pre ++ post)
  | [], _ => by simp [takeFirst, hx]
  | y :: rest, h => by
    have ih := takeFirst_of_mem post hx rest fun z hz => h z (List.mem_cons_of_mem y hz)
    simp only [List.cons_append, takeFirst, h y List.mem_cons_self, ih, Bool.false_eq_true, if_false]

theorem takeFirst_eq_none {α : Type} {f : α → Bool} : ∀ {l : List α}, (∀ y ∈ l, f y = false) → takeFirst f l = none
  | [], _ => rfl
  | y :: rest, h => by
    have ih := takeFirst_eq_none fun z hz => h z (List.mem_cons_of_mem y hz)
    simp only [takeFirst, h y List.mem_cons_self, ih, Bool.false_eq_true, if_false]

/-! ## The resource -/

theorem onPlane_next {n pl : Nat} (hn : isNode n = true) (hp : pl < 4) (s : State) (f : State → State) :
    onPlane n pl s f = .next (f s) := by
  rw [onPlane, hn, decide_eq_true hp]
  rfl

/-- A packet that is delivered is taken from where it waits and meets its resource, past what stands before it. -/
theorem onDelivery_eq {s : State} {n pl k : Nat} {p : Packet} (h : Delivered s n pl k p)
    (f : State → Port → Resource → State) : onDelivery n pl k p s f = .next (
      if resourceAt s n p = .absent then (s.takeUp n pl p).discardAt n pl (upPort s n pl p) p 0x0213
      else if (aSpace p.h1 = 0 ∨ aSpace p.h1 = 4) ∧ siteUnpowered s (siteOf n) = true then
        (s.takeUp n pl p).creditDie n pl p
      else if toCore s n p = true then
        if coreDenies s n p = true then (s.takeUp n pl p).creditDie n pl p
        else if genDiffers s n p = true then (s.takeUp n pl p).genDrop n p
        else f (s.takeUp n pl p) (upPort s n pl p) (resourceAt s n p)
      else f (s.takeUp n pl p) (upPort s n pl p) (resourceAt s n p)) := by
  have taken := routersOnly_takeUp s n pl p
  have met : ¬ (pKind p ≠ k ∨ (!addrHere s p.h1) = true ∨ siteKind (siteOf n) = .link ∧ inFarWindow s p.h1 = true) := by
    rintro (kind | here | ⟨link, far⟩)
    · exact kind h.kind
    · rw [h.here] at here
      exact Bool.false_ne_true here
    · rw [h.near link] at far
      exact Bool.false_ne_true far
  rw [onDelivery, onPlane_next h.node h.plane, if_neg met]
  simp only [taken.siteUnpowered, taken.toCore, taken.atCore]

/-! ## A packet for a core -/

/-- A core lies above a node of a compute site. -/
theorem isCoreNode_iff (n : Nat) : isCoreNode n = true ↔ isNode n = true ∧ siteKind (siteOf n) = .compute := by
  simp [isCoreNode]

/-- Spaces 0x1 and 0x2 of a compute site are the core's. -/
theorem toCore_of {s : State} {n : Nat} {p : Packet} (hn : isCoreNode n = true) (here : addrHere s p.h1 = true)
    (sp : aSpace p.h1 = 1 ∨ aSpace p.h1 = 2) : toCore s n p = true := by
  simp [toCore, here, ((isCoreNode_iff n).1 hn).2, sp]

theorem resourceAt_core {s : State} {n : Nat} {p : Packet} (hn : isCoreNode n = true) (here : addrHere s p.h1 = true)
    (sp : aSpace p.h1 = 1 ∨ aSpace p.h1 = 2) :
    resourceAt s n p = if aSpace p.h1 = 1 then .spad else .regs := by
  have kind := ((isCoreNode_iff n).1 hn).2
  obtain sp | sp := sp <;> simp [resourceAt, inPlain, servedAbove, here, kind, sp]

/-- A packet for a core meets what stands before the core, then its resource. -/
theorem onDelivery_core {s : State} {n pl k : Nat} {p : Packet} (h : Delivered s n pl k p) (hn : isCoreNode n = true)
    (sp : aSpace p.h1 = 1 ∨ aSpace p.h1 = 2) (f : State → Port → Resource → State) : onDelivery n pl k p s f = .next (
      if coreDenies s n p = true then (s.takeUp n pl p).creditDie n pl p
      else if genDiffers s n p = true then (s.takeUp n pl p).genDrop n p
      else f (s.takeUp n pl p) (upPort s n pl p) (if aSpace p.h1 = 1 then .spad else .regs)) := by
  have there : (if aSpace p.h1 = 1 then Resource.spad else Resource.regs) ≠ .absent := by split <;> decide
  have other : ¬ ((aSpace p.h1 = 0 ∨ aSpace p.h1 = 4) ∧ siteUnpowered s (siteOf n) = true) := by omega
  rw [onDelivery_eq h, resourceAt_core hn h.here sp, if_neg there, if_neg other, if_pos (toCore_of hn h.here sp)]

theorem Reaches.delivered {s : State} {n pl k sp : Nat} {p : Packet} (h : Reaches s n pl k sp p) :
    Delivered s n pl k p := by
  obtain ⟨node, kind⟩ := (isCoreNode_iff n).1 h.core
  exact ⟨node, h.plane, h.kind, h.here, fun link => nomatch kind.symm.trans link⟩

/-- Nothing turns the packet away. -/
theorem Reaches.coreDenies {s : State} {n pl k sp : Nat} {p : Packet} (h : Reaches s n pl k sp p) :
    coreDenies s n p = false := by
  simp [Machine.coreDenies, h.powered, h.headers, h.open_]

/-- A packet that reaches a core's memories meets them. -/
theorem Reaches.spad {s : State} {n pl k : Nat} {p : Packet} (h : Reaches s n pl k 1 p)
    (f : State → Port → Resource → State) :
    onDelivery n pl k p s f = .next (f (s.takeUp n pl p) (upPort s n pl p) .spad) := by
  rw [onDelivery_core h.delivered h.core (.inl h.space), h.coreDenies, h.gen, h.space]
  rfl

theorem Reaches.spad_eq {s u : State} {n pl k : Nat} {p : Packet} (h : Reaches s n pl k 1 p)
    {f : State → Port → Resource → State} (hf : f (s.takeUp n pl p) (upPort s n pl p) .spad = u) :
    onDelivery n pl k p s f = .next u := by
  rw [h.spad, hf]

/-! ## The fields of a packet that is built -/

/-- A field that was read is within its width. -/
theorem bits_mod (w : Word) (lo len : Nat) : bits w lo len % 2 ^ len = bits w lo len :=
  Nat.mod_eq_of_lt (bits_lt w lo len)

/-- A field of a word that is put together from fields, read back. -/
theorem bits_mkH0 (kind cls gen len cid : Nat) :
    bits (mkH0 kind cls gen len cid) 54 6 = kind % 2 ^ 6 ∧ bits (mkH0 kind cls gen len cid) 52 2 = cls % 2 ^ 2 ∧
    bits (mkH0 kind cls gen len cid) 48 4 = gen % 2 ^ 4 ∧ bits (mkH0 kind cls gen len cid) 26 14 = len % 2 ^ 14 ∧
    bits (mkH0 kind cls gen len cid) 14 12 = cid % 2 ^ 12 := by
  refine ⟨?_, ?_, ?_, ?_, ?_⟩ <;> simp [mkH0, bits_or, bits_field_same, bits_field_other]

theorem bit_or (a b : Word) (i : Nat) : bit (a ||| b) i = (bit a i || bit b i) := by
  simp [bit]

theorem bit_field_same (lo v : Nat) (h : lo + 1 ≤ 64) : bit (field lo 1 v) lo = v.testBit 0 := by
  simp [bit, field_getLsbD _ _ _ _ h]

theorem bit_field_other (lo len v i : Nat) (h : lo + len ≤ 64) (hi : i < lo ∨ lo + len ≤ i) :
    bit (field lo len v) i = false := by
  have : (decide (lo ≤ i) && decide (i < lo + len)) = false := by
    rw [← Bool.decide_and]
    exact decide_eq_false (by omega)
  rw [bit, field_getLsbD _ _ _ _ h, this, Bool.false_and]

theorem mkAddr_fields (sp : Nat) (l : Bool) (panel node off : Nat) :
    aSpace (mkAddr sp l panel node off) = sp % 2 ^ 4 ∧ aLocal (mkAddr sp l panel node off) = l ∧
    aPanel (mkAddr sp l panel node off) = panel % 2 ^ 13 ∧ aNode (mkAddr sp l panel node off) = node % 2 ^ 14 ∧
    aOff (mkAddr sp l panel node off) = off % 2 ^ 32 := by
  have flag : (Bool.toNat l).testBit 0 = l := by cases l <;> rfl
  refine ⟨?_, ?_, ?_, ?_, ?_⟩ <;>
    simp [aSpace, aLocal, aPanel, aNode, aOff, mkAddr, bits_or, bits_field_same, bits_field_other, bit_or,
      bit_field_same, bit_field_other, flag]

end Sys2Proof.Machine
end

section
/-! SUPPORT. The packets that bring data to a core's memories, or ask for some (R52, R142 to R147, R253, R445). -/

namespace Sys2Proof.Machine

/-! ## What is built in answer -/

theorem State.ackDie_none (u : State) (n pl : Nat) {p : Packet} (h : pAckReq p = false) : u.ackDie n pl p = u := by
  rw [State.ackDie, ackFor, h]
  simp

/-- The acknowledgement of a WRITE (R145). -/
def ackOf (p : Packet) : Packet :=
  { h0 := mkH0 kAck 1 (pGen p) 0 (pRetCc p), h1 := returnAddr p 0, h2 := field 0 30 (pTag p), h3 := p.h3, data := [] }

theorem State.ackDie_some (u : State) (n pl : Nat) {p : Packet} (hk : pKind p = 0x01) (h : pAckReq p = true) :
    u.ackDie n pl p = u.offer n (ackOf p) (some pl) := by
  rw [State.ackDie, ackFor, if_pos ⟨hk, h⟩]
  rfl

/-- What is returned to the source of a packet goes to its memory (R142). -/
theorem returnAddr_fields (p : Packet) (off : Nat) :
    aSpace (returnAddr p off) = 1 ∧ aLocal (returnAddr p off) = pSrcLocal p ∧
    aPanel (returnAddr p off) = pSrcPanel p ∧ aNode (returnAddr p off) = pSrcNode p ∧
    aOff (returnAddr p off) = off % 2 ^ 32 := by
  obtain ⟨sp, l, panel, node, o⟩ := mkAddr_fields 1 (pSrcLocal p) (pSrcPanel p) (pSrcNode p) off
  exact ⟨sp, l, panel.trans (bits_mod ..), node.trans (bits_mod ..), o⟩

/-! ## Bytes -/

@[simp] theorem padTo_length (n : Nat) (l : List Byte) : (padTo n l).length = n := by
  simp only [padTo, List.length_take, List.length_append, List.length_replicate]
  omega

theorem padTo_getD (n : Nat) (l : List Byte) {k : Nat} (h : k < n) : (padTo n l).getD k 0 = l.getD k 0 := by
  simp only [padTo, List.getD_eq_getElem?_getD, List.getElem?_take, h, if_true]
  by_cases hk : k < l.length
  · rw [List.getElem?_append_left hk]
  · rw [List.getElem?_append_right (by omega), List.getElem?_replicate, List.getElem?_eq_none (by omega : l.length ≤ k)]
    split <;> rfl

/-- A packet that is no READ_REQ carries LENGTH bytes (R138). -/
theorem pBytes_of {p : Packet} (h : pKind p ≠ 0x02) : pBytes p = padTo (pLen p) p.data := if_neg h

theorem pBytes_length {p : Packet} (h : pKind p ≠ 0x02) : (pBytes p).length = pLen p := by
  rw [pBytes_of h, padTo_length]

theorem pBytes_getD {p : Packet} (h : pKind p ≠ 0x02) {k : Nat} (hk : k < pLen p) :
    (pBytes p).getD k 0 = payloadByte p k := by
  rw [pBytes_of h, padTo_getD _ _ hk]
  rfl

theorem Sparse.readBytes_length (d : Nat → Byte) (m : Sparse Byte) (a n : Nat) :
    (Sparse.readBytes d m a n).length = n := by
  induction n generalizing a with
  | zero => rfl
  | succ n ih => rw [Sparse.readBytes, List.length_cons, ih]

theorem Sparse.readBytes_getD (m : Sparse Byte) (a n : Nat) {k : Nat} (h : k < n) :
    (Sparse.readBytes (fun _ => 0) m a n).getD k 0 = Sparse.getD 0 m (a + k) := by
  induction n generalizing a k with
  | zero => omega
  | succ n ih =>
    cases k with
    | zero => rfl
    | succ k =>
      rw [Sparse.readBytes, List.getD_cons_succ, ih (a + 1) (by omega), Nat.add_assoc, Nat.add_comm 1 k]

/-! ## A core's memories -/

/-- A packet whose bytes are in a core's memories does not leave them. -/
theorem memOutside_iff (p : Packet) (len : Nat) : memOutside p len = false ↔ InMem (aOff p.h1) (max len 1) := by
  simp only [memOutside, offsetsIn, InMem, Bool.not_eq_false', if_neg one_ne_zero, Bool.or_eq_true,
    Bool.and_eq_true, decide_eq_true_eq]
  exact Iff.rfl

theorem memOutside_true {p : Packet} {len : Nat} (h : ¬ InMem (aOff p.h1) (max len 1)) : memOutside p len = true := by
  rw [← Bool.not_eq_false, memOutside_iff]
  exact h

theorem Core.readMem_length (c : Core) (a n : Nat) : (c.readMem a n).length = n := by
  rw [Core.readMem]
  split <;> exact Sparse.readBytes_length ..

/-- Reading returns the bytes of the memory that holds the first. -/
theorem Core.readMem_getD (c : Core) {a n k : Nat} (h : InMem a (max n 1)) (hk : k < n) :
    (c.readMem a n).getD k 0 = c.memByte (a + k) := by
  unfold InMem at h
  by_cases low : a < 0x0100_0000
  · rw [Core.readMem, if_pos low, Core.memByte, if_pos (by omega)]
    exact Sparse.readBytes_getD _ _ _ hk
  · rw [Core.readMem, if_neg low, Core.memByte, if_neg (by omega), Nat.sub_add_comm (by omega)]
    exact Sparse.readBytes_getD _ _ _ hk

theorem firstBad_eq (bad : List Nat) (a n : Nat) : firstBad bad a n = if n = 0 then none
    else (bad.filter fun w => decide (a / 8 ≤ w) && decide (w ≤ (a + n - 1) / 8)).min?.map (8 * ·) := by
  unfold firstBad
  cases (bad.filter fun w => decide (a / 8 ≤ w) && decide (w ≤ (a + n - 1) / 8)).min? <;> rfl

theorem firstBad_isSome_iff (bad : List Nat) (a n : Nat) : (firstBad bad a n).isSome = true ↔
    0 < n ∧ ∃ w ∈ bad, a / 8 ≤ w ∧ w ≤ (a + n - 1) / 8 := by
  rw [firstBad_eq]
  by_cases hn : n = 0
  · simp [hn]
  · rw [if_neg hn, Option.isSome_map, Option.isSome_iff_ne_none, Ne, List.min?_eq_none_iff, List.filter_eq_nil_iff]
    simp only [Bool.and_eq_true, decide_eq_true_eq, not_forall, not_not, exists_prop, Nat.pos_of_ne_zero hn, true_and]

/-- A parity error among the words read is one that the words of the bytes hold (R52). -/
theorem Core.memBad_iff (c : Core) (a n : Nat) : c.memBad a n = true ↔ 0 < n ∧ ¬ c.memParityOk a n := by
  have words : ∀ (bad : List Nat) (b : Nat), (firstBad bad b n).isSome = true ↔
      0 < n ∧ ¬ ∀ w ∈ bad, 8 * w + 8 ≤ b / 8 * 8 ∨ b + n ≤ 8 * w := by
    intro bad b
    rw [firstBad_isSome_iff]
    simp only [not_forall, exists_prop]
    refine and_congr_right fun hn => exists_congr fun w => and_congr_right fun _ => ?_
    omega
  unfold Core.memBad Core.memParityOk Core.parityOk
  split <;> exact words _ _

theorem mem_keepBad (bad : List Nat) (a n w : Nat) :
    w ∈ keepBad bad a n ↔ w ∈ bad ∧ ¬ (a ≤ 8 * w ∧ 8 * w + 8 ≤ a + n) := by
  simp only [keepBad, List.mem_filter, Bool.not_eq_true', ← Bool.decide_and, decide_eq_false_iff_not]

/-- Bytes that are written in a core's memories change these bytes alone, and a word written whole has no parity error
any longer (R52, R146). -/
theorem Core.writeMem_spec (c : Core) {a : Nat} {b : List Byte} {byte : Nat → Byte} (mem : InMem a (max b.length 1))
    (hb : ∀ k, k < b.length → b.getD k 0 = byte k) :
    let d := c.writeMem a b
    d = { c with spad := d.spad, imem := d.imem, badSpad := d.badSpad, badImem := d.badImem } ∧
    (∀ x, x < 0x20_0000 → d.spadByte x = if a ≤ x ∧ x < a + b.length then byte (x - a) else c.spadByte x) ∧
    (∀ x, x < 0x1_0000 → d.imemByte x =
      if a ≤ 0x0100_0000 + x ∧ 0x0100_0000 + x < a + b.length then byte (0x0100_0000 + x - a) else c.imemByte x) ∧
    (∀ w, w < 0x4_0000 → (w ∈ d.badSpad ↔ w ∈ c.badSpad ∧ ¬ (a ≤ 8 * w ∧ 8 * w + 8 ≤ a + b.length))) ∧
    (∀ w, w < 0x2000 → (w ∈ d.badImem ↔
      w ∈ c.badImem ∧ ¬ (a ≤ 0x0100_0000 + 8 * w ∧ 0x0100_0000 + 8 * w + 8 ≤ a + b.length))) := by
  intro d
  unfold InMem at mem
  by_cases none : b = []
  · have same : d = c := if_pos none
    subst none
    rw [same]
    refine ⟨rfl, fun x _ => (if_neg ?_).symm, fun x _ => (if_neg ?_).symm,
      fun w _ => (and_iff_left ?_).symm, fun w _ => (and_iff_left ?_).symm⟩ <;> simp only [List.length_nil] <;> omega
  · by_cases low : a < 0x0100_0000
    · have written : d = c.writeSpad a b := (if_neg none).trans (if_pos low)
      rw [written]
      refine ⟨rfl, fun x _ => ?_, fun x _ => (if_neg (by omega)).symm, fun w _ => mem_keepBad .., fun w _ =>
        (and_iff_left (by omega)).symm⟩
      refine (Sparse.getD_writeZ ..).trans (if_ctx_congr Iff.rfl (fun within => hb _ (by omega)) fun _ => rfl)
    · have written : d = c.writeImem (a - 0x0100_0000) b := (if_neg none).trans (if_neg low)
      rw [written]
      refine ⟨rfl, fun x _ => (if_neg (by omega)).symm, fun x _ => ?_, fun w _ => (and_iff_left (by omega)).symm,
        fun w _ => (mem_keepBad ..).trans (and_congr_right fun _ => not_congr (by omega))⟩
      have shift : x - (a - 0x0100_0000) = 0x0100_0000 + x - a := by omega
      refine (Sparse.getD_writeZ ..).trans (if_ctx_congr (by omega) (fun within => ?_) fun _ => rfl)
      rw [shift]
      exact hb _ (by omega)

/-- Bytes that are written in a core's memories change these bytes alone (R52, R146). -/
theorem memWritten_writeMem {s : State} {n a : Nat} {b : List Byte} {byte : Nat → Byte}
    (mem : InMem a (max b.length 1)) (hb : ∀ k, k < b.length → b.getD k 0 = byte k) :
    MemWritten s (s.modCore n fun c => c.writeMem a b) n a b.length byte := by
  have core : (s.modCore n fun c => c.writeMem a b).core n = (s.core n).writeMem a b := by simp
  obtain ⟨hcore, spad, imem, spadParity, imemParity⟩ := Core.writeMem_spec (s.core n) mem hb
  refine ⟨rfl, fun m hm => ?_, ?_, ?_, ?_, ?_, ?_⟩
  · simp [List.mem_singleton.not.1 hm]
  all_goals rw [core]; assumption

/-! ## The rows -/

section
variable {s : State} {n pl : Nat} {p : Packet}

theorem memStore_next (h : InMem (aOff p.h1) (max (pLen p) 1)) (hk : pKind p ≠ 0x02) (t : State) :
    ∃ u, MemWritten t u n (aOff p.h1) (pLen p) (payloadByte p) ∧
      t.memStore n pl p = (u.addCount n (pCid p)).ackDie n pl p := by
  have len := pBytes_length hk
  refine ⟨t.modCore n fun c => c.writeMem (aOff p.h1) (pBytes p), ?_, ?_⟩
  · rw [← len]
    exact memWritten_writeMem (len.symm ▸ h) fun k hk' => pBytes_getD hk (len ▸ hk')
  · rw [State.memStore, (memOutside_iff p (pLen p)).2 h]
    rfl

theorem memLand_next (h : InMem (aOff p.h1) (max (pLen p) 1)) (hk : pKind p ≠ 0x02) (hr : pKind p ≠ 0x0D) (t : State) :
    ∃ u, MemWritten t u n (aOff p.h1) (pLen p) (payloadByte p) ∧ t.memLand n pl p = u.addCount n (pCid p) := by
  have len := pBytes_length hk
  refine ⟨t.modCore n fun c => c.writeMem (aOff p.h1) (pBytes p), ?_, ?_⟩
  · rw [← len]
    exact memWritten_writeMem (len.symm ▸ h) fun k hk' => pBytes_getD hk (len ▸ hk')
  · have noReply : pKind p ≠ kLedgerReply := hr
    rw [State.memLand, (memOutside_iff p (pLen p)).2 h]
    simp only [Bool.false_eq_true, if_false, if_neg noReply]

/-- A READ_REQ is answered with the bytes read (R147); a parity error among them is told (R52). -/
theorem memLoad_next (h : InMem (aOff p.h1) (max (pLen p) 1)) (hk : pKind p = 0x02) (t : State) :
    t.memLoad n pl p =
      let s1 := t.offer n (respFor p ((t.core n).readMem (aOff p.h1) (pLen p))) (some pl)
      if (t.core n).memBad (aOff p.h1) (pLen p) = true then s1.offer n (mkNotice t n 0x0106 p.h0 p.h1 p.h3) none
      else s1 := by
  have notice : pKind p ≠ kNotice := by
    rw [hk]
    decide
  rw [State.memLoad, (memOutside_iff p (pLen p)).2 h]
  simp only [State.noticeDie, noticeAbout, if_neg notice]
  rw [mkNotice_congr ((routersOnly_offer ..).reg bDom 0x08)]
  rfl

theorem memStore_outside (h : ¬ InMem (aOff p.h1) (max (pLen p) 1)) (t : State) :
    t.memStore n pl p = t.discardDie n pl p 0x0214 := by
  rw [State.memStore, memOutside_true h]
  rfl

theorem memLoad_outside (h : ¬ InMem (aOff p.h1) (max (pLen p) 1)) (t : State) :
    t.memLoad n pl p = t.discardDie n pl p 0x0214 := by
  rw [State.memLoad, memOutside_true h]
  rfl

theorem memLand_outside (h : ¬ InMem (aOff p.h1) (max (pLen p) 1)) (t : State) :
    t.memLand n pl p = t.discardDie n pl p 0x0214 := by
  rw [State.memLand, memOutside_true h]
  rfl

/-! ## What each kind does at the memories -/

theorem Reaches.write_next (h : Reaches s n pl 0x01 1 p) :
    exec (.write n pl p) s = .next ((s.takeUp n pl p).memStore n pl p) := by
  change execWrite n pl p s = _
  rw [execWrite]
  exact h.spad _

theorem Reaches.readReq_next (h : Reaches s n pl 0x02 1 p) :
    exec (.readReq n pl p) s = .next ((s.takeUp n pl p).memLoad n pl p) := by
  change execReadReq n pl p s = _
  rw [execReadReq]
  exact h.spad _

theorem Reaches.readResp_next (h : Reaches s n pl 0x03 1 p) :
    exec (.readResp n pl p) s = .next ((s.takeUp n pl p).memLand n pl p) := by
  change execReadResp n pl p s = _
  rw [execReadResp]
  exact h.spad _

theorem Reaches.mcastWrite_next (h : Reaches s n pl 0x06 1 p) :
    exec (.mcastWrite n pl p) s = .next ((s.takeUp n pl p).memStore n pl p) := by
  change execMcastWrite n pl p s = _
  rw [execMcastWrite]
  exact h.spad _

theorem Reaches.redDone_next (h : Reaches s n pl 0x09 1 p) :
    exec (.redDone n pl p) s = .next ((s.takeUp n pl p).memLand n pl p) := by
  change execRedDone n pl p s = _
  rw [execRedDone]
  exact h.spad _

theorem Reaches.ledgerReply_next (h : Reaches s n pl 0x0D 1 p) :
    exec (.ledgerReply n pl p) s = .next ((s.takeUp n pl p).memLand n pl p) := by
  change execLedgerReply n pl p s = _
  rw [execLedgerReply]
  exact h.spad _

/-! ## Where the packet waits -/

/-- A packet that waits at the vertical output leaves it. -/
theorem takeUp_vout {pre post : List Header} {h : Header} (hv : (s.plane n pl).vout = pre ++ h :: post)
    (first : ∀ q ∈ pre, q.pkt ≠ p) (hp : h.pkt = p) :
    s.takeUp n pl p = s.setPlane n pl { s.plane n pl with vout := pre ++ post } := by
  have found : takeFirst (fun h : Header => h.pkt == p) (s.plane n pl).vout = some (h, pre ++ post) := by
    rw [hv]
    exact takeFirst_of_mem (f := fun h : Header => h.pkt == p) post (beq_iff_eq.2 hp) pre fun q hq =>
      beq_eq_false_iff_ne.2 (first q hq)
  rw [State.takeUp]
  dsimp only
  rw [found]

/-- A packet that waits nowhere comes from outside (assumption 2). -/
theorem takeUp_none (hv : ∀ h ∈ (s.plane n pl).vout, h.pkt ≠ p) (hs : ∀ h ∈ (s.plane n pl).served, h.pkt ≠ p) :
    s.takeUp n pl p = s := by
  rw [State.takeUp]
  rw [takeFirst_eq_none fun q hq => beq_false_of_ne (hv q hq),
    takeFirst_eq_none fun q hq => beq_false_of_ne (hs q hq)]

end

/-- Settles O30: each row meets the core's memories. -/
theorem dataPacketsAtACore : Obligations.DataPacketsAtACore := by
  intro s n pl p t off len
  have taken : RoutersOnly s t := routersOnly_takeUp s n pl p
  have kind : ∀ {k}, Reaches s n pl k 1 p → ∀ j, k ≠ j → pKind p ≠ j := fun h j hj => h.kind.symm ▸ hj
  refine ⟨fun pre h post hv first hp => takeUp_vout hv first hp, takeUp_none, fun h mem => ?_, fun h mem => ?_,
    fun h mem => ?_, fun h mem => ?_, fun h mem => ?_, fun k row hrow h out => ?_, fun u _ => u.ackDie_none n pl,
    fun u hk ha => ⟨ackOf p, u.ackDie_some n pl hk ha, ?_⟩, fun data => ?_⟩
  · obtain ⟨u, written, stored⟩ := memStore_next (n := n) (pl := pl) mem (kind h 0x02 (by decide)) t
    exact ⟨u, written, h.write_next.trans (stored ▸ rfl)⟩
  · obtain ⟨u, written, stored⟩ := memStore_next (n := n) (pl := pl) mem (kind h 0x02 (by decide)) t
    have noAck : ackFor p = none := if_neg fun both => kind h 0x01 (by decide) both.1
    have unanswered : t.memStore n pl p = u.addCount n (pCid p) := by rw [stored, State.ackDie, noAck]
    exact ⟨u, written, h.mcastWrite_next.trans (unanswered ▸ rfl)⟩
  · obtain ⟨u, written, landed⟩ :=
      memLand_next (n := n) (pl := pl) mem (kind h 0x02 (by decide)) (kind h 0x0D (by decide)) t
    exact ⟨u, written, h.readResp_next.trans (landed ▸ rfl)⟩
  · obtain ⟨u, written, landed⟩ :=
      memLand_next (n := n) (pl := pl) mem (kind h 0x02 (by decide)) (kind h 0x0D (by decide)) t
    exact ⟨u, written, h.redDone_next.trans (landed ▸ rfl)⟩
  · have loaded := memLoad_next (n := n) (pl := pl) mem h.kind t
    rw [taken.core n, mkNotice_congr (taken.reg bDom 0x08)] at loaded
    refine ⟨(s.core n).readMem off len, Core.readMem_length .., fun k hk => Core.readMem_getD _ mem hk, fun fine => ?_,
      fun pos bad => ?_⟩
    · have read := loaded.trans (if_neg fun bad => ((Core.memBad_iff ..).1 bad).2 fine)
      exact h.readReq_next.trans (congrArg Host.Outcome.next read)
    · have read := loaded.trans (if_pos ((Core.memBad_iff ..).2 ⟨pos, bad⟩))
      exact h.readReq_next.trans (congrArg Host.Outcome.next read)
  · simp only [List.mem_cons, Prod.mk.injEq, List.not_mem_nil, or_false] at hrow
    rcases hrow with ⟨rfl, rfl⟩ | ⟨rfl, rfl⟩ | ⟨rfl, rfl⟩ | ⟨rfl, rfl⟩ | ⟨rfl, rfl⟩ | ⟨rfl, rfl⟩
    · exact h.write_next.trans (congrArg Host.Outcome.next (memStore_outside out t))
    · exact h.readReq_next.trans (congrArg Host.Outcome.next (memLoad_outside out t))
    · exact h.readResp_next.trans (congrArg Host.Outcome.next (memLand_outside out t))
    · exact h.mcastWrite_next.trans (congrArg Host.Outcome.next (memStore_outside out t))
    · exact h.redDone_next.trans (congrArg Host.Outcome.next (memLand_outside out t))
    · exact h.ledgerReply_next.trans (congrArg Host.Outcome.next (memLand_outside out t))
  · obtain ⟨kind, cls, gen, len, cid⟩ := bits_mkH0 kAck 1 (pGen p) 0 (pRetCc p)
    obtain ⟨sp, l, panel, node, o⟩ := returnAddr_fields p 0
    exact ⟨kind, cls, len, gen.trans (bits_mod ..), cid.trans (bits_mod ..),
      (bits_field_same 0 30 _ (by decide)).trans (bits_mod ..), rfl, sp, o, node, l, panel⟩
  · obtain ⟨kind, cls, gen, len, cid⟩ :=
      bits_mkH0 kReadResp (pClass p) (pGen p) (pLen p) (if pMc p then pCid p else pRetCc p)
    obtain ⟨sp, l, panel, node, o⟩ := returnAddr_fields p (pLand p * 64)
    have count : (if pMc p then pCid p else pRetCc p) < 2 ^ 12 := by split <;> exact bits_lt ..
    have place : pLand p * 64 % 2 ^ 32 = 64 * pLand p := by
      have := bits_lt p.h2 0 15
      change bits p.h2 0 15 * 64 % 2 ^ 32 = 64 * bits p.h2 0 15
      omega
    exact ⟨kind, cls.trans (bits_mod ..), len.trans (bits_mod ..), gen.trans (bits_mod ..),
      (bits_field_same 0 30 _ (by decide)).trans (bits_mod ..), rfl, cid.trans (Nat.mod_eq_of_lt count), rfl, sp,
      o.trans place, node, l, panel⟩

end Sys2Proof.Machine
end

section
/-! SUPPORT. Messages, notices, CONTROL packets and what is discarded at the destination (R62, R158, R159, R340, R354,
R386, R421, R446). -/

namespace Sys2Proof.Machine

/-! ## The contexts on PARK (R95) -/

/-- A context on PARK that a message wakes. -/
def Ctx.woken (x : Ctx) : Ctx := { x with state := .ready, wait := .nothing, idle := false, cairn := x.cairn + 1 }

/-- Contexts of l on PARK of core n are woken, and the core's count of releases follows; nothing else changes. -/
structure Woken (l : List Nat) (s t : State) (n : Nat) : Prop where
  rest : t = { s with cores := t.cores, regs := t.regs }
  others : CoresSame s t [n]
  regs : RegsSame s t [(bCore n).key 0x48]
  core : t.core n = { s.core n with ctxs := (t.core n).ctxs }
  ctx : ∀ i, t.ctx n i =
    if i ∈ l ∧ (s.ctx n i).state = .parked ∧ (s.ctx n i).wait = .inbox then (s.ctx n i).woken else s.ctx n i

theorem Woken.refl {l : List Nat} {s : State} {n : Nat}
    (h : ∀ i ∈ l, ¬ ((s.ctx n i).state = .parked ∧ (s.ctx n i).wait = .inbox)) : Woken l s s n :=
  ⟨rfl, fun _ _ => rfl, fun _ _ => rfl, rfl, fun i => (if_neg fun ⟨hi, on⟩ => h i hi on).symm⟩

/-- A release of a context on PARK (R95, R203). -/
theorem woken_release {s : State} {n a : Nat} (h : (s.ctx n a).state = .parked ∧ (s.ctx n a).wait = .inbox) :
    Woken [a] s (s.release n a) n := by
  refine ⟨rfl, fun m hm => ?_, fun key hk => ?_, ?_, fun i => ?_⟩
  · simp [State.release, State.cairn, List.mem_singleton.not.1 hm]
  · exact (State.find_setReg ..).trans (if_neg (List.mem_singleton.not.1 hk))
  · simp [State.release, State.cairn, Core.setCtx]
  · rw [State.ctx_eq] at h
    by_cases hi : i = a
    · subst hi
      simp [State.release, State.cairn, State.ctx_eq, Ctx.released, Ctx.woken, h]
    · simp [State.release, State.cairn, State.ctx_eq, hi]

/-- One after the other. -/
theorem Woken.trans {l : List Nat} {a : Nat} {s t u : State} {n : Nat} (ha : a ∉ l) (h1 : Woken [a] s t n)
    (h2 : Woken l t u n) : Woken (a :: l) s u n := by
  refine ⟨?_, fun m hm => (h2.others m hm).trans (h1.others m hm),
    fun key hk => (h2.regs key hk).trans (h1.regs key hk), ?_, fun i => ?_⟩
  · rw [h2.rest, h1.rest]
  · rw [h2.core, h1.core]
  · rw [h2.ctx i, h1.ctx i]
    by_cases hi : i = a
    · subst hi
      simp [ha]
    · simp [hi]

/-- Each context on PARK of a list is released. -/
theorem woken_foldl (n : Nat) : ∀ (l : List Nat), l.Nodup → ∀ s : State, Woken l s (l.foldl (fun s i =>
    let x := s.ctx n i
    if x.state = .parked ∧ x.wait = .inbox then s.release n i else s) s) n
  | [], _, s => Woken.refl fun _ h => absurd h List.not_mem_nil
  | a :: l, hd, s => by
    obtain ⟨ha, hl⟩ := List.nodup_cons.1 hd
    refine Woken.trans ha ?_ (woken_foldl n l hl _)
    dsimp only
    split
    · rename_i on
      exact woken_release on
    · rename_i off
      exact Woken.refl fun i hi => List.mem_singleton.1 hi ▸ off

theorem woken_wakeParked (s : State) (n : Nat) : Woken [0, 1, 2, 3] s (s.wakeParked n) n :=
  woken_foldl n [0, 1, 2, 3] (by decide) s

/-! ## The inbox chain (R158, R161) -/

@[simp] theorem State.setCore_setCore (s : State) (n : Nat) (c d : Core) :
    (s.setCore n c).setCore n d = s.setCore n d := by
  simp [State.setCore]

/-- Words enter the inbox as long as it has room. -/
theorem feedWords_eq (inbox ws : List InWord) : feedWords false inbox ws =
    (inbox ++ ws.take (32 - inbox.length), ws.drop (32 - inbox.length)) := by
  induction ws generalizing inbox with
  | nil => simp [feedWords]
  | cons w ws ih =>
    by_cases room : inbox.length < 32
    · obtain ⟨k, hk⟩ : ∃ k, 32 - inbox.length = k + 1 := ⟨31 - inbox.length, by omega⟩
      have left : 32 - (inbox ++ [w]).length = k := by
        rw [List.length_append, List.length_singleton]
        omega
      rw [feedWords, if_pos room, ih, left, hk]
      simp
    · have none : 32 - inbox.length = 0 := by omega
      simp [feedWords, room, none]

theorem Core.accepts_iff (c : Core) :
    c.accepts = true ↔ c.inbox.length < 32 ∧ c.admitting = none ∧ c.flushPending = false := by
  simp [Core.accepts, and_assoc]

/-- A packet whose words all find room has entered the inbox; it is counted, and contexts on PARK wake (R95, R158). -/
theorem admitPacket_fits {t : State} {n pl : Nat} {p : Packet} (ha : (t.core n).accepts = true)
    (room : (t.core n).inbox.length + (chainWords p).length ≤ 32) : admitPacket t n pl p =
      ((t.setCore n { t.core n with inbox := (t.core n).inbox ++ chainWords p }).addCount n (pCid p)).wakeParked n := by
  obtain ⟨_, none, flush⟩ := (Core.accepts_iff _).1 ha
  have all : (chainWords p).length ≤ 32 - (t.core n).inbox.length := by omega
  simp only [admitPacket, feed, State.modCore_eq, State.core_setCore, if_true, flush, feedWords_eq,
    List.take_of_length_le all, List.drop_of_length_le all, State.setCore_setCore, none, Bool.false_eq_true, if_false]

/-- Of a packet that is longer, the first words enter and the others wait. -/
theorem admitPacket_waits {t : State} {n pl : Nat} {p : Packet} (ha : (t.core n).accepts = true)
    (long : 32 < (t.core n).inbox.length + (chainWords p).length) : admitPacket t n pl p =
      t.setCore n { t.core n with
        inbox := (t.core n).inbox ++ (chainWords p).take (32 - (t.core n).inbox.length)
        admitting := some ⟨pl, p, (chainWords p).drop (32 - (t.core n).inbox.length)⟩ } := by
  obtain ⟨_, _, flush⟩ := (Core.accepts_iff _).1 ha
  have some : (chainWords p).drop (32 - (t.core n).inbox.length) ≠ [] := by
    rw [Ne, List.drop_eq_nil_iff]
    omega
  simp only [admitPacket, feed, State.modCore_eq, State.core_setCore, if_true, flush, feedWords_eq,
    State.setCore_setCore, if_neg some]

theorem lowerOffered_eq_false {s : State} {n pl : Nat} : lowerOffered s n pl = false ↔
    ∀ q h, q < pl → h ∈ (s.plane n q).vout → toInbox s n h.pkt = false := by
  simp only [lowerOffered, List.any_eq_false, List.mem_range, Bool.not_eq_true]
  exact ⟨fun h q x hq hx => h q hq x hx, fun h q hq x hx => h q x hq hx⟩

/-! ## The words of a packet (R161, R165) -/

theorem wordsOf_length (n : Nat) (l : List Byte) : (wordsOf n l).length = (l.length + n - 1) / n := by
  rw [wordsOf, List.length_map, List.length_range]
  rfl

theorem getElem?_wordsOf {n i : Nat} {l b : List Byte} (h : (wordsOf n l)[i]? = some b) :
    b = padTo n ((l.drop (i * n)).take n) := by
  rw [wordsOf, List.getElem?_map, Option.map_eq_some_iff] at h
  obtain ⟨j, hj, rfl⟩ := h
  obtain ⟨_, rfl⟩ := List.getElem?_eq_some_iff.1 hj
  rw [List.getElem_range]

theorem headerBytes_length (p : Packet) : (headerBytes p).length = 32 := by
  simp [headerBytes, quadBytes]

theorem chainWords_length {p : Packet} (h : pKind p ≠ 0x02) : (chainWords p).length = 1 + (pLen p + 63) / 64 := by
  rw [chainWords, List.length_mapIdx, List.length_cons, wordsOf_length, pBytes_length h, Nat.add_comm]
  rfl

/-- The words are the header, then the payload, each with its mark of the last. -/
theorem getElem?_chainWords {p : Packet} {i : Nat} {w : InWord} (h : (chainWords p)[i]? = some w) :
    (padTo 64 (headerBytes p) :: wordsOf 64 (pBytes p))[i]? = some w.bytes ∧
      (w.last = true ↔ i + 1 = (chainWords p).length) := by
  have length : (chainWords p).length = (padTo 64 (headerBytes p) :: wordsOf 64 (pBytes p)).length := List.length_mapIdx
  rw [length]
  rw [chainWords, List.getElem?_mapIdx, Option.map_eq_some_iff] at h
  obtain ⟨b, hb, rfl⟩ := h
  exact ⟨hb, beq_iff_eq⟩

theorem chainWords_bytes_length {p : Packet} {i : Nat} {w : InWord} (h : (chainWords p)[i]? = some w) :
    w.bytes.length = 64 := by
  have word := (getElem?_chainWords h).1
  cases i with
  | zero =>
    rw [List.getElem?_cons_zero, Option.some.injEq] at word
    rw [← word, padTo_length]
  | succ i =>
    rw [List.getElem?_cons_succ] at word
    rw [getElem?_wordsOf word, padTo_length]

theorem chainWords_header {p : Packet} {w : InWord} (h : (chainWords p)[0]? = some w) :
    w.bytes = headerBytes p ++ List.replicate 32 0 := by
  have word := (getElem?_chainWords h).1
  rw [List.getElem?_cons_zero, Option.some.injEq] at word
  rw [← word, padTo, headerBytes_length, List.take_of_length_le]
  rw [List.length_append, headerBytes_length, List.length_replicate]

theorem chainWords_payload {p : Packet} (hk : pKind p ≠ 0x02) {i k : Nat} {w : InWord}
    (h : (chainWords p)[i + 1]? = some w) (k64 : k < 64) :
    w.bytes.getD k 0 = if 64 * i + k < pLen p then payloadByte p (64 * i + k) else 0 := by
  have word := (getElem?_chainWords h).1
  rw [List.getElem?_cons_succ] at word
  rw [getElem?_wordsOf word, padTo_getD _ _ k64]
  have at_ : ((pBytes p).drop (i * 64) |>.take 64).getD k 0 = (pBytes p).getD (64 * i + k) 0 := by
    simp only [List.getD_eq_getElem?_getD, List.getElem?_take, k64, if_true, List.getElem?_drop, Nat.mul_comm]
  rw [at_]
  split
  · rename_i within
    exact pBytes_getD hk within
  · rename_i beyond
    rw [List.getD_eq_default]
    rw [pBytes_length hk]
    omega

/-! ## At the registers beside the cores (R26, R446) -/

section
variable {s : State} {n pl k : Nat} {p : Packet}

/-- The spaces of the panel's registers beside the cores and slices. -/
theorem mem_side (h : aSpace p.h1 ∈ [3, 5, 6, 7]) :
    aSpace p.h1 = 3 ∨ aSpace p.h1 = 5 ∨ aSpace p.h1 = 6 ∨ aSpace p.h1 = 7 := by
  simpa only [List.mem_cons, List.not_mem_nil, or_false] using h

theorem resourceAt_side (side : aSpace p.h1 ∈ [3, 5, 6, 7]) :
    resourceAt s n p = .absent ∨ resourceAt s n p = .regs := by
  unfold resourceAt
  split
  · exact .inl rfl
  · obtain sp | sp | sp | sp := mem_side side <;> exact .inr (by rw [sp]; rfl)

/-- The steward's registers stand at a steward's site. -/
theorem resourceAt_steward (here : addrHere s p.h1 = true) (sp : aSpace p.h1 = 5) (st : siteOf n = 52) :
    resourceAt s n p = .regs := by
  have steward : siteKind 52 = .steward := by decide
  simp [resourceAt, inPlain, servedAbove, here, sp, st, steward]

/-- A packet for registers beside the cores meets them, where they stand. -/
theorem onDelivery_side (h : Delivered s n pl k p) (side : aSpace p.h1 ∈ [3, 5, 6, 7])
    (f : State → Port → Resource → State) : onDelivery n pl k p s f = .next (
      if resourceAt s n p = .absent then (s.takeUp n pl p).discardAt n pl (upPort s n pl p) p 0x0213
      else f (s.takeUp n pl p) (upPort s n pl p) .regs) := by
  have sp := mem_side side
  have noCore : toCore s n p = false := by
    obtain sp | sp | sp | sp := sp <;> simp [toCore, sp]
  have noSlice : ¬ ((aSpace p.h1 = 0 ∨ aSpace p.h1 = 4) ∧ siteUnpowered s (siteOf n) = true) := by omega
  rw [onDelivery_eq h, if_neg noSlice, noCore]
  obtain absent | regs := resourceAt_side (s := s) (n := n) side
  · rw [if_pos absent, if_pos absent]
  · rw [regs]
    rfl

/-- What the registers do not take is discarded with its credit (R446). -/
theorem notTaken_side (t : State) (pt : Port) (side : aSpace p.h1 ∈ [3, 5, 6, 7]) :
    t.notTaken n pl pt p = t.discardAt n pl pt p (absentCode p) := by
  obtain sp | sp | sp | sp := mem_side side <;> simp [State.notTaken, sp]

/-! ## Notices (R141, R340) -/

theorem noticeAbout_notice (t : State) (m code : Nat) (hk : pKind p = 0x11) : noticeAbout t m code (some p) = none :=
  if_pos hk

/-- No notice tells of a NOTICE, and none has a credit: a discarded one vanishes (R141, R446). -/
theorem discardAt_notice (t : State) (pt : Port) (code : Nat) (hk : pKind p = 0x11) :
    t.discardAt n pl pt p code = t := by
  have noCredit : creditFor p = none := by
    rw [creditFor, hk]
    rfl
  rw [State.discardAt, noCredit, State.noticeAt]
  simp only [State.noticePlain, State.noticeDie, noticeAbout_notice _ _ _ hk, State.answer?, ite_self]

/-- A NOTICE at the port is taken; elsewhere it vanishes. -/
theorem exec_notice (h : Delivered s n pl 0x11 p) (side : aSpace p.h1 ∈ [3, 5, 6, 7]) :
    exec (.notice n pl p) s = .next (
      if siteOf n = 52 ∧ aSpace p.h1 = 5 ∧ aOff p.h1 = 0x0030_8008 then (s.takeUp n pl p).takeNotice p
      else s.takeUp n pl p) := by
  change execNotice n pl p s = _
  rw [execNotice]
  refine (onDelivery_side h side _).trans (congrArg Host.Outcome.next ?_)
  by_cases port : siteOf n = 52 ∧ aSpace p.h1 = 5 ∧ aOff p.h1 = 0x0030_8008
  · obtain ⟨st, sp, off⟩ := port
    have there : resourceAt s n p ≠ .absent := by
      rw [resourceAt_steward h.here sp st]
      decide
    rw [if_neg there, if_pos ⟨rfl, sp, st, off⟩, if_pos ⟨st, sp, off⟩]
  · have noPort : ¬ (Resource.regs = .regs ∧ aSpace p.h1 = 5 ∧ siteOf n = leadSite ∧ aOff p.h1 = ctlNotice) :=
      fun ⟨_, sp, st, off⟩ => port ⟨st, sp, off⟩
    rw [if_neg noPort, notTaken_side _ _ side, discardAt_notice _ _ _ h.kind, discardAt_notice _ _ _ h.kind,
      if_neg port, ite_self]

theorem quadAt_append (w : Word) (l : List Byte) : quadAt (quadBytes w ++ l) 0 = w := by
  have length : (quadBytes w).length = 8 := leBytes_length ..
  have small : w.toNat % 256 ^ 8 = w.toNat := Nat.mod_eq_of_lt w.isLt
  rw [quadAt, List.drop_zero, List.take_left' length, quadBytes, leNat_leBytes, small, BitVec.ofNat_toNat,
    BitVec.setWidth_eq]

/-- The first quad of a payload that is written over reads back, and the rest of it stays. -/
theorem numbered_data {q : Nat} (hk : pKind p = 0x11) (hl : pLen p = 32) (hd : p.data.length = 32) :
    bits (quadAt (numbered p q).data 0) 32 32 = q % 2 ^ 32 ∧
    bits (quadAt (numbered p q).data 0) 0 32 = bits (quadAt p.data 0) 0 32 ∧
    (numbered p q).data.drop 8 = p.data.drop 8 := by
  have kind : pKind p ≠ 0x02 := by
    rw [hk]
    decide
  have bytes : pBytes p = p.data := by
    rw [pBytes_of kind, hl, padTo, hd, List.take_of_length_le] <;> simp [hd]
  have first : quadAt (numbered p q).data 0 = setBits (quadAt p.data 0) 32 32 q := by
    rw [numbered, bytes, quadAt_append]
  have length : (quadBytes (setBits (quadAt p.data 0) 32 32 q)).length = 8 := leBytes_length ..
  refine ⟨?_, ?_, ?_⟩
  · rw [first, bits_setBits_same _ _ _ _ (by decide)]
  · rw [first, bits_setBits_other _ _ _ _ _ _ (by decide) (by decide)]
  · rw [numbered, bytes]
    exact List.drop_left' length

/-- A NOTICE at the port: masked, numbered and queued, or counted as lost (R340). -/
theorem takeNotice_eq {t : State} (h : RoutersOnly s t) : t.takeNotice p =
    if noticeCode p / 256 < 16 ∧ bit (s.reg bCtl 0x08) (16 + noticeCode p / 256) = true then t
    else if noticesQueued s < 1024 then
      { t.setReg bCtl 0x18 (setBits (s.reg bCtl 0x18) 32 32 (bits (s.reg bCtl 0x18) 32 32 + 1)) with
        lead := { s.lead with
          egress := s.lead.egress ++ [numbered p (bits (s.reg bCtl 0x18) 32 32)] } }
    else t.setReg bCtl 0x18
      (satInc (setBits (s.reg bCtl 0x18) 32 32 (bits (s.reg bCtl 0x18) 32 32 + 1)) 16 16) := by
  have masked : (bit (t.reg bCtl 0x08) (16 + noticeCode p / 256) && decide (noticeCode p / 256 < 16)) = true ↔
      noticeCode p / 256 < 16 ∧ bit (s.reg bCtl 0x08) (16 + noticeCode p / 256) = true := by
    rw [h.reg, Bool.and_eq_true, decide_eq_true_eq, and_comm]
  have queued : noticesQueued t = noticesQueued s := by rw [noticesQueued, h.lead, noticesQueued]
  rw [State.takeNotice, if_congr masked rfl rfl]
  simp only [queued, State.getField, State.setField_eq, State.countField_eq, State.reg_setReg, if_true,
    State.setReg_setReg, State.ctlEgress, h.reg]
  rw [← h.lead]
  rfl

/-! ## CONTROL packets (R333, R354) -/

theorem discardAt_control (t : State) (pt : Port) (code : Nat) (hk : pKind p = 0x10) :
    t.discardAt n pl pt p code = t.noticeAt n code p := by
  have noCredit : creditFor p = none := by
    rw [creditFor, hk]
    rfl
  rw [State.discardAt, noCredit]
  rfl

/-- A reply at CTL_CMD is taken; a CONTROL packet elsewhere is discarded. -/
theorem exec_controlReply (hpl : pl = planeOf s n p) (h : Delivered s n pl 0x10 p) (side : aSpace p.h1 ∈ [3, 5, 6, 7]) :
    (siteOf n = 52 ∧ aSpace p.h1 = 5 ∧ aOff p.h1 = 0x0030_8000 → ctlOp p = 8 →
      exec (.controlReply n p) s = .next ((s.takeUp n pl p).takeReply p)) ∧
    (¬ (siteOf n = 52 ∧ aSpace p.h1 = 5 ∧ aOff p.h1 = 0x0030_8000) →
      exec (.controlReply n p) s = .next ((s.takeUp n pl p).noticeAt n 0x0213 p)) := by
  have code : absentCode p = 0x0213 := by
    rw [absentCode, h.kind]
    rfl
  have row : exec (.controlReply n p) s = execControlReply n p s := rfl
  rw [row, execControlReply, ← hpl]
  constructor
  · rintro ⟨st, sp, off⟩ reply
    have there : resourceAt s n p ≠ .absent := by
      rw [resourceAt_steward h.here sp st]
      decide
    rw [if_neg fun request => request.2.2 reply]
    refine (onDelivery_side h side _).trans (congrArg Host.Outcome.next ?_)
    rw [if_neg there, if_pos ⟨rfl, st, sp, off⟩]
  · intro port
    have noRequest : ¬ (siteOf n = leadSite ∧ atCtlCmd s p = true ∧ ctlOp p ≠ 8) := by
      rintro ⟨st, at_, _⟩
      simp only [atCtlCmd, Bool.and_eq_true, beq_iff_eq] at at_
      exact port ⟨st, at_.1.1.2, at_.1.2⟩
    have noPort : ¬ (Resource.regs = .regs ∧ siteOf n = leadSite ∧ aSpace p.h1 = 5 ∧ aOff p.h1 = ctlCmd) :=
      fun ⟨_, st, sp, off⟩ => port ⟨st, sp, off⟩
    rw [if_neg noRequest]
    refine (onDelivery_side h side _).trans (congrArg Host.Outcome.next ?_)
    rw [if_neg noPort, notTaken_side _ _ side, code, discardAt_control _ _ _ h.kind, ite_self]

/-! ## What stands before a core (R62, R386, R421) -/

theorem coreDenies_spad (sp : aSpace p.h1 = 1) : coreDenies s n p = true ↔
    siteUnpowered s (siteOf n) = true ∨ headerOn s n = false ∨ (s.core n).clearing = true := by
  simp [coreDenies, sp, or_assoc]

/-- Before a core that does not take it, a packet leaves its credit; one of another generation is dropped. -/
theorem onDelivery_turned (h : Delivered s n pl k p) (hn : isCoreNode n = true) (sp : aSpace p.h1 = 1)
    (f : State → Port → Resource → State) :
    (siteUnpowered s (siteOf n) = true ∨ headerOn s n = false ∨ (s.core n).clearing = true →
      onDelivery n pl k p s f = .next ((s.takeUp n pl p).creditDie n pl p)) ∧
    (siteUnpowered s (siteOf n) = false → headerOn s n = true → (s.core n).clearing = false →
      genDiffers s n p = true → onDelivery n pl k p s f = .next ((s.takeUp n pl p).genDrop n p)) := by
  rw [onDelivery_core h hn (.inl sp)]
  refine ⟨fun denied => ?_, fun power header clear gen => ?_⟩
  · rw [if_pos ((coreDenies_spad sp).2 denied)]
  · have taken : ¬ coreDenies s n p = true := by
      rw [coreDenies_spad sp, power, header, clear]
      decide
    rw [if_neg taken, if_pos gen]

/-- The drop counts, and tells the first time (R421). -/
theorem genDrop_eq {t : State} (h : RoutersOnly s t) : t.genDrop n p =
    if bits (s.reg (bSm (siteOf n)) 0x408) 16 16 = 0
    then (t.setReg (bSm (siteOf n)) 0x408 (satInc (s.reg (bSm (siteOf n)) 0x408) 16 16)).noticeDie n 0x0A04 (some p)
    else t.setReg (bSm (siteOf n)) 0x408 (satInc (s.reg (bSm (siteOf n)) 0x408) 16 16) := by
  simp only [State.genDrop, State.getField, State.countField_eq, h.reg]

end

/-! ## The obligation -/

/-- A MSG or CELL at a core enters the inbox chain where that accepts it, and waits on where not (R158, R159). -/
theorem inboxRow_core {s : State} {n pl k : Nat} {p : Packet} (h : Reaches s n pl k 1 p) (hk : k = 0x04 ∨ k = 0x14) :
    inboxRow n pl k p s = .next (
      if (s.core n).accepts = true ∧ lowerOffered s n pl = false
      then admitPacket (s.takeUp n pl p) n pl p else s) := by
  have inbox : toInbox s n p = true := by
    have kind := h.kind
    have core := toCore_of h.core h.here (.inl h.space)
    obtain rfl | rfl := hk <;> simp [toInbox, core, h.space, kind, kMsg, kCell]
  rw [inboxRow, inbox, h.coreDenies, h.gen]
  by_cases enters : (s.core n).accepts = true ∧ lowerOffered s n pl = false
  · rw [if_pos enters, enters.1, enters.2]
    exact (if_neg (by decide)).trans (h.spad _)
  · have waits : (!(s.core n).accepts || lowerOffered s n pl) = true := by
      cases accepts : (s.core n).accepts
      · rfl
      · exact Bool.not_eq_false _ ▸ fun low => enters ⟨accepts, low⟩
    rw [if_neg enters, waits]
    exact (if_pos rfl).trans (onPlane_next h.delivered.node h.plane s id)

/-- What a MSG or CELL at a core leaves (R95, R158, R159). -/
theorem inboxRow_enters {s : State} {n pl k : Nat} {p : Packet} {row : Instr} (h : Reaches s n pl k 1 p)
    (hk : k = 0x04 ∨ k = 0x14) (hrow : exec row s = inboxRow n pl k p s) :
    let t := s.takeUp n pl p
    let ws := chainWords p
    let c := s.core n
    let first := ∀ q h, q < pl → h ∈ (s.plane n q).vout → toInbox s n h.pkt = false
    (c.accepts = true → first → c.inbox.length + ws.length ≤ 32 → exec row s = .next (((t.setCore n
      { c with inbox := c.inbox ++ ws }).addCount n (pCid p)).wakeParked n)) ∧
    (c.accepts = true → first → 32 < c.inbox.length + ws.length → exec row s = .next (t.setCore n
      { c with inbox := c.inbox ++ ws.take (32 - c.inbox.length),
               admitting := some ⟨pl, p, ws.drop (32 - c.inbox.length)⟩ })) ∧
    ((c.accepts = false ∨ ¬ first) → exec row s = .next s) := by
  intro t ws c first
  have core : t.core n = c := (routersOnly_takeUp s n pl p).core n
  rw [hrow, inboxRow_core h hk]
  refine ⟨fun ha low room => ?_, fun ha low long => ?_, fun waits => ?_⟩
  · rw [if_pos ⟨ha, lowerOffered_eq_false.2 low⟩]
    exact congrArg Host.Outcome.next (core ▸ admitPacket_fits (core.symm ▸ ha) (core.symm ▸ room))
  · rw [if_pos ⟨ha, lowerOffered_eq_false.2 low⟩]
    exact congrArg Host.Outcome.next (core ▸ admitPacket_waits (core.symm ▸ ha) (core.symm ▸ long))
  · have stays : ¬ (c.accepts = true ∧ lowerOffered s n pl = false) := by
      rintro ⟨ha, low⟩
      exact waits.elim (fun no => Bool.false_ne_true (no.symm.trans ha)) fun no => no (lowerOffered_eq_false.1 low)
    rw [if_neg stays]

/-- The rows that take a packet which meets its resource. -/
theorem exec_delivers {s : State} {n pl k : Nat} {p : Packet} {row : Instr}
    (hrow : (k, row) ∈ [(0x01, Instr.write n pl p), (0x02, .readReq n pl p), (0x03, .readResp n pl p),
      (0x05, .signal n pl p), (0x06, .mcastWrite n pl p), (0x07, .ack n pl p), (0x08, .redPart n pl p),
      (0x09, .redDone n pl p), (0x0D, .ledgerReply n pl p), (0x18, .fenceCredit n pl p)]) :
    ∃ f, exec row s = onDelivery n pl k p s f := by
  simp only [List.mem_cons, Prod.mk.injEq, List.not_mem_nil, or_false] at hrow
  rcases hrow with ⟨rfl, rfl⟩ | ⟨rfl, rfl⟩ | ⟨rfl, rfl⟩ | ⟨rfl, rfl⟩ | ⟨rfl, rfl⟩ | ⟨rfl, rfl⟩ | ⟨rfl, rfl⟩ |
    ⟨rfl, rfl⟩ | ⟨rfl, rfl⟩ | ⟨rfl, rfl⟩
  · exact ⟨_, show execWrite n pl p s = onDelivery n pl kWrite p s _ from rfl⟩
  · exact ⟨_, show execReadReq n pl p s = onDelivery n pl kReadReq p s _ from rfl⟩
  · exact ⟨_, show execReadResp n pl p s = onDelivery n pl kReadResp p s _ from rfl⟩
  · exact ⟨_, show execSignal n pl p s = onDelivery n pl kSignal p s _ from rfl⟩
  · exact ⟨_, show execMcastWrite n pl p s = onDelivery n pl kMcastWrite p s _ from rfl⟩
  · exact ⟨_, show execAck n pl p s = onDelivery n pl kAck p s _ from rfl⟩
  · exact ⟨_, show execRedPart n pl p s = onDelivery n pl kRedPart p s _ from rfl⟩
  · exact ⟨_, show execRedDone n pl p s = onDelivery n pl kRedDone p s _ from rfl⟩
  · exact ⟨_, show execLedgerReply n pl p s = onDelivery n pl kLedgerReply p s _ from rfl⟩
  · exact ⟨_, show execFenceCredit n pl p s = onDelivery n pl kCredit p s _ from rfl⟩

/-- Settles O33: the rows at the inbox, the ports of the control die and what stands before a core. -/
theorem messagesNoticesAndDiscardsAtTheDestination : Obligations.MessagesNoticesAndDiscardsAtTheDestination := by
  intro s n pl p t ws c first enters
  have taken : RoutersOnly s t := routersOnly_takeUp s n pl p
  have up : ctlUp t = ctlUp s := by
    rw [taken]
    rfl
  refine ⟨fun h => inboxRow_enters h (.inl rfl) rfl, fun h => inboxRow_enters h (.inr rfl) rfl, fun hk => ?_, ?_,
    fun h side => ?_, fun o rest he => ?_, fun hpl h side => ?_,
    fun k row hrow h hn sp => ?_⟩
  · exact ⟨chainWords_length hk, fun i w hw => ⟨chainWords_bytes_length hw, (getElem?_chainWords hw).2⟩,
      fun w hw => chainWords_header hw, fun i w k hw k64 => chainWords_payload hk hw k64⟩
  · obtain ⟨rest, others, regs, core, ctx⟩ := woken_wakeParked s n
    refine ⟨rest, others, regs, core, fun i => (ctx i).trans (if_congr (and_congr_left fun _ => ?_) rfl rfl)⟩
    simp only [List.mem_cons, List.not_mem_nil, or_false]
    omega
  · intro q subject masked next toPort
    rw [exec_notice h side]
    refine ⟨fun out => ?_, fun port mask => ?_, fun port mask room => ?_, fun port mask full => ?_⟩
    · rw [if_neg out]
    · rw [if_pos port, takeNotice_eq taken, if_pos mask]
    · refine ⟨numbered p q, ?_, rfl, fun hl hd => ?_⟩
      · rw [if_pos port, takeNotice_eq taken, if_neg mask, if_pos room]
      · obtain ⟨seq, code, rest⟩ := numbered_data (q := q) h.kind hl hd
        exact ⟨seq.trans (bits_mod ..), code, rest⟩
    · rw [if_pos port, takeNotice_eq taken, if_neg mask, if_neg (by omega)]
  · have row : exec .noticeForward s = execNoticeForward s := rfl
    rw [row, execNoticeForward, he]
    exact ⟨fun hu => congrArg Host.Outcome.next (if_pos hu),
      fun hd => congrArg Host.Outcome.next (if_neg (Bool.eq_false_iff.1 hd))⟩
  · intro toPort
    obtain ⟨reply, other⟩ := exec_controlReply hpl h side
    refine ⟨fun port op hu => ?_, fun port op hd => ?_, other⟩
    · rw [reply port op, State.takeReply, up, if_pos hu, State.ctlEgress, State.modLead, taken.lead]
    · rw [reply port op, State.takeReply, up, hd, State.countStray, State.countField_eq, taken.reg]
      rfl
  · have turned : (siteUnpowered s (siteOf n) = true ∨ headerOn s n = false ∨ (s.core n).clearing = true →
          exec row s = .next (t.creditDie n pl p)) ∧
        (siteUnpowered s (siteOf n) = false → headerOn s n = true → (s.core n).clearing = false →
          genDiffers s n p = true → exec row s = .next (t.genDrop n p)) := by
      obtain ⟨f, hf⟩ := exec_delivers hrow
      rw [hf]
      exact onDelivery_turned h hn sp f
    rw [genDrop_eq taken] at turned
    exact turned

end Sys2Proof.Machine
end

section
/-! SUPPORT. One arbitration pass: the rank order, the productive outputs and what one header meets (R169 to R183). -/

namespace Sys2Proof.Machine

/-! ## The rank order (R172) -/

theorem ranksAbove_iff (a b : Header) : ranksAbove a b = true ↔
    (64 ≤ a.waited ∧ b.waited < 64) ∨ (64 ≤ a.waited ∧ 64 ≤ b.waited ∧ b.waited < a.waited) ∨
    ((64 ≤ a.waited ↔ 64 ≤ b.waited) ∧ (64 ≤ a.waited → a.waited = b.waited) ∧
      (pClass b.pkt < pClass a.pkt ∨ pClass a.pkt = pClass b.pkt ∧
        (pAge b.pkt < pAge a.pkt ∨ pAge a.pkt = pAge b.pkt ∧
          (b.waited < a.waited ∨ a.waited = b.waited ∧ portNum a.port < portNum b.port)))) := by
  unfold ranksAbove
  by_cases la : 64 ≤ a.waited <;> by_cases lb : 64 ≤ b.waited
  · rw [decide_eq_true la, decide_eq_true lb]
    simp only [bne_self_eq_false, Bool.false_eq_true, if_false, Bool.true_and, bne_iff_ne]
    split_ifs <;> rw [decide_eq_true_eq] <;> omega
  · rw [decide_eq_true la, decide_eq_false lb]
    exact ⟨fun _ => .inl ⟨la, by omega⟩, fun _ => rfl⟩
  · rw [decide_eq_false la, decide_eq_true lb]
    exact ⟨fun h => absurd h Bool.false_ne_true, fun h => absurd h (by omega)⟩
  · rw [decide_eq_false la, decide_eq_false lb]
    simp only [bne_self_eq_false, Bool.false_eq_true, if_false, Bool.false_and]
    split_ifs <;> rw [decide_eq_true_eq] <;> omega

/-- What a header is ranked by, the greatest first. -/
def rankKey (h : Header) : List Nat :=
  [if 64 ≤ h.waited then h.waited else 0, pClass h.pkt, pAge h.pkt, h.waited, 5 - portNum h.port]

theorem portNum_le (pt : Port) : portNum pt ≤ 5 := by cases pt <;> decide

/-- The rank is the order of the keys. -/
theorem ranksAbove_iff_lt (a b : Header) : ranksAbove a b = true ↔ rankKey b < rankKey a := by
  have pa := portNum_le a.port
  have pb := portNum_le b.port
  rw [ranksAbove_iff, rankKey, rankKey]
  simp only [List.cons_lt_cons_iff, lt_irrefl, and_false, or_false]
  split_ifs <;> omega

theorem ranksAbove_asymm {a b : Header} (h : ranksAbove a b = true) : ranksAbove b a = false := by
  rw [← Bool.not_eq_true, ranksAbove_iff_lt]
  exact lt_asymm ((ranksAbove_iff_lt a b).1 h)

theorem ranksAbove_trans {a b c : Header} (h1 : ranksAbove a b = true) (h2 : ranksAbove b c = true) :
    ranksAbove a c = true :=
  (ranksAbove_iff_lt a c).2 (lt_trans ((ranksAbove_iff_lt b c).1 h2) ((ranksAbove_iff_lt a b).1 h1))

/-- Headers are in order where none stands before one that ranks above it. -/
def Ranked (l : List Header) : Prop := l.Pairwise fun a b => ranksAbove b a = false

theorem perm_rankInsert (h : Header) : ∀ l : List Header, (rankInsert h l).Perm (h :: l)
  | [] => .refl _
  | x :: rest => by
    rw [rankInsert]
    split
    · exact .refl _
    · exact ((perm_rankInsert h rest).cons x).trans (.swap h x rest)

theorem ranked_rankInsert (h : Header) : ∀ {l : List Header}, Ranked l → Ranked (rankInsert h l)
  | [], _ => List.pairwise_singleton _ _
  | x :: rest, ranked => by
    obtain ⟨first, others⟩ := List.pairwise_cons.1 ranked
    rw [rankInsert]
    split
    · rename_i above
      refine List.pairwise_cons.2 ⟨fun y hy => ?_, ranked⟩
      obtain rfl | hy := List.mem_cons.1 hy
      · exact ranksAbove_asymm above
      · rw [← Bool.not_eq_true]
        exact fun yh => Bool.false_ne_true ((first y hy).symm.trans (ranksAbove_trans yh above))
    · rename_i below
      refine List.pairwise_cons.2 ⟨fun y hy => ?_, ranked_rankInsert h others⟩
      obtain rfl | hy := List.mem_cons.1 ((perm_rankInsert h rest).mem_iff.1 hy)
      · exact Bool.eq_false_iff.2 below
      · exact first y hy

/-- Serving one header after the other keeps the order. -/
theorem rankInsert_foldl (l : List Header) : ∀ {acc : List Header}, Ranked acc →
    (l.foldl (fun acc h => rankInsert h acc) acc).Perm (acc ++ l) ∧
      Ranked (l.foldl (fun acc h => rankInsert h acc) acc) := by
  induction l with
  | nil => exact fun ranked => ⟨by simp, ranked⟩
  | cons h l ih =>
    intro acc ranked
    obtain ⟨perm, sorted⟩ := ih (ranked_rankInsert h ranked)
    exact ⟨perm.trans (((perm_rankInsert h acc).append_right l).trans List.perm_middle.symm), sorted⟩

theorem rankOrder_perm (l : List Header) : (rankOrder l).Perm l := (rankInsert_foldl l List.Pairwise.nil).1

theorem rankOrder_ranked (l : List Header) : Ranked (rankOrder l) := (rankInsert_foldl l List.Pairwise.nil).2

/-! ## The productive outputs (R17, R171) -/

/-- Hops between two nodes (R17). -/
def hops (m d : Nat) : Nat := (nodeX m - nodeX d) + (nodeX d - nodeX m) + ((nodeY m - nodeY d) + (nodeY d - nodeY m))

/-- Output o leads one hop nearer to node d. -/
def Nearer (n d o : Nat) : Prop := o < 4 ∧ ∃ m, neighbour n o = some m ∧ hops m d + 1 = hops n d

/-- The outputs toward node d, the one in x before the one in y. -/
def towards (n d : Nat) : List Nat :=
  (if nodeX n < nodeX d then [1] else if nodeX d < nodeX n then [3] else []) ++
    (if nodeY d < nodeY n then [0] else if nodeY n < nodeY d then [2] else [])

theorem productive_zero (s : State) (n pl d : Nat) : productive s n pl d 0 = (towards n d).filter (usable s n pl) := rfl

theorem neighbour_eq_some (n o m : Nat) : neighbour n o = some m ↔
    (o = 0 ∧ nodeY n ≠ 0 ∧ n - 128 = m) ∨ (o = 1 ∧ nodeX n ≠ 127 ∧ n + 1 = m) ∨
    (o = 2 ∧ nodeY n ≠ 95 ∧ n + 128 = m) ∨ (o = 3 ∧ nodeX n ≠ 0 ∧ n - 1 = m) := by
  have port : o = 0 ∨ o = 1 ∨ o = 2 ∨ o = 3 ∨ 3 < o := by omega
  unfold neighbour facesEdge
  obtain rfl | rfl | rfl | rfl | big := port
  · by_cases edge : nodeY n = 0 <;> simp [edge]
  · by_cases edge : nodeX n = 127 <;> simp [edge]
  · by_cases edge : nodeY n = 95 <;> simp [edge]
  · by_cases edge : nodeX n = 0 <;> simp [edge]
  · have none : o ≠ 0 ∧ o ≠ 1 ∧ o ≠ 2 ∧ o ≠ 3 := by omega
    simp [none]

theorem mem_towards (n d o : Nat) : o ∈ towards n d ↔ (o = 0 ∧ nodeY d < nodeY n) ∨ (o = 1 ∧ nodeX n < nodeX d) ∨
    (o = 2 ∧ nodeY n < nodeY d) ∨ (o = 3 ∧ nodeX d < nodeX n) := by
  unfold towards
  rw [List.mem_append]
  split_ifs <;> simp only [List.mem_singleton, List.not_mem_nil, or_false, false_or, false_iff] <;> omega

theorem nodeX_lt (n : Nat) : nodeX n < 128 := Nat.mod_lt n (by decide)

theorem nodeY_lt {n : Nat} (h : n < 12288) : nodeY n < 96 := by
  unfold nodeY
  omega

/-- A neighbour lies one hop off in x or in y. -/
theorem neighbour_coords {n o m : Nat} (hn : n < 12288) (h : neighbour n o = some m) :
    (o = 0 ∧ nodeX m = nodeX n ∧ nodeY m + 1 = nodeY n) ∨ (o = 1 ∧ nodeX m = nodeX n + 1 ∧ nodeY m = nodeY n) ∨
    (o = 2 ∧ nodeX m = nodeX n ∧ nodeY m = nodeY n + 1) ∨ (o = 3 ∧ nodeX m + 1 = nodeX n ∧ nodeY m = nodeY n) := by
  unfold nodeX nodeY
  obtain ⟨rfl, edge, rfl⟩ | ⟨rfl, edge, rfl⟩ | ⟨rfl, edge, rfl⟩ | ⟨rfl, edge, rfl⟩ := (neighbour_eq_some ..).1 h
  · have : 128 ≤ n := by
      unfold nodeY at edge
      omega
    exact .inl ⟨rfl, by omega, by omega⟩
  · unfold nodeX at edge
    exact .inr (.inl ⟨rfl, by omega, by omega⟩)
  · exact .inr (.inr (.inl ⟨rfl, by omega, by omega⟩))
  · unfold nodeX at edge
    exact .inr (.inr (.inr ⟨rfl, by omega, by omega⟩))

/-- The outputs toward a node are those that lead nearer (R17, R171). -/
theorem mem_towards_iff {n d o : Nat} (hn : n < 12288) (hd : d < 12288) : o ∈ towards n d ↔ Nearer n d o := by
  rw [mem_towards]
  unfold Nearer hops
  constructor
  · have big := nodeX_lt n
    have bigX := nodeX_lt d
    have bigY := nodeY_lt hd
    rintro (⟨rfl, h⟩ | ⟨rfl, h⟩ | ⟨rfl, h⟩ | ⟨rfl, h⟩)
    · have hm := (neighbour_eq_some n 0 _).2 (.inl ⟨rfl, by omega, rfl⟩)
      have step := neighbour_coords hn hm
      exact ⟨by decide, _, hm, by omega⟩
    · have hm := (neighbour_eq_some n 1 _).2 (.inr (.inl ⟨rfl, by omega, rfl⟩))
      have step := neighbour_coords hn hm
      exact ⟨by decide, _, hm, by omega⟩
    · have hm := (neighbour_eq_some n 2 _).2 (.inr (.inr (.inl ⟨rfl, by omega, rfl⟩)))
      have step := neighbour_coords hn hm
      exact ⟨by decide, _, hm, by omega⟩
    · have hm := (neighbour_eq_some n 3 _).2 (.inr (.inr (.inr ⟨rfl, by omega, rfl⟩)))
      have step := neighbour_coords hn hm
      exact ⟨by decide, _, hm, by omega⟩
  · rintro ⟨_, m, hm, near⟩
    have step := neighbour_coords hn hm
    omega

theorem nodup_towards (n d : Nat) : (towards n d).Nodup := by
  unfold towards
  split_ifs <;> decide

/-- A node that is not the destination has an output toward it, an edge node too (R17). -/
theorem exists_mem_towards {n d : Nat} (h : n ≠ d) : ∃ o, o ∈ towards n d := by
  simp only [mem_towards]
  have apart : nodeX n ≠ nodeX d ∨ nodeY n ≠ nodeY d := by
    unfold nodeX nodeY
    omega
  by_cases hx : nodeX n = nodeX d
  · by_cases hy : nodeY d < nodeY n
    · exact ⟨0, by omega⟩
    · exact ⟨2, by omega⟩
  · by_cases lt : nodeX n < nodeX d
    · exact ⟨1, by omega⟩
    · exact ⟨3, by omega⟩

/-- The output in x stands first. -/
theorem towards_x {n d : Nat} (h : nodeX n ≠ nodeX d) :
    ∃ ys, towards n d = (if nodeX n < nodeX d then 1 else 3) :: ys := by
  unfold towards
  by_cases lt : nodeX n < nodeX d
  · rw [if_pos lt, if_pos lt]
    exact ⟨_, rfl⟩
  · rw [if_neg lt, if_pos (by omega), if_neg lt]
    exact ⟨_, rfl⟩

theorem usable_iff (s : State) (n pl o : Nat) :
    usable s n pl o = true ↔ closedPort s n pl o = false ∧ lostPort s n pl o = false := by
  simp [usable]

theorem productive_detour (s : State) (n pl d : Nat) {act : Nat} (h : act ≠ 0) : productive s n pl d act =
    if closedPort s n pl (act - 1) = false ∧ lostPort s n pl (act - 1) = false then [act - 1] else [] := by
  rw [productive, if_pos h, List.filter_singleton, Bool.cond_eq_ite]
  exact if_congr (usable_iff ..) rfl rfl

/-! ## What is free, and what may deflect (R169, R173) -/

theorem carries_eq_false (r : RPlane) (o : Nat) :
    r.carries o = false ↔ Sparse.find o r.transit = none ∧ (r.endOf o).again = [] := by
  simp [RPlane.carries]

theorem crosses_of {n o m : Nat} (h : neighbour n o = some m) : crosses n o = true ↔ siteOf m ≠ siteOf n := by
  simp [crosses, h]

theorem outFree_iff (s : State) (n pl o : Nat) : outFree s n pl o = true ↔
    (∃ m, neighbour n o = some m ∧ ¬ (siteQuiet s (siteOf n) = true ∧ siteOf m ≠ siteOf n)) ∧
    closedPort s n pl o = false ∧ lostPort s n pl o = false ∧ Sparse.find o (s.plane n pl).transit = none ∧
    ((s.plane n pl).endOf o).again = [] := by
  rw [← carries_eq_false]
  cases hm : neighbour n o with
  | none => simp [outFree, hm]
  | some m =>
    have clear : (∃ k, some m = some k ∧ ¬ (siteQuiet s (siteOf n) = true ∧ siteOf k ≠ siteOf n)) ↔
        (siteQuiet s (siteOf n) && crosses n o) = false := by
      rw [← Bool.not_eq_true, Bool.and_eq_true, crosses_of hm]
      exact ⟨fun ⟨k, hk, no⟩ => Option.some.inj hk ▸ no, fun no => ⟨m, rfl, no⟩⟩
    rw [clear, outFree, hm]
    simp only [Option.isSome_some, Bool.true_and, Bool.and_eq_true, Bool.not_eq_true']
    exact ⟨fun ⟨⟨⟨a, b⟩, c⟩, d⟩ => ⟨d, a, b, c⟩, fun ⟨d, a, b, c⟩ => ⟨⟨⟨a, b⟩, c⟩, d⟩⟩

theorem mayDeflect_iff (h : Header) (away : Bool) : mayDeflect h away = true ↔
    (away = false ∨ h.takenBack = true) ∧ pAge h.pkt ≠ 255 ∧ h.kids = none ∧
    pKind h.pkt ≠ 0x06 ∧ ¬ (pKind h.pkt = 0x03 ∧ bit h.pkt.h2 17 = true) ∧ h.port ≠ .v := by
  simp only [mayDeflect, isTree, kMcastWrite, kReadResp, Bool.and_eq_true, Bool.or_eq_true, Bool.not_eq_true',
    bne_iff_ne, Option.isNone_iff_eq_none, ← Bool.not_eq_true, beq_iff_eq, not_or, and_assoc]

theorem deflectOrder_portOfNum {d : Nat} (h : d < 4) :
    deflectOrder (portOfNum d) = [(d + 1) % 4, (d + 2) % 4, (d + 3) % 4, d] := by
  have port : d = 0 ∨ d = 1 ∨ d = 2 ∨ d = 3 := by omega
  obtain rfl | rfl | rfl | rfl := port <;> rfl

/-! ## One header in its turn (R173) -/

section
variable {s : State} {n pl : Nat} {h : Header}

/-- The header leaves the inputs, where it was the only one. -/
theorem leave_single (hi : (s.plane n pl).inputs = [h]) :
    s.leave n pl h = s.setPlane n pl { s.plane n pl with inputs := [] } := by
  rw [State.leave, State.modPlane_eq, hi, eraseFirst, if_pos rfl]

/-- With one header that waits, a pass serves it (R172). -/
theorem exec_arbitrationPass (hn : isNode n = true) (hp : pl < 4) (live : routerLive s n = true)
    (hq : (s.router n).plain = []) (hi : (s.plane n pl).inputs = [h]) :
    exec (.arbitrationPass n pl) s = .next (s.passOne n pl h) := by
  have noPlain : s.enterPlain n pl = s := by
    unfold State.enterPlain
    rw [hq]
  have row : exec (.arbitrationPass n pl) s = execArbitrationPass n pl s := rfl
  rw [row, execArbitrationPass, onPlane_next hn hp]
  simp only [live, noPlain, hi]
  rfl

theorem gateHolds_iff (s : State) (n pl : Nat) (h : Header) : gateHolds s n pl h = true ↔
    h.gated = true ∧ ((s.plane n pl).gate = false ∨ closedOut s n pl = true ∨ siteQuiet s (siteOf n) = true) := by
  simp [gateHolds, or_assoc]

theorem passOne_shut (shut : gateHolds s n pl h = true) : s.passOne n pl h = s := by
  rw [State.passOne, shut, Bool.or_true]
  rfl

/-- A header that is offered to arbitration and is of no tree goes where its route leads (R170). -/
theorem passOne_open (hi : (s.plane n pl).inputs = [h]) (ht : isTree h.pkt = false)
    (shut : ¬ gateHolds s n pl h = true) : s.passOne n pl h = match route s n h.pkt with
      | .drop code => (s.leave n pl h).routerDrop n pl h.port h.pkt true code
      | .node d => if d = n then s.passDest n pl h else s.passRoute n pl d h := by
  have waits : (!(s.plane n pl).inputs.contains h || gateHolds s n pl h) = false := by
    rw [Bool.not_eq_true] at shut
    simp [hi, shut]
  rw [State.passOne, waits, ht]
  rfl

theorem raiseAge_eq {p : Packet} (hp : pAge p ≠ 255) : raiseAge p = { p with h0 := setBits p.h0 40 8 (pAge p + 1) } :=
  congrArg (fun w => { p with h0 := w }) (if_neg hp)

/-- The router after the deflection of its only header has been counted (R173, R178). -/
def deflected (s : State) (n pl : Nat) : State :=
  let r := s.plane n pl
  ((s.setPlane n pl { r with inputs := [] }).countField (bRtr n) (0x30 + 8 * pl) 20 32).modPlane n pl fun r =>
    { r with defls := (r.defls.headD 0 + 1) :: r.defls.tail }

theorem plane_deflected (s : State) (n pl : Nat) : (deflected s n pl).plane n pl = { s.plane n pl with
    inputs := []
    defls := ((s.plane n pl).defls.headD 0 + 1) :: (s.plane n pl).defls.tail } := by
  simp [deflected, State.plane_eq]

theorem reg_deflected (s : State) (n pl : Nat) : (deflected s n pl).reg (bRtr n) (0x30 + 8 * pl) =
    satInc (s.reg (bRtr n) (0x30 + 8 * pl)) 20 32 := by
  simp [deflected]

theorem routersSame_deflected (s : State) (n pl : Nat) : RoutersSame s (deflected s n pl) [n] := by
  intro m hm
  simp [deflected, List.mem_singleton.not.1 hm]

theorem regsSame_deflected (s : State) (n pl : Nat) : RegsSame s (deflected s n pl) [(bRtr n).key (0x30 + 8 * pl)] :=
  fun _ hk => (State.find_setReg ..).trans (if_neg (List.mem_singleton.not.1 hk))

/-- A deflection takes the first free output after the port of arrival; in a quiet period there is none (R173, R370). -/
theorem deflect_eq (hi : (s.plane n pl).inputs = [h]) (age : pAge h.pkt ≠ 255) : s.deflect n pl h =
    if siteQuiet s (siteOf n) = true then s
    else match (deflectOrder h.port).find? (outFree s n pl) with
      | none => s
      | some o => (deflected s n pl).forward n pl o
          { h with pkt := { h.pkt with h0 := setBits h.pkt.h0 40 8 (pAge h.pkt + 1) } } := by
  have counted : ((s.leave n pl h).countField (bRtr n) (0x30 + 8 * pl) 20 32).modPlane n pl (fun r =>
      { r with defls := match r.defls with
                        | [] => [1]
                        | x :: l => (x + 1) :: l }) = deflected s n pl := by
    rw [leave_single hi, deflected]
    congr 1
    funext r
    cases r.defls <;> rfl
  unfold State.deflect
  rw [raiseAge_eq age]
  cases (deflectOrder h.port).find? (outFree s n pl) with
  | none => rfl
  | some o => exact if_congr Iff.rfl rfl (congrArg (State.forward · n pl o _) counted)

theorem passRoute_forward {d o : Nat} (hi : (s.plane n pl).inputs = [h]) (act : detour s n pl d ≠ 5)
    (free : (productive s n pl d (detour s n pl d)).find? (outFree s n pl) = some o) :
    s.passRoute n pl d h = (s.setPlane n pl { s.plane n pl with inputs := [] }).forward n pl o h := by
  have some : productive s n pl d (detour s n pl d) ≠ [] := fun none => nomatch none ▸ free
  rw [State.passRoute, if_neg act]
  simp only [some, false_and, if_false, free, leave_single hi]

/-- Where no productive output is free, a header deflects if it may, else it waits (R173). -/
theorem passRoute_deflect {d : Nat} (act : detour s n pl d ≠ 5) (may : mayDeflect h false = true)
    (free : (productive s n pl d (detour s n pl d)).find? (outFree s n pl) = none) :
    s.passRoute n pl d h = s.deflect n pl h := by
  rw [State.passRoute, if_neg act]
  simp only [may, Bool.not_true, Bool.false_eq_true, and_false, if_false, free, if_true]

theorem passRoute_waits {d : Nat} (act : detour s n pl d ≠ 5) (may : mayDeflect h false = false)
    (some : productive s n pl d (detour s n pl d) ≠ [])
    (free : (productive s n pl d (detour s n pl d)).find? (outFree s n pl) = none) : s.passRoute n pl d h = s := by
  rw [State.passRoute, if_neg act]
  simp only [may, some, false_and, if_false, free, Bool.false_eq_true]

theorem passRoute_none {d : Nat} (hi : (s.plane n pl).inputs = [h]) (act : detour s n pl d ≠ 5)
    (may : mayDeflect h false = false) (none : productive s n pl d (detour s n pl d) = []) : s.passRoute n pl d h =
      (s.setPlane n pl { s.plane n pl with inputs := [] }).routerDrop n pl h.port h.pkt true (some 0x0201) := by
  rw [State.passRoute, if_neg act]
  simp only [none, may, Bool.not_false, and_self, if_true, leave_single hi]

theorem passRoute_discard {d : Nat} (hi : (s.plane n pl).inputs = [h]) (act : detour s n pl d = 5) :
    s.passRoute n pl d h =
      (s.setPlane n pl { s.plane n pl with inputs := [] }).routerDrop n pl h.port h.pkt true none := by
  rw [State.passRoute, if_pos act, leave_single hi]

/-! ## At its destination (R175, R183) -/

theorem vout_modEnd (s : State) (n pl e m q : Nat) (f : LinkEnd → LinkEnd) :
    ((s.modEnd n pl e f).plane m q).vout = (s.plane m q).vout := by
  rw [State.modEnd, State.plane_modPlane]
  split
  · rename_i same
    rw [same.1, same.2]
  · rfl

/-- An output that is granted leaves what waits at the vertical output. -/
theorem vout_occupy (s : State) (n pl d : Nat) (x : Header) (cross : Bool) :
    ((s.occupy n pl d x cross).plane n pl).vout = (s.plane n pl).vout := by
  unfold State.occupy
  dsimp only
  split
  · rw [State.sendWords, vout_modEnd, vout_modEnd]
    simp [State.plane_eq]
  · simp [State.plane_eq]

theorem State.setRouter_setRouter (s : State) (n : Nat) (a b : Router) :
    (s.setRouter n a).setRouter n b = s.setRouter n b := by
  simp [State.setRouter]

theorem setPlane_setPlane (s : State) (n pl : Nat) (p q : RPlane) :
    (s.setPlane n pl p).setPlane n pl q = s.setPlane n pl q := by
  simp only [State.setPlane_eq, State.router_setRouter, if_true, State.setRouter_setRouter, Router.setPlane,
    Sparse.put_put]

theorem passDest_deliver (own : h.takenBack = false) (del : delivery s n pl h.pkt = .deliver) : s.passDest n pl h =
    if inPlain s h.pkt = true then (if h.toCome = 0 then (s.leave n pl h).handPlain n pl h else s)
    else if vertBusy s n pl = false then (s.leave n pl h).handUp n pl h else s := by
  rw [State.passDest, own, del]
  simp [vertFree]

end

/-- Settles O25: the rank order, the outputs toward a node, and each place that one header can go. -/
theorem arbitrationRanksAndServesHeaders : Obligations.ArbitrationRanksAndServesHeaders := by
  refine ⟨⟨fun l => ⟨rankOrder_perm l, rankOrder_ranked l, ranksAbove_iff⟩, fun s n pl d hn hd ne => ?_⟩,
    fun s n pl h hn hp live hq hi ht => ?_, outFree_iff, mayDeflect_iff, fun d => deflectOrder_portOfNum, ?_⟩
  · intro dist open_ nearer outs x
    have hn : n < 12288 := of_decide_eq_true hn
    have hd : d < 12288 := of_decide_eq_true hd
    have near : ∀ o, o ∈ towards n d ↔ nearer o := fun o => mem_towards_iff hn hd
    have mem : ∀ o, o ∈ outs ↔ nearer o ∧ open_ o := fun o =>
      List.mem_filter.trans (and_congr (near o) (usable_iff s n pl o))
    refine ⟨mem, (nodup_towards n d).filter _, fun hx free => ?_, fun hx => ?_, ?_, ?_,
      fun act => productive_detour s n pl d⟩
    · obtain ⟨ys, hys⟩ := towards_x hx
      have first : outs = x :: ys.filter (usable s n pl) := by
        rw [← List.filter_cons_of_pos ((usable_iff s n pl x).2 free), ← hys]
        rfl
      rw [first]
      rfl
    · obtain ⟨ys, hys⟩ := towards_x hx
      exact (near x).1 (hys ▸ List.mem_cons_self)
    · obtain ⟨o, ho⟩ := exists_mem_towards ne
      exact ⟨o, (near o).1 ho⟩
    · simp only [List.eq_nil_iff_forall_not_mem, mem, not_and]
  · intro t r left shut
    have pass : t = .next (s.passOne n pl h) := exec_arbitrationPass hn hp live hq hi
    have gone : s.leave n pl h = left := leave_single hi
    have offered : ¬ shut → ¬ gateHolds s n pl h = true := mt (gateHolds_iff s n pl h).1
    have routed : ∀ {a}, ¬ shut → route s n h.pkt = a → s.passOne n pl h = match a with
        | .drop code => (s.leave n pl h).routerDrop n pl h.port h.pkt true code
        | .node d => if d = n then s.passDest n pl h else s.passRoute n pl d h := by
      rintro a ns rfl
      exact passOne_open hi ht (offered ns)
    rw [pass]
    refine ⟨fun sh => ?_, fun d prod ns rt away act hprod => ?_, fun d ns rt away act => ?_, fun code ns rt => ?_,
      fun ns rt own del => ?_⟩
    · rw [passOne_shut ((gateHolds_iff s n pl h).2 sh)]
    · subst hprod
      have way : s.passOne n pl h = s.passRoute n pl d h := (routed ns rt).trans (if_neg away)
      rw [way]
      refine ⟨fun o free => ?_, fun free may quiet => ?_, fun free may quiet => ?_, fun free may some => ?_,
        fun may none => ?_⟩
      · rw [passRoute_forward hi act free]
      · have age : pAge h.pkt ≠ 255 := ((mayDeflect_iff h false).1 may).2.1
        rw [passRoute_deflect act may free, deflect_eq hi age, quiet]
        refine ⟨fun o out => ⟨deflected s n pl, ?_, rfl, routersSame_deflected s n pl, regsSame_deflected s n pl,
          ?_, ?_, reg_deflected s n pl⟩, fun none => ?_⟩
        · rw [out]
          rfl
        · rw [plane_deflected]
        · rw [plane_deflected]
        · rw [none]
          rfl
      · have age : pAge h.pkt ≠ 255 := ((mayDeflect_iff h false).1 may).2.1
        rw [passRoute_deflect act may free, deflect_eq hi age, if_pos quiet]
      · rw [passRoute_waits act may some free]
      · rw [passRoute_none hi act may none]
    · have way : s.passOne n pl h = s.passRoute n pl d h := (routed ns rt).trans (if_neg away)
      rw [way, passRoute_discard hi act]
    · have drop : s.passOne n pl h = (s.leave n pl h).routerDrop n pl h.port h.pkt true code := routed ns rt
      rw [drop, gone]
    · have there : s.passOne n pl h = s.passDest n pl h := (routed ns rt).trans (if_pos rfl)
      rw [there, passDest_deliver own del, gone]
      have alone : (left.plane n pl) = { r with inputs := [] } := by simp [left, State.plane_eq]
      refine ⟨fun plain => ?_, fun above free => ?_, fun above busy => ?_⟩
      · rw [if_pos plain, State.handPlain, State.modPlane_eq, alone, setPlane_setPlane]
      · have core : toCore left n h.pkt = toCore s n h.pkt := rfl
        rw [above, free, State.handUp, State.modPlane_eq, vout_occupy, alone, core]
        rfl
      · rw [above, busy]
        rfl
  · rintro pt (rfl | rfl) <;> rfl

end Sys2Proof.Machine
end

section
/-! SUPPORT. Reads of a port's registers (R330), and the refutation of the statement on them. -/

namespace Sys2Proof.Machine

/-- The panel at reset, but that the first pair of the control port is UP, and that a PASS block beyond the eight ports
holds an agreement of 1. -/
def ninthPortAgrees : State :=
  { State.reset with regs := [((bPass 8).key 0x30, 1), (bCtl.key 0x10, 5)] }

/-- The PASS block of unit 8 does not hold the state UP. -/
theorem state_ninthPort : bits (ninthPortAgrees.reg (bPass 8) 0x20) 0 3 = 0 := by decide

/-- Its reads follow the first pair of the control port, which is UP. -/
theorem portState_ninthPort : portState ninthPortAgrees 8 = 5 := by decide

/-- So its agreement reads as it is held. -/
theorem agreement_ninthPort : readPlace ninthPortAgrees (.reg (bPass 8) 0x30) = 1 := by
  change (if portState ninthPortAgrees 8 == 5 then ninthPortAgrees.reg (bPass 8) 0x30 else 0) = 1
  rw [portState_ninthPort]
  decide

/-- Refutes O36: its clause on reads lets a PASS block be of any unit, where only units 0 to 7 are ports (R15). A read of
the block of unit 8 follows the state of the control port's first pair (portState), not the STATE that the block
holds: with the pair UP, the agreement of that block reads 1 although its own STATE is not UP. -/
theorem not_registersAreWrittenStagedAndCommitted : ¬ Obligations.RegistersAreWrittenStagedAndCommitted := by
  unfold Obligations.RegistersAreWrittenStagedAndCommitted
  rintro ⟨-, -, -, reads, -⟩
  have down : bits (ninthPortAgrees.reg (bPass 8) 0x20) 0 3 ≠ 5 := by rw [state_ninthPort]; decide
  obtain ⟨-, -, agreement⟩ := (reads ninthPortAgrees).passDown 8 down
  have zero : (1 : Word) = 0 := agreement_ninthPort.symm.trans agreement
  exact absurd zero (by decide)

end Sys2Proof.Machine
end

section
/-! SUPPORT. The two invariants of the panel, proved together: memory is in canonical form (R61, R210), and every program
counter lies on a word of instruction memory or at its end (R53). Each operation of the model that touches a part of the
panel keeps whichever of the two holds. -/

namespace Sys2Proof.Machine

/-- The two invariants. -/
inductive Form where
  | memory
  | counters

/-- A context meets an invariant: its banks are canonical, or its program counter is in range. -/
def Ctx.Fits : Form → Ctx → Prop
  | .memory, x => x.wf = true
  | .counters, x => x.pc % 8 = 0 ∧ x.pc ≤ 0x1_0000

/-- A core meets an invariant. -/
def Core.Fits : Form → Core → Prop
  | .memory, c => c.wf = true
  | .counters, c => ∀ i, (c.ctx i).Fits .counters

/-- A slice meets an invariant: it has no program counter. -/
def Slice.Fits : Form → Slice → Prop
  | .memory, c => c.wf = true
  | .counters, _ => True

/-- The panel meets an invariant. -/
def State.Fits : Form → State → Prop
  | .memory, s => Memory.wf s = true
  | .counters, s => PcWf s

variable {form : Form}

/-! ## Contexts -/

/-- A change of any other field of a context keeps what banks and program counter met. -/
@[simp] theorem Ctx.fits_update (x : Ctx) (st : CtxState) (wf : WaitFor) (i h wk cp : Bool) (pr : BitVec 8) (o : Nat)
    (ca : BitVec 32) (fi fa : Word) :
    Ctx.Fits form (Ctx.mk st wf i h wk cp x.pc x.gr pr x.vr o ca fi fa) = x.Fits form := by
  cases form <;> rfl

/-- A new program counter in range. -/
theorem Ctx.fits_setPc {x : Ctx} (h : x.Fits form) {pc : Nat} (aligned : pc % 8 = 0) (inside : pc ≤ 0x1_0000) :
    Ctx.Fits form { x with pc := pc } := by
  cases form
  · exact h
  · exact ⟨aligned, inside⟩

@[simp] theorem Ctx.fits_setG {x : Ctx} (h : x.Fits form) (r : Nat) (v : Word) : (x.setG r v).Fits form := by
  cases form
  · exact Ctx.wf_setG h r v
  · rw [Ctx.setG_frame]; exact h

@[simp] theorem Ctx.fits_setP {x : Ctx} (h : x.Fits form) (r : Nat) (b : Bool) : (x.setP r b).Fits form := by
  cases form <;> exact h

@[simp] theorem Ctx.fits_setLane {x : Ctx} (h : x.Fits form) (r l : Nat) (v : Lane) : (x.setLane r l v).Fits form := by
  cases form
  · exact Ctx.wf_setLane h r l v
  · exact h

@[simp] theorem Ctx.fits_setV {x : Ctx} (h : x.Fits form) (r : Nat) (v : List Lane) : (x.setV r v).Fits form := by
  cases form
  · exact Ctx.wf_setV h r v
  · have pc : (x.setV r v).pc = x.pc := by rw [Ctx.setV_frame]
    change (x.setV r v).pc % 8 = 0 ∧ (x.setV r v).pc ≤ 0x1_0000
    rw [pc]
    exact h

@[simp] theorem Ctx.fits_setVecs {x : Ctx} (h : x.Fits form) (r : Nat) (vs : List (List Lane)) : (x.setVecs r vs).Fits form := by
  induction vs generalizing x r with
  | nil => exact h
  | cons v vs ih =>
    have hv := Ctx.fits_setV h r v
    unfold Ctx.setVecs
    exact ih hv (r + 1)

@[simp] theorem Ctx.fits_released {x : Ctx} (h : x.Fits form) : x.released.Fits form := by
  unfold Ctx.released
  split <;> simpa using h

@[simp] theorem Ctx.fits_freed {x : Ctx} (h : x.Fits form) : x.freed.Fits form := by
  simpa [Ctx.freed] using h

/-- A context that SPAWN or START selects has empty banks, and begins at its entry. -/
theorem Ctx.fits_started (x : Ctx) (halted : Bool) {e : Nat} (he : e < 8192) (g1 : Word) :
    (x.started halted (e * 8) g1).Fits form := by
  refine Ctx.fits_setG ?_ 1 g1
  cases form
  · rfl
  · exact ⟨by simp, by simp only; omega⟩

/-! ## Cores and slices -/

@[simp] theorem Core.fits_default : Core.Fits form {} := by
  cases form
  · rfl
  · intro i
    exact ⟨rfl, Nat.zero_le _⟩

@[simp] theorem Core.fits_ctx {c : Core} (h : c.Fits form) (i : Nat) : (c.ctx i).Fits form := by
  cases form
  · exact Core.wf_ctx h i
  · exact h i

/-- A change of what is no memory keeps what the memories and the contexts meet. -/
@[simp] theorem Core.fits_update (c : Core) (li : Option Nat) (bs bi : List Nat) (inb : List InWord) (adm : Option Admission)
    (fp : Bool) (lr : List Byte) (ops : List UnitOp) (mc : Option UnitOp) (mf : Option (Nat × Nat)) (mo lo : List Offer)
    (lw : List LedgerWait) (up ls : Nat) (cl cd fi : Bool) :
    Core.Fits form (Core.mk c.ctxs li c.spad c.imem bs bi c.slots c.ccs inb adm fp lr ops mc mf mo lo lw up ls cl cd fi) =
      c.Fits form := by
  cases form <;> rfl

@[simp] theorem Core.fits_ite (p : Prop) [Decidable p] (c d : Core) :
    (if p then c else d).Fits form = if p then c.Fits form else d.Fits form := apply_ite (Core.Fits form) p c d

@[simp] theorem Core.fits_setCtx {c : Core} (h : c.Fits form) (i : Nat) {x : Ctx} (hx : x.Fits form) :
    (c.setCtx i x).Fits form := by
  cases form
  · exact Core.wf_setCtx h i hx
  · intro j
    rw [Core.ctx_setCtx]
    split
    · exact hx
    · exact h j

@[simp] theorem Core.fits_setSlot {c : Core} (h : c.Fits form) (sl : Nat) (w : Word) : (c.setSlot sl w).Fits form := by
  cases form
  · exact Core.wf_setSlot h sl w
  · exact h

@[simp] theorem Core.fits_setCc {c : Core} (h : c.Fits form) (j : Nat) (v : Lane) : (c.setCc j v).Fits form := by
  cases form
  · exact Core.wf_setCc h j v
  · exact h

@[simp] theorem Core.fits_writeSpad {c : Core} (h : c.Fits form) (a : Nat) (bs : List Byte) :
    (c.writeSpad a bs).Fits form := by
  cases form
  · exact Core.wf_writeSpad h a bs
  · exact h

@[simp] theorem Core.fits_writeImem {c : Core} (h : c.Fits form) (a : Nat) (bs : List Byte) :
    (c.writeImem a bs).Fits form := by
  cases form
  · exact Core.wf_writeImem h a bs
  · exact h

@[simp] theorem Core.fits_writeMem {c : Core} (h : c.Fits form) (a : Nat) (bs : List Byte) :
    (c.writeMem a bs).Fits form := by
  simp [Core.writeMem, h]

@[simp] theorem Core.fits_flushed (c : Core) : c.flushed.Fits form = c.Fits form := by
  simp [Core.flushed]

@[simp] theorem Core.fits_cleared : clearedCore.Fits form :=
  (Core.fits_update {} none [] [] [] none false _ [] none none [] [] [] 3 0 true false false).mpr Core.fits_default

/-- What a list of values changed one by one holds at a key. -/
theorem Sparse.getD_mapIdx {α β : Type} (f : Nat → α → β) (d : α) (m : Sparse α) (j : Nat) :
    Sparse.getD (f j d) (m.map fun e => (e.1, f e.1 e.2)) j = f j (Sparse.getD d m j) := by
  induction m with
  | nil => rfl
  | cons e rest ih =>
    obtain ⟨q, v⟩ := e
    simp only [Sparse.getD, List.map_cons, Sparse.find] at ih ⊢
    by_cases h : q = j
    · simp [h]
    · simpa [h] using ih

/-- The contexts after an operation has ended: each is held only where it still is (R42, R86). -/
theorem Core.ctx_unhold (c : Core) (j : Nat) :
    c.unhold.ctx j = { c.ctx j with held := (c.ctx j).held && heldAt c j } :=
  Sparse.getD_mapIdx (fun i (x : Ctx) => ({ x with held := x.held && heldAt c i } : Ctx)) {} c.ctxs j

@[simp] theorem Core.fits_unhold {c : Core} (h : c.Fits form) : c.unhold.Fits form := by
  cases form
  · obtain ⟨spad, imem, slots, ccs, ctxs⟩ := (Core.wf_iff c).1 h
    refine (Core.wf_iff _).2 ⟨spad, imem, slots, ccs, fun e he => ?_⟩
    obtain ⟨e', he', rfl⟩ := List.mem_map.1 he
    exact ctxs e' he'
  · intro i
    rw [Core.ctx_unhold]
    exact h i

@[simp] theorem Slice.fits_default : Slice.Fits form {} := by
  cases form
  · rfl
  · trivial

@[simp] theorem Slice.fits_update (c : Slice) (f : Nat) (bl cl : List Nat) (q : List Req) (os : List Nat)
    (sd : Sparse (List Byte)) (mc : List Packet) (ro ao go : List Offer) (li sl : Int) (ib ac : Bool) :
    Slice.Fits form (Slice.mk c.dram f bl cl q os sd mc ro ao go li sl ib ac) = c.Fits form := by
  cases form <;> rfl

/-! ## The panel -/

/-- A put keeps every key that is listed. -/
theorem Sparse.keys_sublist_put {α : Type} (j : Nat) (v : α) (m : Sparse α) :
    (m.map Prod.fst).Sublist ((Sparse.put j v m).map Prod.fst) := by
  induction m with
  | nil => exact List.nil_sublist _
  | cons e rest ih =>
    obtain ⟨q, w⟩ := e
    simp only [Sparse.put]
    split
    · exact List.sublist_cons_self _ _
    · split
      · rename_i h
        subst h
        exact List.Sublist.refl _
      · exact ih.cons_cons q

/-- So a put makes no list rise that did not. -/
theorem Sparse.rising_put_eq {α : Type} (j : Nat) (v : α) (m : Sparse α) :
    Sparse.rising (Sparse.put j v m) = Sparse.rising m := by
  refine Bool.eq_iff_iff.2 ⟨fun h => ?_, Sparse.rising_put j v⟩
  rw [Sparse.rising_iff] at h ⊢
  exact h.sublist (Sparse.keys_sublist_put j v m)

/-- Memory's form looks at cores, slices, registers and staged values alone, and of these registers at their keys. -/
theorem Memory.wf_eq {s t : State} (cores : t.cores = s.cores) (slices : t.slices = s.slices)
    (regs : Sparse.rising t.regs = Sparse.rising s.regs) (staged : Sparse.rising t.staged = Sparse.rising s.staged) :
    Memory.wf t = Memory.wf s := by
  simp only [Memory.wf, cores, slices, regs, staged]

/-- Where cores and slices are as they were and the same registers' keys rise, the panel meets what it met. -/
theorem State.fits_eq {s t : State} (cores : t.cores = s.cores) (slices : t.slices = s.slices)
    (regs : Sparse.rising t.regs = Sparse.rising s.regs) (staged : Sparse.rising t.staged = Sparse.rising s.staged) :
    t.Fits form = s.Fits form := by
  cases form
  · exact congrArg (· = true) (Memory.wf_eq cores slices regs staged)
  · simp only [State.Fits, PcWf, State.ctx, State.core, cores]

/-- An update of any other fields changes nothing. -/
@[simp] theorem State.fits_update (s : State) (pending : List Instr) (free fill : Nat) (birth : Birth) (pins : Pins)
    (routers : Sparse Router) (sites : Sparse Site) (links : Sparse Link) (guests : Sparse Guest)
    (stewards : Sparse Steward) (lead : Lead) :
    State.Fits form (State.mk pending free fill birth pins s.regs s.staged s.cores routers s.slices sites links guests
      stewards lead) = s.Fits form := State.fits_eq rfl rfl rfl rfl

theorem RoutersOnly.fits {s t : State} (h : RoutersOnly s t) : t.Fits form = s.Fits form := by
  rw [h]
  exact State.fits_eq rfl rfl rfl rfl

@[simp] theorem State.fits_ite (p : Prop) [Decidable p] (s t : State) :
    (if p then s else t).Fits form = if p then s.Fits form else t.Fits form := apply_ite (State.Fits form) p s t

@[simp] theorem State.fits_core {s : State} (h : s.Fits form) (n : Nat) : (s.core n).Fits form := by
  cases form
  · exact Memory.wf_core h n
  · exact h n

@[simp] theorem State.fits_ctx {s : State} (h : s.Fits form) (n i : Nat) : (s.ctx n i).Fits form :=
  Core.fits_ctx (State.fits_core h n) i

@[simp] theorem State.fits_slice {s : State} (h : s.Fits form) (n : Nat) : (s.slice n).Fits form := by
  cases form
  · exact Memory.wf_slice h n
  · trivial

@[simp] theorem State.fits_setCore {s : State} (h : s.Fits form) (n : Nat) {c : Core} (hc : c.Fits form) :
    (s.setCore n c).Fits form := by
  cases form
  · exact Memory.wf_setCore h n hc
  · intro m i
    rw [State.ctx, State.core_setCore]
    split
    · exact hc i
    · exact h m i

@[simp] theorem State.fits_setSlice {s : State} (h : s.Fits form) (n : Nat) {c : Slice} (hc : c.Fits form) :
    (s.setSlice n c).Fits form := by
  cases form
  · exact Memory.wf_setSlice h n hc
  · exact h

/-! ## Changes through the units' updates -/

theorem State.fits_modCore {s : State} (h : s.Fits form) (n : Nat) {f : Core → Core}
    (keeps : ∀ {c}, c.Fits form → (f c).Fits form) : (s.modCore n f).Fits form :=
  State.fits_setCore h n (keeps (State.fits_core h n))

theorem State.fits_setCtx {s : State} (h : s.Fits form) (n i : Nat) {x : Ctx} (hx : x.Fits form) :
    (s.setCtx n i x).Fits form :=
  State.fits_setCore h n (Core.fits_setCtx (State.fits_core h n) i hx)

theorem State.fits_modCtx {s : State} (h : s.Fits form) (n i : Nat) {f : Ctx → Ctx}
    (keeps : ∀ {x}, x.Fits form → (f x).Fits form) : (s.modCtx n i f).Fits form :=
  State.fits_setCtx h n i (keeps (State.fits_ctx h n i))

theorem State.fits_modSlice {s : State} (h : s.Fits form) (n : Nat) {f : Slice → Slice}
    (keeps : ∀ {c}, c.Fits form → (f c).Fits form) : (s.modSlice n f).Fits form :=
  State.fits_setSlice h n (keeps (State.fits_slice h n))

/-- Registers and staged values may be forgotten. -/
theorem State.fits_dropRegs {s : State} (h : s.Fits form) {regs staged : Sparse Word}
    (hr : Sparse.rising s.regs = true → Sparse.rising regs = true)
    (hs : Sparse.rising s.staged = true → Sparse.rising staged = true) :
    State.Fits form { s with regs := regs, staged := staged } := by
  cases form
  · obtain ⟨cores, slices, rises, staging⟩ := (Memory.wf_iff s).1 h
    exact (Memory.wf_iff _).2 ⟨cores, slices, hr rises, hs staging⟩
  · exact h

theorem State.fits_dropStaged {s : State} (h : s.Fits form) (lo len : Nat) :
    State.Fits form { s with staged := Sparse.dropRange lo len s.staged } :=
  State.fits_dropRegs h id (Sparse.rising_dropRange lo len)

/-- Replacing what stands at a key by what is as good leaves a list as good as it was. -/
theorem Sparse.forall_put {α : Type} {P : α → Prop} {d : α} (hd : P d) {j : Nat} {v : α} {m : Sparse α}
    (hv : P v = P (Sparse.getD d m j)) : (∀ e ∈ Sparse.put j v m, P e.2) ↔ ∀ e ∈ m, P e.2 := by
  constructor
  · induction m with
    | nil => simp
    | cons e rest ih =>
      obtain ⟨q, w⟩ := e
      simp only [Sparse.put]
      split
      · exact fun h e he => h e (List.mem_cons_of_mem _ he)
      · split
        · rename_i h
          subst h
          have hw : P v = P w := by simpa [Sparse.getD, Sparse.find] using hv
          simp [hw]
        · rename_i h
          have hne : q ≠ j := fun e => h e.symm
          have hr : P v = P (Sparse.getD d rest j) := by simpa [Sparse.getD, Sparse.find, hne] using hv
          exact fun h => List.forall_mem_cons.2
            ⟨h _ List.mem_cons_self, ih hr fun e he => h e (List.mem_cons_of_mem _ he)⟩
  · intro h e he
    rcases Sparse.mem_put he with rfl | he
    · exact hv.mpr (Sparse.getD_all hd h j)
    · exact h e he

/-- A core that is as good as the one that it replaces. -/
@[simp] theorem State.fits_setCore_eq {s : State} {n : Nat} {c : Core} (hc : c.Fits form = (s.core n).Fits form) :
    (s.setCore n c).Fits form = s.Fits form := by
  cases form
  · have all := Sparse.forall_put (P := fun c : Core => c.wf = true) (d := {}) rfl (m := s.cores) hc
    refine propext ((Memory.wf_iff _).trans (Iff.trans ?_ (Memory.wf_iff _).symm))
    refine and_congr (and_congr ?_ all) Iff.rfl
    exact Eq.to_iff (congrArg (· = true) (Sparse.rising_put_eq _ _ _))
  · refine propext ⟨fun h m i => ?_, fun h => State.fits_setCore h n (hc.mpr (State.fits_core h n))⟩
    by_cases e : m = n
    · subst e
      refine hc.mp (fun i => ?_) i
      have hi := h m i
      simp only [State.ctx, State.core_setCore, if_true] at hi
      exact hi
    · have hi := h m i
      simp only [State.ctx, State.core_setCore, if_neg e] at hi
      exact hi

/-- A context that is as good as the one that it replaces. -/
@[simp] theorem Core.fits_setCtx_eq {c : Core} {i : Nat} {x : Ctx} (hx : x.Fits form = (c.ctx i).Fits form) :
    (c.setCtx i x).Fits form = c.Fits form := by
  cases form
  · have all := Sparse.forall_put (P := fun x : Ctx => x.wf = true) (d := {}) rfl (m := c.ctxs) hx
    refine propext ((Core.wf_iff _).trans (Iff.trans ?_ (Core.wf_iff _).symm))
    exact and_congr_right' (and_congr_right' (and_congr_right' (and_congr_right' all)))
  · refine propext ⟨fun h j => ?_, fun h => Core.fits_setCtx h i (hx.mpr (h i))⟩
    by_cases e : j = i
    · subst e
      exact hx.mp (by simpa using h j)
    · simpa [e] using h j

/-- A slice that is as good as the one that it replaces. -/
@[simp] theorem State.fits_setSlice_eq {s : State} {n : Nat} {c : Slice} (hc : c.Fits form = (s.slice n).Fits form) :
    (s.setSlice n c).Fits form = s.Fits form := by
  cases form
  · have all := Sparse.forall_put (P := fun c : Slice => c.wf = true) (d := {}) rfl (m := s.slices) hc
    refine propext ((Memory.wf_iff _).trans (Iff.trans ?_ (Memory.wf_iff _).symm))
    refine and_congr Iff.rfl (and_congr (and_congr ?_ all) Iff.rfl)
    exact Eq.to_iff (congrArg (· = true) (Sparse.rising_put_eq _ _ _))
  · rfl

/-- A fold whose every step changes nothing about it. -/
@[simp] theorem fits_foldl {α : Type} {f : State → α → State} (h : ∀ s a, (f s a).Fits form = s.Fits form) (l : List α)
    (s : State) : (l.foldl f s).Fits form = s.Fits form :=
  List.foldlRecOn (b := s) l f (motive := fun t => t.Fits form = s.Fits form) rfl fun t ht a _ => (h t a).trans ht

/-- A fold whose every step keeps it. -/
theorem fits_foldl_of {α : Type} {f : State → α → State} (l : List α) {s : State} (hs : s.Fits form)
    (h : ∀ s a, s.Fits form → (f s a).Fits form) : (l.foldl f s).Fits form :=
  List.foldlRecOn (b := s) l f (motive := fun t => t.Fits form) hs fun t ht a _ => h t a ht

end Sys2Proof.Machine
end

section
/-! SUPPORT. What each operation of the model keeps of the two invariants. Where it leaves both memory's form and the
program counters alone the lemma is an equation, so that it rewrites under any other operation; where it changes them it
says what is kept. -/

namespace Sys2Proof.Machine
variable {form : Form}

/-! ## Units, registers, notices and fences -/

@[simp] theorem fits_setRouter (s : State) (n : Nat) (r : Router) : (s.setRouter n r).Fits form = s.Fits form := by
  simp [State.setRouter]

@[simp] theorem fits_setSite (s : State) (st : Nat) (c : Site) : (s.setSite st c).Fits form = s.Fits form := by
  simp [State.setSite]

@[simp] theorem fits_setLink (s : State) (k : Nat) (c : Link) : (s.setLink k c).Fits form = s.Fits form := by
  simp [State.setLink]

@[simp] theorem fits_setGuest (s : State) (g : Nat) (c : Guest) : (s.setGuest g c).Fits form = s.Fits form := by
  simp [State.setGuest]

@[simp] theorem fits_setSteward (s : State) (q : Nat) (c : Steward) : (s.setSteward q c).Fits form = s.Fits form := by
  simp [State.setSteward]

@[simp] theorem fits_modLead (s : State) (f : Lead → Lead) : (s.modLead f).Fits form = s.Fits form := by
  simp [State.modLead]

@[simp] theorem fits_setReg (s : State) (k : Blk) (off : Nat) (w : Word) :
    (s.setReg k off w).Fits form = s.Fits form :=
  State.fits_eq rfl rfl (Sparse.rising_put_eq _ _ _) rfl

@[simp] theorem fits_tick (s : State) : s.tick.Fits form = s.Fits form :=
  State.fits_eq rfl rfl rfl rfl

@[simp] theorem fits_spun (s : State) (n : Nat) : (s.spun n).Fits form = s.Fits form := by
  simp [State.spun]

@[simp] theorem fits_noteSpin (s : State) : s.noteSpin.Fits form = s.Fits form := by
  simp [State.noteSpin]

@[simp] theorem fits_noticeDie (s : State) (n code : Nat) (p : Option Packet) :
    (s.noticeDie n code p).Fits form = s.Fits form := by
  unfold State.noticeDie
  split <;> simp

@[simp] theorem fits_noticePlain (s : State) (n code : Nat) (p : Option Packet) :
    (s.noticePlain n code p).Fits form = s.Fits form := by
  unfold State.noticePlain
  split <;> simp

@[simp] theorem fits_noticeSite (s : State) (st code : Nat) : (s.noticeSite st code).Fits form = s.Fits form := by
  simp [State.noticeSite]

@[simp] theorem fits_noticeLead (s : State) (code : Nat) : (s.noticeLead code).Fits form = s.Fits form := by
  simp [State.noticeLead]

@[simp] theorem fits_creditDie (s : State) (n pl : Nat) (p : Packet) :
    (s.creditDie n pl p).Fits form = s.Fits form := by
  unfold State.creditDie
  split <;> simp

@[simp] theorem fits_discardDie (s : State) (n pl : Nat) (p : Packet) (code : Nat) :
    (s.discardDie n pl p code).Fits form = s.Fits form := by
  simp [State.discardDie]

@[simp] theorem fits_ackDie (s : State) (n pl : Nat) (p : Packet) : (s.ackDie n pl p).Fits form = s.Fits form := by
  unfold State.ackDie
  split <;> simp

@[simp] theorem fits_flagRemap (s : State) (st cause : Nat) : (s.flagRemap st cause).Fits form = s.Fits form := by
  simp [State.flagRemap]

@[simp] theorem fits_fenceEffect (s : State) (n : Nat) (now : Nat → Bool → Bool) :
    (s.fenceEffect n now).Fits form = s.Fits form := by
  simp [State.fenceEffect]

@[simp] theorem fits_setFence (s : State) (n : Nat) (on : Bool) : (s.setFence n on).Fits form = s.Fits form := by
  simp [State.setFence]

/-! ## Waits, releases and faults of contexts -/

@[simp] theorem fits_cairn (s : State) (n i : Nat) : (s.cairn n i).Fits form = s.Fits form := by
  simp [State.cairn, State.ctx_eq]

@[simp] theorem fits_release {s : State} (h : s.Fits form) (n i : Nat) : (s.release n i).Fits form := by
  rw [State.release, fits_cairn]
  exact State.fits_modCtx h n i Ctx.fits_released

@[simp] theorem fits_bump {s : State} (h : s.Fits form) (n k : Nat) : (s.bump n k).Fits form := by
  have hc := State.fits_core h n
  simp [State.bump, h, hc]

theorem fits_testCtx (n : Nat) (sel : WaitFor → Bool) {a : State × List Nat} (h : a.1.Fits form) (i : Nat) :
    (testCtx n sel a i).1.Fits form := by
  have hc := State.fits_core h n
  unfold testCtx
  dsimp only
  split
  · split
    · split
      · exact fits_release (State.fits_setCore h n (Core.fits_setSlot hc _ _)) n i
      · exact h
    · split
      · exact fits_release h n i
      · exact h
    · exact h
  · exact h

theorem fits_testAll {s : State} (h : s.Fits form) (n : Nat) (sel : WaitFor → Bool) : (testAll s n sel).1.Fits form :=
  List.foldlRecOn (b := (s, [])) [0, 1, 2, 3] (testCtx n sel) (motive := fun a => a.1.Fits form) h
    fun _ ha i _ => fits_testCtx n sel ha i

@[simp] theorem fits_addCounts {s : State} (h : s.Fits form) (f n : Nat) (ks : List Nat) :
    (addCounts f s n ks).Fits form := by
  induction f generalizing s ks with
  | zero => exact h
  | succ f ih =>
    cases ks with
    | nil => exact h
    | cons k rest => exact ih (fits_testAll (fits_bump h n k) n _) _

@[simp] theorem fits_addCount {s : State} (h : s.Fits form) (n k : Nat) : (s.addCount n k).Fits form :=
  fits_addCounts h _ n _

@[simp] theorem fits_testSlot {s : State} (h : s.Fits form) (n sl : Nat) : (s.testSlot n sl).Fits form :=
  fits_addCounts (fits_testAll h n _) _ n _

@[simp] theorem fits_signal {s : State} (h : s.Fits form) (n sl e : Nat) : (s.signal n sl e).Fits form :=
  fits_testSlot (State.fits_setCore h n (Core.fits_setSlot (State.fits_core h n) _ _)) n sl

@[simp] theorem fits_writeSlot {s : State} (h : s.Fits form) (n sl : Nat) (v : Word) :
    (s.writeSlot n sl v).Fits form := by
  have slot : ∀ w, ((s.setCore n ((s.core n).setSlot sl w)).testSlot n sl).Fits form := fun w =>
    fits_testSlot (State.fits_setCore h n (Core.fits_setSlot (State.fits_core h n) _ _)) n sl
  simp [State.writeSlot, slot]

@[simp] theorem fits_writeCc {s : State} (h : s.Fits form) (n k : Nat) (v : Word) : (s.writeCc n k v).Fits form :=
  fits_addCounts (fits_testAll (State.fits_setCore h n (Core.fits_setCc (State.fits_core h n) _ _)) n _) _ n _

@[simp] theorem fits_wakeParked {s : State} (h : s.Fits form) (n : Nat) : (s.wakeParked n).Fits form :=
  fits_foldl_of _ h fun t i ht => by
    dsimp only
    split
    · exact fits_release ht n i
    · exact ht

@[simp] theorem fits_faultCtx (s : State) (n i code unit pc : Nat) (addr : Word) :
    (s.faultCtx n i code unit pc addr).Fits form = s.Fits form := by
  simp [State.faultCtx, State.ctx_eq]

@[simp] theorem fits_asyncFault (s : State) (n i code unit pc : Nat) (addr : Word) :
    (s.asyncFault n i code unit pc addr).Fits form = s.Fits form := by
  simp [State.asyncFault, State.ctx_eq]

@[simp] theorem fits_drain {s : State} (h : s.Fits form) (n i : Nat) : (s.drain n i).Fits form := by
  have hc := State.fits_core h n
  have hx := State.fits_ctx h n i
  have freed : Ctx.Fits form (s.ctx n i).freed := Ctx.fits_freed hx
  unfold State.drain
  dsimp only
  split
  · exact h
  · split
    · split
      · exact State.fits_setCore h n (Core.fits_setCtx hc i (by simp [freed]))
      · exact h
    · split
      · split
        · exact fits_release h n i
        · rw [fits_cairn]
          exact State.fits_setCore h n (Core.fits_setCtx hc i freed)
        · exact h
      · exact h

/-! ## Issue and retirement -/

/-- The next word of a program counter that lies on a word. -/
theorem Ctx.fits_next {x y : Ctx} (hx : x.Fits form) (room : x.pc < 0x1_0000) (hy : y.Fits form) :
    Ctx.Fits form { y with pc := x.pc + 8 } := by
  cases form
  · exact hy
  · obtain ⟨aligned, -⟩ := hx
    exact Ctx.fits_setPc hy (by omega) (by omega)

/-- A context that issues a word has its program counter on it (R53). -/
theorem issuing_pc_lt {s : State} {n i : Nat} {w : Word} (h : issuing s n = some (i, .word w)) :
    (s.ctx n i).pc < 0x1_0000 := by
  unfold issuing at h
  split at h
  · split at h
    · rename_i j _
      simp only [Option.some.injEq, Prod.mk.injEq] at h
      obtain ⟨rfl, hf⟩ := h
      unfold fetch at hf
      split at hf
      · cases hf
      · rename_i hpc
        exact Nat.lt_of_not_le hpc
    · cases h
  · cases h

@[simp] theorem fits_beginIssue {s : State} (h : s.Fits form) (n : Nat) (who : Option Nat) :
    (beginIssue s n who).Fits form := by
  have marked : ∀ l : List Nat, ((l.foldl (fun c j => c.setCtx j { c.ctx j with held := true }) (s.core n)).Fits form) :=
    fun l => List.foldlRecOn (motive := fun c : Core => c.Fits form) l _ (State.fits_core h n)
      fun c hc j _ => Core.fits_setCtx hc j (by simp [hc])
  refine State.fits_setCore h n ?_
  cases who with
  | none => exact marked _
  | some i =>
    simp only [Core.fits_update]
    exact Core.fits_setCtx (marked _) i (by simp [marked])

/-- Issuing keeps an invariant where what the instruction does at a context that issues a word keeps it. -/
theorem fits_issue {s : State} (h : s.Fits form) (n : Nat) (row : Word → Bool) {act : State → Nat → Word → State}
    (keeps : ∀ (t : State) i w, t.Fits form → (t.ctx n i).pc < 0x1_0000 → (act t i w).Fits form) :
    (issue s n row act).Fits form := by
  unfold issue
  split
  · rename_i i w hi
    have pc : ((beginIssue s n (some i)).ctx n i).pc < 0x1_0000 := by
      rw [beginIssue_ctx]
      exact issuing_pc_lt hi
    dsimp only
    split
    · split
      · simp [h]
      · exact keeps _ i w (fits_beginIssue h n _) pc
    · exact h
  · exact h
  · split
    · exact fits_beginIssue h n _
    · exact h

theorem fits_retireTo {s : State} (h : s.Fits form) {n i t : Nat} (aligned : t % 8 = 0) (inside : t ≤ 0x1_0000)
    {f : Ctx → Ctx} (keeps : ∀ x, x.Fits form → (f x).Fits form) : (s.retireTo n i t f).Fits form := by
  rw [State.retireTo, fits_cairn]
  exact State.fits_setCore h n (Core.fits_setCtx (State.fits_core h n) i
    (Ctx.fits_setPc (keeps _ (State.fits_ctx h n i)) aligned inside))

/-- A context retires at the next word, where it has issued a word. -/
theorem fits_retire {s : State} (h : s.Fits form) {n i : Nat} (room : (s.ctx n i).pc < 0x1_0000) {f : Ctx → Ctx}
    (keeps : ∀ x, x.Fits form → (f x).Fits form) : (s.retire n i f).Fits form := by
  rw [State.retire, fits_cairn]
  exact State.fits_setCore h n (Core.fits_setCtx (State.fits_core h n) i
    (Ctx.fits_next (State.fits_ctx h n i) room (keeps _ (State.fits_ctx h n i))))

/-- A context parks at the next word, where it has issued a word. -/
theorem fits_park {s : State} (h : s.Fits form) {n i : Nat} (room : (s.ctx n i).pc < 0x1_0000) (wf : WaitFor)
    (idle : Bool) : (s.park n i wf idle).Fits form :=
  State.fits_setCore h n (Core.fits_setCtx (State.fits_core h n) i
    (Ctx.fits_next (y := { s.ctx n i with state := .parked, wait := wf, idle := idle }) (State.fits_ctx h n i) room
      (by simp [h])))

@[simp] theorem fits_issueFault (s : State) (n i code unit : Nat) (addr : Word) :
    (s.issueFault n i code unit addr).Fits form = s.Fits form := by
  simp [State.issueFault]

/-! ## Units that take descriptors -/

theorem fits_handOver {s : State} (h : s.Fits form) {n i : Nat} (room : (s.ctx n i).pc < 0x1_0000) (w : Word)
    (u : UnitKind) (unit : Nat) : (handOver s n i w u unit).Fits form := by
  unfold handOver
  dsimp only
  split
  · simp [h]
  · refine fits_retire ?_ ?_ fun x hx => ?_
    · simp [h]
    · simpa [State.ctx_eq, Core.ctx] using room
    · simp [hx]

/-! ## The inbox chain -/

@[simp] theorem fits_feed {s : State} (h : s.Fits form) (n : Nat) : (feed s n).Fits form := by
  unfold feed
  dsimp only
  split
  · exact h
  · split
    · have entered : ∀ x, (s.setCore n { s.core n with inbox := x, admitting := none }).Fits form := fun x => by simp [h]
      have woken := fun x j => fits_wakeParked (fits_addCount (entered x) n j) n
      split
      · simp [woken]
      · exact woken _ _
    · simp [h]

@[simp] theorem fits_admitPacket {s : State} (h : s.Fits form) (n pl : Nat) (p : Packet) :
    (admitPacket s n pl p).Fits form :=
  fits_feed (by simp [h]) n

@[simp] theorem fits_flush (s : State) (n : Nat) : (s.flush n).Fits form = s.Fits form := by
  simp [State.flush]

/-! ## Control of contexts and cores -/

@[simp] theorem fits_haltOne (s : State) (n i : Nat) (on : Bool) : (s.haltOne n i on).Fits form = s.Fits form := by
  unfold State.haltOne
  dsimp only
  repeat' split
  all_goals simp [State.ctx_eq]

@[simp] theorem fits_halt (s : State) (n : Nat) (bits4 : Nat) : (s.halt n bits4).Fits form = s.Fits form := by
  simp [State.halt]

@[simp] theorem fits_clearFaultOne {s : State} (h : s.Fits form) (n i : Nat) : (s.clearFaultOne n i).Fits form := by
  unfold State.clearFaultOne
  dsimp only
  split
  · split
    · refine State.fits_setCtx h n i ?_
      rw [Ctx.fits_update]
      exact Ctx.fits_freed (State.fits_ctx h n i)
    · exact State.fits_setCtx h n i (by simp [h])
  · exact h

@[simp] theorem fits_clearFault {s : State} (h : s.Fits form) (n : Nat) (bits4 : Nat) :
    (s.clearFault n bits4).Fits form :=
  fits_foldl_of _ h fun t i ht => by
    split
    · exact fits_clearFaultOne ht n i
    · exact ht

@[simp] theorem fits_startRefused (s : State) (n : Nat) : (s.startRefused n).Fits form = s.Fits form := by
  simp [State.startRefused]

/-- START begins at an entry of 13 bits (R65). -/
@[simp] theorem fits_start {s : State} (h : s.Fits form) (n : Nat) : (s.start n).Fits form := by
  unfold State.start
  split
  · exact State.fits_setCore h n (Core.fits_setCtx (State.fits_core h n) 0 (Ctx.fits_started _ _ (bits_lt _ _ _) _))
  · simp [h]

@[simp] theorem fits_clearRegs {s : State} (h : s.Fits form) (n : Nat) : (clearRegs s n).Fits form :=
  State.fits_dropStaged (by simpa using h) _ _

@[simp] theorem fits_dropAdmission (s : State) (n : Nat) : (s.dropAdmission n).Fits form = s.Fits form := by
  unfold State.dropAdmission
  split <;> simp

@[simp] theorem fits_beginClear {s : State} (h : s.Fits form) (n : Nat) : (s.beginClear n).Fits form :=
  fits_clearRegs (State.fits_setCore (by simpa using h) n Core.fits_cleared) n

@[simp] theorem fits_clear {s : State} (h : s.Fits form) (n : Nat) : (s.clear n).Fits form := by
  simp [State.clear, h]

@[simp] theorem fits_clearDone (s : State) (n : Nat) : (s.clearDone n).Fits form = s.Fits form := by
  simp [State.clearDone]

@[simp] theorem fits_writeCtl {s : State} (h : s.Fits form) (n : Nat) (v : Word) : (s.writeCtl n v).Fits form := by
  have freed : ((s.halt n (bits v 4 4)).clearFault n (bits v 8 4)).Fits form := fits_clearFault (by simpa using h) n _
  simp [State.writeCtl, freed]

/-! ## The control bridge -/

@[simp] theorem fits_bridgeReply (s : State) (p : Packet) (status : Nat) (data : List Byte) :
    (s.bridgeReply p status data).Fits form = s.Fits form := by
  simp [State.bridgeReply]

@[simp] theorem fits_countStray (s : State) : s.countStray.Fits form = s.Fits form := by
  simp [State.countStray]

@[simp] theorem fits_bridgeEnd (s : State) (r : CtlReq) (status : Nat) (data : List Byte) :
    (s.bridgeEnd r status data).Fits form = s.Fits form := by
  simp [State.bridgeEnd]

@[simp] theorem fits_bridgeInjected (s : State) (p : Packet) : (s.bridgeInjected p).Fits form = s.Fits form := by
  unfold State.bridgeInjected
  repeat' split
  all_goals simp

/-! ## Crossings -/

@[simp] theorem fits_modEnd (s : State) (n pl d : Nat) (f : LinkEnd → LinkEnd) :
    (s.modEnd n pl d f).Fits form = s.Fits form := by
  simp [State.modEnd]

@[simp] theorem fits_sendWords (s : State) (n pl d : Nat) (join : Bool) (ws : List WordSlot) :
    (s.sendWords n pl d join ws).Fits form = s.Fits form := by
  simp [State.sendWords]

/-! ## The ends of unit operations -/

@[simp] theorem fits_opEnd {s : State} (h : s.Fits form) (n : Nat) (op : UnitOp) (ok : Bool) :
    (s.opEnd n op ok).Fits form := by
  have ended : ((s.modCtx n op.ctx (fun x => { x with outstanding := x.outstanding - 1 })).modCore n
      (fun c => Core.unhold { c with ops := eraseFirst op c.ops })).Fits form :=
    State.fits_modCore (State.fits_modCtx h n op.ctx fun hx => by simpa using hx) n fun hc => Core.fits_unhold (by simpa using hc)
  unfold State.opEnd
  refine fits_drain ?_ n op.ctx
  split
  · exact fits_addCount ended n op.cc
  · exact ended

@[simp] theorem fits_opFinish {s : State} (h : s.Fits form) (n : Nat) (op : UnitOp) :
    (s.opFinish n op).Fits form := fits_opEnd h n op true

@[simp] theorem fits_opFault {s : State} (h : s.Fits form) (n : Nat) (op : UnitOp) (code : Nat) (addr : Nat) :
    (s.opFault n op code addr).Fits form := fits_opEnd (by simpa using h) n op false

/-! ## The tensor engine -/

@[simp] theorem fits_writeResult {s : State} (h : s.Fits form) (n : Nat) (op : UnitOp) (at_ : Nat) (d : Desc)
    (r : TResult) : (writeResult s n op at_ d r).Fits form := by
  unfold writeResult
  split
  · exact fits_opFault h n op _ _
  · refine fits_opFinish (State.fits_modCore h n fun hc => ?_) n op
    split <;> simp [hc]

@[simp] theorem fits_tensorStep {s : State} (h : s.Fits form) (n fn : Nat) (isSeal : Bool)
    (run : Core → UnitOp → Desc → Nat × TResult) : (tensorStep s n fn isSeal run).Fits form := by
  unfold tensorStep
  dsimp only
  repeat' split
  all_goals simp [h]

/-! ## The message engine and the ledger port -/

@[simp] theorem fits_msgStep {s : State} (h : s.Fits form) (n row : Nat) : (msgStep s n row).Fits form := by
  unfold msgStep
  dsimp only
  repeat' split
  all_goals simp [h]

@[simp] theorem fits_msgInjected {s : State} (h : s.Fits form) (n pl : Nat) : (s.msgInjected n pl).Fits form := by
  unfold State.msgInjected
  dsimp only
  repeat' split
  all_goals simp [h]

@[simp] theorem fits_lopDone {s : State} (h : s.Fits form) (n seq : Nat) : (s.lopDone n seq).Fits form := by
  unfold State.lopDone
  split
  · exact fits_opFinish (by simpa using h) n _
  · exact h

@[simp] theorem fits_lopLost {s : State} (h : s.Fits form) (n seq : Nat) : (s.lopLost n seq).Fits form := by
  unfold State.lopLost
  split
  · exact State.fits_modCore h n fun hc => Core.fits_writeSpad hc _ _
  · exact h

/-! ## Slices -/

/-- A slice's bytes may be replaced by any that are listed under rising keys where the old ones were. -/
theorem Slice.fits_dram {c : Slice} (h : c.Fits form) {dram : Sparse Byte} {fill : Nat} {bad corr : List Nat}
    (rises : Sparse.rising c.dram = true → Sparse.rising dram = true) :
    Slice.Fits form { c with dram := dram, fill := fill, badLines := bad, corrLines := corr } := by
  cases form
  · exact rises h
  · trivial

@[simp] theorem Slice.fits_writeDram {c : Slice} (h : c.Fits form) (a : Nat) (b : List Byte) :
    (c.writeDram a b).Fits form := Slice.fits_dram h (Sparse.rising_writeAll b a)

@[simp] theorem Slice.fits_closeSet (c : Slice) (l : Nat) : (c.closeSet l).Fits form = c.Fits form := by
  simp [Slice.closeSet, Slice.dropData]

/-- Closing read sets of the merge window touches no memory. -/
@[simp] theorem Slice.fits_closeSets (c : Slice) (rs : List (Nat × Nat)) : (c.closeSets rs).Fits form = c.Fits form := by
  unfold Slice.closeSets
  refine List.foldlRecOn (motive := fun d : Slice => d.Fits form = c.Fits form) _ _ rfl fun d hd l _ => ?_
  rw [← hd, Slice.fits_closeSet]

/-- A slice that gives up an answer to the router keeps its memory. -/
theorem Slice.fits_takeOut {c d : Slice} {p : Offer → Bool} (h : c.takeOut p = some d) : d.Fits form = c.Fits form := by
  unfold Slice.takeOut at h
  split at h
  · cases h
    simp
  · split at h
    · cases h
      unfold Slice.ackGone
      dsimp only
      split <;> simp
    · obtain ⟨x, -, rfl⟩ := Option.map_eq_some_iff.1 h
      simp

@[simp] theorem Slice.fits_joinSets (c : Slice) (win : Nat) (merge : Bool) (p : Packet) (pl : Nat) :
    (c.joinSets win merge p pl).Fits form = c.Fits form := by
  simp [Slice.joinSets]

@[simp] theorem Slice.fits_keepLines (c : Slice) (nd : Nat) (lines : List Nat) :
    (c.keepLines nd lines).Fits form = c.Fits form := by
  simp [Slice.keepLines, Slice.dropData]

@[simp] theorem fits_loseDram {s : State} (h : s.Fits form) (n : Nat) : (s.loseDram n).Fits form := by
  rw [State.loseDram, State.fits_update]
  exact State.fits_modSlice h n fun hc => Slice.fits_dram hc fun _ => rfl

@[simp] theorem fits_countMc (s : State) (n off lo k : Nat) : (s.countMc n off lo k).Fits form = s.Fits form := by
  simp [State.countMc]

@[simp] theorem fits_readLines (s : State) (n : Nat) (lines : List Nat) :
    (s.readLines n lines).Fits form = s.Fits form := by
  simp [State.readLines]

@[simp] theorem fits_storeLines (s : State) (n : Nat) (lines : List Nat) :
    (s.storeLines n lines).Fits form = s.Fits form := by
  simp [State.storeLines]

@[simp] theorem fits_writeSlice {s : State} (h : s.Fits form) (n a : Nat) (b : List Byte) :
    (s.writeSlice n a b).Fits form :=
  State.fits_modSlice (by simpa using h) n fun hc => Slice.fits_writeDram hc a b

@[simp] theorem fits_queueReq (s : State) (n pl : Nat) (p : Packet) :
    (s.queueReq n pl p).Fits form = s.Fits form := by
  simp [State.queueReq]

@[simp] theorem fits_creditSlice (s : State) (n pl : Nat) (p : Packet) :
    (s.creditSlice n pl p).Fits form = s.Fits form := by
  unfold State.creditSlice
  split <;> simp

@[simp] theorem fits_discardSlice (s : State) (n pl : Nat) (p : Packet) (code : Nat) :
    (s.discardSlice n pl p code).Fits form = s.Fits form := by
  simp [State.discardSlice]

@[simp] theorem fits_mcOverflow (s : State) (n pl : Nat) (p : Packet) :
    (s.mcOverflow n pl p).Fits form = s.Fits form := by
  simp [State.mcOverflow]

@[simp] theorem fits_mcKind (s : State) (n pl : Nat) (p : Packet) : (s.mcKind n pl p).Fits form = s.Fits form := by
  simp [State.mcKind]

@[simp] theorem fits_acceptReq (s : State) (n pl : Nat) (p : Packet) :
    (s.acceptReq n pl p).Fits form = s.Fits form := by
  simp [State.acceptReq]

@[simp] theorem fits_toDram (s : State) (n pl : Nat) (p : Packet) : (s.toDram n pl p).Fits form = s.Fits form := by
  simp [State.toDram]

@[simp] theorem fits_respond (s : State) (n pl : Nat) (p : Packet) : (s.respond n pl p).Fits form = s.Fits form := by
  simp [State.respond]

@[simp] theorem fits_sliceRead (s : State) (n : Nat) (r : Req) : (s.sliceRead n r).Fits form = s.Fits form := by
  simp [State.sliceRead]

@[simp] theorem fits_sliceReduce {s : State} (h : s.Fits form) (n : Nat) (r : Req) :
    (s.sliceReduce n r).Fits form := by
  have written : ∀ t : State, t.Fits form → ∀ a b, (t.modSlice n fun c => c.writeDram a b).Fits form :=
    fun t ht a b => State.fits_modSlice ht n fun hc => Slice.fits_writeDram hc a b
  unfold State.sliceReduce
  dsimp only
  generalize ha : State.modSlice _ n _ = s1
  have h1 : s1.Fits form := ha ▸ written _ (by simpa using h) _ _
  repeat' split
  all_goals simp [h1]

/-! ## The mesh -/

@[simp] theorem fits_creditHere (s : State) (n pl : Nat) (pt : Port) (p : Packet) :
    (s.creditHere n pl pt p).Fits form = s.Fits form := by
  unfold State.creditHere
  split <;> simp

@[simp] theorem fits_countDiscard (s : State) (n pl : Nat) : (s.countDiscard n pl).Fits form = s.Fits form := by
  simp [State.countDiscard]

@[simp] theorem fits_routerDrop (s : State) (n pl : Nat) (pt : Port) (p : Packet) (credit : Bool) (code : Option
    Nat) :
    (s.routerDrop n pl pt p credit code).Fits form = s.Fits form := by
  unfold State.routerDrop
  dsimp only
  split <;> simp

@[simp] theorem fits_meet (n pl : Nat) (s : State) (h : Held) : (State.meet n pl s h).Fits form = s.Fits form := by
  unfold State.meet
  dsimp only
  repeat' split
  all_goals simp

@[simp] theorem fits_enter (s : State) (n pl : Nat) (h : Header) : (s.enter n pl h).Fits form = s.Fits form := by
  simp [State.enter]

@[simp] theorem fits_takeWord (n pl e : Nat) (s : State) (w : WordSlot) :
    (State.takeWord n pl e s w).Fits form = s.Fits form := by
  simp [State.takeWord]

@[simp] theorem fits_takeWords (s : State) (n pl e : Nat) (ws : List WordSlot) :
    (s.takeWords n pl e ws).Fits form = s.Fits form := by
  simp [State.takeWords]

@[simp] theorem fits_receive (n pl : Nat) (s : State) (e : Nat) : (State.receive n pl s e).Fits form = s.Fits form := by
  unfold State.receive
  dsimp only
  split <;> simp

@[simp] theorem fits_occupy (s : State) (n pl d : Nat) (h : Header) (cross : Bool) :
    (s.occupy n pl d h cross).Fits form = s.Fits form := by
  simp [State.occupy]

@[simp] theorem fits_forward (s : State) (n pl d : Nat) (h : Header) :
    (s.forward n pl d h).Fits form = s.Fits form := by
  simp [State.forward]

@[simp] theorem fits_rootOnly (s : State) (n pl : Nat) (pt : Port) (q : Packet) {f : State → State}
    (h : ∀ s, (f s).Fits form = s.Fits form) : (s.rootOnly n pl pt q f).Fits form = s.Fits form := by
  simp [State.rootOnly, h]

@[simp] theorem fits_enterChecked (s : State) (n pl : Nat) (pt : Port) (p : Packet) (keep : Bool) :
    (s.enterChecked n pl pt p keep).Fits form = s.Fits form := by
  unfold State.enterChecked
  dsimp only
  repeat' split
  all_goals simp

@[simp] theorem fits_inject (s : State) (n pl : Nat) (pt : Port) (p : Packet) (keep : Bool) :
    (s.inject n pl pt p keep).Fits form = s.Fits form := by
  simp [State.inject]

@[simp] theorem fits_dieSends (s : State) (n pl : Nat) (p : Packet) (cross : Bool) :
    (s.dieSends n pl p cross).Fits form = s.Fits form := by
  simp [State.dieSends]

@[simp] theorem fits_injectFrom (s : State) (n pl : Nat) (p : Packet) (cross keep : Bool) :
    (s.injectFrom n pl p cross keep).Fits form = s.Fits form := by
  simp [State.injectFrom]

@[simp] theorem fits_drainPort (n pl : Nat) (s : State) (d : Nat) :
    (State.drainPort n pl s d).Fits form = s.Fits form := by
  simp [State.drainPort]

@[simp] theorem fits_portCycle (s : State) (n pl : Nat) : (s.portCycle n pl).Fits form = s.Fits form := by
  simp [State.portCycle]

@[simp] theorem fits_leave (s : State) (n pl : Nat) (h : Header) : (s.leave n pl h).Fits form = s.Fits form := by
  simp [State.leave]

@[simp] theorem fits_handUp (s : State) (n pl : Nat) (h : Header) : (s.handUp n pl h).Fits form = s.Fits form := by
  simp [State.handUp]

@[simp] theorem fits_handPlain (s : State) (n pl : Nat) (h : Header) :
    (s.handPlain n pl h).Fits form = s.Fits form := by
  simp [State.handPlain]

@[simp] theorem fits_transfer (s : State) (n pl q : Nat) (p : Packet) (kids : Option (List Port)) :
    (s.transfer n pl q p kids).Fits form = s.Fits form := by
  simp [State.transfer]

@[simp] theorem fits_deflect (s : State) (n pl : Nat) (h : Header) : (s.deflect n pl h).Fits form = s.Fits form := by
  unfold State.deflect
  repeat' split
  all_goals simp

@[simp] theorem fits_passDest (s : State) (n pl : Nat) (h : Header) :
    (s.passDest n pl h).Fits form = s.Fits form := by
  unfold State.passDest
  repeat' split
  all_goals simp

@[simp] theorem fits_passRoute (s : State) (n pl d : Nat) (h : Header) :
    (s.passRoute n pl d h).Fits form = s.Fits form := by
  unfold State.passRoute
  dsimp only
  repeat' split
  all_goals simp

@[simp] theorem fits_passCopy (s : State) (n pl : Nat) (h : Header) (pt : Port) :
    (s.passCopy n pl h pt).1.Fits form = s.Fits form := by
  unfold State.passCopy
  split
  · split
    · split
      · split <;> simp
      · split <;> simp
    · rfl
    · simp
    · split <;> simp
    · split <;> simp
  · split
    · simp
    · split <;> simp

@[simp] theorem fits_passCopies (s : State) (n pl : Nat) (h : Header) (ps : List Port) :
    (s.passCopies n pl h ps).1.Fits form = s.Fits form := by
  induction ps generalizing s with
  | nil => rfl
  | cons pt rest ih => simp [State.passCopies, ih]

@[simp] theorem fits_passTree_go (n pl : Nat) (h : Header) (s : State) (ks : List Port) :
    (State.passTree.go n pl h s ks).Fits form = s.Fits form := by
  unfold State.passTree.go
  dsimp only
  split <;> simp

@[simp] theorem fits_passTree (s : State) (n pl : Nat) (h : Header) :
    (s.passTree n pl h).Fits form = s.Fits form := by
  unfold State.passTree
  dsimp only
  split <;> simp

@[simp] theorem fits_passOne (n pl : Nat) (s : State) (h : Header) :
    (State.passOne n pl s h).Fits form = s.Fits form := by
  unfold State.passOne
  repeat' split
  all_goals simp

@[simp] theorem fits_enterPlain (s : State) (n pl : Nat) : (s.enterPlain n pl).Fits form = s.Fits form := by
  unfold State.enterPlain
  split <;> simp

@[simp] theorem fits_cutOff (f : Nat) (s : State) (n pl : Nat) (pt : Port) :
    (s.cutOff f n pl pt).Fits form = s.Fits form := RoutersOnly.fits (wordsLost_cutOff f s n pl pt).only

@[simp] theorem fits_cutLink (s : State) (n pl d : Nat) : (s.cutLink n pl d).Fits form = s.Fits form := by
  unfold State.cutLink
  dsimp only
  split <;> simp

@[simp] theorem fits_loseSent (s : State) (n pl d : Nat) (f : WordSlot → Bool) :
    (s.loseSent n pl d f).Fits form = s.Fits form := RoutersOnly.fits (wordsLost_loseSent s n pl d f).only

@[simp] theorem fits_linkLost (s : State) (n pl d : Nat) : (s.linkLost n pl d).Fits form = s.Fits form := by
  unfold State.linkLost
  split <;> simp

@[simp] theorem fits_linkBack (s : State) (n pl d : Nat) : (s.linkBack n pl d).Fits form = s.Fits form := by
  unfold State.linkBack
  split <;> simp

@[simp] theorem fits_vertFailing (s : State) (n pl : Nat) : (s.vertFailing n pl).Fits form = s.Fits form := by
  simp [State.vertFailing]

@[simp] theorem fits_crcFailure (s : State) (n pl : Nat) (pt : Port) (sl : BitVec 4) :
    (s.crcFailure n pl pt sl).Fits form = s.Fits form := by
  simp [State.crcFailure]

@[simp] theorem fits_dropPlane (s : State) (n pl : Nat) : (s.dropPlane n pl).Fits form = s.Fits form := by
  simp [State.dropPlane]

/-! ## Clocks -/

@[simp] theorem fits_loseRouterWords (s : State) (st : Nat) : (loseRouterWords s st).Fits form = s.Fits form := by
  simp [loseRouterWords]

@[simp] theorem fits_loseDieWords (s : State) (st : Nat) : (loseDieWords s st).Fits form = s.Fits form := by
  simp [loseDieWords]

@[simp] theorem fits_loseWords (s : State) (st d : Nat) : (loseWords s st d).Fits form = s.Fits form := by
  unfold loseWords
  repeat' split
  all_goals simp

@[simp] theorem fits_countStretches (s : State) (st d : Nat) : (s.countStretches st d).Fits form = s.Fits form := by
  simp [State.countStretches]

@[simp] theorem fits_oscEn (s : State) (st d : Nat) (on : Bool) : (s.oscEn st d on).Fits form = s.Fits form := by
  simp [State.oscEn]

@[simp] theorem fits_linksBack (s : State) (st : Nat) (cross : Bool) (fails : List (Nat × Nat × Port)) :
    (s.linksBack st cross fails).Fits form = s.Fits form := by
  simp [State.linksBack]

@[simp] theorem fits_oscLock (s : State) (st d : Nat) : (s.oscLock st d).Fits form = s.Fits form := by
  simp [State.oscLock]

@[simp] theorem fits_moveRef (s : State) (st a : Nat) (counted : Bool) :
    (s.moveRef st a counted).Fits form = s.Fits form := by
  simp [State.moveRef]

@[simp] theorem fits_refSwitch (s : State) (st : Nat) : (s.refSwitch st).Fits form = s.Fits form := by
  simp [State.refSwitch]

@[simp] theorem fits_degrade (s : State) (st : Nat) : (s.degrade st).Fits form = s.Fits form := by
  simp [State.degrade]

@[simp] theorem fits_holdover (s : State) (st : Nat) : (s.holdover st).Fits form = s.Fits form := by
  simp [State.holdover]

@[simp] theorem fits_noteExtra (s : State) (st : Nat) : (s.noteExtra st).Fits form = s.Fits form := by
  simp [State.noteExtra]

@[simp] theorem fits_noteCal (s : State) (st : Nat) : (s.noteCal st).Fits form = s.Fits form := by
  simp [State.noteCal]

@[simp] theorem fits_failXing (s : State) (st : Nat) (f : Nat × Nat × Port) :
    (s.failXing st f).Fits form = s.Fits form := by
  simp [State.failXing]

@[simp] theorem fits_stepCalFail (s : State) (st : Nat) (failed : Bool) :
    (s.stepCalFail st failed).Fits form = s.Fits form := by
  simp [State.stepCalFail]

@[simp] theorem fits_calibrate {s : State} (h : s.Fits form) (st : Nat) (fails : List (Nat × Nat × Port)) :
    (s.calibrate st fails).Fits form := by
  simp [State.calibrate, h]

@[simp] theorem fits_cal (s : State) (st : Nat) : (s.cal st).Fits form = s.Fits form := by
  simp [State.cal]

@[simp] theorem fits_calEnd {s : State} (h : s.Fits form) (st : Nat) (fails : List (Nat × Nat
    × Port))
    (offset : Nat) :
    (s.calEnd st fails offset).Fits form := by
  unfold State.calEnd
  split <;> simp [h]

@[simp] theorem fits_recalPort {s : State} (h : s.Fits form) (st loc pl d : Nat) (failed : Bool) :
    (s.recalPort st loc pl d failed).Fits form := by
  unfold State.recalPort
  split <;> simp [h]

@[simp] theorem fits_recal (s : State) (st : Nat) : (s.recal st).Fits form = s.Fits form := by
  simp [State.recal]

@[simp] theorem fits_slip (s : State) (st loc pl port : Nat) : (s.slip st loc pl port).Fits form = s.Fits form := by
  simp [State.slip]

@[simp] theorem fits_xingWord (s : State) (st loc pl port : Nat) :
    (s.xingWord st loc pl port).Fits form = s.Fits form := by
  simp [State.xingWord]

@[simp] theorem fits_arm (s : State) : s.arm.Fits form = s.Fits form := by
  unfold State.arm
  split <;> simp

@[simp] theorem fits_switchDomains (s : State) (st : Nat) : (s.switchDomains st).Fits form = s.Fits form := by
  simp [State.switchDomains]

/-! ## Replay rings -/

@[simp] theorem fits_setRing (s : State) (u i lo len v : Nat) : (s.setRing u i lo len v).Fits form = s.Fits form := by
  simp [State.setRing]

@[simp] theorem fits_modRing (s : State) (u : Nat) (f : Ring → Ring) : (s.modRing u f).Fits form = s.Fits form := by
  simp [State.modRing]

@[simp] theorem fits_dieSend (s : State) (u : Nat) (p : Packet) (own : Bool) :
    (s.dieSend u p own).Fits form = s.Fits form := by
  simp [State.dieSend]

@[simp] theorem fits_ringNotice (s : State) (u code : Nat) : (s.ringNotice u code).Fits form = s.Fits form := by
  simp [State.ringNotice]

@[simp] theorem fits_noteDurable (s : State) (u : Nat) : (s.noteDurable u).Fits form = s.Fits form := by
  simp [State.noteDurable]

@[simp] theorem fits_record (s : State) (u : Nat) (p : Packet) : (s.record u p).Fits form = s.Fits form := by
  simp [State.record]

@[simp] theorem fits_resetRing (s : State) (u : Nat) : (s.resetRing u).Fits form = s.Fits form := by
  simp [State.resetRing]

@[simp] theorem fits_ringAck (s : State) (u : Nat) (key : Word) : (s.ringAck u key).Fits form = s.Fits form := by
  simp [State.ringAck]

@[simp] theorem fits_ringLoss (s : State) (u : Nat) (key : Word) : (s.ringLoss u key).Fits form = s.Fits form := by
  unfold State.ringLoss
  split <;> simp

@[simp] theorem fits_setRstatus (s : State) (u v : Nat) : (s.setRstatus u v).Fits form = s.Fits form := by
  simp [State.setRstatus]

@[simp] theorem fits_ringRead (s : State) (u q b n : Nat) (left : Nat) (got : List Byte) :
    (s.ringRead u q b n left got).Fits form = s.Fits form := by
  simp [State.ringRead]

@[simp] theorem fits_replayNext (s : State) (u q left : Nat) : (s.replayNext u q left).Fits form = s.Fits form := by
  simp [State.replayNext]

@[simp] theorem fits_ringReplay (s : State) (u : Nat) : (s.ringReplay u).Fits form = s.Fits form := by
  simp [State.ringReplay]

@[simp] theorem fits_ringStale (s : State) (u : Nat) : (s.ringStale u).Fits form = s.Fits form := by
  simp [State.ringStale]

@[simp] theorem fits_ringData (s : State) (u : Nat) (d : List Byte) : (s.ringData u d).Fits form = s.Fits form := by
  unfold State.ringData
  split <;> simp

/-! ## Pass ports -/

@[simp] theorem fits_setPort (s : State) (k v : Nat) : (s.setPort k v).Fits form = s.Fits form := by
  simp [State.setPort]

@[simp] theorem fits_passNotice (s : State) (k code : Nat) (p : Option Packet) :
    (s.passNotice k code p).Fits form = s.Fits form := by
  simp [State.passNotice]

@[simp] theorem fits_sendEnd (s : State) (k : Nat) : (s.sendEnd k).Fits form = s.Fits form := by
  simp [State.sendEnd]

@[simp] theorem fits_dropEgress (s : State) (k : Nat) : (s.dropEgress k).Fits form = s.Fits form := by
  simp [State.dropEgress]

@[simp] theorem fits_goDown (s : State) (k reason : Nat) : (s.goDown k reason).Fits form = s.Fits form := by
  simp [State.goDown]

@[simp] theorem fits_pairDown (s : State) (k : Nat) : (s.pairDown k).Fits form = s.Fits form := by
  simp [State.pairDown]

@[simp] theorem fits_pairUp (s : State) (k next : Nat) : (s.pairUp k next).Fits form = s.Fits form := by
  simp [State.pairUp]

@[simp] theorem fits_portDown (s : State) (k reason : Nat) : (s.portDown k reason).Fits form = s.Fits form := by
  simp [State.portDown]

@[simp] theorem fits_passTrain (s : State) (k : Nat) : (s.passTrain k).Fits form = s.Fits form := by
  simp [State.passTrain]

@[simp] theorem fits_opticsOff (s : State) (k : Nat) (off : Bool) : (s.opticsOff k off).Fits form = s.Fits form := by
  simp [State.opticsOff]

@[simp] theorem fits_q1Drop (s : State) (k n pl : Nat) (p : Packet) :
    (s.q1Drop k n pl p).Fits form = s.Fits form := by
  simp [State.q1Drop]

@[simp] theorem fits_q1Purge (s : State) (k : Nat) : (s.q1Purge k).Fits form = s.Fits form := by
  simp [State.q1Purge]

@[simp] theorem fits_noteFar (s : State) (k : Nat) (far : FarEnd) : (s.noteFar k far).Fits form = s.Fits form := by
  simp [State.noteFar]

@[simp] theorem fits_passUp (s : State) (k : Nat) (far : FarEnd) : (s.passUp k far).Fits form = s.Fits form := by
  simp [State.passUp]

@[simp] theorem fits_remap (s : State) (k : Nat) (lanes : List Nat) : (s.remap k lanes).Fits form = s.Fits form := by
  simp [State.remap]

@[simp] theorem fits_failing (s : State) (k : Nat) : (s.failing k).Fits form = s.Fits form := by
  unfold State.failing
  repeat' split
  all_goals simp

@[simp] theorem fits_txFails (s : State) (k : Nat) : (s.txFails k).Fits form = s.Fits form := by
  simp [State.txFails]

@[simp] theorem fits_remapEnd (s : State) (k : Nat) (far : FarLanes) :
    (s.remapEnd k far).Fits form = s.Fits form := by
  simp [State.remapEnd]

@[simp] theorem fits_frameAck (s : State) (k : Nat) (f : Frame) : (s.frameAck k f).Fits form = s.Fits form := by
  simp [State.frameAck]

@[simp] theorem fits_frameBad (s : State) (k : Nat) (f : Frame) : (s.frameBad k f).Fits form = s.Fits form := by
  simp [State.frameBad]

@[simp] theorem fits_takeCell (k : Nat) (s : State) (c : List Byte) :
    (State.takeCell k s c).Fits form = s.Fits form := by
  unfold State.takeCell
  split <;> simp

@[simp] theorem fits_countRetry (s : State) (k : Nat) : (s.countRetry k).Fits form = s.Fits form := by
  simp [State.countRetry]

@[simp] theorem fits_dieDrop (s : State) (k n pl : Nat) (p : Packet) (off lo len code : Nat) :
    (s.dieDrop k n pl p off lo len code).Fits form = s.Fits form := by
  simp [State.dieDrop]

@[simp] theorem fits_toFibre (s : State) (k n pl : Nat) (p : Packet) :
    (s.toFibre k n pl p).Fits form = s.Fits form := by
  simp [State.toFibre]

@[simp] theorem fits_linkEgress (s : State) (k n pl : Nat) (p : Packet) :
    (s.linkEgress k n pl p).Fits form = s.Fits form := by
  unfold State.linkEgress
  repeat' split
  all_goals simp

@[simp] theorem fits_takeUp (s : State) (n pl : Nat) (p : Packet) : (s.takeUp n pl p).Fits form = s.Fits form := by
  unfold State.takeUp
  dsimp only
  repeat' split
  all_goals simp

/-! ## Guest bridges -/

@[simp] theorem fits_guestNotice (s : State) (g code : Nat) (p : Option Packet) :
    (s.guestNotice g code p).Fits form = s.Fits form := by
  simp [State.guestNotice]

@[simp] theorem fits_guestDrop (s : State) (g : Nat) (o : Offer) (n lo code : Nat) :
    (s.guestDrop g o n lo code).Fits form = s.Fits form := by
  simp [State.guestDrop]

@[simp] theorem fits_guestStall (g : Nat) (s : State) (o : Offer) :
    (State.guestStall g s o).Fits form = s.Fits form := by
  simp [State.guestStall]

@[simp] theorem fits_modMod (s : State) (g m : Nat) (f : GuestMod → GuestMod) :
    (s.modMod g m f).Fits form = s.Fits form := by
  simp [State.modMod]

@[simp] theorem fits_guestHand (s : State) (g : Nat) : (s.guestHand g).Fits form = s.Fits form := by
  unfold State.guestHand
  split <;> simp

@[simp] theorem fits_guestTake (s : State) (g pl : Nat) (p : Packet) :
    (s.guestTake g pl p).Fits form = s.Fits form := by
  simp [State.guestTake]

@[simp] theorem fits_guestPurge (s : State) (g : Nat) : (s.guestPurge g).Fits form = s.Fits form := by
  simp [State.guestPurge]

@[simp] theorem fits_guestTrain (s : State) (g : Nat) : (s.guestTrain g).Fits form = s.Fits form := by
  simp [State.guestTrain]

@[simp] theorem fits_guestEnable (s : State) (g : Nat) (on : Bool) :
    (s.guestEnable g on).Fits form = s.Fits form := by
  simp [State.guestEnable]

@[simp] theorem fits_guestRetrain (s : State) (g : Nat) : (s.guestRetrain g).Fits form = s.Fits form := by
  simp [State.guestRetrain]

@[simp] theorem fits_noteAgreement (s : State) (st level step : Nat) (feat : Word) (trained : Bool) :
    (s.noteAgreement st level step feat trained).Fits form = s.Fits form := by
  simp [State.noteAgreement]

@[simp] theorem fits_guestOcClear (s : State) (st : Nat) : (s.guestOcClear st).Fits form = s.Fits form := by
  simp [State.guestOcClear]

@[simp] theorem fits_fordDrop (s : State) (g : Nat) (p : Packet) (cause : Nat) :
    (s.fordDrop g p cause).Fits form = s.Fits form := by
  unfold State.fordDrop
  split <;> simp

@[simp] theorem fits_ford (s : State) (g : Nat) (p : Packet) : (s.ford g p).Fits form = s.Fits form := by
  unfold State.ford
  split <;> simp

@[simp] theorem fits_bridgeHold (s : State) (g m : Nat) (held : Bool) :
    (s.bridgeHold g m held).Fits form = s.Fits form := by
  simp [State.bridgeHold]

@[simp] theorem fits_dropModule (s : State) (g m : Nat) : (s.dropModule g m).Fits form = s.Fits form := by
  simp [State.dropModule]

@[simp] theorem fits_guestCrcFailure (s : State) (g m : Nat) (sl : BitVec 4) :
    (s.guestCrcFailure g m sl).Fits form = s.Fits form := by
  simp [State.guestCrcFailure]

@[simp] theorem fits_guestNak (s : State) (g m : Nat) (q : BitVec 4) :
    (s.guestNak g m q).Fits form = s.Fits form := by
  simp [State.guestNak]

@[simp] theorem fits_guestSlot (s : State) (g m : Nat) (sl : SlotSeen) (hold : Bool) :
    (s.guestSlot g m sl hold).Fits form = s.Fits form := by
  unfold State.guestSlot
  repeat' split
  all_goals simp

/-! ## The ledger -/

@[simp] theorem fits_countLgr (s : State) (n code : Nat) : (s.countLgr n code).Fits form = s.Fits form := by
  unfold State.countLgr
  split <;> simp

@[simp] theorem fits_ledgerApply {s : State} (h : s.Fits form) (n pl : Nat) (p : Packet) (o : LOut) :
    (s.ledgerApply n pl p o).Fits form := by
  unfold State.ledgerApply
  dsimp only
  split
  · simpa using h
  · simp only [fits_respond, fits_countLgr]
    refine State.fits_modSlice (by simpa using h) n fun {c} hc => ?_
    exact List.foldlRecOn (motive := fun d : Slice => d.Fits form) _ _ (by simpa using hc)
      fun d hd w _ => Slice.fits_writeDram hd w.1 w.2

@[simp] theorem fits_lgrApplied (s old : State) (n : Nat) : (s.lgrApplied old n).Fits form = s.Fits form := by
  simp [State.lgrApplied]

@[simp] theorem fits_zeroDram {s : State} (h : s.Fits form) (n a len : Nat) : (s.zeroDram n a len).Fits form :=
  State.fits_modSlice (by simpa using h) n fun hc => Slice.fits_dram hc (Sparse.rising_fillRange a len 0)

/-! ## The state of a load -/

@[simp] theorem fits_dropStaged {s : State} (h : s.Fits form) (k : Blk) : (s.dropStaged k).Fits form :=
  State.fits_dropStaged h _ _

@[simp] theorem fits_discardBlk {s : State} (h : s.Fits form) (k : Blk) : (s.discardBlk k).Fits form := by
  simp [State.discardBlk, h]

@[simp] theorem fits_setRgnState (s : State) (r v : Nat) : (s.setRgnState r v).Fits form = s.Fits form := by
  simp [State.setRgnState]

@[simp] theorem fits_imgFail {s : State} (h : s.Fits form) (code sec : Nat) (node : Option Nat) :
    (s.imgFail code sec node).Fits form := by
  have dropped : ∀ (l : List Blk) {t : State}, t.Fits form → (l.foldl State.discardBlk t).Fits form :=
    fun l _ ht => fits_foldl_of l ht fun t k ht => fits_discardBlk ht k
  unfold State.imgFail
  split <;> simp [h, dropped]

@[simp] theorem fits_imgInterrupt {s : State} (h : s.Fits form) (lost : Nat → Bool) :
    (s.imgInterrupt lost).Fits form := by
  simp [h, State.imgInterrupt]

/-! ## Power and heat -/

@[simp] theorem fits_writeCap (s : State) (n : Nat) : (s.writeCap n).Fits form = s.Fits form := by
  simp [State.writeCap]

@[simp] theorem fits_coreReset {s : State} (h : s.Fits form) (n : Nat) : (s.coreReset n).Fits form :=
  State.fits_dropRegs (State.fits_setCore h n Core.fits_default) (Sparse.rising_dropRange _ _) (Sparse.rising_dropRange _ _)

@[simp] theorem fits_coreOff {s : State} (h : s.Fits form) (n : Nat) : (s.coreOff n).Fits form :=
  fits_coreReset (by simpa using h) n

@[simp] theorem fits_coreOn {s : State} (h : s.Fits form) (n : Nat) : (s.coreOn n).Fits form := by
  simp [h, State.coreOn]

@[simp] theorem fits_slicesOff {s : State} (h : s.Fits form) (st : Nat) : (s.slicesOff st).Fits form := by
  unfold State.slicesOff
  dsimp only
  rw [State.setField_eq, fits_setReg]
  refine fits_foldl_of _ h fun t n ht => ?_
  have lost := fits_loseDram (State.fits_setSlice ht n Slice.fits_default) n
  exact State.fits_dropRegs lost (fun r => Sparse.rising_dropRange _ _ (Sparse.rising_dropRange _ _ r))
    fun r => Sparse.rising_dropRange _ _ (Sparse.rising_dropRange _ _ r)

@[simp] theorem fits_railsOff {s : State} (h : s.Fits form) (st : Nat) : (s.railsOff st).Fits form := by
  have cores : ((siteNodes st).foldl State.coreOff s).Fits form := fits_foldl_of _ h fun t n ht => fits_coreOff ht n
  unfold State.railsOff
  simp [cores]

@[simp] theorem fits_fenceSite (s : State) (st : Nat) : (s.fenceSite st).Fits form = s.Fits form := by
  simp [State.fenceSite]

@[simp] theorem fits_goDark {s : State} (h : s.Fits form) (st : Nat) : (s.goDark st).Fits form := by
  simp [State.goDark, h]

@[simp] theorem fits_goCapped (s : State) (st : Nat) : (s.goCapped st).Fits form = s.Fits form := by
  simp [State.goCapped]

@[simp] theorem fits_failPhase {s : State} (h : s.Fits form) (st ph : Nat) : (s.failPhase st ph).Fits form := by
  unfold State.failPhase
  dsimp only
  repeat' split
  all_goals simp [h]

@[simp] theorem fits_hold (s : State) (st i : Nat) : (s.hold st i).Fits form = s.Fits form := by
  simp [State.hold]

@[simp] theorem fits_shed {s : State} (h : s.Fits form) : s.shed.Fits form := by
  unfold State.shed
  split <;> simp [h]

@[simp] theorem fits_warmOff {s : State} (h : s.Fits form) (f : Nat → Bool) : (s.warmOff f).Fits form := by
  simp [h, State.warmOff]

@[simp] theorem fits_enterW3 {s : State} (h : s.Fits form) : s.enterW3.Fits form := by
  simp [h, State.enterW3]

@[simp] theorem fits_enterW4 {s : State} (h : s.Fits form) : s.enterW4.Fits form := by
  simp [h, State.enterW4]

/-- Both outcomes of a choice keep an invariant. -/
theorem fits_if {p : Prop} [Decidable p] {s t : State} (hs : s.Fits form) (ht : t.Fits form) :
    (if p then s else t).Fits form := by
  split
  · exact hs
  · exact ht

@[simp] theorem fits_updateLevel {s : State} (h : s.Fits form) : s.updateLevel.Fits form := by
  unfold State.updateLevel
  dsimp only
  refine fits_if h ?_
  have noted : (((if wsLevel s < 1 ∧ 1 ≤ ruledLevel s then s.noteSpin else s).modReg bPwr 0x10
      fun w => wrapInc (setBits w 0 3 (ruledLevel s)) 16 16).noticeLead 0x0905).Fits form := by simp [h]
  have warm := fits_if (p := wsLevel s < 1 ∧ 1 ≤ ruledLevel s) (fits_warmOff noted fun _ => true) noted
  have shed := fits_if (p := wsLevel s < 2 ∧ 2 ≤ ruledLevel s) (fits_shed warm) warm
  have off := fits_if (p := wsLevel s < 3 ∧ 3 ≤ ruledLevel s) (fits_enterW3 shed) shed
  exact fits_if (fits_enterW4 off) off

@[simp] theorem fits_powerLoss (s : State) : s.powerLoss.Fits form := by
  cases form
  · exact Memory.wf_congr rfl rfl rfl rfl Memory.wf_reset
  · exact fun _ _ => ⟨rfl, Nat.zero_le _⟩

@[simp] theorem fits_measureVin (s : State) (v : Nat) : (s.measureVin v).Fits form = s.Fits form := by
  simp [State.measureVin]

@[simp] theorem fits_force {s : State} (h : s.Fits form) (f : Nat) : (s.force f).Fits form := by
  simp [h, State.force]

@[simp] theorem fits_pinLevel {s : State} (h : s.Fits form) : s.pinLevel.Fits form := by
  simp [h, State.pinLevel]

@[simp] theorem fits_holdClear (s : State) (st : Nat) (v : Word) : (s.holdClear st v).Fits form = s.Fits form := by
  simp [State.holdClear]

@[simp] theorem fits_trip {s : State} (h : s.Fits form) : s.trip.Fits form := by
  simp [h, State.trip]

@[simp] theorem fits_reportTemps (s : State) (st : Nat) (temps : List (BitVec 8)) :
    (s.reportTemps st temps).Fits form = s.Fits form := by
  simp [State.reportTemps]

@[simp] theorem fits_noticeSteward (s : State) (q code : Nat) : (s.noticeSteward q code).Fits form = s.Fits form := by
  simp [State.noticeSteward]

@[simp] theorem fits_predict {s : State} (h : s.Fits form) (q : Nat) : (s.predict q).Fits form := by
  simp [State.predict, h]

@[simp] theorem fits_setThermalCap (s : State) (q n c : Nat) : (s.setThermalCap q n c).Fits form = s.Fits form := by
  simp [State.setThermalCap]

@[simp] theorem fits_throttle (s : State) (q : Nat) : (s.throttle q).Fits form = s.Fits form := by
  unfold State.throttle
  dsimp only
  repeat' split
  all_goals simp

@[simp] theorem fits_siteHeat (q : Nat) (s : State) (st : Nat) : (State.siteHeat q s st).Fits form = s.Fits form := by
  simp [State.siteHeat]

@[simp] theorem fits_warmSite {s : State} (h : s.Fits form) (q : Nat) (st : Nat) :
    (State.warmSite q s st).Fits form := by
  simp [State.warmSite, h]

@[simp] theorem fits_tripClear {s : State} (h : s.Fits form) : s.tripClear.Fits form := by
  simp [h, State.tripClear]

@[simp] theorem fits_pollModule (answers : List ModuleAnswer) (s : State) (m : Nat) :
    (State.pollModule answers s m).Fits form = s.Fits form := by
  simp [State.pollModule]

@[simp] theorem fits_pmbusXact (s : State) (v : Word) : (s.pmbusXact v).Fits form = s.Fits form := by
  simp [State.pmbusXact]

/-! ## Commits -/

@[simp] theorem fits_stage (s : State) (k : Blk) (off : Nat) (m v : Word) :
    (s.stage k off m v).Fits form = s.Fits form := by
  unfold State.stage
  split
  · rfl
  · rw [State.countField_eq, fits_setReg]
    exact State.fits_eq rfl rfl rfl (Sparse.rising_put_eq _ _ _)

@[simp] theorem fits_plainWrite (s : State) (k : Blk) (off : Nat) (i : RegInfo) (v : Word) :
    (s.plainWrite k off i v).Fits form = s.Fits form := by
  simp [State.plainWrite]

@[simp] theorem fits_rtrApplied {s : State} (h : s.Fits form) (old : State) (n : Nat) :
    (s.rtrApplied old n).Fits form := by
  unfold State.rtrApplied
  dsimp only
  split
  · simpa using h
  · refine fits_foldl_of _ (by simpa using h) fun s i hs => ?_
    split
    · exact fits_recalPort hs _ _ _ _ _
    · exact hs

theorem fits_resetRouter {s : State} (h : s.Fits form) (n : Nat) : (State.resetRouter s n).Fits form :=
  State.fits_dropRegs (by simpa using h) (Sparse.rising_dropRange _ _) (Sparse.rising_dropRange _ _)

@[simp] theorem fits_vnetRise {s : State} (h : s.Fits form) (f : Nat) : (s.vnetRise f).Fits form := by
  rw [vnetRise_eq]
  exact fits_foldl_of _ h fun t n ht => fits_resetRouter ht n

@[simp] theorem fits_vnetFall (s : State) (f : Nat) : (s.vnetFall f).Fits form = s.Fits form := by
  simp [State.vnetFall]

@[simp] theorem fits_pwrApplied {s : State} (h : s.Fits form) (old : State) : (s.pwrApplied old).Fits form := by
  rw [pwrApplied_eq]
  refine fits_foldl_of _ h fun t f ht => ?_
  rw [vnetStep_eq]
  simp [ht]

@[simp] theorem fits_ringApplied (s old : State) (u : Nat) : (s.ringApplied old u).Fits form = s.Fits form := by
  simp [State.ringApplied]

@[simp] theorem fits_passApplied (s old : State) (k : Nat) : (s.passApplied old k).Fits form = s.Fits form := by
  simp [State.passApplied]

@[simp] theorem fits_domApplied (s old : State) : (s.domApplied old).Fits form = s.Fits form := by
  simp [State.domApplied]

@[simp] theorem fits_guestRailOff (s : State) (st : Nat) : (s.guestRailOff st).Fits form = s.Fits form := by
  unfold State.guestRailOff
  split <;> simp

@[simp] theorem fits_sitePwrApplied {s : State} (h : s.Fits form) (old : State) (st : Nat) :
    (s.sitePwrApplied old st).Fits form := by
  unfold State.sitePwrApplied
  dsimp only
  split
  · refine fits_foldl_of _ ?_ fun s ph hs => ?_
    · repeat' split
      all_goals simp [h]
    · split <;> simp [hs]
  · repeat' split
    all_goals simp [h]

@[simp] theorem fits_applied {s : State} (h : s.Fits form) (old : State) (k : Blk) : (s.applied old k).Fits form := by
  unfold State.applied
  split <;> simp [h]

@[simp] theorem fits_activate {s : State} (h : s.Fits form) (k : Blk) : (s.activate k).Fits form := by
  unfold State.activate
  dsimp only
  rw [State.modReg_eq, fits_setReg]
  exact fits_dropStaged (by simpa using h) k

@[simp] theorem fits_go {s : State} (h : s.Fits form) (k : Blk) : (s.go k).Fits form := by
  unfold State.go
  split
  · simp [h]
  · split
    · simp [h]
    · split <;> simp [h]

@[simp] theorem fits_goSite {s : State} (h : s.Fits form) (st : Nat) : (s.goSite st).Fits form := by
  unfold State.goSite
  dsimp only
  split
  · simp [h]
  · split
    · exact fits_foldl_of _ h fun t k ht => fits_applied (fits_activate ht k) _ _
    · simp [h]

@[simp] theorem fits_writeCommit {s : State} (h : s.Fits form) (k : Blk) (v : Word) :
    (s.writeCommit k v).Fits form := by
  unfold State.writeCommit
  repeat' split
  all_goals simp [h]

@[simp] theorem fits_writeCommitSite {s : State} (h : s.Fits form) (st : Nat) (v : Word) :
    (s.writeCommitSite st v).Fits form := by
  unfold State.writeCommitSite
  split
  · exact fits_foldl_of _ h fun t k ht => fits_discardBlk ht k
  · simp [h]

/-! ## Panel images -/

@[simp] theorem fits_modImg (s : State) (f : ImgEngine → ImgEngine) : (s.modImg f).Fits form = s.Fits form := by
  simp [State.modImg]

@[simp] theorem fits_secFail {s : State} (h : s.Fits form) (code : Nat) (node : Option Nat) :
    (s.secFail code node).Fits form := by
  simp [h, State.secFail]

@[simp] theorem fits_imgOffer (s : State) (n : Nat) (p : Packet) : (s.imgOffer n p).Fits form = s.Fits form := by
  simp [State.imgOffer]

@[simp] theorem fits_imgLoose (s : State) (n : Nat) (p : Packet) : (s.imgLoose n p).Fits form = s.Fits form := by
  simp [State.imgLoose]

@[simp] theorem fits_sendUnicast (s : State) (cc off : Nat) (d : List Byte) (t : Nat) :
    (s.sendUnicast cc off d t).Fits form = s.Fits form := by
  simp [State.sendUnicast]

@[simp] theorem fits_sendTree (s : State) (cc off : Nat) (d : List Byte) (root t : Nat) :
    (s.sendTree cc off d root t).Fits form = s.Fits form := by
  simp [State.sendTree]

@[simp] theorem fits_sendPiece (s : State) (cc off : Nat) (d : List Byte) (tree : Option (Nat × Nat)) (ts : List
    Nat) :
    (s.sendPiece cc off d tree ts).Fits form = s.Fits form := by
  unfold State.sendPiece
  dsimp only
  repeat' split
  all_goals simp

@[simp] theorem fits_sendDram (s : State) (n off : Nat) (d : List Byte) :
    (s.sendDram n off d).Fits form = s.Fits form := by
  simp [State.sendDram]

@[simp] theorem fits_touch {s : State} (h : s.Fits form) (applied : Bool) (k : Blk) :
    (s.touch applied k).Fits form := by
  simp [h, State.touch]

@[simp] theorem fits_recordWrite (s : State) (off : Nat) (v : Word) (k : Blk) :
    (s.recordWrite off v k).Fits form = s.Fits form := by
  unfold State.recordWrite
  split <;> simp

/-- The first record of a block discards what was staged there. -/
theorem fits_touches {s : State} (h : s.Fits form) (applied : Bool) (ks : List Blk) :
    (ks.foldl (·.touch applied ·) s).Fits form :=
  fits_foldl_of _ h fun _ k ht => fits_touch ht applied k

@[simp] theorem fits_recordAct {s : State} (h : s.Fits form) (ty : Nat) (a v : Word) :
    (s.recordAct ty a v).Fits form := by
  unfold State.recordAct
  dsimp only
  split
  · simp [h]
  · refine fits_if (by simp [h]) (fits_if (by simp [h]) (fits_if (by simp [h]) (fits_if ?_ ?_)))
    · simp [h, fits_touches]
    · split <;> simp [h, fits_touches]

@[simp] theorem fits_commitRecords {s : State} (h : s.Fits form) (l : List (Blk × Bool × Nat)) :
    (s.commitRecords l).Fits form := by
  induction l generalizing s with
  | nil => exact h
  | cons c rest ih =>
    have h0 : (if c.1.kind = .lgr then
        (s.recordWrite 0x18 (s.reg bImg 0x80) c.1).recordWrite 0x20 (s.reg bImg 0x88) c.1 else s).Fits form := by
      simpa using h
    unfold State.commitRecords
    dsimp only
    generalize (if c.1.kind = .lgr then _ else s) = s0 at h0 ⊢
    have h1 : (if c.2.1 then s0.goSite (siteOf c.2.2) else s0.go c.1).Fits form :=
      fits_if (fits_goSite h0 _) (fits_go h0 _)
    generalize (if c.2.1 then s0.goSite (siteOf c.2.2) else s0.go c.1) = s1 at h1 ⊢
    split
    · exact fits_secFail h1 _ _
    · exact ih (by simpa using h1)

@[simp] theorem fits_recordsEnd {s : State} (h : s.Fits form) (ty : Nat) : (s.recordsEnd ty).Fits form := by
  unfold State.recordsEnd
  dsimp only
  repeat' split
  all_goals simp [h]

@[simp] theorem fits_siteMapQuad {s : State} (h : s.Fits form) (l : Nat) (v : Word) :
    (s.siteMapQuad l v).Fits form := by
  unfold State.siteMapQuad
  dsimp only
  refine fits_if ?_ (by simpa using h)
  refine fits_foldl_of _ (by simpa using h) fun t k ht => ?_
  rw [fits_recordWrite]
  exact fits_touch ht true k

@[simp] theorem fits_siteMapEnd {s : State} (h : s.Fits form) : s.siteMapEnd.Fits form := by
  unfold State.siteMapEnd
  split <;> simp [h]

@[simp] theorem fits_advanceGen (s : State) (r : Nat) : (s.advanceGen r).Fits form = s.Fits form := by
  simp [State.advanceGen]

@[simp] theorem fits_writeRegion (s : State) (r : Nat) : (s.writeRegion r).Fits form = s.Fits form := by
  simp [State.writeRegion]

@[simp] theorem fits_firstGen (s : State) (r : Nat) : (s.firstGen r).Fits form = s.Fits form := by
  simp [State.firstGen]

@[simp] theorem fits_regionsEnd {s : State} (h : s.Fits form) : s.regionsEnd.Fits form := by
  unfold State.regionsEnd
  dsimp only
  repeat' split
  all_goals simp [h]

@[simp] theorem fits_writeEntry {s : State} (h : s.Fits form) (entry t : Nat) : (s.writeEntry entry t).Fits form := by
  unfold State.writeEntry
  split <;> simp [h]

@[simp] theorem fits_programAct {s : State} (h : s.Fits form) (r : Nat) (p : Program) :
    (s.programAct r p).Fits form := by
  have entries : ∀ {t : State}, t.Fits form → ∀ ts : List Nat, (ts.foldl (·.writeEntry p.entry ·) t).Fits form :=
    fun ht ts => fits_foldl_of ts ht fun _ n ht => fits_writeEntry ht p.entry n
  unfold State.programAct
  dsimp only
  refine fits_if (by simp [h]) (fits_if (by simp [h]) ?_)
  split
  · simp [h]
  · exact fits_if (by simp [h]) (fits_if (by simp [h]) (entries (by simp [h]) _))

@[simp] theorem fits_tileAct {s : State} (h : s.Fits form) (r : Nat) (t : TileRec) : (s.tileAct r t).Fits form := by
  unfold State.tileAct
  dsimp only
  split <;> simp [h]

@[simp] theorem fits_headAct {s : State} (h : s.Fits form) (e : Section) : (s.headAct e).Fits form := by
  simp [h, State.headAct]

@[simp] theorem fits_placementAct {s : State} (h : s.Fits form) (q : Word) : (s.placementAct q).Fits form := by
  simp [h, State.placementAct]

@[simp] theorem fits_itemAct {s : State} (h : s.Fits form) (e : Section) (o : Nat) : (s.itemAct e o).Fits form := by
  unfold State.itemAct
  dsimp only
  split <;> simp [h]

theorem fits_sectionStep {s t : State} {e : Section} (hs : s.Fits form) (h : sectionStep s e = some t) :
    t.Fits form := by
  unfold sectionStep at h
  dsimp only at h
  repeat' split at h
  all_goals cases h
  all_goals simp [hs]

@[simp] theorem fits_sectionRun {s : State} (h : s.Fits form) (e : Section) (f : Nat) : (s.sectionRun e f).Fits form := by
  induction f generalizing s with
  | zero => exact h
  | succ f ih =>
    unfold State.sectionRun
    split
    case h_1 t ht => exact ih (fits_sectionStep h ht)
    case h_2 => exact h

@[simp] theorem fits_sectionEnd {s : State} (h : s.Fits form) (e : Section) : (s.sectionEnd e).Fits form := by
  unfold State.sectionEnd
  dsimp only
  repeat' split
  all_goals simp [h]

@[simp] theorem fits_setConsumed (s : State) (c : Nat) : (s.setConsumed c).Fits form = s.Fits form := by
  simp [State.setConsumed]

@[simp] theorem fits_imgClear {s : State} (h : s.Fits form) (n : Nat) : (s.imgClear n).Fits form := by
  unfold State.imgClear
  split
  · exact fits_clear (by simpa using h) n
  · exact h

/-- Clearing the cores that a load may use. -/
theorem fits_imgClears {s : State} (h : s.Fits form) (nodes : List Nat) : (nodes.foldl State.imgClear s).Fits form :=
  fits_foldl_of _ h fun _ n ht => fits_imgClear ht n

@[simp] theorem fits_headerEnd {s : State} (h : s.Fits form) : s.headerEnd.Fits form := by
  unfold State.headerEnd
  dsimp only
  repeat' split
  all_goals simp [h, fits_imgClears h]

@[simp] theorem fits_toSection (s : State) (i : Nat) : (s.toSection i).Fits form = s.Fits form := by
  simp [State.toSection]

theorem fits_eat {s t : State} {k : Nat} {b : List Byte} (h : s.eat k = some (b, t)) : t.Fits form = s.Fits form := by
  unfold State.eat at h
  dsimp only at h
  split at h
  · contradiction
  · cases h
    simp

theorem fits_imgStep {s t : State} (hs : s.Fits form) (h : imgStep s = some t) : t.Fits form := by
  unfold imgStep at h
  dsimp only at h
  split at h
  case isTrue => contradiction
  case isFalse =>
    split at h
    case isTrue =>
      split at h
      case h_1 => contradiction
      case h_2 he =>
        cases h
        simp [fits_eat he, hs]
    case isFalse =>
      split at h
      case isTrue =>
        cases h
        simp [hs]
      case isFalse =>
        split at h
        case isTrue =>
          cases h
          simp [hs]
        case isFalse =>
          split at h
          case isTrue =>
            split at h
            case h_1 => contradiction
            case h_2 he =>
              cases h
              have hb := fits_eat (form := form) he
              split <;> simp [hb, hs]
          case isFalse =>
            split at h
            case isTrue =>
              obtain ⟨⟨b, u⟩, he, rfl⟩ := Option.map_eq_some_iff.1 h
              simpa [fits_eat he] using hs
            case isFalse =>
              cases h
              simp [hs]

@[simp] theorem fits_imgRun (f : Nat) {s : State} (h : s.Fits form) : (s.imgRun f).Fits form := by
  induction f generalizing s with
  | zero => exact h
  | succ f ih =>
    unfold State.imgRun
    split
    case h_1 t ht => exact ih (fits_imgStep h ht)
    case h_2 => exact h

@[simp] theorem fits_imgData {s : State} (h : s.Fits form) (chunk : List Byte) : (s.imgData chunk).Fits form := by
  unfold State.imgData
  split <;> simp [h]

@[simp] theorem fits_imgBegin {s : State} (h : s.Fits form) (v : Word) : (s.imgBegin v).Fits form := by
  have failed : (if imgBusy s then s.imgFail 0x0F 0 none else s).Fits form := by simp [h]
  unfold State.imgBegin
  dsimp only
  generalize (if imgBusy s = true then s.imgFail 0x0F 0 none else s) = s1 at failed ⊢
  generalize ht : ite (bits v 4 2 = 0) (State.modLead _ _) _ = s4
  have h4 : s4.Fits form := by
    rw [← ht]
    split <;> simp [failed]
  split <;> simp [h4]

@[simp] theorem fits_imgAbort {s : State} (h : s.Fits form) : s.imgAbort.Fits form := by
  simp [h, State.imgAbort]

@[simp] theorem fits_commitCore {s : State} (h : s.Fits form) (n : Nat) (l : List (Nat × Word)) :
    (s.commitCore n l).Fits form := by
  refine fits_go ?_ _
  refine fits_foldl_of _ h fun s e hs => ?_
  split <;> simp [hs]

@[simp] theorem fits_joinCore {s : State} (h : s.Fits form) (r n : Nat) : (s.joinCore r n).Fits form := by
  unfold State.joinCore
  repeat' split
  all_goals simp [h]

@[simp] theorem fits_imgStart {s : State} (h : s.Fits form) : s.imgStart.Fits form := by
  unfold State.imgStart
  dsimp only
  generalize started : List.foldl _ s (sortNats s.lead.img.targets) = s1
  have h1 : s1.Fits form := by
    rw [← started]
    refine fits_foldl_of _ h fun s t hs => ?_
    split
    · exact hs
    · split <;> simp [hs]
  split <;> simp [h1]

@[simp] theorem fits_imgMatched {s : State} (h : s.Fits form) : s.imgMatched.Fits form := by
  unfold State.imgMatched
  dsimp only
  generalize ht : ite (s.lead.img.mode = 0) (State.modLead _ _) _ = s1
  have h1 : s1.Fits form := by
    rw [← ht]
    split <;> simp [h]
  split <;> simp [h1]

@[simp] theorem fits_loadShort {s : State} (h : s.Fits form) (t : Nat) : (s.loadShort t).Fits form := by
  unfold State.loadShort
  dsimp only
  refine fits_writeCc ?_ _ _ _
  simpa using h

@[simp] theorem fits_enterRepair (s : State) (short : List Nat) : (s.enterRepair short).Fits form = s.Fits form := by
  simp [State.enterRepair]

@[simp] theorem fits_loadCheck {s : State} (h : s.Fits form) : s.loadCheck.Fits form := by
  have shorts : ∀ l : List Nat, (l.foldl State.loadShort s).Fits form :=
    fun l => fits_foldl_of l h fun _ t ht => fits_loadShort ht t
  unfold State.loadCheck
  dsimp only
  split
  · simp [h]
  · split
    · simp [h]
    · split <;> simp [shorts]

@[simp] theorem fits_imgRelease {s : State} (h : s.Fits form) : s.imgRelease.Fits form := by
  simp [h, State.imgRelease]

@[simp] theorem fits_imgAck (s : State) (key : Word) : (s.imgAck key).Fits form = s.Fits form := by
  simp [State.imgAck]

@[simp] theorem fits_imgCredit {s : State} (h : s.Fits form) (p : Packet) : (s.imgCredit p).Fits form := by
  simp [h, State.imgCredit]

@[simp] theorem fits_attest {s : State} (h : s.Fits form) : s.attest.Fits form := by
  simp [h, State.attest]

@[simp] theorem fits_writeImgCtl {s : State} (h : s.Fits form) (v : Word) : (s.writeImgCtl v).Fits form := by
  unfold State.writeImgCtl
  dsimp only
  have began := fits_if (p := bit v 1) (fits_imgAbort h) (fits_if (p := bit v 0) (fits_imgBegin h v) h)
  have attested := fits_if (p := bit v 2) (fits_attest began) began
  exact fits_if (fits_imgAbort h) (fits_if (fits_imgRelease attested) attested)

/-! ## Bring-up and recovery -/

@[simp] theorem fits_bondStart (s : State) (st : Nat) : (s.bondStart st).Fits form = s.Fits form := by
  simp [State.bondStart]

@[simp] theorem fits_trainBond (s : State) (st : Nat) : (s.trainBond st).Fits form = s.Fits form := by
  simp [State.trainBond]

@[simp] theorem fits_trainDram (s : State) (st : Nat) : (s.trainDram st).Fits form = s.Fits form := by
  simp [State.trainDram]

@[simp] theorem fits_setRom (s : State) (r : Rom) : (s.setRom r).Fits form = s.Fits form := by
  simp [State.setRom]

@[simp] theorem fits_bootPort (s : State) (k : Nat) : (s.bootPort k).Fits form = s.Fits form := by
  simp [State.bootPort]

@[simp] theorem fits_romNext (s : State) : s.romNext.Fits form = s.Fits form := by
  unfold State.romNext
  split <;> simp

@[simp] theorem fits_bondFailed (s : State) (st : Nat) (l : List (Nat × Nat)) :
    (s.bondFailed st l).Fits form = s.Fits form := by
  simp [State.bondFailed]

@[simp] theorem fits_bootVnet {s : State} (h : s.Fits form) : s.bootVnet.Fits form := by
  simp [State.bootVnet, h]

@[simp] theorem fits_bootPower {s : State} (h : s.Fits form) (st : Nat) : (s.bootPower st).Fits form := by
  simp [State.bootPower, h]

@[simp] theorem fits_setFw (s : State) (st reason : Nat) : (s.setFw st reason).Fits form = s.Fits form := by
  simp [State.setFw]

@[simp] theorem fits_fwBegin (s : State) : s.fwBegin.Fits form = s.Fits form := by
  simp [State.fwBegin]

@[simp] theorem fits_fwAbort (s : State) : s.fwAbort.Fits form = s.Fits form := by
  simp [State.fwAbort]

@[simp] theorem fits_writeFwCtl (s : State) (v : Word) : (s.writeFwCtl v).Fits form = s.Fits form := by
  simp [State.writeFwCtl]

@[simp] theorem fits_fwConsume (s : State) : s.fwConsume.Fits form = s.Fits form := by
  simp [State.fwConsume]

@[simp] theorem fits_fwData (s : State) (chunk : List Byte) : (s.fwData chunk).Fits form = s.Fits form := by
  simp [State.fwData]

@[simp] theorem fits_rejoin {s : State} (h : s.Fits form) (n : Nat) : (s.rejoin n).Fits form := by
  unfold State.rejoin
  split <;> simp [h]

@[simp] theorem fits_computeReset {s : State} (h : s.Fits form) (v : Word) : (s.computeReset v).Fits form := by
  unfold State.computeReset
  split
  · exact h
  · dsimp only
    split
    · simpa using h
    · simp only [fits_modLead]
      exact fits_foldl_of _ (by simp [h]) fun s n hs => fits_rejoin (fits_clear hs n) n

@[simp] theorem fits_noteSample (s : State) (q : Nat) : (s.noteSample q).Fits form = s.Fits form := by
  simp [State.noteSample]

@[simp] theorem fits_noteEvent (q : Nat) (s : State) (e : Event) : (State.noteEvent q s e).Fits form = s.Fits form := by
  simp [State.noteEvent]

@[simp] theorem fits_stopRegion (s : State) (r : Nat) (nodes : List Nat) :
    (s.stopRegion r nodes).Fits form = s.Fits form := by
  simp [State.stopRegion]

@[simp] theorem fits_askReset {s : State} (h : s.Fits form) (q : Nat) (r : Nat) :
    (State.askReset q s r).Fits form := by
  simp [State.askReset, h]

@[simp] theorem fits_applyPolicies {s : State} (h : s.Fits form) (q : Nat) (es : List Event) :
    (s.applyPolicies q es).Fits form :=
  fits_foldl_of _ (by simpa using h) fun s r hs => fits_askReset hs _ _

@[simp] theorem fits_drainSample (s : State) : s.drainSample.Fits form = s.Fits form := by
  simp [State.drainSample]

/-! ## Register writes -/

@[simp] theorem fits_plain (s : State) (k : Blk) (off : Nat) (v : Word) :
    (s.plain k off v).Fits form = s.Fits form := by
  unfold State.plain
  split <;> simp

@[simp] theorem fits_writeCore {s : State} (h : s.Fits form) (n off : Nat) (v : Word) :
    (s.writeCore n off v).Fits form := by
  simp [h, State.writeCore]

@[simp] theorem fits_writeStw {s : State} (h : s.Fits form) (q off : Nat) (v : Word) :
    (s.writeStw q off v).Fits form := by
  unfold State.writeStw
  repeat' split
  all_goals simp [h]

@[simp] theorem fits_writeImg {s : State} (h : s.Fits form) (off : Nat) (v : Word) :
    (s.writeImg off v).Fits form := by
  unfold State.writeImg
  repeat' split
  all_goals simp [h]

@[simp] theorem fits_writePwr {s : State} (h : s.Fits form) (off : Nat) (v : Word) :
    (s.writePwr off v).Fits form := by
  simp [h, State.writePwr]

@[simp] theorem fits_writePassCtl (s : State) (k : Nat) (v : Word) :
    (s.writePassCtl k v).Fits form = s.Fits form := by
  simp [State.writePassCtl]

@[simp] theorem fits_writeReplay (s : State) (u off : Nat) (v : Word) :
    (s.writeReplay u off v).Fits form = s.Fits form := by
  simp [State.writeReplay]

@[simp] theorem fits_writeClk (s : State) (st off : Nat) (v : Word) :
    (s.writeClk st off v).Fits form = s.Fits form := by
  simp [State.writeClk]

@[simp] theorem fits_writeMisc (s : State) (st off : Nat) (v : Word) :
    (s.writeMisc st off v).Fits form = s.Fits form := by
  simp [State.writeMisc]

@[simp] theorem fits_writeFord (s : State) (g off : Nat) (v : Word) :
    (s.writeFord g off v).Fits form = s.Fits form := by
  simp [State.writeFord]

@[simp] theorem fits_writeBlk {s : State} (h : s.Fits form) (k : Blk) (off : Nat) (v : Word) :
    (s.writeBlk k off v).Fits form := by
  unfold State.writeBlk
  repeat' split
  all_goals simp [h]

@[simp] theorem fits_writePlace {s : State} (h : s.Fits form) (p : Place) (v : Word) :
    (s.writePlace p v).Fits form := by
  unfold State.writePlace
  split
  · exact fits_writeBlk h _ _ _
  · split
    · exact fits_writeCommitSite h _ _
    · exact fits_foldl_of _ h fun s k hs => fits_writeBlk hs k _ v
  · exact fits_writeSlot h _ _ _
  · exact fits_writeCc h _ _ _
  · exact h

@[simp] theorem fits_writeRegs {s : State} (h : s.Fits form) (sp n off : Nat) (vs : List Word) :
    (s.writeRegs sp n off vs).1.Fits form := by
  induction vs generalizing s off with
  | nil => exact h
  | cons v rest ih =>
    unfold State.writeRegs
    split
    · refine ih ?_ _
      split <;> simp [h]
    · exact ih h _

/-! ## Link dies -/

@[simp] theorem fits_farAnswer (s : State) (k : Nat) (q : Option Packet) :
    (s.farAnswer k q).Fits form = s.Fits form := by
  unfold State.farAnswer
  split <;> simp

@[simp] theorem fits_farServe {s : State} (h : s.Fits form) (k : Nat) (p : Packet) : (s.farServe k p).Fits form := by
  unfold State.farServe
  dsimp only
  repeat' split
  all_goals simp [h]

@[simp] theorem fits_refuseIn (s : State) (k : Nat) (p : Packet) (off lo len code : Nat) :
    (s.refuseIn k p off lo len code).Fits form = s.Fits form := by
  simp [State.refuseIn]

@[simp] theorem fits_takeIngress (s : State) (k : Nat) (p : Packet) :
    (s.takeIngress k p).1.Fits form = s.Fits form := by
  unfold State.takeIngress
  split <;> simp

@[simp] theorem fits_linkIngress {s : State} (h : s.Fits form) (k : Nat) (p : Packet) (frames : Nat) :
    (s.linkIngress k p frames).Fits form := by
  unfold State.linkIngress
  dsimp only
  repeat' split
  all_goals simp [h]

@[simp] theorem fits_takeSite (s : State) (st : Nat) (p : Packet) : (s.takeSite st p).Fits form = s.Fits form := by
  unfold State.takeSite
  split <;> simp

/-! ## The control port -/

@[simp] theorem fits_serviceAccess {s : State} (h : s.Fits form) (p : Packet) : (s.serviceAccess p).Fits form := by
  unfold State.serviceAccess
  dsimp only
  repeat' split
  all_goals simp [h]

@[simp] theorem fits_bridgeTake {s : State} (h : s.Fits form) (p : Packet) : (s.bridgeTake p).Fits form := by
  unfold State.bridgeTake
  dsimp only
  repeat' split
  all_goals simp [h]

@[simp] theorem fits_stewardResponse {s : State} (h : s.Fits form) (p : Packet) :
    (s.stewardResponse p).Fits form := by
  unfold State.stewardResponse
  dsimp only
  repeat' split
  all_goals simp [h]

@[simp] theorem fits_ctlEgress (s : State) (p : Packet) : (s.ctlEgress p).Fits form = s.Fits form := by
  simp [State.ctlEgress]

@[simp] theorem fits_takeReply (s : State) (p : Packet) : (s.takeReply p).Fits form = s.Fits form := by
  simp [State.takeReply]

@[simp] theorem fits_takeNotice (s : State) (p : Packet) : (s.takeNotice p).Fits form = s.Fits form := by
  simp [State.takeNotice]

/-! ## Packets at their destination -/

@[simp] theorem fits_answer (s : State) (n pl : Nat) (pt : Port) (p q : Packet) :
    (s.answer n pl pt p q).Fits form = s.Fits form := by
  unfold State.answer
  dsimp only
  repeat' split
  all_goals simp

@[simp] theorem fits_answer? (s : State) (n pl : Nat) (pt : Port) (p : Packet) (q : Option Packet) :
    (s.answer? n pl pt p q).Fits form = s.Fits form := by
  unfold State.answer?
  split <;> simp

@[simp] theorem fits_noticeAt (s : State) (n code : Nat) (p : Packet) :
    (s.noticeAt n code p).Fits form = s.Fits form := by
  simp [State.noticeAt]

@[simp] theorem fits_discardAt (s : State) (n pl : Nat) (pt : Port) (p : Packet) (code : Nat) :
    (s.discardAt n pl pt p code).Fits form = s.Fits form := by
  simp [State.discardAt]

@[simp] theorem fits_notTaken (s : State) (n pl : Nat) (pt : Port) (p : Packet) :
    (s.notTaken n pl pt p).Fits form = s.Fits form := by
  unfold State.notTaken
  dsimp only
  repeat' split
  all_goals simp

@[simp] theorem fits_genDrop (s : State) (n : Nat) (p : Packet) : (s.genDrop n p).Fits form = s.Fits form := by
  simp [State.genDrop]

@[simp] theorem fits_atCore (s : State) (n pl : Nat) (p : Packet) {f : State → State}
    (h : ∀ s, (f s).Fits form = s.Fits form) : (s.atCore n pl p f).Fits form = s.Fits form := by
  simp [State.atCore, h]

@[simp] theorem fits_regStore {s : State} (h : s.Fits form) (n pl : Nat) (pt : Port) (p : Packet) :
    (s.regStore n pl pt p).Fits form := by
  unfold State.regStore
  dsimp only
  repeat' split
  all_goals simp [h]

@[simp] theorem fits_regLoad {s : State} (h : s.Fits form) (n pl : Nat) (pt : Port) (p : Packet) :
    (s.regLoad n pl pt p).Fits form := by
  unfold State.regLoad
  split <;> simp [h]

@[simp] theorem fits_spaceStore {s : State} (h : s.Fits form) (n pl : Nat) (pt : Port) (p : Packet) :
    (s.spaceStore n pl pt p).Fits form := by
  unfold State.spaceStore
  repeat' split
  all_goals simp [h]

/-- Bytes of a packet written to a core's memory. -/
theorem fits_memWritten {s : State} (h : s.Fits form) (n a : Nat) (b : List Byte) :
    (s.modCore n fun c => c.writeMem a b).Fits form :=
  State.fits_modCore h n fun hc => Core.fits_writeMem hc a b

@[simp] theorem fits_memStore {s : State} (h : s.Fits form) (n pl : Nat) (p : Packet) :
    (s.memStore n pl p).Fits form := by
  unfold State.memStore
  split
  · simpa using h
  · rw [fits_ackDie]
    exact fits_addCount (fits_memWritten h n _ _) n _

@[simp] theorem fits_memLoad (s : State) (n pl : Nat) (p : Packet) : (s.memLoad n pl p).Fits form = s.Fits form := by
  simp [State.memLoad]

@[simp] theorem fits_memLand {s : State} (h : s.Fits form) (n pl : Nat) (p : Packet) :
    (s.memLand n pl p).Fits form := by
  have written := fits_memWritten h n (aOff p.h1) (pBytes p)
  unfold State.memLand
  split
  · simpa using h
  · refine fits_addCount ?_ n _
    split
    · exact fits_lopDone written n _
    · exact written

@[simp] theorem fits_coreCredit {s : State} (h : s.Fits form) (n : Nat) (p : Packet) : (s.coreCredit n p).Fits form :=
  fits_if (fits_addCount (fits_lopDone (fits_lopLost h n _) n _) n _) (fits_addCount h n _)

@[simp] theorem fits_coreReduce {s : State} (h : s.Fits form) (n pl : Nat) (p : Packet) :
    (s.coreReduce n pl p).Fits form := by
  have written := fits_memWritten h n (aOff p.h1)
  simp only [State.modCore_eq] at written
  unfold State.coreReduce
  dsimp only
  repeat' split
  all_goals simp [h, written]

theorem fits_ringResponse {s t : State} {u : Nat} {p : Packet} (h : s.ringResponse u p = some t) :
    t.Fits form = s.Fits form := by
  unfold State.ringResponse at h
  dsimp only at h
  repeat' split at h
  all_goals cases h
  all_goals simp

@[simp] theorem fits_ringResponse_getD {s t : State} (u : Nat) (p : Packet) (ht : t.Fits form = s.Fits form) :
    ((s.ringResponse u p).getD t).Fits form = s.Fits form := by
  cases h : s.ringResponse u p with
  | none => exact ht
  | some r => exact fits_ringResponse h

@[simp] theorem fits_portResponse {s : State} (h : s.Fits form) (n pl : Nat) (p : Packet) :
    (s.portResponse n pl p).Fits form := by
  unfold State.portResponse
  dsimp only
  split
  · simp [h]
  · split
    · simp [h]
    · split
      · simp [h]
      · split <;> simp [h]

end Sys2Proof.Machine
end

section
/-! SUPPORT. Each command keeps both invariants: its next state meets what the state before it met. -/

namespace Sys2Proof.Machine
variable {form : Form}

/-- The next state that a command answers, where it answers one, meets an invariant. -/
def Keeps (form : Form) (r : Res) : Prop := ∀ t, r = .next t → t.Fits form

theorem fits_next {t : State} (h : t.Fits form) : Keeps form (.next t) := by
  intro u e
  cases e
  exact h

theorem fits_onUnit {b : Bool} {s : State} {f : State → State} (h : (f s).Fits form) : Keeps form (onUnit b s f) := by
  cases b
  · intro t e
    cases e
  · exact fits_next h

theorem fits_onCore {n : Nat} {s : State} {f : State → State} (h : (f s).Fits form) : Keeps form (onCore n s f) :=
  fits_onUnit h

theorem fits_onPlane {n pl : Nat} {s : State} {f : State → State} (h : (f s).Fits form) : Keeps form (onPlane n pl s f) :=
  fits_onUnit h

theorem fits_onSite {st : Nat} {s : State} {f : State → State} (h : (f s).Fits form) : Keeps form (onSite st s f) :=
  fits_onUnit h

theorem fits_onPort {k : Nat} {s : State} {f : State → State} (h : (f s).Fits form) : Keeps form (onPort k s f) :=
  fits_onUnit h

theorem fits_onLink {k : Nat} {s : State} {f : State → State} (h : (f s).Fits form) : Keeps form (onLink k s f) :=
  fits_onUnit h

theorem fits_onGuest {g : Nat} {s : State} {f : State → State} (h : (f s).Fits form) : Keeps form (onGuest g s f) :=
  fits_onUnit h

theorem fits_onSteward {q : Nat} {s : State} {f : State → State} (h : (f s).Fits form) : Keeps form (onSteward q s f) :=
  fits_onUnit h

/-- An instruction of a core keeps an invariant where it does so at a context that has issued a word. -/
theorem fits_onIssue {s : State} (h : s.Fits form) {n : Nat} {row : Word → Bool} {act : State → Nat → Word → State}
    (keeps : ∀ (t : State) i w, t.Fits form → (t.ctx n i).pc < 0x1_0000 → (act t i w).Fits form) :
    Keeps form (onCore n s fun s => issue s n row act) := fits_onUnit (fits_issue h n row keeps)

/-- An instruction that only writes registers of its context. -/
theorem fits_onRetire {s : State} (h : s.Fits form) {n : Nat} {row : Word → Bool} {f : State → Nat → Word → Ctx → Ctx}
    (keeps : ∀ t i w (x : Ctx), x.Fits form → (f t i w x).Fits form) :
    Keeps form (onCore n s fun s => issue s n row fun s i w => s.retire n i (f s i w)) :=
  fits_onIssue h fun t i w ht room => fits_retire ht room fun _ hx => keeps t i w _ hx

/-- Writing to scratchpad leaves every program counter. -/
theorem room_writeSpad {s : State} {n i : Nat} (room : (s.ctx n i).pc < 0x1_0000) (a : Nat) (bs : List Byte) :
    ((s.modCore n fun c => c.writeSpad a bs).ctx n i).pc < 0x1_0000 := by
  simpa [State.ctx_eq, Core.ctx, Core.writeSpad] using room

/-- A store keeps an invariant, and so does the retirement after it. -/
theorem fits_store {s : State} (h : s.Fits form) {n i : Nat} (room : (s.ctx n i).pc < 0x1_0000) (a : Nat)
    (bs : List Byte) : ((s.modCore n fun c => c.writeSpad a bs).retire n i id).Fits form :=
  fits_retire (State.fits_modCore h n fun hc => Core.fits_writeSpad hc a bs) (room_writeSpad room a bs) fun _ hx => hx

/-- The target of a branch is a word of instruction memory (R81). -/
theorem fits_toTarget {s : State} (h : s.Fits form) {n i : Nat} (w : Word) {f : Ctx → Ctx}
    (keeps : ∀ x, x.Fits form → (f x).Fits form) : (s.retireTo n i (targetOf w) f).Fits form :=
  fits_retireTo h (by simp [targetOf]) (by unfold targetOf; omega) keeps

theorem fits_execBrp {s : State} (h : s.Fits form) (n : Nat) : Keeps form (execBrp n s) :=
  fits_onIssue h fun _ _ w ht room =>
    fits_if (fits_toTarget ht w fun _ hx => hx) (fits_retire ht room fun _ hx => hx)

/-- JR goes to a word of instruction memory or faults (R82). -/
theorem fits_execJr {s : State} (h : s.Fits form) (n : Nat) : Keeps form (execJr n s) := by
  refine fits_onIssue h fun t i w ht _ => ?_
  dsimp only
  split
  · simpa using ht
  · split
    · simpa using ht
    · rename_i inside aligned
      exact fits_retireTo ht (by omega) (by omega) fun _ hx => hx

theorem fits_execLoop {s : State} (h : s.Fits form) (n : Nat) : Keeps form (execLoop n s) :=
  fits_onIssue h fun _ _ w ht room =>
    fits_if (fits_retire ht room fun _ hx => Ctx.fits_setG hx _ _) (fits_toTarget ht w fun _ hx => Ctx.fits_setG hx _ _)

theorem fits_execLd {s : State} (h : s.Fits form) (n : Nat) : Keeps form (execLd n s) := by
  refine fits_onIssue h fun t i w ht room => ?_
  dsimp only
  split
  · simpa using ht
  · simpa using ht
  · exact fits_retire ht room fun _ hx => Ctx.fits_setG hx _ _

theorem fits_execSt {s : State} (h : s.Fits form) (n : Nat) : Keeps form (execSt n s) := by
  refine fits_onIssue h fun t i w ht room => ?_
  dsimp only
  split
  · simpa using ht
  · exact fits_store ht room _ _

theorem fits_execVld {s : State} (h : s.Fits form) (n : Nat) : Keeps form (execVld n s) := by
  refine fits_onIssue h fun t i w ht room => ?_
  dsimp only
  split
  · simpa using ht
  · simpa using ht
  · exact fits_retire ht room fun _ hx => Ctx.fits_setV hx _ _

theorem fits_execVst {s : State} (h : s.Fits form) (n : Nat) : Keeps form (execVst n s) := by
  refine fits_onIssue h fun t i w ht room => ?_
  dsimp only
  split
  · simpa using ht
  · exact fits_store ht room _ _

theorem fits_execInmv {s : State} (h : s.Fits form) (n : Nat) : Keeps form (execInmv n s) := by
  refine fits_onIssue h fun t i w ht room => ?_
  dsimp only
  split
  · simpa using ht
  · split
    · refine fits_retire ?_ ?_ fun _ hx => Ctx.fits_setG hx _ _
      · rw [State.setField_eq, fits_setReg]
        exact State.fits_modCore ht n fun hc => Core.fits_writeSpad hc _ _
      · simpa [State.ctx_eq, Core.ctx, Core.writeSpad] using room
    · refine fits_feed ?_ n
      simp only [State.fits_ite, fits_cairn, ite_self]
      refine fits_retire (State.fits_modCore ht n fun hc => ?_) ?_ fun _ hx => Ctx.fits_setG hx _ _
      · rw [Core.fits_update]
        exact Core.fits_writeSpad hc _ _
      · simpa [State.ctx_eq, Core.ctx, Core.writeSpad] using room

theorem fits_execWaitSlot {s : State} (h : s.Fits form) (n : Nat) : Keeps form (execWaitSlot n s) := by
  refine fits_onIssue h fun t i w ht room => ?_
  dsimp only
  split
  · refine fits_addCounts (fits_retire (State.fits_modCore ht n fun hc => Core.fits_setSlot hc _ _) ?_ fun _ hx => hx) _ n _
    simpa [State.ctx_eq, Core.ctx, Core.setSlot] using room
  · exact fits_park ht room _ _

theorem fits_execWaitCount {s : State} (h : s.Fits form) (n : Nat) : Keeps form (execWaitCount n s) :=
  fits_onIssue h fun _ _ _ ht room => fits_if (fits_retire ht room fun _ hx => hx) (fits_park ht room _ _)

theorem Ctx.started_pc (x : Ctx) (halted : Bool) (pc : Nat) (g1 : Word) : (x.started halted pc g1).pc = pc := by
  rw [Ctx.started, Ctx.setG_frame]

/-- SPAWN begins another context at an entry of 13 bits (R95). -/
theorem fits_execSpawn {s : State} (h : s.Fits form) (n : Nat) : Keeps form (execSpawn n s) := by
  refine fits_onIssue h fun t i w ht room => ?_
  split
  · rename_i j _
    have entry : iImm w % 8192 < 8192 := Nat.mod_lt _ (by decide)
    refine fits_retire (State.fits_modCtx ht n j fun _ => Ctx.fits_started _ _ entry _) ?_ fun _ hx => Ctx.fits_setG hx _ _
    simp only [State.modCtx_eq, State.setCtx_eq, State.ctx_eq, State.core_setCore, if_true, Core.ctx_setCtx]
    split
    · rw [Ctx.started_pc]
      omega
    · exact room
  · exact fits_retire ht room fun _ hx => Ctx.fits_setG hx _ _

theorem fits_execEndCtx {s : State} (h : s.Fits form) (n : Nat) : Keeps form (execEndCtx n s) :=
  fits_onIssue h fun _ _ _ ht room => fits_if (fits_retire ht room fun _ hx => Ctx.fits_freed hx) (fits_park ht room _ _)

theorem fits_execPark {s : State} (h : s.Fits form) (n : Nat) : Keeps form (execPark n s) :=
  fits_onIssue h fun _ _ _ ht room => fits_if (fits_retire ht room fun _ hx => hx) (fits_park ht room _ _)

theorem fits_execFence {s : State} (h : s.Fits form) (n : Nat) : Keeps form (execFence n s) :=
  fits_onIssue h fun _ _ _ ht room => fits_if (fits_retire ht room fun _ hx => hx) (fits_park ht room _ _)

theorem fits_execRreg {s : State} (h : s.Fits form) (n : Nat) : Keeps form (execRreg n s) := by
  refine fits_onIssue h fun t i w ht room => ?_
  have read : ∀ v, (t.retire n i fun x => x.setG (iD w) v).Fits form := fun v =>
    fits_retire ht room fun _ hx => Ctx.fits_setG hx _ _
  dsimp only
  split <;> simp [read]

theorem fits_execWreg {s : State} (h : s.Fits form) (n : Nat) : Keeps form (execWreg n s) := by
  refine fits_onIssue h fun t i w ht room => ?_
  have retired : (t.retire n i id).Fits form := fits_retire ht room fun _ hx => hx
  dsimp only
  split <;> simp [retired]

theorem fits_execVtldDone {s : State} (h : s.Fits form) (n : Nat) : Keeps form (execVtldDone n s) := by
  refine fits_onCore ?_
  dsimp only
  split
  · exact h
  · refine fits_if h ?_
    split
    · exact fits_opFault h n _ _ _
    · split
      · exact fits_opFault h n _ _ _
      · exact fits_opFinish (State.fits_modCtx h n _ fun hx => Ctx.fits_setVecs hx _ _) n _

theorem fits_stepFrom {s : State} {st : Nat} {a b : StepPhase} {f : State → State} (h : s.Fits form)
    (keeps : ∀ t : State, t.Fits form → (f t).Fits form) : Keeps form (stepFrom st a b s f) := by
  refine fits_onUnit ?_
  split
  · exact keeps _ (by simpa using h)
  · exact h

theorem fits_inState {s : State} {k a : Nat} {f : State → State} (h : s.Fits form) (keeps : (f s).Fits form) :
    Keeps form (inState k a s f) :=
  fits_onUnit (fits_if keeps h)

theorem fits_onFrame {s : State} {k row : Nat} {f : Frame} {act : State → State} (h : s.Fits form)
    (keeps : ∀ t : State, (act t).Fits form = t.Fits form) : Keeps form (onFrame k row f s act) := by
  refine fits_onUnit ?_
  simp [keeps, h]

theorem fits_onPhase {s : State} {st ph : Nat} {f : State → State} (h : s.Fits form) (keeps : (f s).Fits form) :
    Keeps form (onPhase st ph s f) := fits_onUnit (fits_if keeps h)

theorem fits_ledgerRow {s : State} (h : s.Fits form) (n row : Nat) : Keeps form (ledgerRow n row s) := by
  refine fits_onCore ?_
  dsimp only
  split
  · exact h
  · split
    · exact h
    · split <;> simp [h]

theorem fits_onPlace {s : State} {l : Loc} {f : Place → State} (h : s.Fits form) (keeps : ∀ p, (f p).Fits form) :
    Keeps form (onPlace l s f) := by
  refine fits_onUnit ?_
  split
  · split
    · exact keeps _
    · exact h
  · exact h

theorem fits_ctlRow {s : State} (h : s.Fits form) (op : Nat) (p : Packet) : Keeps form (ctlRow op p s) := by
  refine fits_next ?_
  split <;> simp [h]

/-- A packet delivered at its node is discarded, or f takes it. -/
theorem fits_onDelivery {s : State} {n pl k : Nat} {p : Packet} {f : State → Port → Resource → State} (h : s.Fits form)
    (keeps : ∀ (t : State) pt r, t.Fits form → (f t pt r).Fits form) : Keeps form (onDelivery n pl k p s f) := by
  have ht : (s.takeUp n pl p).Fits form := by simpa using h
  refine fits_onUnit ?_
  split
  · exact h
  · dsimp only
    split
    · simpa using ht
    · split
      · simpa using ht
      · split
        · unfold State.atCore
          split
          · simpa using ht
          · split
            · simpa using ht
            · exact keeps _ _ _ ht
        · exact keeps _ _ _ ht

theorem fits_inboxRow {s : State} (h : s.Fits form) (n pl k : Nat) (p : Packet) : Keeps form (inboxRow n pl k p s) := by
  unfold inboxRow
  split
  · exact fits_onUnit h
  · refine fits_onDelivery h fun t pt r ht => ?_
    split <;> simp [ht]

theorem fits_injection_other (n pl : Nat) (p : Packet) (s : State) (next : Nat) :
    (execInjection.other n pl p s (s.core n) next).Fits form = s.Fits form := by
  unfold execInjection.other
  split
  · split <;> simp
  · split
    · rename_i c hc
      have taken : c.Fits form = (s.slice n).Fits form := Slice.fits_takeOut hc
      simp [taken]
    · split
      · simp
      · split <;> simp

theorem fits_execGenAdvance {s : State} (h : s.Fits form) (r : Nat) : Keeps form (execGenAdvance r s) := by
  refine fits_next ?_
  dsimp only
  split
  · refine fits_imgRun _ ?_
    rw [fits_modImg]
    exact fits_foldl_of _ (by simp [h]) fun s n hs => fits_joinCore hs _ _
  · exact h

theorem fits_execFrameIdle {s : State} (h : s.Fits form) (k : Nat) (f : Frame) : Keeps form (execFrameIdle k f s) := by
  unfold execFrameIdle
  split
  · refine fits_next ?_
    split <;> simp [h]
  · exact fits_onFrame h fun _ => rfl

theorem fits_execRingReplayRecord {s : State} (h : s.Fits form) (u : Nat) (p : Packet) :
    Keeps form (execRingReplayRecord u p s) := by
  refine fits_onUnit ?_
  split
  · exact h
  · split
    case h_1 t ht => simp [fits_ringResponse ht, h]
    case h_2 => exact h

@[simp] theorem fits_fordRun (g m : Nat) (ps : List Packet) (s : State) :
    (s.fordRun g m ps).Fits form = s.Fits form := by
  induction ps generalizing s with
  | nil => simp [State.fordRun]
  | cons p rest ih =>
    unfold State.fordRun
    split
    · simp [ih]
    · split <;> simp [ih]

theorem fits_execFordTokenRefill {s : State} (h : s.Fits form) (g : Nat) : Keeps form (execFordTokenRefill g s) := by
  refine fits_onGuest ?_
  dsimp only
  refine fits_foldl_of _ ?_ fun s e hs => ?_
  · split <;> simp [h]
  · split <;> simp [hs]

theorem fits_execRailRegulation {s : State} (h : s.Fits form) (st : Nat) : Keeps form (execRailRegulation st s) := by
  have lost : ((siteNodes st).foldl State.loseDram (s.modSite st fun x => { x with railOk := true })).Fits form :=
    fits_foldl_of _ (by simp [h]) fun s n hs => fits_loseDram hs n
  refine fits_onUnit ?_
  split
  · dsimp only
    split
    · rw [fits_goCapped]
      exact lost
    · rw [State.setField_eq, fits_setReg]
      exact lost
  · exact h

theorem fits_execStewardThermalSample {s : State} (h : s.Fits form) (q : Nat) :
    Keeps form (execStewardThermalSample q s) := by
  refine fits_onSteward ?_
  split
  · exact h
  · dsimp only
    refine fits_foldl_of _ ?_ fun s st hs => fits_warmSite hs _ _
    simp [h]

theorem fits_execPassBoot {s : State} (h : s.Fits form) : Keeps form (execPassBoot s) := by
  refine fits_next ?_
  dsimp only
  split
  · rw [fits_setRom]
    refine fits_foldl_of _ (fits_foldl_of _ ?_ fun s st hs => fits_bootPower hs st) fun s st hs => ?_
    · simp [h]
    · simpa using hs
  · exact h

theorem fits_execControlReply {s : State} (h : s.Fits form) (n : Nat) (p : Packet) :
    Keeps form (execControlReply n p s) := by
  unfold execControlReply
  dsimp only
  split
  · exact fits_onPlane h
  · refine fits_onDelivery h fun t pt r ht => ?_
    split <;> simp [ht]

theorem fits_execHeaderGroupStep {s : State} (h : s.Fits form) (st g : Nat) :
    Keeps form (execHeaderGroupStep st g s) := by
  have on : ∀ (l : List Nat) {t : State}, t.Fits form → (l.foldl State.coreOn t).Fits form :=
    fun l _ ht => fits_foldl_of l ht fun _ n ht => fits_coreOn ht n
  have off : ∀ l : List Nat, (l.foldl State.coreOff s).Fits form :=
    fun l => fits_foldl_of l h fun _ n ht => fits_coreOff ht n
  refine fits_onUnit ?_
  dsimp only
  split
  · refine fits_if (fits_if (on _ ?_) ?_) h <;> simp [h]
  · exact fits_if (by simp [off]) h


theorem fits_execLedgerPortRequest {s : State} (h : s.Fits form) (n : Nat) :
    Keeps form (execLedgerPortRequest n s) := by
  refine fits_onCore ?_
  dsimp only
  repeat' split
  all_goals simp [h]

theorem fits_execInjection {s : State} (h : s.Fits form) (n pl : Nat) (p : Packet) :
    Keeps form (execInjection n pl p s) := by
  refine fits_onPlane ?_
  split
  · exact h
  · dsimp only
    split
    · split
      · split <;> simp [h]
      · simp [h, fits_injection_other]
    · simp [h, fits_injection_other]

theorem fits_execInboxRefusal {s : State} (h : s.Fits form) (n pl : Nat) (p : Packet) :
    Keeps form (execInboxRefusal n pl p s) := by
  refine fits_onPlane ?_
  repeat' split
  all_goals simp [h]

theorem fits_execCombineRelease {s : State} (h : s.Fits form) (n pl i : Nat) :
    Keeps form (execCombineRelease n pl i s) := by
  refine fits_onPlane ?_
  dsimp only
  split <;> simp [h]

theorem fits_execSignal {s : State} (h : s.Fits form) (n pl : Nat) (p : Packet) :
    Keeps form (execSignal n pl p s) := by
  refine fits_onDelivery h fun t pt r ht => ?_
  repeat' split
  all_goals simp [ht]

theorem fits_execFordCheck {s : State} (h : s.Fits form) (g m : Nat) (p : Packet) :
    Keeps form (execFordCheck g m p s) := by
  refine fits_onUnit ?_
  dsimp only
  split <;> simp [h]

theorem fits_execPhaseOcTrip {s : State} (h : s.Fits form) (st ph at_ : Nat) :
    Keeps form (execPhaseOcTrip st ph at_ s) := by
  refine fits_onPhase h ?_
  dsimp only
  split <;> simp [h]

theorem fits_execVinSample {s : State} (h : s.Fits form) (mv : List Nat) : Keeps form (execVinSample mv s) := by
  refine fits_onUnit ?_
  dsimp only
  split
  · exact h
  · split
    · exact fits_powerLoss s
    · simp [h]

theorem fits_execPanelResetRelease {s : State} (h : s.Fits form) : Keeps form (execPanelResetRelease s) := by
  refine fits_next ?_
  split
  · dsimp only
    simp
  · exact h

theorem fits_execBondTrainDone {s : State} (h : s.Fits form) (st : Nat) (r : BondResult) :
    Keeps form (execBondTrainDone st r s) := by
  refine fits_onSite ?_
  repeat' split
  all_goals simp [h]

theorem fits_execOpcodeReserved {s : State} (h : s.Fits form) (n : Nat) : Keeps form (execOpcodeReserved n s) := by
  refine fits_onCore ?_
  repeat' split
  all_goals simp [h]

/-- Every command keeps both invariants. -/
theorem exec_fits {s : State} (h : s.Fits form) (c : Instr) : Keeps form (exec c s) := by
  unfold exec
  cases c with
  | alu n => exact fits_onRetire h fun _ _ _ _ hx => Ctx.fits_setG hx _ _
  | alui n => exact fits_onRetire h fun _ _ _ _ hx => Ctx.fits_setG hx _ _
  | cmp n => exact fits_onRetire h fun _ _ _ _ hx => Ctx.fits_setP hx _ _
  | cmpi n => exact fits_onRetire h fun _ _ _ _ hx => Ctx.fits_setP hx _ _
  | li n => exact fits_onRetire h fun _ _ _ _ hx => Ctx.fits_setG hx _ _
  | lih n => exact fits_onRetire h fun _ _ _ _ hx => Ctx.fits_setG hx _ _
  | plog n => exact fits_onRetire h fun _ _ _ _ hx => Ctx.fits_setP hx _ _
  | sel n => exact fits_onRetire h fun _ _ _ _ hx => Ctx.fits_setG hx _ _
  | br n => exact fits_onIssue h fun _ _ w ht _ => fits_toTarget ht w fun _ hx => hx
  | brp n => exact fits_execBrp h n
  | call n => exact fits_onIssue h fun _ _ w ht _ => fits_toTarget ht w fun _ hx => Ctx.fits_setG hx _ _
  | jr n => exact fits_execJr h n
  | loop n => exact fits_execLoop h n
  | ld n => exact fits_execLd h n
  | st n => exact fits_execSt h n
  | vop n => exact fits_onRetire h fun _ _ _ _ hx => Ctx.fits_setV hx _ _
  | vld n => exact fits_execVld h n
  | vst n => exact fits_execVst h n
  | vbcast n => exact fits_onRetire h fun _ _ _ _ hx => Ctx.fits_setV hx _ _
  | vget n => exact fits_onRetire h fun _ _ _ _ hx => Ctx.fits_setG hx _ _
  | vput n => exact fits_onRetire h fun _ _ _ _ hx => Ctx.fits_setLane hx _ _ _
  | vred n => exact fits_onRetire h fun _ _ _ _ hx => Ctx.fits_setG hx _ _
  | vsort n => exact fits_onRetire h fun _ _ _ _ hx => Ctx.fits_setV (Ctx.fits_setV hx _ _) _ _
  | vxadd n => exact fits_onRetire h fun _ _ _ _ hx => Ctx.fits_setV hx _ _
  | vtld n => exact fits_onIssue h fun _ _ w ht room => fits_handOver ht room w .vector 3
  | tissue n => exact fits_onIssue h fun _ _ w ht room => fits_handOver ht room w .tensor 4
  | msend n => exact fits_onIssue h fun _ _ w ht room => fits_handOver ht room w .message 5
  | lop n => exact fits_onIssue h fun _ _ w ht room => fits_handOver ht room w .ledger 6
  | inmv n => exact fits_execInmv h n
  | waitSlot n => exact fits_execWaitSlot h n
  | waitCount n => exact fits_execWaitCount h n
  | sig n => exact fits_onIssue h fun _ _ _ ht room => fits_signal (fits_retire ht room fun _ hx => hx) _ _ _
  | spawn n => exact fits_execSpawn h n
  | endCtx n => exact fits_execEndCtx h n
  | park n => exact fits_execPark h n
  | self n => exact fits_onRetire h fun _ _ _ _ hx => Ctx.fits_setG hx _ _
  | rreg n => exact fits_execRreg h n
  | wreg n => exact fits_execWreg h n
  | fence n => exact fits_execFence h n
  | breakCtx n => exact fits_onIssue h fun _ _ _ ht _ => by simpa using ht
  | nop n => exact fits_onRetire h fun _ _ _ _ hx => hx
  | vtldDone n => exact fits_execVtldDone h n
  | dot n => exact fits_onCore (by split <;> simp [h])
  | forest n => exact fits_onCore (by split <;> simp [h])
  | convert n => exact fits_onCore (by simp [h])
  | sealTile n => exact fits_onCore (by simp [h])
  | msendWrite n => exact fits_onCore (by simp [h])
  | msendTile n => exact fits_onCore (by simp [h])
  | msendRead n => exact fits_onCore (by simp [h])
  | msendMsg n => exact fits_onCore (by simp [h])
  | msendSignal n => exact fits_onCore (by simp [h])
  | msendMcastWrite n => exact fits_onCore (by simp [h])
  | msendMcastTile n => exact fits_onCore (by simp [h])
  | msendCell n => exact fits_onCore (by simp [h])
  | msendRed n => exact fits_onCore (by simp [h])
  | ledgerPortRequest n => exact fits_execLedgerPortRequest h n
  | injection n pl p => exact fits_execInjection h n pl p
  | injectionGateEval n pl => exact fits_onPlane (by simp [h])
  | arbitrationPass n pl => exact fits_onPlane (by simp [h])
  | linkCrcFailure n pl pt sl => exact fits_onUnit (by simp [h])
  | linkNak n pl pt sl => exact fits_onUnit (by split <;> simp [h])
  | bondLaneRepaired n pl wires check => exact fits_onPlane (by simp [h])
  | inboxRefusal n pl p => exact fits_execInboxRefusal h n pl p
  | combineRelease n pl j => exact fits_execCombineRelease h n pl j
  | write n pl p => exact fits_onDelivery h fun t pt r ht => by split <;> simp [ht]
  | readReq n pl p => exact fits_onDelivery h fun t pt r ht => by split <;> simp [ht]
  | readResp n pl p => exact fits_onDelivery h fun t pt r ht => by split <;> simp [ht]
  | msg n pl p => exact fits_inboxRow h n pl kMsg p
  | cell n pl p => exact fits_inboxRow h n pl kCell p
  | signal n pl p => exact fits_execSignal h n pl p
  | mcastWrite n pl p => exact fits_onDelivery h fun t pt r ht => by split <;> simp [ht]
  | ack n pl p => exact fits_onDelivery h fun t pt r ht => by split <;> simp [ht]
  | fenceCredit n pl p => exact fits_onDelivery h fun t pt r ht => by split <;> simp [ht]
  | redPart n pl p => exact fits_onDelivery h fun t pt r ht => by split <;> simp [ht]
  | redDone n pl p => exact fits_onDelivery h fun t pt r ht => by split <;> simp [ht]
  | ledgerReply n pl p => exact fits_onDelivery h fun t pt r ht => by split <;> simp [ht]
  | notice n pl p => exact fits_onDelivery h fun t pt r ht => by simp [ht]
  | noticeForward => exact fits_next (by split <;> simp [h])
  | sliceAccess n j => exact fits_onCore (by split <;> simp [h])
  | mergeSetClose n line => exact fits_onCore (by simp [h])
  | dramThermalSample st temps => exact fits_onUnit (by simp [h])
  | find n => exact fits_ledgerRow h n 1
  | findOrInsert n => exact fits_ledgerRow h n 2
  | update n => exact fits_ledgerRow h n 3
  | remove n => exact fits_ledgerRow h n 4
  | scan n => exact fits_ledgerRow h n 5
  | shardInitDone n => exact fits_onCore (by simp [h])
  | registerWrite l v => exact fits_onPlace h fun p => by simp [h]
  | commitGo l => exact fits_onPlace h fun p => by split <;> simp [h]
  | discard l => exact fits_onPlace h fun p => by split <;> simp [h]
  | start n => exact fits_onCore (by simp [h])
  | clear n => exact fits_onCore (by simp [h])
  | clearDone n => exact fits_onCore (by simp [h])
  | halt n bits => exact fits_onCore (by simp [h])
  | clearFault n bits => exact fits_onCore (by simp [h])
  | flush n => exact fits_onCore (by simp [h])
  | flushComplete n => exact fits_onCore (by simp [h])
  | slotWrite n sl v => exact fits_onUnit (by simp [h])
  | ccWrite n c v => exact fits_onUnit (by simp [h])
  | vfence n close => exact fits_onUnit (by simp [h])
  | vfenceEffect n pl out => exact fits_onPlane (by simp [h])
  | imgBegin ctl => exact fits_next (by simp [h])
  | imgAbort => exact fits_next (by simp [h])
  | attest => exact fits_next (by simp [h])
  | attReady => exact fits_next (by simp [h])
  | release => exact fits_next (by simp [h])
  | imgData chunk => exact fits_next (by simp [h])
  | loadCheck => exact fits_next (by simp [h])
  | genAdvance r => exact fits_execGenAdvance h r
  | passTrain k => exact fits_onPort (by simp [h])
  | passCtlDown k => exact fits_onPort (by simp [h])
  | opticsOff k off => exact fits_onPort (by simp [h])
  | passOpticsDone k => exact fits_inState h (by simp [h])
  | passLaneLockDone k light good => exact fits_inState h (by simp [h])
  | passAlignDone k locked => exact fits_inState h (by simp [h])
  | passExchangeDone k far => exact fits_inState h (by simp [h])
  | passTrainTimeout k => exact fits_onLink (by simp [h])
  | frameData k f => exact fits_onFrame h fun s => by simp
  | frameIdle k f => exact fits_execFrameIdle h k f
  | frameNak k f => exact fits_onFrame h fun s => by simp
  | frameCells k f => exact fits_onFrame h fun s => by simp
  | passRetryTimeout k => exact fits_onLink (by simp [h])
  | passAckStall k => exact fits_onLink (by simp [h])
  | laneErrCheck k errs => exact fits_onPort (by simp [h])
  | remapDone k farGood => exact fits_onPort (by simp [h])
  | linkDieEgress k pl p => exact fits_onUnit (by simp [h])
  | linkDieIngress k p => exact fits_onPort (by simp [h])
  | linkInject k n pl => exact fits_onUnit (by split <;> simp [h])
  | ringReplay u => exact fits_onUnit (by simp [h])
  | ringReplayRecord u p => exact fits_execRingReplayRecord h u p
  | controlIngress p => exact fits_next (by simp [h])
  | regRead p => exact fits_ctlRow h 1 p
  | regWrite p => exact fits_ctlRow h 2 p
  | blockWrite p => exact fits_ctlRow h 3 p
  | ctlRequestTimeout j => exact fits_next (by split <;> simp [h])
  | ctlPairRetrain b up => exact fits_next (by simp [h])
  | guestEnable g on => exact fits_onGuest (by simp [h])
  | guestRetrain g => exact fits_onGuest (by simp [h])
  | guestTrainDone g modules level step feat timeout => exact fits_onGuest (by simp [h])
  | fordCheck g m p => exact fits_execFordCheck h g m p
  | guestHold g m => exact fits_onUnit (by simp [h])
  | guestGo g m => exact fits_onUnit (by simp [h])
  | fordTokenRefill g => exact fits_execFordTokenRefill h g
  | guestOvercurrent g => exact fits_onGuest (by simp [h])
  | guestRailReady g => exact fits_onGuest (by simp [h])
  | oscEn st d on => exact fits_onUnit (by simp [h])
  | oscLock st d => exact fits_onUnit (by simp [h])
  | cal st => exact fits_onSite (by simp [h])
  | calDone st fails offset => exact fits_onSite (by simp [h])
  | recal st => exact fits_onSite (by simp [h])
  | recalDone st => exact fits_onSite (by simp [h])
  | refSwitch st => exact fits_onSite (by simp [h])
  | referenceLoss st b => exact fits_onSite (by simp [h])
  | refGood st b => exact fits_onSite (by simp [h])
  | xingSlip st loc pl port lead => exact fits_onUnit (by split <;> simp [h])
  | arm => exact fits_next (by simp [h])
  | fstepArrive st => exact fits_stepFrom h fun t ht => by simp [ht]
  | fstepQuiet st => exact fits_stepFrom h fun t ht => by split <;> simp [ht]
  | fstepSwitch st => exact fits_stepFrom h fun t ht => by simp [ht]
  | fstepRecal st fails => exact fits_stepFrom h fun t ht => by simp [ht]
  | fstepResume st => exact fits_stepFrom h fun t ht => by split <;> simp [ht]
  | fstepDone => exact fits_next (by simp [h])
  | phaseOcTrip st ph t => exact fits_execPhaseOcTrip h st ph t
  | phaseImbalance st ph => exact fits_onPhase h (by simp [h])
  | openBondCheck st mv amps => exact fits_onUnit (by simp [h])
  | railRegulation st => exact fits_execRailRegulation h st
  | headerGroupStep st g => exact fits_execHeaderGroupStep h st g
  | holdClear st v => exact fits_onSite (by simp [h])
  | vinSample mv => exact fits_execVinSample h mv
  | shedStep => exact fits_next (by simp [h])
  | watershedForce f => exact fits_next (by simp [h])
  | pwrOk high => exact fits_next (by simp [h])
  | coolOk high => exact fits_next (by simp [h])
  | stewardThermalSample q => exact fits_execStewardThermalSample h q
  | tripClear => exact fits_next (by simp [h])
  | pmbusPoll answers => exact fits_next (by simp [h])
  | pmbusXact v => exact fits_next (by simp [h])
  | pmbusXactDone ok data => exact fits_next (by simp [h])
  | panelResetN => exact fits_next (fits_powerLoss s)
  | panelResetRelease => exact fits_execPanelResetRelease h
  | passBoot => exact fits_execPassBoot h
  | passBootRetrain => exact fits_next (by simp [h])
  | fwBegin => exact fits_next (by simp [h])
  | fwAbort => exact fits_next (by simp [h])
  | stwFwData chunk => exact fits_next (by simp [h])
  | fwVerify started => exact fits_next (by simp [h])
  | siteTrainBond st => exact fits_onSite (by simp [h])
  | siteTrainDram st => exact fits_onSite (by simp [h])
  | bondTrainDone st r => exact fits_execBondTrainDone h st r
  | dramTrainDone st failed => exact fits_onSite (by simp [h])
  | setHost st => exact fits_onSite (by simp [h])
  | cairnSample q => exact fits_onSteward (by simp [h])
  | computeReset v => exact fits_next (by simp [h])
  | resetDone => exact fits_next (by simp [h])
  | opcodeReserved n => exact fits_execOpcodeReserved h n
  | phaseSwitchFault st ph => exact fits_onPhase h (by simp [h])
  | controlReply n p => exact fits_execControlReply h n p
  | ledgerOp n pl p => exact fits_onDelivery h fun t pt r ht => by simp [ht]
  | guestOcClear g => exact fits_onGuest (by simp [h])
  | frameSend k => exact fits_onLink (by simp [h])

theorem step_fits {s t : State} (h : s.Fits form) (ht : step s = .next t) : t.Fits form := by
  unfold step at ht
  split at ht
  · cases ht
    exact h
  · exact exec_fits (by simpa using h) _ t ht

/-- Settles O58: canonical form is one of the two invariants that every step keeps. -/
theorem stepKeepsTheMemoryForm : Obligations.StepKeepsTheMemoryForm :=
  ⟨fun c _ t h => exec_fits (form := .memory) h c t, fun _ _ h => step_fits (form := .memory) h⟩

/-- Settles O59: the range of the program counters is the other. -/
theorem stepKeepsProgramCountersInRange : Obligations.StepKeepsProgramCountersInRange :=
  ⟨fun c _ t h => exec_fits (form := .counters) h c t, fun _ _ h => step_fits (form := .counters) h⟩

end Sys2Proof.Machine
end

section
/-! SUPPORT. Parts of fields of a word, and what an instruction that only retires does, once for every such row. -/

namespace Sys2Proof.Machine

theorem testBit_bits (w : Word) (lo len k : Nat) : (bits w lo len).testBit k = (decide (k < len) && bit w (lo + k)) := by
  simp only [bits, bit, Nat.testBit_mod_two_pow, Nat.testBit_shiftRight]
  rfl

/-- A part of a field is a field. -/
theorem bits_part (w : Word) (lo len a b : Nat) (h : a + b ≤ len) : bits w lo len / 2 ^ a % 2 ^ b = bits w (lo + a) b := by
  refine Nat.eq_of_testBit_eq fun k => ?_
  rw [Nat.testBit_mod_two_pow, Nat.testBit_div_two_pow, Nat.add_comm k a, testBit_bits, testBit_bits]
  by_cases hk : k < b
  · simp [hk, show a + k < len by omega, Nat.add_assoc]
  · simp [hk]

/-- The low part of a field. -/
theorem bits_low (w : Word) (lo len b : Nat) (h : b ≤ len) : bits w lo len % 2 ^ b = bits w lo b := by
  simpa using bits_part w lo len 0 b (by omega)

theorem bits_one (w : Word) (i : Nat) : bits w i 1 = (bit w i).toNat := by
  refine Nat.eq_of_testBit_eq fun k => ?_
  rw [testBit_bits]
  cases k with
  | zero => cases bit w i <;> simp
  | succ k => cases bit w i <;> simp [Nat.testBit_succ]

/-- Bit k of MODE. -/
theorem iMode_bit (w : Word) {k : Nat} (h : k < 9) : decide (iMode w / 2 ^ k % 2 = 1) = bit w (32 + k) := by
  rw [iMode, ← pow_one 2, ← pow_mul, one_mul, bits_part w 32 9 k 1 (by omega), bits_one]
  cases bit w (32 + k) <;> rfl

/-- What decode has found good (R74). -/
theorem Issues.decodes {s : State} {n i op : Nat} {w : Word} (h : Issues s n i w op) : modeOk w = true ∧ regOk w = true := by
  have fine := h.fine
  unfold decodeFault at fine
  split at fine
  · rename_i mode
    split at fine
    · rename_i reg
      exact ⟨mode, reg⟩
    · contradiction
  · contradiction

/-- The actions of an instruction run on the state just after issue (R41). -/
theorem row_next {s : State} {n i op : Nat} {w : Word} (h : Issues s n i w op) (ho : op ∈ opcodes)
    (act : State → Nat → Word → State) :
    (onCore n s fun s => issue s n (isOp op) act) = .next (act (afterIssue s n i id) i w) := by
  rw [onCore_next h.node, issue_eq h ho, afterIssue_id]

theorem State.setCtx_setCtx (s : State) (n i : Nat) (x y : Ctx) : (s.setCtx n i x).setCtx n i y = s.setCtx n i y := by
  simp [Core.setCtx]

theorem State.ctx_setCtx (s : State) (n i : Nat) (x : Ctx) : (s.setCtx n i x).ctx n i = x := by
  simp [State.ctx_eq]

/-- Retiring sets the context that retires and CORE_CAIRN (R53, R59). -/
theorem retireTo_eq (s : State) (n i pc : Nat) (f : Ctx → Ctx) : s.retireTo n i pc f =
    (s.setCtx n i { f (s.ctx n i) with pc := pc, cairn := (f (s.ctx n i)).cairn + 1 }).modReg (bCore n) 0x48
      fun w => wrapInc w 0 32 := by
  rw [State.retireTo, State.cairn, State.modCtx, State.modCtx, State.ctx_setCtx, State.setCtx_setCtx]

/-- Retiring with any change of the context is retiring, but for that context (R53, R59). -/
theorem retireTo_eq_setCtx (s : State) (n i pc : Nat) (f : Ctx → Ctx) : s.retireTo n i pc f =
    (s.retireTo n i pc id).setCtx n i { f (s.ctx n i) with pc := pc, cairn := (f (s.ctx n i)).cairn + 1 } := by
  have commutes : ∀ (t : State) x y, ((t.setCtx n i x).modReg (bCore n) 0x48 fun w => wrapInc w 0 32).setCtx n i y =
      ((t.setCtx n i x).setCtx n i y).modReg (bCore n) 0x48 fun w => wrapInc w 0 32 := fun _ _ _ => rfl
  rw [retireTo_eq, retireTo_eq, commutes, State.setCtx_setCtx]

theorem OnlyIssued.setCtx {s t : State} {c : Core} {n i : Nat} (h : OnlyIssued s t c n i) (x : Ctx) :
    OnlyIssued s (t.setCtx n i x) c n i := by
  obtain ⟨rest, others, core, ctxs⟩ := h
  refine ⟨?_, fun m hm => ?_, ?_, fun j hj => ?_⟩
  · rw [rest]; rfl
  · rw [← others m hm]
    simp [List.mem_singleton.not.1 hm]
  · simp only [State.setCtx_eq, State.core_setCore, if_true, Core.setCtx]
    rw [core]
  · simpa [State.ctx_eq, hj] using ctxs j hj

/-- What retiring does just after issue whatever it changes of its context (R53, R59). -/
theorem retireTo_any (s : State) (n i pc : Nat) (f : Ctx → Ctx) {k : Core → Core} (hk : CoreOnly k) :
    let t := (afterIssue s n i k).retireTo n i pc f
    let x := f { s.ctx n i with held := false }
    OnlyIssued s t (k (s.core n)) n i ∧ RegsSame s t [(bCore n).key 0x48] ∧
    t.reg (bCore n) 0x48 = wrapInc (s.reg (bCore n) 0x48) 0 32 ∧ t.ctx n i = { x with pc := pc, cairn := x.cairn + 1 } := by
  intro t x
  obtain ⟨retired, -⟩ := retireTo_spec s n i pc (f := id) (fun _ => rfl) hk
  have split : t = _ := retireTo_eq_setCtx (afterIssue s n i k) n i pc f
  rw [split, afterIssue_ctx s n i hk]
  exact ⟨retired.only.setCtx _, retired.regs, retired.cairn, State.ctx_setCtx _ _ _ _⟩

/-- An instruction that retires at the next word with a value in gD (R39, R53). -/
theorem retires_writesG {s : State} {n i op : Nat} {w : Word} (h : Issues s n i w op) (ho : op ∈ opcodes)
    {f : Nat → Word → Ctx → Word} (v : Word) (hv : f i w { s.ctx n i with held := false } = v) :
    ∃ t, (onCore n s fun s => issue s n (isOp op) fun s i w => s.retire n i fun x => x.setG (iD w) (f i w x)) = .next t ∧
      WritesG s t (s.core n) n i (pcOf s n i + 8) (iD w) v := by
  refine ⟨_, ?_, writesG v hv coreOnly_id⟩
  rw [← retire_eq s n i _ coreOnly_id, row_next h ho]

/-- An instruction that retires at the next word with a value in pD. -/
theorem retires_writesP {s : State} {n i op : Nat} {w : Word} (h : Issues s n i w op) (ho : op ∈ opcodes)
    {f : Nat → Word → Ctx → Bool} (v : Bool) (hv : f i w { s.ctx n i with held := false } = v) :
    ∃ t, (onCore n s fun s => issue s n (isOp op) fun s i w => s.retire n i fun x => x.setP (iD w) (f i w x)) = .next t ∧
      WritesP s t (s.core n) n i (pcOf s n i + 8) (iD w) v := by
  refine ⟨_, ?_, writesP v hv coreOnly_id⟩
  rw [← retire_eq s n i _ coreOnly_id, row_next h ho]

theorem spadFault_none {ea : Word} {len align : Nat} (inside : ea.toNat + len ≤ 0x20_0000) (aligned : ea.toNat % align = 0) :
    spadFault ea len align = none := by
  rw [spadFault, if_neg (by simpa [spadEnd] using inside), if_neg (by simpa using aligned)]

/-- A change of the core just after issue. -/
theorem modCore_afterIssue (s : State) (n i : Nat) (k : Core → Core) :
    (afterIssue s n i id).modCore n k = afterIssue s n i k := by
  rw [← afterIssue_id, afterIssue]

end Sys2Proof.Machine
end

section
/-! PROOFS. The scalar instructions (R80, R95). -/

namespace Sys2Proof.Machine

/-- LIH puts IMM in the upper half (R80). -/
theorem setBits_upper_half (a w : Word) : setBits a 32 32 (iImm w) = w.truncate 32 ++ a.truncate 32 := by
  refine BitVec.eq_of_getLsbD_eq fun j hj => ?_
  rw [setBits_getLsbD _ _ _ _ _ (by decide), iImm, testBit_bits]
  simp only [BitVec.truncate_eq_setWidth, BitVec.getLsbD_append, BitVec.getLsbD_setWidth]
  by_cases upper : 32 ≤ j
  · simp [upper, bit, show j < 64 by omega, show j - 32 < 32 by omega, show ¬ j < 32 by omega]
  · simp [upper, show j < 32 by omega]

/-- The condition of SEL and BRP by the bits of the word (R80). -/
theorem predCond_iff (x : Ctx) (w : Word) : predCond x w = true ↔ x.getP (bits w 32 3) ≠ bit w 35 := by
  have number : iMode w % 8 = bits w 32 3 := bits_low w 32 9 3 (by decide)
  have inverted : decide (iMode w / 8 % 2 = 1) = bit w 35 := iMode_bit w (k := 3) (by decide)
  rw [predCond, number, inverted]
  cases x.getP (bits w 32 3) <;> cases bit w 35 <;> simp

/-- The compare table by the values that it compares (R80). -/
theorem cmpFn_eq (m : Nat) (a b : Word) : cmpFn m a b =
    if m = 0 then decide (a = b)
    else if m = 1 then decide (a ≠ b)
    else if m = 2 then decide (a.toInt < b.toInt)
    else if m = 3 then decide (b.toInt ≤ a.toInt)
    else if m = 4 then decide (a.toNat < b.toNat)
    else if m = 5 then decide (b.toNat ≤ a.toNat)
    else if m = 6 then decide (a &&& b ≠ 0)
    else decide (a &&& b = 0) := by
  unfold cmpFn
  split
  case h_8 h0 h1 h2 h3 h4 h5 h6 =>
    rw [if_neg h0, if_neg h1, if_neg h2, if_neg h3, if_neg h4, if_neg h5, if_neg h6]
    rfl
  case h_4 => simp [BitVec.slt, ← decide_not, -Classical.decide_not]
  case h_6 => simp [BitVec.ult, ← decide_not, -Classical.decide_not]
  all_goals simp [BitVec.slt, BitVec.ult, bne, beq_eq_decide]

/-- The predicate table (R80). -/
theorem plogFn_eq (m : Nat) (a b : Bool) : plogFn m a b =
    if m = 0 then a && b
    else if m = 1 then a || b
    else if m = 2 then a != b
    else if m = 3 then a && !b
    else if m = 4 then !a
    else if m = 5 then a
    else decide (m = 6) := by
  unfold plogFn
  split
  case h_8 h0 h1 h2 h3 h4 h5 h6 => rw [if_neg h0, if_neg h1, if_neg h2, if_neg h3, if_neg h4, if_neg h5, decide_eq_false h6]
  all_goals simp

/-- Settles O1: each instruction retires with one register written; what is left is the value of its table. -/
theorem scalarInstructionsWriteTheirResult : Obligations.ScalarInstructionsWriteTheirResult := by
  refine ⟨fun s n i w => ⟨fun h => ?_, fun h => ?_, fun h => ?_, fun h => ?_, fun h => ?_, fun h => ?_⟩,
    fun s n i w => ⟨fun h => ?_, fun h => ?_, fun h => ?_⟩⟩
  · exact retires_writesG h (by decide) _ rfl
  · exact retires_writesG h (by decide) _ rfl
  · exact retires_writesG h (by decide) _ rfl
  · exact retires_writesG h (by decide) _ (setBits_upper_half _ w)
  · exact retires_writesG h (by decide) _ (if_congr (predCond_iff _ w) rfl rfl)
  · exact retires_writesG h (by decide) _ rfl
  · exact retires_writesP h (by decide) _ (cmpFn_eq _ _ _)
  · exact retires_writesP h (by decide) _ (cmpFn_eq _ _ _)
  · exact retires_writesP h (by decide) _ (plogFn_eq _ _ _)

end Sys2Proof.Machine
end

section
/-! PROOFS. Loads and stores (R75, R83, R84), with the value of bytes and lanes bit by bit. -/

namespace Sys2Proof.Machine

/-! ## Bytes -/

theorem leNat_testBit (l : List Byte) (j : Nat) : (leNat l).testBit j = (l.getD (j / 8) 0).getLsbD (j % 8) := by
  induction l generalizing j with
  | nil => simp [leNat]
  | cons b rest ih =>
    have split : leNat (b :: rest) = 2 ^ 8 * leNat rest + b.toNat := by rw [leNat, Nat.add_comm]; rfl
    rw [split, Nat.testBit_two_pow_mul_add _ b.isLt]
    by_cases low : j < 8
    · rw [if_pos low, Nat.div_eq_of_lt low, Nat.mod_eq_of_lt low]
      rfl
    · obtain ⟨k, rfl⟩ := Nat.exists_eq_add_of_le (Nat.le_of_not_lt low)
      rw [if_neg low, Nat.add_sub_cancel_left, ih, Nat.add_mod_left, show (8 + k) / 8 = k / 8 + 1 by omega,
        List.getD_cons_succ]

theorem leNat_lt_pow (l : List Byte) : leNat l < 2 ^ (8 * l.length) := by
  refine Nat.lt_pow_two_of_testBit _ fun j hj => ?_
  rw [leNat_testBit, List.getD_eq_default _ _ (by omega)]
  simp

theorem leBytes_getD (v n k : Nat) (h : k < n) : (leBytes v n).getD k 0 = BitVec.ofNat 8 (v / 256 ^ k) := by
  induction n generalizing v k with
  | zero => omega
  | succ n ih =>
    cases k with
    | zero => simp [leBytes]
    | succ k => rw [leBytes, List.getD_cons_succ, ih _ _ (by omega), Nat.div_div_eq_div_mul, ← Nat.pow_succ']

/-- The bytes of a word of any width. -/
theorem leBytes_getD_extract {m : Nat} (v : BitVec m) (n k : Nat) (h : k < n) :
    (leBytes v.toNat n).getD k 0 = v.extractLsb' (8 * k) 8 := by
  rw [leBytes_getD _ _ _ h, BitVec.extractLsb', Nat.shiftRight_eq_div_pow, Nat.pow_mul]

/-- Pieces of one length, end to end. -/
theorem List.getD_flatMap {α β : Type} (f : α → List β) (d : β) (e : α) {n : Nat} (hf : ∀ a, (f a).length = n)
    (l : List α) {k : Nat} (h : k < n * l.length) : (l.flatMap f).getD k d = (f (l.getD (k / n) e)).getD (k % n) d := by
  induction l generalizing k with
  | nil => simp at h
  | cons a rest ih =>
    have pos : 0 < n := Nat.pos_of_ne_zero fun z => by simp [z] at h
    rw [List.flatMap_cons]
    by_cases first : k < n
    · rw [List.getD_append _ _ _ _ (by rwa [hf]), Nat.div_eq_of_lt first, Nat.mod_eq_of_lt first]
      rfl
    · obtain ⟨j, rfl⟩ := Nat.exists_eq_add_of_le (Nat.le_of_not_lt first)
      rw [List.length_cons, Nat.mul_succ] at h
      rw [List.getD_append_right _ _ _ _ (by rw [hf]; omega), hf, Nat.add_sub_cancel_left, ih (by omega),
        Nat.add_mod_left, Nat.add_div_left _ pos, List.getD_cons_succ]

/-- A value of n bytes, sign-extended (R83). -/
theorem sextBytes_getLsbD {n v j : Nat} (hn : 0 < n) (hv : v < 2 ^ (8 * n)) (hj : j < 64) :
    (sextBytes n v).getLsbD j = if j < 8 * n then v.testBit j else v.testBit (8 * n - 1) := by
  have nat : (BitVec.ofNat (8 * n) v).toNat = v := by simp [Nat.mod_eq_of_lt hv]
  have sign : (BitVec.ofNat (8 * n) v).msb = v.testBit (8 * n - 1) := by
    rw [BitVec.msb_eq_getLsbD_last, BitVec.getLsbD_ofNat, decide_eq_true (by omega), Bool.true_and]
  have ext : sextBytes n v = (BitVec.ofNat (8 * n) v).signExtend 64 := by
    rw [BitVec.signExtend, BitVec.toInt_eq_msb_cond, sign, nat, sextBytes]
    split
    · rfl
    · exact (BitVec.ofInt_natCast 64 v).symm
  rw [ext, BitVec.getLsbD_signExtend, sign, BitVec.getLsbD_ofNat, decide_eq_true hj, Bool.true_and]
  split
  · rename_i inside
    simp [inside]
  · rfl

/-! ## Scratchpad -/

theorem firstBad_none {c : Core} {a n : Nat} (h : c.parityOk a n) : firstBad c.badSpad a n = none := by
  rw [← Option.not_isSome_iff_eq_none, firstBad_isSome_iff]
  rintro ⟨pos, w, hw, low, high⟩
  have := h w hw
  omega

theorem Core.readSpad_getD (c : Core) (a n : Nat) {k : Nat} (h : k < n) : (c.readSpad a n).getD k 0 = c.spadByte (a + k) :=
  Sparse.readBytes_getD c.spad a n h

theorem Core.readSpad_length (c : Core) (a n : Nat) : (c.readSpad a n).length = n :=
  Sparse.readBytes_length _ _ _ _

theorem Core.spadByte_writeSpad (c : Core) (a : Nat) (bs : List Byte) (j : Nat) :
    (c.writeSpad a bs).spadByte j = if a ≤ j ∧ j < a + bs.length then bs.getD (j - a) 0 else c.spadByte j :=
  Sparse.getD_writeZ c.spad a j bs

/-- Scratchpad reads what it did before the instruction issued. -/
theorem afterIssue_readSpad (s : State) (n i a len : Nat) :
    ((afterIssue s n i id).core n).readSpad a len = (s.core n).readSpad a len := by
  obtain ⟨cs, h⟩ := afterIssue_core s n i coreOnly_id
  rw [h]
  rfl

theorem afterIssue_badSpad (s : State) (n i : Nat) : ((afterIssue s n i id).core n).badSpad = (s.core n).badSpad := by
  obtain ⟨cs, h⟩ := afterIssue_core s n i coreOnly_id
  rw [h]
  rfl

theorem coreOnly_writeSpad (a : Nat) (bs : List Byte) : CoreOnly fun c => c.writeSpad a bs := fun _ _ _ => rfl

/-! ## The instructions -/

theorem lsSize_eq (w : Word) : lsSize w = 2 ^ bits w 32 2 :=
  congrArg (2 ^ ·) (bits_low w 32 9 2 (by decide))

/-- MODE of a decoded LD: its sign-extension bit tells the upper modes (R83). -/
theorem signed_iff {s : State} {n i : Nat} {w : Word} (h : Issues s n i w 0x30) : 4 ≤ iMode w ↔ bit w 34 = true := by
  have mode : iMode w < 7 := by
    have ok := h.decodes.1
    simp only [modeOk, h.opcode, Bool.and_eq_true, decide_eq_true_eq] at ok
    exact ok.2
  have : decide (iMode w / 2 ^ 2 % 2 = 1) = bit w 34 := iMode_bit w (k := 2) (by decide)
  rw [← this, decide_eq_true_iff]
  omega

/-- The value that LD writes, bit by bit (R83). -/
theorem loaded_getLsbD (c : Core) {a size j : Nat} (signed : Bool) (pos : 0 < size) (hj : j < 64) :
    (if signed then sextBytes size (leNat (c.readSpad a size)) else BitVec.ofNat 64 (leNat (c.readSpad a size))).getLsbD j =
      if j < 8 * size then (c.spadByte (a + j / 8)).getLsbD (j % 8)
      else signed && (c.spadByte (a + (size - 1))).getLsbD 7 := by
  have bound : leNat (c.readSpad a size) < 2 ^ (8 * size) := by
    simpa [c.readSpad_length] using leNat_lt_pow (c.readSpad a size)
  have inside : ∀ k, k < 8 * size → (leNat (c.readSpad a size)).testBit k = (c.spadByte (a + k / 8)).getLsbD (k % 8) :=
    fun k hk => by rw [leNat_testBit, c.readSpad_getD _ _ (by omega)]
  have top : (leNat (c.readSpad a size)).testBit (8 * size - 1) = (c.spadByte (a + (size - 1))).getLsbD 7 := by
    rw [inside _ (by omega), show (8 * size - 1) / 8 = size - 1 by omega, show (8 * size - 1) % 8 = 7 by omega]
  by_cases low : j < 8 * size
  · rw [if_pos low, ← inside j low]
    cases signed
    · rw [if_neg Bool.false_ne_true, BitVec.getLsbD_ofNat, decide_eq_true hj, Bool.true_and]
    · rw [if_pos rfl, sextBytes_getLsbD pos bound hj, if_pos low]
  · rw [if_neg low]
    cases signed
    · have zero : (leNat (c.readSpad a size)).testBit j = false :=
        Nat.testBit_lt_two_pow (bound.trans_le (Nat.pow_le_pow_right (by decide) (by omega)))
      rw [if_neg Bool.false_ne_true, BitVec.getLsbD_ofNat, zero, Bool.and_false, Bool.false_and]
    · rw [if_pos rfl, sextBytes_getLsbD pos bound hj, if_neg low, top, Bool.true_and]

/-- The lanes that VLD writes (R84). -/
theorem bytesLanes_getD (c : Core) (a : Nat) {l : Nat} (hl : l < 64) : (bytesLanes (c.readSpad a 256)).getD l 0 =
    c.spadByte (a + (4 * l + 3)) ++ c.spadByte (a + (4 * l + 2)) ++ c.spadByte (a + (4 * l + 1)) ++ c.spadByte (a + 4 * l) := by
  have lane : (bytesLanes (c.readSpad a 256)).getD l 0 =
      BitVec.ofNat 32 (leNat (((c.readSpad a 256).drop (4 * l)).take 4)) := by
    simp [bytesLanes, hl]
  have bytes : ∀ q, q < 4 → (((c.readSpad a 256).drop (4 * l)).take 4).getD q 0 = c.spadByte (a + (4 * l + q)) := by
    intro q hq
    rw [← c.readSpad_getD a 256 (by omega)]
    simp [List.getD_eq_getElem?_getD, hq]
  rw [lane]
  refine BitVec.eq_of_getLsbD_eq fun j hj => ?_
  obtain ⟨q, r, hq, hr, rfl⟩ : ∃ q r, q < 4 ∧ r < 8 ∧ j = 8 * q + r := ⟨j / 8, j % 8, by omega, by omega, by omega⟩
  rw [BitVec.getLsbD_ofNat, leNat_testBit, show (8 * q + r) / 8 = q by omega, show (8 * q + r) % 8 = r by omega, bytes q hq]
  simp only [BitVec.getLsbD_append]
  have next : ∀ k, 8 + k + r - 8 = k + r ∧ ¬ 8 + k + r < 8 := fun k => by omega
  interval_cases q
  · simp [hr, show r < 32 by omega]
  · simp [hr, next 0, show 8 + r < 32 by omega]
  · simp [hr, next 8, next 0, show 16 + r < 32 by omega]
  · simp [hr, next 16, next 8, next 0, show 24 + r < 32 by omega]

/-- The bytes that VST writes (R84). -/
theorem lanesBytes_getD (x : Ctx) (r : Nat) {k : Nat} (hk : k < 256) :
    (lanesBytes (x.getV r)).getD k 0 = (x.lane r (k / 4)).extractLsb' (8 * (k % 4)) 8 := by
  have len : (x.getV r).length = 64 := by simp [Ctx.getV]
  have lane : (x.getV r).getD (k / 4) 0 = x.lane r (k / 4) := by
    simp [Ctx.getV, show k / 4 < 64 by omega]
  rw [lanesBytes, List.getD_flatMap _ 0 0 (n := 4) (fun _ => leBytes_length _ _) _ (by rw [len]; omega), lane,
    leBytes_getD_extract _ _ _ (Nat.mod_lt _ (by decide))]

theorem lanesBytes_length (x : Ctx) (r : Nat) : (lanesBytes (x.getV r)).length = 256 := by
  simp [lanesBytes, Ctx.getV, List.length_flatMap, Function.comp_def]

/-- A store that retires (R52, R83): its bytes are in scratchpad, and words that it covers whole have lost their parity
error. -/
theorem store_spec (s : State) (n i pc ea : Nat) (bs : List Byte) {byte : Nat → Byte} {size : Nat} (len : bs.length = size)
    (hb : ∀ k, k < size → bs.getD k 0 = byte k) :
    let t := (afterIssue s n i fun c => c.writeSpad ea bs).retireTo n i pc id
    WritesNone s t { s.core n with spad := (t.core n).spad, badSpad := (t.core n).badSpad } n i pc ∧
    (∀ a, (t.core n).spadByte a = if ea ≤ a ∧ a < ea + size then byte (a - ea) else (s.core n).spadByte a) ∧
    ∀ x, x ∈ (t.core n).badSpad ↔ x ∈ (s.core n).badSpad ∧ ¬ (ea ≤ 8 * x ∧ 8 * x + 8 ≤ ea + size) := by
  intro t
  have retired : WritesNone s t ((s.core n).writeSpad ea bs) n i pc := writesNone s n i pc (coreOnly_writeSpad ea bs)
  have core := retired.retired.only.core
  have spad : (t.core n).spad = ((s.core n).writeSpad ea bs).spad := by rw [core]
  have bad : (t.core n).badSpad = ((s.core n).writeSpad ea bs).badSpad := by rw [core]
  refine ⟨?_, fun a => ?_, fun x => ?_⟩
  · rw [spad, bad]
    exact retired
  · have written := (s.core n).spadByte_writeSpad ea bs a
    rw [Core.spadByte, spad, ← Core.spadByte, written, len]
    exact if_ctx_congr Iff.rfl (fun within => hb _ (by omega)) fun _ => rfl
  · rw [bad, ← len]
    exact mem_keepBad _ _ _ _

theorem getG_effAddr (x : Ctx) (b : Bool) (w : Word) :
    Ctx.getG { x with held := b } (iA w) + iSext w = effAddr x w := rfl

/-- LD of bytes that hold no fault (R75, R83). -/
theorem ld_next {s : State} {n i : Nat} {w : Word} (h : Issues s n i w 0x30)
    (inside : (effAddr (s.ctx n i) w).toNat + lsSize w ≤ 0x20_0000) (aligned : (effAddr (s.ctx n i) w).toNat % lsSize w = 0)
    (parity : (s.core n).parityOk (effAddr (s.ctx n i) w).toNat (lsSize w)) :
    let v := leNat ((s.core n).readSpad (effAddr (s.ctx n i) w).toNat (lsSize w))
    ∃ t, exec (.ld n) s = .next t ∧ WritesG s t (s.core n) n i (pcOf s n i + 8) (iD w)
      (if 4 ≤ iMode w then sextBytes (lsSize w) v else BitVec.ofNat 64 v) := by
  intro v
  refine ⟨_, ?_, writesG (f := fun _ => if 4 ≤ iMode w then sextBytes (lsSize w) v else BitVec.ofNat 64 v) _ rfl coreOnly_id⟩
  rw [← retire_eq s n i _ coreOnly_id]
  change execLd n s = _
  rw [execLd, row_next h (by decide)]
  simp only [afterIssue_ctx s n i coreOnly_id, effAddr_held, afterIssue_badSpad, afterIssue_readSpad,
    spadFault_none inside aligned, firstBad_none parity]
  rfl

/-- VLD of bytes that hold no fault (R75, R84). -/
theorem vld_next {s : State} {n i : Nat} {w : Word} (h : Issues s n i w 0x41)
    (inside : (effAddr (s.ctx n i) w).toNat + 256 ≤ 0x20_0000) (aligned : (effAddr (s.ctx n i) w).toNat % 64 = 0)
    (parity : (s.core n).parityOk (effAddr (s.ctx n i) w).toNat 256) :
    let byte := fun k => (s.core n).spadByte ((effAddr (s.ctx n i) w).toNat + k)
    ∃ t, exec (.vld n) s = .next t ∧ WritesV s t (s.core n) n i (pcOf s n i + 8) (iD w) fun l =>
      byte (4 * l + 3) ++ byte (4 * l + 2) ++ byte (4 * l + 1) ++ byte (4 * l) := by
  intro byte
  refine ⟨_, ?_, writesV _ (f := fun _ => bytesLanes ((s.core n).readSpad (effAddr (s.ctx n i) w).toNat 256))
    (fun l hl => bytesLanes_getD _ _ hl) coreOnly_id⟩
  rw [← retire_eq s n i _ coreOnly_id]
  change execVld n s = _
  rw [execVld, row_next h (by decide)]
  simp only [afterIssue_ctx s n i coreOnly_id, getG_effAddr, afterIssue_badSpad, afterIssue_readSpad,
    spadFault_none inside aligned, firstBad_none parity]

/-- ST to bytes of scratchpad (R75, R83). -/
theorem st_next {s : State} {n i : Nat} {w : Word} (h : Issues s n i w 0x31)
    (inside : (effAddr (s.ctx n i) w).toNat + lsSize w ≤ 0x20_0000)
    (aligned : (effAddr (s.ctx n i) w).toNat % lsSize w = 0) :
    exec (.st n) s = .next ((afterIssue s n i fun c => c.writeSpad (effAddr (s.ctx n i) w).toNat
      (leBytes ((s.ctx n i).getG (iB w)).toNat (lsSize w))).retireTo n i (pcOf s n i + 8) id) := by
  rw [← retire_eq s n i _ (coreOnly_writeSpad _ _), ← modCore_afterIssue]
  change execSt n s = _
  rw [execSt, row_next h (by decide)]
  simp only [afterIssue_ctx s n i coreOnly_id, effAddr_held, spadFault_none inside aligned]
  rfl

/-- VST to bytes of scratchpad (R75, R84). -/
theorem vst_next {s : State} {n i : Nat} {w : Word} (h : Issues s n i w 0x42)
    (inside : (effAddr (s.ctx n i) w).toNat + 256 ≤ 0x20_0000) (aligned : (effAddr (s.ctx n i) w).toNat % 64 = 0) :
    exec (.vst n) s = .next ((afterIssue s n i fun c => c.writeSpad (effAddr (s.ctx n i) w).toNat
      (lanesBytes ((s.ctx n i).getV (iB w)))).retireTo n i (pcOf s n i + 8) id) := by
  rw [← retire_eq s n i _ (coreOnly_writeSpad _ _), ← modCore_afterIssue]
  change execVst n s = _
  rw [execVst, row_next h (by decide)]
  simp only [afterIssue_ctx s n i coreOnly_id, getG_effAddr, spadFault_none inside aligned]
  rfl

/-- Settles O4: a load's value bit by bit, a store's bytes one by one. -/
theorem loadsAndStoresMoveScratchpadBytes : Obligations.LoadsAndStoresMoveScratchpadBytes := by
  refine ⟨fun s n i w => ⟨fun h inside aligned parity => ?_, fun h inside aligned parity => ?_⟩,
    fun s n i w => ⟨fun h inside aligned => ?_, fun h inside aligned => ?_⟩⟩
  · rw [← lsSize_eq] at inside aligned parity ⊢
    obtain ⟨t, ht, wr⟩ := ld_next h inside aligned parity
    refine ⟨t, _, ht, wr, fun j hj => ?_⟩
    simp only [signed_iff h]
    exact loaded_getLsbD (s.core n) (bit w 34) (Nat.two_pow_pos _) hj
  · exact vld_next h inside aligned parity
  · rw [← lsSize_eq] at inside aligned ⊢
    exact ⟨_, st_next h inside aligned, store_spec s n i _ _ _ (leBytes_length _ _)
      fun k hk => leBytes_getD_extract _ _ _ hk⟩
  · exact ⟨_, vst_next h inside aligned, store_spec s n i _ _ _ (lanesBytes_length _ _)
      fun k hk => lanesBytes_getD _ _ hk⟩

end Sys2Proof.Machine
end

section
/-! PROOFS. Unit opcodes (R56, R87). -/

namespace Sys2Proof.Machine

/-- The descriptor that a unit opcode hands over (R87). -/
def unitOp (s : State) (n i : Nat) (w : Word) (u : UnitKind) : UnitOp :=
  { unit := u, ctx := i, pc := pcOf s n i, desc := (unitEa (s.ctx n i) w).toNat, lcount := iLcount w, cc := iUnitCc w,
    reg := iD w, fn := iMode w / 16 % 16 }

theorem unitEa_held (x : Ctx) (b : Bool) (w : Word) : unitEa { x with held := b } w = unitEa x w := rfl

/-- A unit opcode whose descriptor lies in scratchpad hands it over (R87). -/
theorem handOver_spec {s : State} {n i op : Nat} {w : Word} (h : Issues s n i w op) (ho : op ∈ opcodes) (u : UnitKind)
    (unit : Nat) (inside : (unitEa (s.ctx n i) w).toNat + 64 ≤ 0x20_0000) (aligned : (unitEa (s.ctx n i) w).toNat % 64 = 0) :
    ∃ t, (onCore n s fun s => issue s n (isOp op) fun s i w => handOver s n i w u unit) = .next t ∧
      HandsOver s t n i (unitOp s n i w u) := by
  have coreOnly : CoreOnly fun c => { c with ops := c.ops ++ [unitOp s n i w u] } := fun _ _ _ => rfl
  obtain ⟨only, regs, cairn, ctx⟩ :=
    retireTo_any s n i (pcOf s n i + 8) (fun x => { x with outstanding := x.outstanding + 1 }) coreOnly
  refine ⟨_, ?_, only, regs, cairn, ctx⟩
  rw [← retire_eq s n i _ coreOnly, ← modCore_afterIssue, row_next h ho]
  simp only [handOver, afterIssue_ctx s n i coreOnly_id, unitEa_held, spadFault_none inside aligned]
  rfl

/-- Settles O7: the four unit opcodes hand over what unitOp says. -/
theorem unitOpcodesHandOverTheDescriptor : Obligations.UnitOpcodesHandOverTheDescriptor := by
  intro s n i w uea hands
  have fn : iMode w / 16 % 16 = bits w 36 4 := bits_part w 32 9 4 4 (by decide)
  have op : ∀ u, unitOp s n i w u = { unit := u, ctx := i, pc := pcOf s n i, desc := uea, lcount := bit w 40,
                                      cc := bits w 20 12, reg := iD w, fn := bits w 36 4 } := fun u => by
    rw [unitOp, fn]
    rfl
  refine ⟨fun h inside aligned => ?_, fun h inside aligned => ?_, fun h inside aligned => ?_, fun h inside aligned => ?_⟩
  · rw [← op]
    exact handOver_spec h (by decide) .vector 3 inside aligned
  · rw [← op]
    exact handOver_spec h (by decide) .tensor 4 inside aligned
  · rw [← op]
    exact handOver_spec h (by decide) .message 5 inside aligned
  · rw [← op]
    exact handOver_spec h (by decide) .ledger 6 inside aligned

end Sys2Proof.Machine
end

section
/-! SUPPORT. An instruction that retires just after issue and a change of another context. -/

namespace Sys2Proof.Machine

/-- The context that issues is READY (R41). -/
theorem issuing_ready {s : State} {n i : Nat} {f : Fetch} (h : issuing s n = some (i, f)) : (s.ctx n i).state = .ready := by
  unfold issuing at h
  split at h
  · split at h
    · rename_i hp
      have found := List.find?_some hp
      simp only [Option.some.injEq, Prod.mk.injEq] at h
      simp only [Bool.and_eq_true, beq_iff_eq, h.1] at found
      exact found.1
    · contradiction
  · contradiction

/-- What the state just after issue changes (R41, R42). -/
theorem beginIssue_only (s : State) (n i : Nat) : OnlyIssued s (beginIssue s n (some i)) (s.core n) n i := by
  obtain ⟨c, begun, core, -, others⟩ := beginIssue_spec s n i
  rw [begun]
  refine ⟨rfl, fun m hm => ?_, ?_, fun j hj => ?_⟩
  · simp [List.mem_singleton.not.1 hm]
  · simpa using core
  · simpa [State.ctx_eq] using others j hj

theorem beginIssue_regs (s : State) (n i : Nat) : (beginIssue s n (some i)).regs = s.regs := rfl

theorem OnlyIssued.modReg {s t : State} {c : Core} {n i : Nat} (h : OnlyIssued s t c n i) (k : Blk) (off : Nat)
    (f : Word → Word) : OnlyIssued s (t.modReg k off f) c n i := by
  obtain ⟨rest, others, core, ctxs⟩ := h
  exact ⟨by rw [rest]; rfl, others, core, ctxs⟩

/-- A change of another context on both sides. -/
theorem OnlyIssued.setOther {s t : State} {n i j : Nat} (h : OnlyIssued s t (s.core n) n i) (x : Ctx) :
    OnlyIssued (s.setCtx n j x) (t.setCtx n j x) ((s.setCtx n j x).core n) n i := by
  obtain ⟨rest, others, core, ctxs⟩ := h
  refine ⟨?_, fun m hm => ?_, ?_, fun k hk => ?_⟩
  · rw [rest]; rfl
  · have hm' := List.mem_singleton.not.1 hm
    simpa [hm'] using others m hm
  · simp only [State.setCtx_eq, State.core_setCore, if_true, Core.setCtx]
    rw [core]
  · by_cases hkj : k = j
    · subst hkj
      simp [State.ctx_eq]
    · simpa [State.ctx_eq, hkj] using ctxs k hk

/-- Retiring with a value in gd, whatever led from one state to another beside the contexts (R39, R53). -/
theorem OnlyIssued.writesG {s t : State} {c : Core} {n i : Nat} (h : OnlyIssued s t c n i) (regs : t.regs = s.regs)
    (birth : t.birth = s.birth) (ctx : t.ctx n i = { s.ctx n i with held := false }) (pc d : Nat) (v : Word) :
    WritesG s (t.retireTo n i pc fun x => x.setG d v) c n i pc d v := by
  have only := (h.setCtx { (t.ctx n i).setG d v with pc := pc, cairn := ((t.ctx n i).setG d v).cairn + 1 }).modReg
    (bCore n) 0x48 fun w => wrapInc w 0 32
  have after : (t.retireTo n i pc fun x => x.setG d v).ctx n i =
      { (t.ctx n i).setG d v with pc := pc, cairn := ((t.ctx n i).setG d v).cairn + 1 } := by
    rw [retireTo_eq]
    exact State.ctx_setCtx t n i _
  have reg : t.reg (bCore n) 0x48 = s.reg (bCore n) 0x48 := State.reg_congr birth (by rw [regs])
  have frame := Ctx.setG_frame (t.ctx n i) d v
  refine ⟨⟨?_, fun key hk => ?_, ?_, ?_⟩, fun r => ?_, ?_, ?_⟩
  · rw [retireTo_eq]
    exact only
  · rw [retireTo_eq, State.modReg_eq, State.find_setReg, if_neg (List.mem_singleton.not.1 hk)]
    exact congrArg _ regs
  · rw [retireTo_eq, State.modReg_eq]
    simp [reg]
  · rw [after, frame, ctx]
  · rw [after]
    show ((t.ctx n i).setG d v).getG r = _
    rw [Ctx.getG_setG, ctx]
    rfl
  · rw [PredSame, after, frame, ctx]
  · rw [VectorSame, after, frame, ctx]

end Sys2Proof.Machine
end
section
/-! PROOFS. PARK, FENCE, END, NOP, SIG and SPAWN (R43 to R46, R93 to R96). -/

namespace Sys2Proof.Machine

/-- An instruction that retires just after issue and does nothing else. -/
theorem retires_writesNone (s : State) (n i : Nat) :
    WritesNone s ((afterIssue s n i id).retire n i id) (s.core n) n i (pcOf s n i + 8) := by
  rw [retire_eq s n i id coreOnly_id]
  exact writesNone s n i _ coreOnly_id

theorem afterIssue_parks (s : State) (n i : Nat) (wf : WaitFor) (idle : Bool) :
    Parks s ((afterIssue s n i id).park n i wf idle) n i wf idle := by
  rw [← afterIssue_id]
  exact park_spec s n i wf idle

theorem afterIssue_packets (s : State) (n i : Nat) : ((afterIssue s n i id).core n).packets = (s.core n).packets := by
  obtain ⟨cs, h⟩ := afterIssue_core s n i coreOnly_id
  rw [h]
  rfl

theorem afterIssue_outstanding (s : State) (n i : Nat) :
    ((afterIssue s n i id).ctx n i).outstanding = (s.ctx n i).outstanding := by
  rw [afterIssue_ctx s n i coreOnly_id]

theorem packets_pos (c : Core) : 1 ≤ c.packets ↔ ∃ h ∈ c.inbox, h.last = true := by
  rw [Core.packets, Nat.succ_le_iff, List.length_pos_iff_exists_mem]
  simp only [List.mem_filter]

/-- PARK (R95). -/
theorem park_next {s : State} {n i : Nat} {w : Word} (h : Issues s n i w 0x92) : exec (.park n) s = .next
    (if 1 ≤ (s.core n).packets then (afterIssue s n i id).retire n i id
      else (afterIssue s n i id).park n i .inbox (idleFlag w)) := by
  change execPark n s = _
  rw [execPark, row_next h (by decide), afterIssue_packets]

/-- FENCE (R96). -/
theorem fence_next {s : State} {n i : Nat} {w : Word} (h : Issues s n i w 0xA2) : exec (.fence n) s = .next
    (if (s.ctx n i).outstanding = 0 then (afterIssue s n i id).retire n i id
      else (afterIssue s n i id).park n i .fence false) := by
  change execFence n s = _
  rw [execFence, row_next h (by decide), afterIssue_outstanding]

/-- END (R94). -/
theorem endCtx_next {s : State} {n i : Nat} {w : Word} (h : Issues s n i w 0x91) : exec (.endCtx n) s = .next
    (if (s.ctx n i).outstanding = 0 then (afterIssue s n i id).retire n i Ctx.freed
      else (afterIssue s n i id).park n i .ending false) := by
  change execEndCtx n s = _
  rw [execEndCtx, row_next h (by decide), afterIssue_outstanding]

/-- SIG (R93). -/
theorem sig_next {s : State} {n i : Nat} {w : Word} (h : Issues s n i w 0x71) : exec (.sig n) s = .next
    (((afterIssue s n i id).retire n i id).signal n (bits w 0 6) (bits ((s.ctx n i).getG (iB w)) 0 32)) := by
  change execSig n s = _
  rw [execSig, row_next h (by decide), afterIssue_ctx s n i coreOnly_id]
  exact congrArg (fun sl => Host.Outcome.next (State.signal _ n sl _)) (bits_low w 0 32 6 (by decide))

theorem freeCtx_congr {c d : Core} (h : ∀ j, (c.ctx j).state = (d.ctx j).state) : freeCtx c = freeCtx d := by
  simp only [freeCtx, h]

theorem freeCtx_some {c : Core} {j : Nat} (hj : j < 4) (free : (c.ctx j).state = .free)
    (first : ∀ m, m < j → (c.ctx m).state ≠ .free) : freeCtx c = some j := by
  rw [freeCtx, List.find?_eq_some_iff_getElem]
  refine ⟨by simpa using free, j, by simpa using hj, ?_, fun m hm => ?_⟩
  · interval_cases j <;> rfl
  · have index : [0, 1, 2, 3][m]'(by simpa using hm.trans hj) = m := by
      have := hm.trans hj
      interval_cases m <;> rfl
    rw [index]
    simpa using first m hm

theorem freeCtx_none {c : Core} (taken : ∀ m, m < 4 → (c.ctx m).state ≠ .free) : freeCtx c = none := by
  rw [freeCtx, List.find?_eq_none]
  intro m hm
  have : m < 4 := by
    simp only [List.mem_cons, List.not_mem_nil, or_false] at hm
    omega
  simpa using taken m this

/-- Issue changes the state of no context. -/
theorem beginIssue_states (s : State) (n i j : Nat) :
    (((beginIssue s n (some i)).core n).ctx j).state = ((s.core n).ctx j).state := by
  by_cases hj : j = i
  · subst hj
    have h := beginIssue_ctx s n j
    rw [State.ctx_eq, State.ctx_eq] at h
    rw [h]
  · have h := (beginIssue_only s n i).ctxs j hj
    rw [State.ctx_eq, State.ctx_eq] at h
    rw [h]

/-- SPAWN (R43). -/
theorem spawn_next {s : State} {n i : Nat} {w : Word} (h : Issues s n i w 0x90) : exec (.spawn n) s = .next
    (match freeCtx (s.core n) with
      | some j => ((beginIssue s n (some i)).modCtx n j fun x =>
            x.started (haltBit s n j) (bits w 0 13 * 8) ((s.ctx n i).getG (iA w))).retire n i fun x =>
          x.setG (iD w) (BitVec.ofNat 64 j)
      | none => (afterIssue s n i id).retire n i fun x => x.setG (iD w) 0x100) := by
  have entry : iImm w % 8192 = bits w 0 13 := bits_low w 0 32 13 (by decide)
  change execSpawn n s = _
  rw [execSpawn, row_next h (by decide), ← afterIssue_id, freeCtx_congr (beginIssue_states s n i)]
  simp only [execSpawn.entryOf, entry, beginIssue_ctx]
  rfl

/-- The bank of a context that is started: g1 holds its argument (R43, R65). -/
theorem Ctx.started_eq (x : Ctx) (halted : Bool) (pc : Nat) (g1 : Word) : x.started halted pc g1 = { x with
    state := if halted then .halted else .ready
    wait := .nothing, idle := false, held := false, wake := false, clearPending := false
    pc := pc, gr := if g1 = 0 then [] else [(1, g1)], pr := 0, vr := [], outstanding := 0 } := by
  rw [Ctx.started, Ctx.setG, if_neg Nat.one_ne_zero]
  simp [Sparse.set, Sparse.put, Sparse.del]

/-- SPAWN where a context is FREE (R43). -/
theorem spawn_free {s : State} {n i j : Nat} {w : Word} (h : Issues s n i w 0x90) (hj : j < 4)
    (free : (s.ctx n j).state = .free) (first : ∀ m, m < j → (s.ctx n m).state ≠ .free) :
    let u := s.setCtx n j ((s.ctx n j).started (haltBit s n j) (bits w 0 13 * 8) ((s.ctx n i).getG (iA w)))
    ∃ t, exec (.spawn n) s = .next t ∧ WritesG u t (u.core n) n i (pcOf s n i + 8) (iD w) (BitVec.ofNat 64 j) := by
  intro u
  have hij : j ≠ i := by
    rintro rfl
    rw [issuing_ready h.word] at free
    contradiction
  have only := (beginIssue_only s n i).setOther (j := j)
    ((s.ctx n j).started (haltBit s n j) (bits w 0 13 * 8) ((s.ctx n i).getG (iA w)))
  set v := (beginIssue s n (some i)).setCtx n j ((s.ctx n j).started (haltBit s n j) (bits w 0 13 * 8)
    ((s.ctx n i).getG (iA w))) with hv
  have modified : (beginIssue s n (some i)).modCtx n j (fun x => x.started (haltBit s n j) (bits w 0 13 * 8)
      ((s.ctx n i).getG (iA w))) = v := by
    rw [State.modCtx, (beginIssue_only s n i).ctxs j hij]
    rfl
  have issued : (v.ctx n i) = { s.ctx n i with held := false } := by
    rw [← beginIssue_ctx]
    simp [hv, State.ctx_eq, Ne.symm hij]
  have ctx : v.ctx n i = { u.ctx n i with held := false } := by
    rw [issued]
    simp [u, State.ctx_eq, Ne.symm hij]
  have retires : v.retire n i (fun x => x.setG (iD w) (BitVec.ofNat 64 j)) =
      v.retireTo n i (pcOf s n i + 8) fun x => x.setG (iD w) (BitVec.ofNat 64 j) := by
    rw [State.retireTo, State.modCtx, State.retire, State.modCtx, issued, Ctx.setG_frame]
    rfl
  refine ⟨_, ?_, only.writesG rfl rfl ctx _ _ _⟩
  rw [spawn_next h, freeCtx_some hj free first, ← retires, ← modified]

/-- Settles O9: each instruction acts on the state just after issue. -/
theorem parkFenceEndSignalAndSpawn : Obligations.ParkFenceEndSignalAndSpawn := by
  refine ⟨fun s n i w => ⟨fun h full => ?_, fun h none => ?_, fun h drained => ?_, fun h busy => ?_, fun h drained => ?_,
    fun h busy => ?_, fun h => ?_⟩, fun s n i w => ⟨fun h => ?_, fun j h hj free first => ?_, fun h taken => ?_⟩⟩
  · exact ⟨_, by rw [park_next h, if_pos ((packets_pos _).2 full)], retires_writesNone s n i⟩
  · have none' : ¬ 1 ≤ (s.core n).packets := fun hp => by
      obtain ⟨x, hx, last⟩ := (packets_pos _).1 hp
      rw [none x hx] at last
      contradiction
    exact ⟨_, by rw [park_next h, if_neg none'], afterIssue_parks s n i .inbox (idleFlag w)⟩
  · exact ⟨_, by rw [fence_next h, if_pos drained], retires_writesNone s n i⟩
  · exact ⟨_, by rw [fence_next h, if_neg busy], afterIssue_parks s n i _ _⟩
  · obtain ⟨only, regs, cairn, ctx⟩ := retireTo_any s n i (pcOf s n i + 8) Ctx.freed coreOnly_id
    exact ⟨_, by rw [endCtx_next h, if_pos drained, retire_eq s n i _ coreOnly_id], only, regs, cairn, ctx⟩
  · exact ⟨_, by rw [endCtx_next h, if_neg busy], afterIssue_parks s n i _ _⟩
  · exact ⟨_, row_next h (by decide) _, retires_writesNone s n i⟩
  · exact ⟨_, retires_writesNone s n i, sig_next h⟩
  · have spawned := spawn_free h hj free first
    simp only [Ctx.started_eq] at spawned
    exact spawned
  · refine ⟨_, ?_, writesG (f := fun _ => 0x100) 0x100 rfl coreOnly_id⟩
    rw [spawn_next h, freeCtx_none taken, ← retire_eq s n i (fun x => x.setG (iD w) 0x100) coreOnly_id]

end Sys2Proof.Machine
end

section
/-! SUPPORT. The rows of a core and the words they take (R73, R74). -/

namespace Sys2Proof.Machine

/-- The words that a row of a core takes (R73, R92). -/
def takesWord : Instr → Word → Bool
  | .alu _ => isOp 0x10
  | .alui _ => isOp 0x11
  | .cmp _ => isOp 0x12
  | .cmpi _ => isOp 0x13
  | .li _ => isOp 0x14
  | .lih _ => isOp 0x15
  | .plog _ => isOp 0x16
  | .sel _ => isOp 0x17
  | .br _ => isOp 0x20
  | .brp _ => isOp 0x21
  | .call _ => isOp 0x22
  | .jr _ => isOp 0x23
  | .loop _ => isOp 0x24
  | .ld _ => isOp 0x30
  | .st _ => isOp 0x31
  | .vop _ => isOp 0x40
  | .vld _ => isOp 0x41
  | .vst _ => isOp 0x42
  | .vbcast _ => isOp 0x43
  | .vget _ => isOp 0x44
  | .vput _ => isOp 0x45
  | .vred _ => isOp 0x46
  | .vsort _ => isOp 0x47
  | .vxadd _ => isOp 0x48
  | .vtld _ => isOp 0x49
  | .tissue _ => isOp 0x50
  | .msend _ => isOp 0x60
  | .inmv _ => isOp 0x61
  | .waitSlot _ => isWait false
  | .waitCount _ => isWait true
  | .sig _ => isOp 0x71
  | .lop _ => isOp 0x80
  | .spawn _ => isOp 0x90
  | .endCtx _ => isOp 0x91
  | .park _ => isOp 0x92
  | .self _ => isOp 0x93
  | .rreg _ => isOp 0xA0
  | .wreg _ => isOp 0xA1
  | .fence _ => isOp 0xA2
  | .breakCtx _ => isOp 0xA3
  | .nop _ => isOp 0xA4
  | _ => fun _ => false

/-- Every row of a core issues the words it takes (R41, R74). -/
theorem coreRow_issue {n : Nat} {c : Instr} (h : c ∈ coreRows n) :
    ∃ act, ∀ s, exec c s = onCore n s fun s => issue s n (takesWord c) act := by
  simp only [coreRows, List.mem_cons, List.not_mem_nil, or_false] at h
  casesm* _ ∨ _ <;> subst c <;> exact ⟨_, fun _ => rfl⟩

/-- A row of a core takes the words that name it alone (R73). -/
theorem eq_rowOf_of_takesWord {n : Nat} {c : Instr} {w : Word} (h : c ∈ coreRows n) (takes : takesWord c w = true) :
    c = rowOf n w := by
  simp only [coreRows, List.mem_cons, List.not_mem_nil, or_false] at h
  casesm* _ ∨ _ <;> subst c <;> simp only [takesWord, isOp, isWait, Bool.and_eq_true, beq_iff_eq] at takes <;>
    simp [rowOf, takes]

/-- A word of a defined opcode names a row of the core that takes it (R73). -/
theorem rowOf_takesWord (n : Nat) {w : Word} (h : iOp w ∈ opcodes) :
    rowOf n w ∈ coreRows n ∧ takesWord (rowOf n w) w = true := by
  by_cases wait : iOp w = 0x70
  · cases count : bit w 33 <;> simp [rowOf, wait, count, takesWord, isWait, coreRows]
  · simp only [opcodes, List.mem_cons, List.not_mem_nil, or_false] at h
    casesm* _ ∨ _ <;> simp [rowOf, h, takesWord, isOp, coreRows] at wait ⊢

end Sys2Proof.Machine
end
section
/-! PROOFS. What faults at issue whatever its operands, and which words are legal (R53, R54, R57, R71 to R74). -/

namespace Sys2Proof.Machine

/-- What the issuing context fetches (R53). -/
theorem issuing_fetch {s : State} {n i : Nat} {f : Fetch} (h : issuing s n = some (i, f)) :
    f = fetch (s.core n) (s.ctx n i) := by
  unfold issuing at h
  split at h
  · split at h
    · simp only [Option.some.injEq, Prod.mk.injEq] at h
      obtain ⟨rfl, rfl⟩ := h
      rfl
    · contradiction
  · contradiction

/-- The row of fetches that fault (R53, R74). -/
theorem opcodeReserved_fault {s : State} {n i code : Nat} (hn : isCoreNode n = true)
    (h : issuing s n = some (i, .fault code)) :
    ∃ t, exec (.opcodeReserved n) s = .next t ∧ FaultsAtIssue s t n i code 0 (BitVec.ofNat 64 (s.ctx n i).pc) := by
  refine ⟨_, ?_, issueFault_spec s n i code 0 _⟩
  change execOpcodeReserved n s = _
  rw [execOpcodeReserved, onCore_next hn, h]

/-- The row of reserved opcodes (R73). -/
theorem opcodeReserved_word {s : State} {n i : Nat} {w : Word} (hn : isCoreNode n = true)
    (h : issuing s n = some (i, .word w)) (reserved : iOp w ∉ opcodes) :
    ∃ t, exec (.opcodeReserved n) s = .next t ∧ FaultsAtIssue s t n i 0x03 0 (BitVec.ofNat 64 (s.ctx n i).pc) := by
  refine ⟨_, ?_, issueFault_spec s n i 0x03 0 _⟩
  change execOpcodeReserved n s = _
  rw [execOpcodeReserved, onCore_next hn, h]
  simp only [if_neg reserved]

/-- A word that decode faults (R74). -/
theorem row_decodeFault {s : State} {n i code : Nat} {w : Word} (hn : isCoreNode n = true)
    (h : issuing s n = some (i, .word w)) (defined : iOp w ∈ opcodes) (fault : decodeFault w = some code) :
    ∃ t, exec (rowOf n w) s = .next t ∧ FaultsAtIssue s t n i code 0 (BitVec.ofNat 64 (s.ctx n i).pc) := by
  obtain ⟨row, takes⟩ := rowOf_takesWord n defined
  obtain ⟨act, acts⟩ := coreRow_issue row
  refine ⟨_, ?_, issueFault_spec s n i code 0 _⟩
  rw [acts, onCore_next hn, issue, h]
  simp only [defined, takes, and_self, if_true, fault]
  rw [State.issueFault, beginIssue_ctx]

theorem decodeFault_mode {w : Word} (mode : modeOk w = false) : decodeFault w = some 0x04 := by
  simp [decodeFault, mode]

theorem decodeFault_reg {w : Word} (mode : modeOk w = true) (reg : regOk w = false) : decodeFault w = some 0x05 := by
  simp [decodeFault, mode, reg]

/-- IMM[31:20] of a unit opcode is 0 just where IMM is less than 2^20 (R87). -/
theorem iUnitCc_eq_zero (w : Word) : iUnitCc w = 0 ↔ iImm w < 2 ^ 20 := by
  have high : iImm w / 2 ^ 20 % 2 ^ 12 = iUnitCc w := bits_part w 0 32 20 12 (by decide)
  have whole : iImm w < 2 ^ 32 := Nat.mod_lt _ (by decide)
  omega

/-- Settles O10: the fetch, the opcode, MODE and the register fields are looked at in this order; which words are legal
is read off opcode by opcode. -/
theorem fetchDecodeAndBreakFault : Obligations.FetchDecodeAndBreakFault := by
  refine ⟨fun s n i hn => ⟨fun f h past => ?_, fun f h inside bad => ?_, fun w h reserved => opcodeReserved_word hn h reserved,
    fun w h defined mode => row_decodeFault hn h defined (decodeFault_mode mode),
    fun w h defined mode reg => row_decodeFault hn h defined (decodeFault_reg mode reg), fun w h => ?_⟩, fun w h => ?_⟩
  · have fetched : f = .fault 0x01 := by rw [issuing_fetch h, fetch, if_pos past]
    exact opcodeReserved_fault hn (fetched ▸ h)
  · have fetched : f = .fault 0x02 := by
      rw [issuing_fetch h, fetch, if_neg (Nat.not_le.2 inside), if_pos (by simpa using bad)]
    exact opcodeReserved_fault hn (fetched ▸ h)
  · refine ⟨_, ?_, issueFault_spec s n i 0x0D 0 _⟩
    change execBreakCtx n s = _
    rw [execBreakCtx, row_next h (by decide), ← afterIssue_id, beginIssue_ctx]
  · simp only [opcodes, List.mem_cons, List.not_mem_nil, or_false] at h
    constructor
    · casesm* _ ∨ _ <;> simp only [modeOk, h]
      all_goals simp [iUnitCc_eq_zero, vopDefined, iLcount, ite_prop_iff_or]
      all_goals cases bit w 40
      all_goals simp -failIfUnchanged only [Bool.false_eq_true, true_or, false_or, and_true, true_and]
      all_goals omega
    · casesm* _ ∨ _ <;> simp [regOk, vecRegs, h]
      all_goals omega

end Sys2Proof.Machine
end

section
/-! PROOFS. Of the rows of a core the one that the word names acts (R41, R74). -/

namespace Sys2Proof.Machine

/-- A word whose fields decode accepts has a defined opcode (R73). -/
theorem opcode_of_modeOk {w : Word} (mode : modeOk w = true) : iOp w ∈ opcodes := by
  unfold modeOk at mode
  split at mode
  case h_41 => contradiction
  all_goals
    rename_i op
    rw [op]
    decide

/-- While the core may not issue, no context does (R62). -/
theorem issuing_none {s : State} {n : Nat} (h : mayIssue s n = false) : issuing s n = none := by
  simp [issuing, h]

/-- The row of fetches that fault and of reserved opcodes leaves a defined word to its own row (R73). -/
theorem opcodeReserved_other {s : State} {n i : Nat} {w : Word} (hn : isCoreNode n = true)
    (h : issuing s n = some (i, .word w)) (defined : iOp w ∈ opcodes) : exec (.opcodeReserved n) s = .next s := by
  change execOpcodeReserved n s = _
  rw [execOpcodeReserved, onCore_next hn, h]
  simp only [if_pos defined]

theorem opcodeReserved_off {s : State} {n : Nat} (hn : isCoreNode n = true) (off : mayIssue s n = false) :
    exec (.opcodeReserved n) s = .next s := by
  change execOpcodeReserved n s = _
  rw [execOpcodeReserved, onCore_next hn, issuing_none off]
  simp [off]

/-- A row that the word does not name (R41). -/
theorem coreRow_other {s : State} {n i : Nat} {w : Word} {c : Instr} (hn : isCoreNode n = true)
    (h : issuing s n = some (i, .word w)) (row : c ∈ coreRows n) (other : c ≠ rowOf n w) : exec c s = .next s := by
  obtain ⟨act, acts⟩ := coreRow_issue row
  have passes : takesWord c w = false := Bool.eq_false_iff.2 fun takes => other (eq_rowOf_of_takesWord row takes)
  rw [acts, onCore_next hn, issue_other h passes]

/-- A row of a core that may not issue (R62). -/
theorem coreRow_off {s : State} {n : Nat} {c : Instr} (hn : isCoreNode n = true) (row : c ∈ coreRows n)
    (off : mayIssue s n = false) : exec c s = .next s := by
  obtain ⟨act, acts⟩ := coreRow_issue row
  rw [acts, onCore_next hn, issue, issuing_none off]
  simp [off]

/-- Settles O11: a row takes the words that name it, and no word is fetched while the core may not issue. -/
theorem onlyTheRowOfTheWordActs : Obligations.OnlyTheRowOfTheWordActs := by
  refine fun s n hn => ⟨fun i w c h defined row other => ?_, fun c off row => ?_, fun i w op h => ?_⟩
  · obtain rfl | row := List.mem_cons.1 row
    · exact opcodeReserved_other hn h defined
    · exact coreRow_other hn h row other
  · obtain rfl | row := List.mem_cons.1 row
    · exact opcodeReserved_off hn off
    · exact coreRow_off hn row off
  · exact (rowOf_takesWord n (opcode_of_modeOk h.decodes.1)).1

end Sys2Proof.Machine
end

section
/-! PROOFS. INMV (R91, R161, R162). -/

namespace Sys2Proof.Machine

theorem inmvStatus_word (last : Bool) : inmvStatus last false = if last then 1 else 0 := by
  cases last <;> decide

theorem inmvStatus_empty : inmvStatus false true = 2 := by decide

/-- What a word moved from the chain changes of the core (R91). -/
def Core.inmvWord (ea : Nat) (h : InWord) (rest : List InWord) (c : Core) : Core :=
  { c.writeSpad ea h.bytes with inbox := rest, lastRead := h.bytes }

/-- What a read of the empty chain changes of the core (R162). -/
def Core.inmvLast (ea : Nat) (c : Core) : Core := c.writeSpad ea c.lastRead

theorem coreOnly_inmvWord (ea : Nat) (h : InWord) (rest : List InWord) : CoreOnly (Core.inmvWord ea h rest) :=
  fun _ _ _ => rfl

theorem coreOnly_inmvLast (ea : Nat) : CoreOnly (Core.inmvLast ea) := fun _ _ _ => rfl

/-- The chain just after issue. -/
theorem afterIssue_chain (s : State) (n i : Nat) :
    (if ((afterIssue s n i id).core n).flushPending then [] else ((afterIssue s n i id).core n).inbox) =
      if (s.core n).flushPending then [] else (s.core n).inbox := by
  obtain ⟨cs, h⟩ := afterIssue_core s n i coreOnly_id
  rw [h]
  rfl

/-- INMV on an empty chain, whose target lies in scratchpad (R162). -/
theorem inmv_empty {s : State} {n i : Nat} {w : Word} (h : Issues s n i w 0x61)
    (inside : (effAddr (s.ctx n i) w).toNat + 64 ≤ 0x20_0000) (aligned : (effAddr (s.ctx n i) w).toNat % 64 = 0)
    (chain : (if (s.core n).flushPending then [] else (s.core n).inbox) = []) : exec (.inmv n) s = .next
      (((afterIssue s n i (Core.inmvLast (effAddr (s.ctx n i) w).toNat)).setField (bCore n) 0x50 12 1 1).retire n i
        fun x => x.setG (iD w) (inmvStatus false true)) := by
  change execInmv n s = _
  rw [execInmv, ← modCore_afterIssue s n i (Core.inmvLast _), row_next h (by decide)]
  simp only [afterIssue_ctx s n i coreOnly_id, effAddr_held, spadFault_none inside aligned]
  rw [afterIssue_chain, chain]
  rfl

/-- INMV of a word, whose target lies in scratchpad (R91). -/
theorem inmv_word {s : State} {n i : Nat} {w : Word} {h : InWord} {rest : List InWord} (issues : Issues s n i w 0x61)
    (inside : (effAddr (s.ctx n i) w).toNat + 64 ≤ 0x20_0000) (aligned : (effAddr (s.ctx n i) w).toNat % 64 = 0)
    (chain : (if (s.core n).flushPending then [] else (s.core n).inbox) = h :: rest) :
    let u := (afterIssue s n i (Core.inmvWord (effAddr (s.ctx n i) w).toNat h rest)).retire n i
      fun x => x.setG (iD w) (inmvStatus h.last false)
    exec (.inmv n) s = .next (feed (if h.last then u.cairn n i else u) n) := by
  change execInmv n s = _
  rw [execInmv, ← modCore_afterIssue s n i (Core.inmvWord _ _ _), row_next issues (by decide)]
  simp only [afterIssue_ctx s n i coreOnly_id, effAddr_held, spadFault_none inside aligned]
  rw [afterIssue_chain, chain]
  rfl

/-- Scratchpad after an instruction that writes it. -/
theorem OnlyIssued.spadByte {s t : State} {c : Core} {n i : Nat} (h : OnlyIssued s t c n i) (a : Nat) :
    (t.core n).spadByte a = c.spadByte a := by
  rw [h.core]
  rfl

/-- A field of a register is set before or after issue alike. -/
theorem afterIssue_setField (s : State) (n i : Nat) (k : Core → Core) (b : Blk) (off lo len v : Nat) :
    (afterIssue s n i k).setField b off lo len v = afterIssue (s.setField b off lo len v) n i k := rfl

/-- Settles O13: the chain's head, or the word read last, is what is written. -/
theorem inmvMovesTheHeadWord : Obligations.InmvMovesTheHeadWord := by
  intro s n i w ea next wrote
  refine ⟨fun h rest issues inside aligned noFlush chain => ?_, fun issues inside aligned empty => ?_, fun idle => ?_⟩
  · have writes := writesG (s := s) (n := n) (i := i) (pc := next) (d := iD w)
      (f := fun _ => inmvStatus h.last false) (if h.last then 1 else 0) (inmvStatus_word h.last)
      (coreOnly_inmvWord ea h rest)
    set u := (afterIssue s n i (Core.inmvWord ea h rest)).retireTo n i next
      fun x => x.setG (iD w) (inmvStatus h.last false)
    have core := writes.retired.only.core
    refine ⟨u, ?_, fun a => ?_, ?_⟩
    · rw [inmv_word issues inside aligned (by rw [if_neg (by simp [noFlush]), chain]),
        retire_eq s n i _ (coreOnly_inmvWord _ h rest)]
      rfl
    · rw [writes.retired.only.spadByte]
      exact Core.spadByte_writeSpad _ _ _ _
    · rw [core]
      exact writes
  · have writes := writesG (s := s.setField (bCore n) 0x50 12 1 1) (n := n) (i := i) (pc := next) (d := iD w)
      (f := fun _ => inmvStatus false true) 2 inmvStatus_empty (coreOnly_inmvLast ea)
    set t := (afterIssue (s.setField (bCore n) 0x50 12 1 1) n i (Core.inmvLast ea)).retireTo n i next
      fun x => x.setG (iD w) (inmvStatus false true)
    have core := writes.retired.only.core
    have chain : (if (s.core n).flushPending then [] else (s.core n).inbox) = [] := by
      obtain flush | none := empty
      · rw [if_pos flush]
      · rw [none, ite_self]
    refine ⟨t, ?_, fun a => ?_, ?_⟩
    · rw [inmv_empty issues inside aligned chain]
      exact congrArg _ (retire_eq (s.setField (bCore n) 0x50 12 1 1) n i _ (coreOnly_inmvLast ea))
    · rw [writes.retired.only.spadByte]
      exact Core.spadByte_writeSpad _ _ _ _
    · rw [core]
      exact writes
  · rw [feed, idle]

end Sys2Proof.Machine
end

section
/-! SUPPORT. One Cairn event of a context, the release of a waiter, and one context reached by a test
(R45, R59, R60, R196 to R201). -/

namespace Sys2Proof.Machine

/-! ## A context and one Cairn event -/

/-- Context i of core n is y, CORE_CAIRN counts one, and nothing else has changed. -/
structure CairnOne (s t : State) (n i : Nat) (y : Ctx) : Prop where
  rest : t = { s with cores := t.cores, regs := t.regs }
  others : CoresSame s t [n]
  core : t.core n = { s.core n with ctxs := (t.core n).ctxs }
  ctx : t.ctx n i = y
  ctxs : ∀ j, j ≠ i → t.ctx n j = s.ctx n j
  regs : RegsSame s t [(bCore n).key 0x48]
  cairn : t.reg (bCore n) 0x48 = wrapInc (s.reg (bCore n) 0x48) 0 32

/-- A change of a context with one Cairn event (R59). -/
theorem cairn_modCtx (s : State) (n i : Nat) (f : Ctx → Ctx) :
    CairnOne s ((s.modCtx n i f).cairn n i) n i { f (s.ctx n i) with cairn := (f (s.ctx n i)).cairn + 1 } := by
  have shape : (s.modCtx n i f).cairn n i =
      (s.setCtx n i { f (s.ctx n i) with cairn := (f (s.ctx n i)).cairn + 1 }).modReg (bCore n) 0x48
        fun w => wrapInc w 0 32 := by
    rw [State.cairn, State.modCtx, State.modCtx, State.ctx_setCtx, State.setCtx_setCtx]
  rw [shape]
  refine ⟨rfl, fun m hm => ?_, ?_, State.ctx_setCtx s n i _, fun j hj => ?_, fun key hk => ?_, by simp⟩
  · simp [List.mem_singleton.not.1 hm]
  · simp [Core.setCtx]
  · simp [State.ctx_eq, hj]
  · rw [State.modReg_eq, State.find_setReg, if_neg (List.mem_singleton.not.1 hk)]
    rfl

theorem afterRelease_eq (x : Ctx) : { x.released with cairn := x.released.cairn + 1 } = AfterRelease x := by
  unfold Ctx.released AfterRelease
  split <;> rfl

/-- A release (R45, R59). -/
theorem release_cairnOne (s : State) (n i : Nat) : CairnOne s (s.release n i) n i (AfterRelease (s.ctx n i)) := by
  rw [← afterRelease_eq]
  exact cairn_modCtx s n i Ctx.released

/-- A release counts on the Cairn of its context (R59). -/
theorem afterRelease_ne (x : Ctx) : AfterRelease x ≠ x := by
  intro h
  have counted : (AfterRelease x).cairn = x.cairn + 1 := by
    unfold AfterRelease
    split <;> rfl
  rw [h] at counted
  bv_omega

theorem afterRelease_wait (x : Ctx) : (AfterRelease x).wait = .nothing := by
  unfold AfterRelease
  split <;> rfl

theorem afterRelease_parked {x : Ctx} (h : x.state = .parked) :
    AfterRelease x = { x with state := .ready, wait := .nothing, idle := false, cairn := x.cairn + 1 } := by
  simp [AfterRelease, h]

/-! ## One context reached by a test -/

theorem Core.slot_setSlot (c : Core) (sl q : Nat) (w : Word) : (c.setSlot sl w).slot q = if q = sl then w else c.slot q :=
  Sparse.getD_set _ _ _ _ _

theorem Core.cc_setCc (c : Core) (k q : Nat) (v : Lane) : (c.setCc k v).cc q = if q = k then v else c.cc q :=
  Sparse.getD_set _ _ _ _ _

/-- The condition of a SLOT-form wait (R196, R197). -/
theorem eligible_iff (w : Word) (cc : Lane) : eligible w cc = true ↔ SlotHolds w cc := by
  unfold eligible SlotHolds guardMet slotMode slotExpect slotCount slotGuard
  split
  · exact decide_eq_true_iff
  · cases bit w 34 <;> simp

theorem waits_iff (x : Ctx) : x.waits = true ↔ x.state = .parked ∨ x.state = .halted := by
  simp [Ctx.waits]

/-- The counter that a release from a wait counts on, where the slots hold w (R201). -/
def linkCounter (w : Nat → Word) : WaitFor → Option Nat
  | .slot sl _ => if bit (w sl) 35 then some (bits (w sl) 36 12) else none
  | _ => none

/-- The slots after a release from a wait, where they held w (R196). -/
def slotsAfter (w : Nat → Word) : WaitFor → Nat → Word
  | .slot sl _, q => if sl = q ∧ bits (w q) 32 2 = 0 then setBits (w q) 0 32 (bits (w q) 0 32 - 1) else w q
  | _, q => w q

/-- A context that a test does not release (R198). -/
theorem testCtx_kept {s : State} {n i : Nat} {sel : WaitFor → Bool} (l : List Nat)
    (h : ¬ ReleasedAt s n (fun x => sel x = true) (s.core n).slot i) : testCtx n sel (s, l) i = (s, l) := by
  simp only [ReleasedAt, ← waits_iff, not_and] at h
  rw [testCtx]
  split
  · rename_i waits
    rw [Bool.and_eq_true] at waits
    have held := h waits.1 waits.2
    split
    · rename_i sl k wait
      refine if_neg fun e => held (.inl ⟨sl, k, wait, ?_⟩)
      exact (eligible_iff _ _).1 e
    · rename_i k thr wait
      exact if_neg fun e => held (.inr ⟨k, thr, wait, e⟩)
    · rfl
  · rfl

/-- What the test changes beside the release of a context: its slot (R196). -/
def Core.consumed (c : Core) : WaitFor → Core
  | .slot sl _ => c.setSlot sl (consume (c.slot sl))
  | _ => c

/-- A release looks at its core as it is. -/
theorem release_modCore_self (s : State) (n i : Nat) : (s.modCore n fun c => c).release n i = s.release n i := by
  simp [State.release, State.cairn, State.ctx_eq]

/-- A context that a test releases (R198, R201). -/
theorem testCtx_released {s : State} {n i : Nat} {sel : WaitFor → Bool} (l : List Nat)
    (h : ReleasedAt s n (fun x => sel x = true) (s.core n).slot i) : testCtx n sel (s, l) i =
      ((s.modCore n fun c => c.consumed (s.ctx n i).wait).release n i, l ++ (linkCounter (s.core n).slot (s.ctx n i).wait).toList) := by
  obtain ⟨waits, selected, holds⟩ := h
  have tested : ((s.core n).ctx i).waits && sel ((s.core n).ctx i).wait := by
    rw [Bool.and_eq_true]
    exact ⟨(waits_iff _).2 waits, selected⟩
  rw [testCtx, if_pos tested]
  obtain ⟨sl, k, wait, slotHolds⟩ | ⟨k, thr, wait, reached⟩ := holds
  · rw [wait]
    rw [State.ctx_eq] at wait
    simp only [wait, (eligible_iff _ _).2 slotHolds, if_true, linkCounter, Core.consumed, slotLinkEn, slotLink]
    by_cases link : bit ((s.core n).slot sl) 35 = true <;> simp [link]
  · rw [wait]
    rw [State.ctx_eq] at wait
    simp only [wait, if_pos reached, linkCounter, Core.consumed, Option.toList_none, List.append_nil, release_modCore_self]

theorem Core.slot_consumed (c : Core) (x : WaitFor) (q : Nat) : (c.consumed x).slot q = slotsAfter c.slot x q := by
  cases x with
  | slot sl k =>
    simp only [Core.consumed, Core.slot_setSlot, slotsAfter, consume, slotMode, slotCount, eq_comm (a := q)]
    by_cases same : sl = q
    · subst same
      by_cases mode : bits (c.slot sl) 32 2 = 0 <;> simp [mode]
    · simp [same]
  | _ => rfl

end Sys2Proof.Machine
end

section
/-! SUPPORT. A test for release: the contexts from c0 to c3 (R198, R201). -/

namespace Sys2Proof.Machine

/-! ## One context -/

/-- A test that reaches context i releases it (R198). -/
def releasesNow (s : State) (n : Nat) (sel : WaitFor → Bool) (i : Nat) : Bool :=
  decide ((testCtx n sel (s, []) i).1.ctx n i ≠ s.ctx n i)

/-- The state after the release of a context from its wait. -/
def State.releaseFrom (s : State) (n i : Nat) : State :=
  (s.modCore n fun c => c.consumed (s.ctx n i).wait).release n i

theorem Core.consumed_frame (c : Core) (x : WaitFor) : c.consumed x = { c with slots := (c.consumed x).slots } := by
  cases x <;> rfl

/-- What the release of a context from its wait changes (R45, R59, R196). -/
structure ReleasedFrom (s t : State) (n i : Nat) : Prop where
  rest : t = { s with cores := t.cores, regs := t.regs }
  others : CoresSame s t [n]
  core : t.core n = { s.core n with ctxs := (t.core n).ctxs, slots := (t.core n).slots }
  slots : (t.core n).slot = slotsAfter (s.core n).slot (s.ctx n i).wait
  ctx : t.ctx n i = AfterRelease (s.ctx n i)
  ctxs : ∀ j, j ≠ i → t.ctx n j = s.ctx n j
  regs : RegsSame s t [(bCore n).key 0x48]
  cairn : t.reg (bCore n) 0x48 = wrapInc (s.reg (bCore n) 0x48) 0 32

theorem releaseFrom_spec (s : State) (n i : Nat) : ReleasedFrom s (s.releaseFrom n i) n i := by
  have frame := Core.consumed_frame (s.core n) (s.ctx n i).wait
  have before : (s.modCore n fun c => c.consumed (s.ctx n i).wait).core n = (s.core n).consumed (s.ctx n i).wait := by
    simp
  have ctxs : ∀ j, (s.modCore n fun c => c.consumed (s.ctx n i).wait).ctx n j = s.ctx n j := fun j => by
    rw [State.ctx_eq, before, frame]
    rfl
  obtain ⟨rest, others, core, ctx, keeps, regs, cairn⟩ :=
    release_cairnOne (s.modCore n fun c => c.consumed (s.ctx n i).wait) n i
  have slots : ((s.releaseFrom n i).core n).slots = ((s.core n).consumed (s.ctx n i).wait).slots := by
    rw [State.releaseFrom, core, before]
  refine ⟨?_, fun m hm => ?_, ?_, ?_, ?_, fun j hj => ?_, regs, ?_⟩
  · rw [State.releaseFrom, rest]
    rfl
  · rw [State.releaseFrom, others m hm]
    simp [List.mem_singleton.not.1 hm]
  · rw [slots, State.releaseFrom, core, before]
    simp only
    rw [frame]
  · funext q
    rw [← Core.slot_consumed]
    exact congrArg (fun x => Sparse.getD 0 x q) slots
  · rw [State.releaseFrom, ctx, ctxs]
  · rw [State.releaseFrom, keeps j hj, ctxs]
  · rw [State.releaseFrom, cairn]
    rfl

section
variable {s : State} {n i : Nat} {sel : WaitFor → Bool}

theorem releasesNow_iff : releasesNow s n sel i = true ↔ ReleasedAt s n (fun x => sel x = true) (s.core n).slot i := by
  rw [releasesNow, decide_eq_true_iff]
  constructor
  · intro changed
    by_contra kept
    exact changed (by rw [testCtx_kept [] kept])
  · intro h
    rw [testCtx_released [] h]
    exact (releaseFrom_spec s n i).ctx ▸ afterRelease_ne _

/-- One context reached by a test: it is released, or nothing happens (R198). -/
theorem testCtx_eq (l : List Nat) : testCtx n sel (s, l) i =
    if releasesNow s n sel i then (s.releaseFrom n i, l ++ (linkCounter (s.core n).slot (s.ctx n i).wait).toList) else (s, l) := by
  split
  · rename_i h
    exact testCtx_released l (releasesNow_iff.1 h)
  · rename_i h
    exact testCtx_kept l fun e => h (releasesNow_iff.2 e)

end

/-! ## The contexts below one -/

/-- A test that has reached the contexts below m, with the counters that the releases count on. -/
def testedTo (s : State) (n : Nat) (sel : WaitFor → Bool) (m : Nat) : State × List Nat :=
  (List.range m).foldl (testCtx n sel) (s, [])

/-- What the slots hold when a test reaches context i. -/
def slotsAt (s : State) (n : Nat) (sel : WaitFor → Bool) (i : Nat) : Nat → Word :=
  ((testedTo s n sel i).1.core n).slot

/-- The test releases context i. -/
def releases (s : State) (n : Nat) (sel : WaitFor → Bool) (i : Nat) : Bool := releasesNow (testedTo s n sel i).1 n sel i

theorem testAll_eq (s : State) (n : Nat) (sel : WaitFor → Bool) : testAll s n sel = testedTo s n sel 4 := rfl

theorem testedTo_succ (s : State) (n : Nat) (sel : WaitFor → Bool) (m : Nat) : testedTo s n sel (m + 1) =
    if releases s n sel m then ((testedTo s n sel m).1.releaseFrom n m,
      (testedTo s n sel m).2 ++ (linkCounter (slotsAt s n sel m) ((testedTo s n sel m).1.ctx n m).wait).toList)
    else testedTo s n sel m := by
  rw [testedTo, List.range_succ, List.foldl_append]
  exact testCtx_eq _

/-- What a test changes up to context m. -/
structure TestedTo (s t : State) (n : Nat) (sel : WaitFor → Bool) (m : Nat) : Prop where
  rest : t = { s with cores := t.cores, regs := t.regs }
  others : CoresSame s t [n]
  core : t.core n = { s.core n with ctxs := (t.core n).ctxs, slots := (t.core n).slots }
  reached : ∀ i, i < m → releases s n sel i = true → t.ctx n i = AfterRelease (s.ctx n i)
  kept : ∀ i, m ≤ i ∨ releases s n sel i = false → t.ctx n i = s.ctx n i
  regs : RegsSame s t [(bCore n).key 0x48]
  low : bits (t.reg (bCore n) 0x48) 0 32 =
    (bits (s.reg (bCore n) 0x48) 0 32 + ((List.range m).filter (releases s n sel)).length) % 2 ^ 32
  high : bits (t.reg (bCore n) 0x48) 32 32 = bits (s.reg (bCore n) 0x48) 32 32

theorem TestedTo.step {s t u : State} {n m : Nat} {sel : WaitFor → Bool} (h : TestedTo s t n sel m)
    (released : releases s n sel m = true) (r : ReleasedFrom t u n m) : TestedTo s u n sel (m + 1) := by
  refine ⟨?_, fun k hk => ?_, ?_, fun i hi hr => ?_, fun i hi => ?_, fun key hk => ?_, ?_, ?_⟩
  · rw [r.rest, h.rest]
  · rw [r.others k hk, h.others k hk]
  · rw [r.core, h.core]
  · obtain below | rfl := Nat.lt_succ_iff_lt_or_eq.1 hi
    · rw [r.ctxs i (by omega), h.reached i below hr]
    · rw [r.ctx, h.kept i (.inl le_rfl)]
  · have ne : i ≠ m := by
      rintro rfl
      obtain above | off := hi
      · omega
      · rw [off] at released
        contradiction
    rw [r.ctxs i ne, h.kept i (hi.imp (by omega) id)]
  · rw [r.regs key hk, h.regs key hk]
  · rw [r.cairn, wrapInc, bits_setBits_same _ _ _ _ (by decide), h.low, List.range_succ, List.filter_append,
      List.filter_singleton]
    simp only [released, Bool.cond_true, List.length_append, List.length_singleton]
    omega
  · rw [r.cairn, wrapInc, bits_setBits_other _ _ _ _ _ _ (by decide) (by decide), h.high]

theorem TestedTo.skip {s t : State} {n m : Nat} {sel : WaitFor → Bool} (h : TestedTo s t n sel m)
    (kept : releases s n sel m = false) : TestedTo s t n sel (m + 1) := by
  refine ⟨h.rest, h.others, h.core, fun i hi hr => ?_, fun i hi => h.kept i ?_, h.regs, ?_, h.high⟩
  · obtain below | rfl := Nat.lt_succ_iff_lt_or_eq.1 hi
    · exact h.reached i below hr
    · rw [kept] at hr
      contradiction
  · exact hi.imp (by omega) id
  · rw [h.low, List.range_succ, List.filter_append, List.filter_singleton, kept]
    simp

theorem testedTo_spec (s : State) (n : Nat) (sel : WaitFor → Bool) (m : Nat) :
    TestedTo s (testedTo s n sel m).1 n sel m := by
  induction m with
  | zero =>
    refine ⟨rfl, fun _ _ => rfl, rfl, fun i hi => absurd hi (Nat.not_lt_zero i), fun _ _ => rfl, fun _ _ => rfl, ?_, rfl⟩
    exact (Nat.mod_eq_of_lt (bits_lt _ 0 32)).symm
  | succ m ih =>
    rw [testedTo_succ]
    cases released : releases s n sel m with
    | true => exact ih.step released (releaseFrom_spec _ n m)
    | false => exact ih.skip released

section
variable {s : State} {n : Nat} {sel : WaitFor → Bool}

/-- A context is as it was until the test reaches it. -/
theorem testedTo_ctx (m : Nat) : (testedTo s n sel m).1.ctx n m = s.ctx n m :=
  (testedTo_spec s n sel m).kept m (.inl le_rfl)

/-- What is released is told by the slots as the test finds them (R198). -/
theorem releases_iff {i : Nat} : releases s n sel i = true ↔ ReleasedAt s n (fun x => sel x = true) (slotsAt s n sel i) i := by
  have cc : ∀ k, ((testedTo s n sel i).1.core n).cc k = (s.core n).cc k := fun k => by
    rw [(testedTo_spec s n sel i).core]
    rfl
  rw [releases, releasesNow_iff, ReleasedAt, ReleasedAt, testedTo_ctx]
  simp only [cc]
  rfl

theorem slotsAt_succ (i : Nat) : slotsAt s n sel (i + 1) =
    if releases s n sel i then slotsAfter (slotsAt s n sel i) (s.ctx n i).wait else slotsAt s n sel i := by
  rw [slotsAt, testedTo_succ]
  split
  · rw [(releaseFrom_spec _ n i).slots, testedTo_ctx]
    rfl
  · rfl

/-- The links of the contexts below m that are released (R201). -/
theorem testedTo_links (m : Nat) : (testedTo s n sel m).2 =
    (List.range m).filterMap fun i => if releases s n sel i then linkCounter (slotsAt s n sel i) (s.ctx n i).wait else none := by
  induction m with
  | zero => rfl
  | succ m ih =>
    rw [testedTo_succ, List.range_succ, List.filterMap_append, ← ih, testedTo_ctx]
    cases released : releases s n sel m with
    | true => cases link : linkCounter (slotsAt s n sel m) (s.ctx n m).wait <;> simp [released, link]
    | false => simp [released]

/-- After a test, the contexts that changed are those it has released. -/
theorem releases_iff_ne {i : Nat} (hi : i < 4) :
    releases s n sel i = true ↔ (testedTo s n sel 4).1.ctx n i ≠ s.ctx n i := by
  have spec := testedTo_spec s n sel 4
  constructor
  · intro released
    rw [spec.reached i hi released]
    exact afterRelease_ne _
  · intro changed
    by_contra kept
    exact changed (spec.kept i (.inr (Bool.eq_false_iff.2 kept)))

end

theorem tested_congr {s t : State} {n : Nat} {p q : WaitFor → Prop} {slots : Nat → Nat → Word} {links : List Nat}
    (h : ∀ x, p x ↔ q x) (tested : Tested s t n p slots links) : Tested s t n q slots links := by
  rwa [← show p = q from funext fun x => propext (h x)]

/-- A test is what the rules say (R198, R201). -/
theorem testAll_spec (s : State) (n : Nat) (sel : WaitFor → Bool) :
    Tested s (testAll s n sel).1 n (fun x => sel x = true) (slotsAt s n sel) (testAll s n sel).2 := by
  rw [testAll_eq]
  obtain ⟨rest, others, core, reached, kept, regs, low, high⟩ := testedTo_spec s n sel 4
  refine ⟨rest, others, core, rfl, rfl, fun i => ⟨fun hi hr => reached i hi (releases_iff.2 hr), fun h => kept i (h.imp id ?_)⟩,
    fun i hi sl => ?_, ?_, regs, ⟨?_, high⟩⟩
  · exact fun not => Bool.eq_false_iff.2 fun e => not (releases_iff.1 e)
  · rw [slotsAt_succ]
    simp only [← releases_iff_ne hi]
    cases (s.ctx n i).wait with
    | slot sl' k => cases releases s n sel i <;> simp [slotsAfter]
    | _ => cases releases s n sel i <;> rfl
  · rw [testedTo_links]
    refine List.filterMap_congr fun i hi => ?_
    simp only [← releases_iff_ne (List.mem_range.1 hi)]
    cases (s.ctx n i).wait <;> cases releases s n sel i <;> simp [linkCounter]
  · have same : (List.range 4).filter (releases s n sel) =
        (List.range 4).filter fun i => decide ((testedTo s n sel 4).1.ctx n i ≠ s.ctx n i) :=
      List.filter_congr fun i hi => by
        rw [Bool.eq_iff_iff, decide_eq_true_iff, releases_iff_ne (List.mem_range.1 hi)]
    rw [low, same]

end Sys2Proof.Machine
end

section
/-! SUPPORT. Counts on completion counters with the releases they bring (R69, R144, R198, R201, R203). -/

namespace Sys2Proof.Machine

/-- The contexts of core n that wait on something. -/
def waiters (s : State) (n : Nat) : Nat := ∑ i ∈ Finset.range 4, if (s.ctx n i).wait = .nothing then 0 else 1

theorem waiters_le (s : State) (n : Nat) : waiters s n ≤ 4 := by
  refine (Finset.sum_le_card_nsmul (Finset.range 4) _ 1 fun i _ => ?_).trans (by simp)
  split <;> omega

theorem waiters_congr {s t : State} {n : Nat} (h : ∀ i, t.ctx n i = s.ctx n i) : waiters t n = waiters s n := by
  simp only [waiters, h]

/-- A release takes one from the waiters. -/
theorem ReleasedFrom.waiters_lt {s t : State} {n i : Nat} (r : ReleasedFrom s t n i) (hi : i < 4)
    (waits : (s.ctx n i).wait ≠ .nothing) : waiters t n < waiters s n := by
  refine Finset.sum_lt_sum (fun j _ => ?_) ⟨i, Finset.mem_range.2 hi, ?_⟩
  · by_cases hj : j = i
    · rw [hj, r.ctx, afterRelease_wait, if_pos rfl]
      exact Nat.zero_le _
    · rw [r.ctxs j hj]
  · rw [r.ctx, afterRelease_wait, if_pos rfl, if_neg waits]
    exact Nat.zero_lt_one

theorem ReleasedAt.waiting {s : State} {n i : Nat} {p : WaitFor → Prop} {w : Nat → Word} (h : ReleasedAt s n p w i) :
    (s.ctx n i).wait ≠ .nothing := by
  obtain ⟨-, -, ⟨sl, k, wait, -⟩ | ⟨k, thr, wait, -⟩⟩ := h
  · rw [wait]
    exact WaitFor.noConfusion
  · rw [wait]
    exact WaitFor.noConfusion

/-- Each link that a test counts on stands for a waiter that it has released. -/
theorem links_add_waiters_le (s : State) (n : Nat) (sel : WaitFor → Bool) {m : Nat} (hm : m ≤ 4) :
    (testedTo s n sel m).2.length + waiters (testedTo s n sel m).1 n ≤ waiters s n := by
  induction m with
  | zero => exact (Nat.zero_add _).le
  | succ m ih =>
    have below := ih (by omega)
    rw [testedTo_succ]
    split
    · rename_i released
      have waits : ((testedTo s n sel m).1.ctx n m).wait ≠ .nothing := by
        rw [testedTo_ctx]
        exact (releases_iff.1 released).waiting
      have fewer := (releaseFrom_spec (testedTo s n sel m).1 n m).waiters_lt (by omega) waits
      have one : (linkCounter (slotsAt s n sel m) ((testedTo s n sel m).1.ctx n m).wait).toList.length ≤ 1 :=
        Option.length_toList_le
      simp only [List.length_append]
      omega
    · exact below

/-- One count on a counter (R69). -/
theorem bump_counted (s : State) (n k : Nat) : Counted s (s.bump n k) n k := by
  have core : (s.bump n k).core n = (s.core n).setCc k ((s.core n).cc k + 1) := by
    rw [State.bump]
    split <;> simp
  refine ⟨?_, fun m hm => ?_, ?_, fun c => ?_, fun key hk => ?_, ?_⟩
  · rw [State.bump]
    split <;> rfl
  · rw [State.bump]
    split <;> simp [List.mem_singleton.not.1 hm]
  · rw [core]
    rfl
  · rw [core, Core.cc_setCc]
  · rw [State.bump]
    split
    · rw [State.setField_eq, State.find_setReg, if_neg (List.mem_singleton.not.1 hk)]
      rfl
    · rfl
  · rw [State.bump]
    split
    · simp [setBit]
    · rfl

theorem bump_ctx (s : State) (n k j : Nat) : (s.bump n k).ctx n j = s.ctx n j := by
  rw [State.ctx_eq, (bump_counted s n k).core]
  rfl

theorem waitsSlot_iff (sl : Nat) (x : WaitFor) : waitsSlot sl x = true ↔ ∃ k, x = .slot sl k := by
  cases x <;> simp [waitsSlot]

theorem waitsCounter_iff (k : Nat) (x : WaitFor) :
    waitsCounter k x = true ↔ (∃ sl, x = .slot sl k) ∨ ∃ thr, x = .count k thr := by
  cases x <;> simp [waitsCounter]

/-- With fuel for every count and every waiter, all counts are added (R201, R203). -/
theorem addCounts_counted (n : Nat) {f : Nat} {s : State} {ks : List Nat} (fuel : ks.length + waiters s n ≤ f) :
    CountsAdded n s ks (addCounts f s n ks) := by
  induction f generalizing s ks with
  | zero =>
    obtain rfl : ks = [] := List.length_eq_zero_iff.1 (by omega)
    exact .none s
  | succ f ih =>
    cases ks with
    | nil => exact .none s
    | cons k rest =>
      have tested := testAll_spec (s.bump n k) n (waitsCounter k)
      simp only [waitsCounter_iff] at tested
      have fewer := links_add_waiters_le (s.bump n k) n (waitsCounter k) (m := 4) le_rfl
      rw [waiters_congr (bump_ctx s n k)] at fewer
      refine .one s _ _ _ k rest _ _ (bump_counted s n k) tested (ih ?_)
      simp only [List.length_cons] at fuel
      rw [List.length_append, testAll_eq]
      omega

/-- One count with its releases (R144, R203). -/
theorem addCount_counted (s : State) (n k : Nat) : CountsAdded n s [k] (s.addCount n k) := by
  have few := waiters_le s n
  exact addCounts_counted n (by simp only [countFuel, List.length_singleton]; omega)

/-- The test after a slot has changed (R198, R201). -/
theorem testSlot_tested (s : State) (n sl : Nat) : SlotTested s (s.testSlot n sl) n sl := by
  have tested := testAll_spec s n (waitsSlot sl)
  simp only [waitsSlot_iff] at tested
  have few := waiters_le s n
  have fewer := links_add_waiters_le s n (waitsSlot sl) (m := 4) le_rfl
  exact ⟨_, _, _, tested, addCounts_counted n (by simp only [countFuel, testAll_eq]; omega)⟩

/-! ## Tests that release few -/

/-- Where a test releases none of the contexts from a to b, it does nothing there. -/
theorem testedTo_steady {s : State} {n a b : Nat} {sel : WaitFor → Bool} (hab : a ≤ b)
    (h : ∀ j, a ≤ j → j < b → releasesNow (testedTo s n sel a).1 n sel j = false) : testedTo s n sel b = testedTo s n sel a := by
  induction b, hab using Nat.le_induction with
  | base => rfl
  | succ b hb ih =>
    have same := ih fun j hj hjb => h j hj (by omega)
    have kept := h b hb (by omega)
    rw [← same] at kept
    rw [testedTo_succ, releases, kept, same]
    rfl

theorem releasesNow_false {s : State} {n i : Nat} {sel : WaitFor → Bool}
    (h : ¬ ((s.ctx n i).waits = true ∧ sel (s.ctx n i).wait = true)) : releasesNow s n sel i = false := by
  refine Bool.eq_false_iff.2 fun released => h ?_
  obtain ⟨waits, selected, -⟩ := releasesNow_iff.1 released
  exact ⟨(waits_iff _).2 waits, selected⟩

/-- A test that no context waits for does nothing (R198). -/
theorem testAll_none {s : State} {n : Nat} {sel : WaitFor → Bool}
    (h : ∀ j, j < 4 → ¬ ((s.ctx n j).waits = true ∧ sel (s.ctx n j).wait = true)) : testAll s n sel = (s, []) := by
  rw [testAll_eq, testedTo_steady (Nat.zero_le 4) fun j _ hj => releasesNow_false (h j hj)]
  rfl

/-- A test that releases one context alone (R198). -/
theorem testAll_one {s : State} {n i : Nat} {sel : WaitFor → Bool} (hi : i < 4)
    (before : ∀ j, j < i → ¬ ((s.ctx n j).waits = true ∧ sel (s.ctx n j).wait = true))
    (released : ReleasedAt s n (fun x => sel x = true) (s.core n).slot i)
    (after : ∀ j, i < j → j < 4 → releasesNow (s.releaseFrom n i) n sel j = false) :
    testAll s n sel = (s.releaseFrom n i, (linkCounter (s.core n).slot (s.ctx n i).wait).toList) := by
  have start : testedTo s n sel i = (s, []) := by
    rw [testedTo_steady (Nat.zero_le i) fun j _ hj => releasesNow_false (before j hj)]
    rfl
  have next : testedTo s n sel (i + 1) = (s.releaseFrom n i, (linkCounter (s.core n).slot (s.ctx n i).wait).toList) := by
    rw [testedTo_succ, releases, slotsAt, start, if_pos (releasesNow_iff.2 released)]
    rfl
  rw [testAll_eq, testedTo_steady (a := i + 1) hi, next]
  rw [next]
  exact fun j hj => after j hj

end Sys2Proof.Machine
end

section
/-! SUPPORT. A slot after one signal (R194). -/

namespace Sys2Proof.Machine

/-- The slot with the guard and expect count that a signal leaves (R194). -/
def signalGuard (w : Word) (e : Nat) : Word :=
  if slotMode w = 2 then w
  else if slotCount w = 0 then setBits (setBit w 34 (decide (e ≠ 0))) 48 16 (e % 65536)
  else if e = 0 then w
  else if slotGuard w = false then setBits (setBit w 34 true) 48 16 (e % 65536)
  else if later (e % 65536) (slotExpect w) then setBits w 48 16 (e % 65536)
  else w

theorem applySignal_eq (w : Word) (e : Nat) : applySignal w e = satInc (signalGuard w e) 0 32 := rfl

/-- A field or bit that holds neither the guard nor its expect count. -/
theorem bits_signalGuard (w : Word) (e : Nat) {lo len : Nat} (h : lo + len ≤ 34 ∨ 35 ≤ lo ∧ lo + len ≤ 48) :
    bits (signalGuard w e) lo len = bits w lo len := by
  have expect : ∀ (x : Word) v, bits (setBits x 48 16 v) lo len = bits x lo len := fun x v =>
    bits_setBits_other x 48 16 v lo len (by decide) (by omega)
  have guard : ∀ (x : Word) b, bits (setBit x 34 b) lo len = bits x lo len := fun x b =>
    bits_setBits_other x 34 1 b.toNat lo len (by decide) (by omega)
  unfold signalGuard
  split_ifs <;> simp only [expect, guard]

theorem bits_applySignal (w : Word) (e : Nat) {lo len : Nat} (h : 32 ≤ lo) :
    bits (applySignal w e) lo len = bits (signalGuard w e) lo len := by
  rw [applySignal_eq, satInc]
  split
  · rfl
  · exact bits_setBits_other _ _ _ _ _ _ (by decide) (by omega)

theorem bit_applySignal (w : Word) (e : Nat) {i : Nat} (h : 32 ≤ i) : bit (applySignal w e) i = bit (signalGuard w e) i := by
  rw [applySignal_eq, satInc]
  split
  · rfl
  · exact bit_setBits_other _ _ _ _ _ (by decide) (by omega)

/-- COUNT rises by one and saturates (R194). -/
theorem count_applySignal (w : Word) (e : Nat) : bits (applySignal w e) 0 32 = min (bits w 0 32 + 1) (2 ^ 32 - 1) := by
  have same : bits (signalGuard w e) 0 32 = bits w 0 32 := bits_signalGuard w e (by decide)
  have bound := bits_lt w 0 32
  rw [applySignal_eq, satInc, same]
  split
  · omega
  · rw [bits_setBits_same _ _ _ _ (by decide)]
    omega

/-- Where the guard is set, or is set anew, to an expect count (R194). -/
theorem guard_setBits (w : Word) (b : Bool) (v : Nat) : bit (setBits (setBit w 34 b) 48 16 (v % 65536)) 34 = b ∧
    bits (setBits (setBit w 34 b) 48 16 (v % 65536)) 48 16 = v % 2 ^ 16 := by
  constructor
  · rw [bit_setBits_other _ _ _ _ _ (by decide) (by decide), bit_setBit _ _ _ _ (by decide), if_pos rfl]
  · rw [bits_setBits_same _ _ _ _ (by decide)]
    exact Nat.mod_mod _ _

theorem later_iff (e expect : Nat) : later (e % 65536) expect = true ↔
    1 ≤ (e % 65536 + 65536 - expect) % 65536 ∧ (e % 65536 + 65536 - expect) % 65536 ≤ 32767 := by
  simp [later]

/-- The guard of a guarded slot that holds a count (R194). -/
theorem signalGuard_later {w : Word} {e : Nat} (mode : bits w 32 2 ≠ 2) (count : bits w 0 32 ≠ 0) (he : e ≠ 0)
    (guard : bit w 34 = true) : bit (signalGuard w e) 34 = true ∧ bits (signalGuard w e) 48 16 =
      if 1 ≤ (e + 2 ^ 16 - bits w 48 16) % 2 ^ 16 ∧ (e + 2 ^ 16 - bits w 48 16) % 2 ^ 16 ≤ 32767
      then e % 2 ^ 16 else bits w 48 16 := by
  have bound := bits_lt w 48 16
  have same : (e % 65536 + 65536 - bits w 48 16) % 65536 = (e + 2 ^ 16 - bits w 48 16) % 2 ^ 16 := by omega
  have is : signalGuard w e = if later (e % 65536) (bits w 48 16) then setBits w 48 16 (e % 65536) else w := by
    simp only [signalGuard, slotMode, slotCount, slotGuard, slotExpect, if_neg mode, if_neg count, if_neg he, guard,
      Bool.true_eq_false, if_false]
    rfl
  rw [is, ← same]
  by_cases l : later (e % 65536) (bits w 48 16) = true
  · rw [if_pos l, if_pos ((later_iff _ _).1 l), bit_setBits_other _ _ _ _ _ (by decide) (by decide),
      bits_setBits_same _ _ _ _ (by decide)]
    exact ⟨guard, Nat.mod_mod _ _⟩
  · rw [if_neg l, if_neg fun h => l ((later_iff _ _).2 h)]
    exact ⟨guard, rfl⟩

/-- What one signal does to its slot, case by case (R194). -/
theorem applySignal_spec (w : Word) (e : Nat) :
    let r := applySignal w e
    bits r 0 32 = min (bits w 0 32 + 1) (2 ^ 32 - 1) ∧
    bits r 32 2 = bits w 32 2 ∧ bits r 35 13 = bits w 35 13 ∧
    (bits w 32 2 = 2 → bits r 48 16 = bits w 48 16 ∧ bit r 34 = bit w 34) ∧
    (bits w 32 2 ≠ 2 → bits w 0 32 = 0 → bit r 34 = decide (e ≠ 0) ∧ bits r 48 16 = e % 2 ^ 16) ∧
    (bits w 32 2 ≠ 2 → bits w 0 32 ≠ 0 → e = 0 → bit r 34 = bit w 34 ∧ bits r 48 16 = bits w 48 16) ∧
    (bits w 32 2 ≠ 2 → bits w 0 32 ≠ 0 → e ≠ 0 → bit w 34 = false →
      bit r 34 = true ∧ bits r 48 16 = e % 2 ^ 16) ∧
    (bits w 32 2 ≠ 2 → bits w 0 32 ≠ 0 → e ≠ 0 → bit w 34 = true →
      bit r 34 = true ∧ bits r 48 16 =
        if 1 ≤ (e + 2 ^ 16 - bits w 48 16) % 2 ^ 16 ∧ (e + 2 ^ 16 - bits w 48 16) % 2 ^ 16 ≤ 32767
        then e % 2 ^ 16 else bits w 48 16) := by
  have guard : bit (applySignal w e) 34 = bit (signalGuard w e) 34 := bit_applySignal w e (by decide)
  have expect : bits (applySignal w e) 48 16 = bits (signalGuard w e) 48 16 := bits_applySignal w e (by decide)
  simp only [guard, expect]
  refine ⟨count_applySignal w e, ?_, ?_, fun mode => ?_, fun mode count => ?_, fun mode count he => ?_,
    fun mode count he off => ?_, fun mode count he on => signalGuard_later mode count he on⟩
  · rw [bits_applySignal w e (by decide), bits_signalGuard w e (by decide)]
  · rw [bits_applySignal w e (by decide), bits_signalGuard w e (by decide)]
  · simp [signalGuard, slotMode, mode]
  · simpa [signalGuard, slotMode, slotCount, mode, count] using guard_setBits w (decide (e ≠ 0)) e
  · simp [signalGuard, slotMode, slotCount, mode, count, he]
  · simpa [signalGuard, slotMode, slotCount, slotGuard, mode, count, he, off] using guard_setBits w true e

end Sys2Proof.Machine
end
section
/-! PROOFS. Signals and counts (R194 to R203). -/

namespace Sys2Proof.Machine

/-- A signal: the slot changes, then it is tested (R194, R198). -/
theorem signal_eq (s : State) (n sl e : Nat) : s.signal n sl e =
    (s.setCore n ((s.core n).setSlot sl (applySignal ((s.core n).slot sl) e))).testSlot n sl := rfl

/-- A slot that no context waits on (R198). -/
theorem testSlot_none {s : State} {n sl : Nat}
    (h : ∀ j, j < 4 → ¬ ((s.ctx n j).waits = true ∧ ∃ k, (s.ctx n j).wait = .slot sl k)) : s.testSlot n sl = s := by
  rw [State.testSlot, testAll_none fun j hj => by simpa only [waitsSlot_iff] using h j hj]
  rfl

theorem ctx_setCore_setSlot (s : State) (n sl : Nat) (w : Word) (j : Nat) :
    (s.setCore n ((s.core n).setSlot sl w)).ctx n j = s.ctx n j := by
  simp [State.ctx_eq, Core.setSlot, Core.ctx]

/-- The lowest waiter of a CONSUME_ONE slot with COUNT = 1 and no link takes the count (R196, R198). -/
theorem testSlot_one {s : State} {n i sl k : Nat} (hi : i < 4) (parked : (s.ctx n i).state = .parked)
    (wait : (s.ctx n i).wait = .slot sl k) (first : ∀ j, j < i → ¬ ((s.ctx n j).waits = true ∧ ∃ k, (s.ctx n j).wait = .slot sl k))
    (mode : bits ((s.core n).slot sl) 32 2 = 0) (count : bits ((s.core n).slot sl) 0 32 = 1)
    (link : bit ((s.core n).slot sl) 35 = false) (holds : SlotHolds ((s.core n).slot sl) ((s.core n).cc k)) :
    s.testSlot n sl = s.releaseFrom n i := by
  have spec := releaseFrom_spec s n i
  have emptied : ((s.releaseFrom n i).core n).slot sl = setBits ((s.core n).slot sl) 0 32 0 := by
    rw [spec.slots, wait, slotsAfter, if_pos ⟨rfl, mode⟩, count]
  have after : ∀ j, i < j → j < 4 → releasesNow (s.releaseFrom n i) n (waitsSlot sl) j = false := fun j _ _ => by
    refine Bool.eq_false_iff.2 fun released => ?_
    obtain ⟨-, selected, ⟨sl', k', wait', holds'⟩ | ⟨k', thr, wait', -⟩⟩ := releasesNow_iff.1 released
    · obtain ⟨k'', selected⟩ := (waitsSlot_iff sl _).1 selected
      obtain ⟨rfl, -⟩ : sl = sl' ∧ k'' = k' := by simpa [selected] using wait'
      rw [emptied, SlotHolds, bits_setBits_other _ _ _ _ _ _ (by decide) (by decide), mode,
        bits_setBits_same _ _ _ _ (by decide)] at holds'
      simp at holds'
    · simp [wait', waitsSlot] at selected
  have released : ReleasedAt s n (fun x => waitsSlot sl x = true) (s.core n).slot i :=
    ⟨.inl parked, (waitsSlot_iff sl _).2 ⟨k, wait⟩, .inl ⟨sl, k, wait, holds⟩⟩
  have noLink : linkCounter (s.core n).slot (s.ctx n i).wait = none := by
    simp [wait, linkCounter, link]
  rw [State.testSlot, testAll_one hi (fun j hj => by simpa only [waitsSlot_iff] using first j hj) released after, noLink]
  rfl

theorem addCount_eq (s : State) (n k : Nat) : s.addCount n k =
    addCounts 7 (testAll (s.bump n k) n (waitsCounter k)).1 n (testAll (s.bump n k) n (waitsCounter k)).2 := by
  rw [State.addCount, countFuel, addCounts, List.nil_append]

/-- A counter that no context waits on (R203). -/
theorem addCount_none {s : State} {n k : Nat}
    (h : ∀ j, j < 4 → ¬ ((s.ctx n j).waits = true ∧ waitsCounter k (s.ctx n j).wait = true)) : s.addCount n k = s.bump n k := by
  rw [addCount_eq, testAll_none fun j hj => by simpa only [bump_ctx] using h j hj]
  rfl

/-- The one context that waits for a count that is reached (R203). -/
theorem addCount_one {s : State} {n i k thr : Nat} (hi : i < 4) (parked : (s.ctx n i).state = .parked)
    (wait : (s.ctx n i).wait = .count k thr)
    (others : ∀ j, j < 4 → j ≠ i → ¬ ((s.ctx n j).waits = true ∧ waitsCounter k (s.ctx n j).wait = true))
    (reached : thr ≤ ((s.core n).cc k + 1).toNat) : s.addCount n k = (s.bump n k).releaseFrom n i := by
  have spec := releaseFrom_spec (s.bump n k) n i
  have counter : ((s.bump n k).core n).cc k = (s.core n).cc k + 1 := by
    rw [(bump_counted s n k).counters, if_pos rfl]
  have released : ReleasedAt (s.bump n k) n (fun x => waitsCounter k x = true) ((s.bump n k).core n).slot i := by
    rw [ReleasedAt, bump_ctx]
    exact ⟨.inl parked, (waitsCounter_iff k _).2 (.inr ⟨thr, wait⟩), .inr ⟨k, thr, wait, by rwa [counter]⟩⟩
  have noLink : linkCounter ((s.bump n k).core n).slot ((s.bump n k).ctx n i).wait = none := by
    rw [bump_ctx, wait]
    rfl
  rw [addCount_eq, testAll_one hi (fun j hj => ?_) released fun j hij hj => releasesNow_false ?_, noLink]
  · rfl
  · rw [bump_ctx]
    exact others j (by omega) (by omega)
  · rw [spec.ctxs j (by omega), bump_ctx]
    exact others j hj (by omega)

theorem not_mem_of_not_mem_pair {a b c : Nat} (h : a ∉ [b, c]) : a ∉ [b] ∧ a ∉ [c] := by
  simpa [not_or] using h

/-- A release from a wait for a count changes no slot (R203). -/
theorem releaseFrom_count {s : State} {n i k thr : Nat} (wait : (s.ctx n i).wait = .count k thr) :
    CairnOne s (s.releaseFrom n i) n i (AfterRelease (s.ctx n i)) := by
  rw [State.releaseFrom, wait]
  exact release_modCore_self s n i ▸ release_cairnOne s n i

/-- A count with one release changes its counter, CORE_STAT.CC_WRAP and CORE_CAIRN, and contexts alone (R69, R203). -/
structure CountedOnly (s t : State) (n k : Nat) : Prop where
  rest : t = { s with cores := t.cores, regs := t.regs }
  others : CoresSame s t [n]
  core : t.core n = { s.core n with ctxs := (t.core n).ctxs, ccs := (t.core n).ccs }
  counters : ∀ c, (t.core n).cc c = if c = k then (s.core n).cc k + 1 else (s.core n).cc c
  regs : RegsSame s t [(bCore n).key 0x20, (bCore n).key 0x48]
  wrapped : t.reg (bCore n) 0x20 =
    if (s.core n).cc k = 0xFFFF_FFFF then setBit (s.reg (bCore n) 0x20) 14 true else s.reg (bCore n) 0x20

theorem Counted.cairnOne {s u t : State} {n k i : Nat} {y : Ctx} (h : Counted s u n k) (r : CairnOne u t n i y) :
    CountedOnly s t n k := by
  refine ⟨?_, fun m hm => ?_, ?_, fun c => ?_, fun key hk => ?_, ?_⟩
  · rw [r.rest, h.rest]
  · rw [r.others m hm, h.others m hm]
  · rw [r.core, h.core]
  · rw [r.core]
    exact h.counters c
  · rw [r.regs key (not_mem_of_not_mem_pair hk).2, h.regs key (not_mem_of_not_mem_pair hk).1]
  · rw [State.reg_congr (by rw [r.rest]) (r.regs _ (by simp)), h.wrapped]

/-- A count that one context waits for (R203). -/
theorem addCount_one_spec {s : State} {n i k thr : Nat} (hi : i < 4) (parked : (s.ctx n i).state = .parked)
    (wait : (s.ctx n i).wait = .count k thr)
    (others : ∀ j, j < 4 → j ≠ i → ¬ ((s.ctx n j).waits = true ∧ waitsCounter k (s.ctx n j).wait = true))
    (reached : thr ≤ ((s.core n).cc k + 1).toNat) :
    CountedOnly s (s.addCount n k) n k ∧ (∀ j, j ≠ i → (s.addCount n k).ctx n j = s.ctx n j) ∧
    (s.addCount n k).ctx n i = { s.ctx n i with state := .ready, wait := .nothing, idle := false, cairn := (s.ctx n i).cairn + 1 } ∧
    (s.addCount n k).reg (bCore n) 0x48 = wrapInc (s.reg (bCore n) 0x48) 0 32 := by
  have counted := bump_counted s n k
  have released := releaseFrom_count (s := s.bump n k) (n := n) (i := i) (by rw [bump_ctx, wait])
  rw [addCount_one hi parked wait others reached]
  refine ⟨counted.cairnOne released, fun j hj => ?_, ?_, ?_⟩
  · rw [released.ctxs j hj, bump_ctx]
  · rw [released.ctx, bump_ctx, afterRelease_parked parked]
  · rw [released.cairn, State.reg_congr (by rw [counted.rest]) (counted.regs _ (by simp))]

/-- A signal that fills an empty CONSUME_ONE slot for the lowest of its waiters (R196, R198). -/
theorem signal_one {s : State} {n i sl k e : Nat} (hi : i < 4) (parked : (s.ctx n i).state = .parked)
    (wait : (s.ctx n i).wait = .slot sl k) (first : ∀ j, j < i → ¬ ((s.ctx n j).waits = true ∧ ∃ k, (s.ctx n j).wait = .slot sl k))
    (mode : bits (applySignal ((s.core n).slot sl) e) 32 2 = 0) (count : bits (applySignal ((s.core n).slot sl) e) 0 32 = 1)
    (link : bit (applySignal ((s.core n).slot sl) e) 35 = false)
    (holds : SlotHolds (applySignal ((s.core n).slot sl) e) ((s.core n).cc k)) :
    let w := applySignal ((s.core n).slot sl) e
    let t := s.signal n sl e
    t = { s with cores := t.cores, regs := t.regs } ∧ CoresSame s t [n] ∧
    t.core n = { s.core n with ctxs := (t.core n).ctxs, slots := (t.core n).slots } ∧
    (∀ q, (t.core n).slot q = if q = sl then setBits w 0 32 0 else (s.core n).slot q) ∧
    t.ctx n i = { s.ctx n i with state := .ready, wait := .nothing, idle := false, cairn := (s.ctx n i).cairn + 1 } ∧
    (∀ j, j ≠ i → t.ctx n j = s.ctx n j) ∧
    RegsSame s t [(bCore n).key 0x48] ∧ t.reg (bCore n) 0x48 = wrapInc (s.reg (bCore n) 0x48) 0 32 := by
  intro w t
  set u := s.setCore n ((s.core n).setSlot sl w) with hu
  have ctx : ∀ j, u.ctx n j = s.ctx n j := ctx_setCore_setSlot s n sl w
  have core : u.core n = (s.core n).setSlot sl w := by simp [hu]
  have slot : ∀ q, (u.core n).slot q = if q = sl then w else (s.core n).slot q := fun q => by
    rw [core, Core.slot_setSlot]
  have here : (u.core n).slot sl = w := by rw [slot, if_pos rfl]
  have is : s.signal n sl e = u.releaseFrom n i := by
    rw [signal_eq]
    refine testSlot_one (k := k) hi (by rw [ctx, parked]) (by rw [ctx, wait]) (fun j hj => ?_) (by rwa [here])
      (by rwa [here]) (by rwa [here]) ?_
    · rw [ctx]
      exact first j hj
    · rw [here, core]
      exact holds
  obtain ⟨rest, elsewhere, frame, slots, released, kept, regs, cairn⟩ := releaseFrom_spec u n i
  have same : t = _ := is
  rw [same]
  refine ⟨?_, fun m hm => ?_, ?_, fun q => ?_, ?_, fun j hj => ?_, regs, cairn⟩
  · rw [rest]
    rfl
  · rw [elsewhere m hm]
    simp [hu, List.mem_singleton.not.1 hm]
  · rw [frame, core]
    rfl
  · rw [slots, ctx, wait, slotsAfter, slot]
    by_cases hq : q = sl
    · rw [if_pos hq, if_pos hq, if_pos ⟨hq.symm, mode⟩, count]
    · rw [if_neg hq, if_neg hq, if_neg fun h => hq h.1.symm]
  · rw [released, ctx, afterRelease_parked parked]
  · rw [kept j hj, ctx]

/-- Settles O14: the guard's cases one by one, and each test through its releases. -/
theorem signalsAndCountsReleaseWaiters : Obligations.SignalsAndCountsReleaseWaiters := by
  refine ⟨⟨fun w e _ => ?_, fun s n sl e => ⟨fun i k hi parked wait first mode count link holds => ?_, fun none => ?_⟩⟩,
    fun s n sl e => testSlot_tested _ n sl, addCount_counted, fun s n k => ⟨fun none => ?_,
      fun i thr hi parked wait others reached => ?_⟩⟩
  · exact applySignal_spec w e
  · exact signal_one hi parked wait first mode count link holds
  · rw [signal_eq]
    refine testSlot_none fun j hj => ?_
    rw [ctx_setCore_setSlot]
    exact none j hj
  · rw [addCount_none none]
    obtain ⟨rest, elsewhere, core, counters, regs, wrapped⟩ := bump_counted s n k
    refine ⟨⟨rest, elsewhere, by rw [core], counters, fun key hk => regs key (not_mem_of_not_mem_pair hk).1, wrapped⟩, bump_ctx s n k, ?_⟩
    exact State.reg_congr (by rw [rest]) (regs _ (by simp))
  · obtain ⟨⟨rest, elsewhere, core, counters, regs, wrapped⟩, kept, ctx, cairn⟩ :=
      addCount_one_spec hi parked wait others reached
    exact ⟨⟨rest, elsewhere, core, counters, regs, wrapped⟩, kept, ctx, cairn⟩

end Sys2Proof.Machine
end

section
/-! PROOFS. The end of a unit operation, and a fault that a unit finds (R42 to R45, R56 to R58, R90). -/

namespace Sys2Proof.Machine

/-! ## The end -/

/-- What holds a context at issue does not look at its outstanding operations (R42, R86). -/
theorem heldAt_outstanding (c : Core) (ops : List UnitOp) (i j k : Nat) :
    heldAt { c.setCtx i { c.ctx i with outstanding := k } with ops := ops } j = heldAt { c with ops := ops } j := by
  have ctx : Core.ctx { c.setCtx i { c.ctx i with outstanding := k } with ops := ops } j =
      if j = i then { c.ctx i with outstanding := k } else c.ctx j := c.ctx_setCtx i j _
  unfold heldAt
  rw [ctx]
  by_cases hj : j = i
  · subst hj
    rw [if_pos rfl]
    rfl
  · rw [if_neg hj]
    rfl

/-- The state as an operation leaves its place, before its count and the drain (R42, R90). -/
def State.leavePlace (s : State) (n : Nat) (op : UnitOp) : State :=
  (s.modCtx n op.ctx fun x => { x with outstanding := x.outstanding - 1 }).modCore n
    fun c => Core.unhold { c with ops := eraseFirst op c.ops }

theorem opEnd_eq (s : State) (n : Nat) (op : UnitOp) (ok : Bool) : s.opEnd n op ok =
    (if ok && op.lcount then (s.leavePlace n op).addCount n op.cc else s.leavePlace n op).drain n op.ctx := rfl

theorem eraseFirst_eq_erase {α : Type} [DecidableEq α] (x : α) (l : List α) : eraseFirst x l = l.erase x := by
  induction l with
  | nil => rfl
  | cons y rest ih =>
    rw [eraseFirst, List.erase_cons, ih]
    by_cases h : y = x <;> simp [h]

theorem leavePlace_core (s : State) (n : Nat) (op : UnitOp) : (s.leavePlace n op).core n =
    Core.unhold { (s.core n).setCtx op.ctx { s.ctx n op.ctx with outstanding := (s.ctx n op.ctx).outstanding - 1 } with
      ops := (s.core n).ops.erase op } := by
  simp [State.leavePlace, Core.setCtx, eraseFirst_eq_erase]

theorem leavePlace_ctx (s : State) (n : Nat) (op : UnitOp) (j : Nat) : (s.leavePlace n op).ctx n j = { s.ctx n j with
    held := (s.ctx n j).held && heldAt { s.core n with ops := (s.core n).ops.erase op } j
    outstanding := if j = op.ctx then (s.ctx n j).outstanding - 1 else (s.ctx n j).outstanding } := by
  rw [State.ctx_eq, leavePlace_core, Core.ctx_unhold, State.ctx_eq, heldAt_outstanding]
  have ctx : Core.ctx { (s.core n).setCtx op.ctx { (s.core n).ctx op.ctx with
      outstanding := ((s.core n).ctx op.ctx).outstanding - 1 } with ops := (s.core n).ops.erase op } j = _ :=
    (s.core n).ctx_setCtx op.ctx j _
  rw [ctx, State.ctx_eq]
  by_cases hj : j = op.ctx
  · subst hj
    simp only [if_true]
  · simp only [if_neg hj]

/-! ## The drain -/

section
variable {s : State} {n i : Nat}

theorem drain_busy (h : (s.ctx n i).outstanding ≠ 0) : s.drain n i = s := by
  rw [State.drain]
  exact if_pos h

/-- A drained FENCE (R44, R45). -/
theorem drain_fence (h : (s.ctx n i).outstanding = 0) (waits : (s.ctx n i).waits = true) (wait : (s.ctx n i).wait = .fence) :
    s.drain n i = s.release n i := by
  have alive : (s.ctx n i).state ≠ .faulted := fun e => by simp [Ctx.waits, e] at waits
  simp only [State.drain, h, alive, waits, wait, ne_eq, not_true_eq_false, if_false, if_true]

/-- A drained END (R44). -/
theorem drain_ending (h : (s.ctx n i).outstanding = 0) (waits : (s.ctx n i).waits = true) (wait : (s.ctx n i).wait = .ending) :
    s.drain n i = (s.modCtx n i Ctx.freed).cairn n i := by
  have alive : (s.ctx n i).state ≠ .faulted := fun e => by simp [Ctx.waits, e] at waits
  simp only [State.drain, h, alive, waits, wait, ne_eq, not_true_eq_false, if_false, if_true]

/-- A pending CLEAR_FAULT (R58). -/
theorem drain_cleared (h : (s.ctx n i).outstanding = 0) (faulted : (s.ctx n i).state = .faulted)
    (pending : (s.ctx n i).clearPending = true) :
    s.drain n i = s.setCtx n i { (s.ctx n i).freed with faultInfo := 0, faultAddr := 0 } := by
  simp only [State.drain, h, faulted, pending, ne_eq, not_true_eq_false, if_false, if_true]

end

/-! ## A fault that a unit finds -/

theorem notice_core (s : State) (n code m : Nat) : (s.noticeDie n code none).core m = s.core m := rfl

theorem notice_offers (s : State) (n code : Nat) : ((s.noticeDie n code none).router n).offers =
    (s.router n).offers ++ [⟨mkNotice s n code 0 0 0, none⟩] := by
  simp [State.noticeDie, noticeAbout]

/-- What asyncFault writes into its context (R56, R76). -/
def Ctx.asyncFaulted (x : Ctx) (code unit pc : Nat) (addr : Word) : Ctx :=
  if x.state = .faulted then { x with faultInfo := setBit x.faultInfo 9 true }
  else if x.waits && x.wait == .ending then { x with faultInfo := faultWord code true unit pc, faultAddr := addr }
  else { x with
    state := .faulted, wait := .nothing, idle := false, wake := false, held := false,
    faultInfo := faultWord code true unit pc, faultAddr := addr }

theorem asyncFault_eq (s : State) (n i code unit pc : Nat) (addr : Word) : s.asyncFault n i code unit pc addr =
    let t := s.setCtx n i ((s.ctx n i).asyncFaulted code unit pc addr)
    if (s.ctx n i).state = .faulted then t else t.noticeDie n 0x0101 none := by
  unfold State.asyncFault Ctx.asyncFaulted
  by_cases faulted : (s.ctx n i).state = .faulted
  · simp only [if_pos faulted]
  · by_cases ending : ((s.ctx n i).waits && (s.ctx n i).wait == .ending) = true
    · simp only [if_neg faulted, if_pos ending]
    · simp only [if_neg faulted, if_neg ending]

theorem asyncFault_core (s : State) (n i code unit pc : Nat) (addr : Word) (m : Nat) :
    (s.asyncFault n i code unit pc addr).core m =
      (s.setCtx n i ((s.ctx n i).asyncFaulted code unit pc addr)).core m := by
  rw [asyncFault_eq]
  simp only
  split
  · rfl
  · rw [notice_core]

/-- The fields of CORE_FAULT_INFOn (R69, R76). -/
theorem faultWord_fields {code unit pc : Nat} (hcode : code < 256) (hunit : unit < 8) (hpc : pc < 2 ^ 16) :
    bits (faultWord code true unit pc) 0 8 = code ∧ bit (faultWord code true unit pc) 8 = true ∧
    bits (faultWord code true unit pc) 10 3 = unit ∧ bits (faultWord code true unit pc) 16 16 = pc := by
  have async : bits (faultWord code true unit pc) 8 1 = 1 := by
    simp [faultWord, bits_or, bits_field_same, bits_field_other]
  refine ⟨?_, ?_, ?_, ?_⟩
  · simpa [faultWord, bits_or, bits_field_same, bits_field_other] using hcode
  · rw [bits_one] at async
    cases h : bit (faultWord code true unit pc) 8 <;> simp [h] at async ⊢
  · simpa [faultWord, bits_or, bits_field_same, bits_field_other] using hunit
  · simpa [faultWord, bits_or, bits_field_same, bits_field_other] using hpc

/-- Settles O15: the place first, then the count, then the drain; the fault by the state it finds. -/
theorem unitOperationsEndOrFault : Obligations.UnitOperationsEndOrFault := by
  refine ⟨fun s n => ⟨fun op ok => ⟨s.leavePlace n op, opEnd_eq s n op ok, rfl, fun m hm => ?_, ?_, leavePlace_ctx s n op⟩,
    fun i => ⟨drain_busy, fun h parked wait => ?_, fun h halted wait => ?_, fun h waits wait => ?_, fun h faulted pending => ?_⟩⟩,
    fun s n i code unit pc addr => ?_⟩
  · simp [State.leavePlace, List.mem_singleton.not.1 hm]
  · rw [leavePlace_core]
    rfl
  · obtain ⟨-, -, -, ctx, kept, regs, cairn⟩ := release_cairnOne s n i
    simp only [drain_fence h ((waits_iff _).2 (.inl parked)) wait]
    exact ⟨by rw [ctx, afterRelease_parked parked], kept, regs, cairn⟩
  · obtain ⟨-, -, -, ctx, kept, regs, cairn⟩ := release_cairnOne s n i
    simp only [drain_fence h ((waits_iff _).2 (.inr halted)) wait]
    exact ⟨by rw [ctx, AfterRelease, if_pos halted], kept, regs, cairn⟩
  · obtain ⟨-, -, -, ctx, kept, regs, cairn⟩ := cairn_modCtx s n i Ctx.freed
    simp only [drain_ending h ((waits_iff _).2 waits) wait]
    exact ⟨ctx, kept, regs, cairn⟩
  · simp only [drain_cleared h faulted pending]
    exact ⟨State.ctx_setCtx s n i _, rfl⟩
  · intro x t
    have core : ∀ m, t.core m = _ := asyncFault_core s n i code unit pc addr
    have ctx : t.ctx n i = x.asyncFaulted code unit pc addr := by
      rw [State.ctx_eq, core]
      exact State.ctx_setCtx s n i _
    refine ⟨fun j hj => ?_, ?_, fun m hm => ?_, ?_, fun faulted => ⟨?_, ?_⟩, fun alive => ?_, fun waits ending => ?_,
      fun alive other => ?_, faultWord_fields⟩
    · rw [State.ctx_eq, core]
      simp [State.ctx_eq, hj]
    · simp only [t, asyncFault_eq]
      split <;> rfl
    · rw [core]
      simp [List.mem_singleton.not.1 hm]
    · rw [core]
      simp [Core.setCtx]
    · rw [ctx, Ctx.asyncFaulted, if_pos faulted]
    · simp only [t, asyncFault_eq, x] at faulted ⊢
      rw [if_pos faulted]
      rfl
    · simp only [t, asyncFault_eq, x] at alive ⊢
      rw [if_neg alive]
      exact notice_offers _ n 0x0101
    · have alive : x.state ≠ .faulted := fun e => by simp [e] at waits
      rw [ctx, Ctx.asyncFaulted, if_neg alive, if_pos (by simp [ending, (waits_iff x).2 waits])]
    · rw [ctx, Ctx.asyncFaulted, if_neg alive, if_neg]
      rw [Bool.and_eq_true, waits_iff, beq_iff_eq]
      exact other

end Sys2Proof.Machine
end

section
/-! SUPPORT. Commands that go over the four contexts of a core (R46, R58). -/

namespace Sys2Proof.Machine

/-- Contexts of core n and CORE_CAIRN alone have changed. -/
structure ContextsOnly (s t : State) (n : Nat) : Prop where
  rest : t = { s with cores := t.cores, regs := t.regs }
  others : CoresSame s t [n]
  core : t.core n = { s.core n with ctxs := (t.core n).ctxs }
  regs : RegsSame s t [(bCore n).key 0x48]

theorem ContextsOnly.refl (s : State) (n : Nat) : ContextsOnly s s n := ⟨rfl, fun _ _ => rfl, rfl, fun _ _ => rfl⟩

theorem ContextsOnly.trans {s t u : State} {n : Nat} (h : ContextsOnly s t n) (k : ContextsOnly t u n) : ContextsOnly s u n := by
  refine ⟨?_, fun m hm => ?_, ?_, fun key hk => ?_⟩
  · rw [k.rest, h.rest]
  · rw [k.others m hm, h.others m hm]
  · rw [k.core, h.core]
  · rw [k.regs key hk, h.regs key hk]

theorem ContextsOnly.inbox {s t : State} {n : Nat} (h : ContextsOnly s t n) : (t.core n).inbox = (s.core n).inbox := by
  rw [h.core]

/-- Context i of core n becomes y, and no other context changes. -/
structure ChangesTo (s t : State) (n i : Nat) (y : Ctx) : Prop where
  only : ContextsOnly s t n
  ctx : t.ctx n i = y
  ctxs : ∀ j, j ≠ i → t.ctx n j = s.ctx n j

theorem CairnOne.changesTo {s t : State} {n i : Nat} {y : Ctx} (h : CairnOne s t n i y) : ChangesTo s t n i y :=
  ⟨⟨h.rest, h.others, h.core, h.regs⟩, h.ctx, h.ctxs⟩

theorem changesTo_self (s : State) (n i : Nat) : ChangesTo s s n i (s.ctx n i) := ⟨.refl s n, rfl, fun _ _ => rfl⟩

theorem changesTo_setCtx (s : State) (n i : Nat) (x : Ctx) : ChangesTo s (s.setCtx n i x) n i x := by
  refine ⟨⟨rfl, fun m hm => ?_, ?_, fun _ _ => rfl⟩, State.ctx_setCtx s n i x, fun j hj => ?_⟩
  · simp [List.mem_singleton.not.1 hm]
  · simp [Core.setCtx]
  · simp [State.ctx_eq, hj]

/-- Going over the contexts below m, where f changes context i as g says. -/
theorem foldl_changesTo {f : State → Nat → State} {n : Nat} {g : Nat → List InWord → Ctx → Ctx}
    (h : ∀ s i, ChangesTo s (f s i) n i (g i (s.core n).inbox (s.ctx n i))) (s : State) (m : Nat) :
    ContextsOnly s ((List.range m).foldl f s) n ∧ ∀ j, ((List.range m).foldl f s).ctx n j =
      if j < m then g j (s.core n).inbox (s.ctx n j) else s.ctx n j := by
  induction m with
  | zero => exact ⟨.refl s n, fun j => rfl⟩
  | succ m ih =>
    obtain ⟨only, ctx⟩ := ih
    obtain ⟨only', ctx', kept⟩ := h ((List.range m).foldl f s) m
    rw [List.range_succ, List.foldl_append]
    refine ⟨only.trans only', fun j => ?_⟩
    obtain below | rfl | above := Nat.lt_trichotomy j m
    · rw [if_pos (by omega)]
      exact (kept j (by omega)).trans (by rw [ctx, if_pos below])
    · rw [if_pos (by omega)]
      exact ctx'.trans (by rw [only.inbox, ctx, if_neg (lt_irrefl j)])
    · rw [if_neg (by omega)]
      exact (kept j (by omega)).trans (by rw [ctx, if_neg (by omega)])

/-! ## HALT -/

/-- HALT at one context, where the chain holds these words (R46). -/
def Ctx.haltTo (on : Bool) (inbox : List InWord) (x : Ctx) : Ctx :=
  if on then
    if x.state = .ready ∨ x.state = .parked then { x with state := .halted, idle := false, held := false } else x
  else if x.state = .halted then
    if x.wake then { x with state := .ready, wake := false }
    else if x.wait = .nothing then { x with state := .ready }
    else if x.wait = .inbox ∧ 1 ≤ (inbox.filter InWord.last).length then
      { x with state := .ready, wait := .nothing, cairn := x.cairn + 1 }
    else { x with state := .parked }
  else x

theorem haltOne_changesTo (s : State) (n i : Nat) (on : Bool) :
    ChangesTo s (s.haltOne n i on) n i ((s.ctx n i).haltTo on (s.core n).inbox) := by
  rw [State.haltOne]
  cases on with
  | true =>
    simp only [Ctx.haltTo, if_true]
    split
    · exact changesTo_setCtx s n i _
    · exact changesTo_self s n i
  | false =>
    simp only [Ctx.haltTo, Bool.false_eq_true, if_false]
    split
    · split
      · exact changesTo_setCtx s n i _
      · split
        · rename_i wait
          rw [if_pos wait]
          exact changesTo_setCtx s n i _
        · rename_i wait
          have awake : (s.ctx n i).wait ≠ .nothing := by rw [wait]; exact WaitFor.noConfusion
          rw [if_neg awake]
          by_cases full : 1 ≤ (s.core n).packets
          · rw [if_pos full, if_pos ⟨wait, full⟩]
            exact (cairn_modCtx s n i fun _ => { s.ctx n i with state := .ready, wait := .nothing }).changesTo
          · rw [if_neg full, if_neg fun h => full h.2]
            exact changesTo_setCtx s n i _
        · rename_i idle inbox
          rw [if_neg idle, if_neg fun h => inbox h.1]
          exact changesTo_setCtx s n i _
    · exact changesTo_self s n i

/-! ## CLEAR_FAULT -/

/-- CLEAR_FAULT of one context (R58). -/
def Ctx.faultCleared (x : Ctx) : Ctx :=
  if x.state = .faulted then
    if x.outstanding = 0 then { x.freed with faultInfo := 0, faultAddr := 0 } else { x with clearPending := true }
  else x

theorem clearFaultOne_changesTo (s : State) (n i : Nat) : ChangesTo s (s.clearFaultOne n i) n i (s.ctx n i).faultCleared := by
  rw [State.clearFaultOne, Ctx.faultCleared]
  split
  · split
    · exact changesTo_setCtx s n i _
    · exact changesTo_setCtx s n i _
  · exact changesTo_self s n i

end Sys2Proof.Machine
end
section
/-! PROOFS. CORE_CTL (R46, R58, R61 to R65, R163). -/

namespace Sys2Proof.Machine

theorem headerOn_of_coreServed {s : State} {n : Nat} (h : coreServed s n = true) : headerOn s n = true := by
  rw [coreServed, Bool.and_eq_true] at h
  exact h.1

/-- A command of a core that is served runs its action. -/
theorem onCore_served {s : State} {n : Nat} (hn : isCoreNode n = true) (served : coreServed s n = true) (f : State → State) :
    (onCore n s fun s => if coreServed s n then f s else s) = .next (f s) := by
  rw [onCore_next hn, if_pos served]

section
variable {s : State} {n : Nat} (hn : isCoreNode n = true) (served : coreServed s n = true)
include hn

theorem flushComplete_next : exec (.flushComplete n) s = .next (if (s.core n).flushPending then
    if (s.core n).admitting.isNone then s.modCore n Core.flushed else feed s n else s) := onCore_next hn s _

include served

theorem start_next : exec (.start n) s = .next (s.start n) := onCore_served hn served fun s => s.start n

theorem clear_next : exec (.clear n) s = .next (s.clear n) := onCore_served hn served fun s => s.clear n

theorem halt_next (b : BitVec 4) : exec (.halt n b) s = .next (s.halt n b.toNat) :=
  onCore_served hn served fun s => s.halt n b.toNat

theorem clearFault_next (b : BitVec 4) : exec (.clearFault n b) s = .next (s.clearFault n b.toNat) :=
  onCore_served hn served fun s => s.clearFault n b.toNat

theorem flush_next : exec (.flush n) s = .next (s.flush n) := onCore_served hn served fun s => s.flush n

theorem clearDone_next : exec (.clearDone n) s = .next (s.clearDone n) := by
  change execClearDone n s = _
  rw [execClearDone, onCore_next hn, if_pos (headerOn_of_coreServed served)]

end

/-! ## START -/

theorem mayStart_iff (s : State) (n : Nat) : mayStart s n = true ↔
    (∀ i, i < 4 → (s.ctx n i).state = .free) ∧ bit (s.reg (bCore n) 0x30) 16 = true ∧ (s.core n).clearDone = true := by
  have free : [0, 1, 2, 3].all (fun i => (s.ctx n i).state == .free) = true ↔ ∀ i, i < 4 → (s.ctx n i).state = .free := by
    rw [show [0, 1, 2, 3] = List.range 4 from rfl, List.all_eq_true]
    simp only [List.mem_range, beq_iff_eq]
  rw [mayStart, Bool.and_eq_true, Bool.and_eq_true, free, coreMember, and_assoc]

theorem getG_zero (x : Ctx) (h : x.gr = []) (r : Nat) : x.getG r = 0 := by
  simp [Ctx.getG, h]

/-- A refused START (R65). -/
theorem startRefused_eq (s : State) {n : Nat} (hn : isCoreNode n = true) : s.startRefused n =
    (s.setReg (bCore n) 0x20 (setBits (s.reg (bCore n) 0x20) 13 1 1)).offer n (mkNotice s n 0x0102 0 0 0) none := by
  have unit : n < 12288 := by simpa [isNode] using (Bool.and_eq_true_iff.1 hn).1
  have apart : bDom.key 0x08 ≠ (bCore n).key 0x20 :=
    Blk.key_ne_of_kind (hu := by decide) (hu' := by simp only [bCore]; omega)
  have same : (s.setReg (bCore n) 0x20 (setBits (s.reg (bCore n) 0x20) 13 1 1)).reg bDom 0x08 = s.reg bDom 0x08 := by
    rw [State.reg_setReg, if_neg apart]
  rw [← mkNotice_congr same, State.startRefused, State.setField_eq]
  rfl

/-! ## CLEAR -/

/-- The registers that clearing resets (R61). -/
def clearedRegs : List Nat := [0x00, 0x18, 0x20, 0x28, 0x48, 0x50]

theorem reg_foldl_setReg_zero (s : State) (k : Blk) (L : List Nat) {off : Nat} (h : off ∈ L ∨ s.reg k off = 0) :
    (L.foldl (fun s off => s.setReg k off 0) s).reg k off = 0 := by
  induction L generalizing s with
  | nil => exact h.resolve_left List.not_mem_nil
  | cons o rest ih =>
    refine ih (s.setReg k o 0) ?_
    by_cases same : off = o
    · exact .inr (by simp [same])
    · refine h.imp (fun mem => (List.mem_cons.1 mem).resolve_left same) fun zero => ?_
      simp [zero, same]

theorem find_foldl_setReg_zero (s : State) (k : Blk) (L : List Nat) {key : Nat} (h : key ∉ L.map k.key) :
    Sparse.find key (L.foldl (fun s off => s.setReg k off 0) s).regs = Sparse.find key s.regs := by
  induction L generalizing s with
  | nil => rfl
  | cons o rest ih =>
    rw [List.map_cons, List.mem_cons, not_or] at h
    rw [List.foldl_cons, ih _ h.2, State.find_setReg, if_neg h.1]

theorem foldl_setReg_frame (s : State) (k : Blk) (L : List Nat) :
    ∃ R, L.foldl (fun s off => s.setReg k off 0) s = { s with regs := R } := by
  induction L generalizing s with
  | nil => exact ⟨s.regs, rfl⟩
  | cons o rest ih => exact ih (s.setReg k o 0)

/-- The credit of a packet that was being admitted (R62). -/
def admissionCredit (c : Core) : List Offer :=
  match c.admitting with
  | some a => ((creditFor a.pkt).map fun x => ⟨x, some a.plane⟩).toList
  | none => []

theorem dropAdmission_spec (s : State) (n : Nat) : ∃ r, s.dropAdmission n = { s with routers := r } ∧
    RoutersSame s { s with routers := r } [n] ∧
    State.router { s with routers := r } n = { s.router n with offers := (s.router n).offers ++ admissionCredit (s.core n) } := by
  refine ⟨(s.dropAdmission n).routers, ?_⟩
  rw [State.dropAdmission, admissionCredit]
  cases (s.core n).admitting with
  | none => exact ⟨rfl, fun _ _ => rfl, by simp⟩
  | some a =>
    simp only [State.creditDie]
    cases creditFor a.pkt with
    | none => exact ⟨rfl, fun _ _ => rfl, by simp⟩
    | some x =>
      refine ⟨rfl, fun m hm => ?_, ?_⟩
      · exact (State.router_setRouter s n m _).trans (if_neg (List.mem_singleton.not.1 hm))
      · exact (State.router_setRouter s n n _).trans (if_pos rfl)

/-- What clearing changes of the registers (R61). -/
theorem clearRegs_spec (u : State) (n : Nat) : ∃ r st, clearRegs u n = { u with regs := r, staged := st } ∧
    RegsSame u { u with regs := r, staged := st } (clearedRegs.map (bCore n).key) ∧
    (∀ off ∈ clearedRegs, State.reg { u with regs := r, staged := st } (bCore n) off = 0) ∧
    ∀ x, Sparse.find x st = if (bCore n).key 0 ≤ x ∧ x < (bCore n).key 0 + 0x1_0000 then none else Sparse.find x u.staged := by
  obtain ⟨r, frame⟩ := foldl_setReg_frame u (bCore n) clearedRegs
  have regs := fun key => find_foldl_setReg_zero u (bCore n) clearedRegs (key := key)
  have zero := fun off => reg_foldl_setReg_zero u (bCore n) clearedRegs (off := off)
  rw [frame] at regs zero
  refine ⟨r, Sparse.dropRange ((bCore n).key 0) 0x1_0000 u.staged, ?_, fun key hk => regs key hk, fun off ho => zero off (.inl ho),
    fun x => Sparse.find_dropRange _ _ _ _⟩
  exact congrArg (fun v : State => { v with staged := Sparse.dropRange ((bCore n).key 0) 0x1_0000 v.staged }) frame

/-- What clearing changes (R61, R62). -/
theorem beginClear_spec (s : State) (n : Nat) : ∃ t, s.beginClear n = t ∧
    t = { s with cores := t.cores, routers := t.routers, regs := t.regs, staged := t.staged } ∧ CoresSame s t [n] ∧
    RoutersSame s t [n] ∧
    t.router n = { s.router n with offers := (s.router n).offers ++ admissionCredit (s.core n) } ∧
    t.core n = { clearing := true } ∧ RegsSame s t (clearedRegs.map (bCore n).key) ∧
    (∀ off ∈ clearedRegs, t.reg (bCore n) off = 0) ∧
    ∀ x, Sparse.find x t.staged = if (bCore n).key 0 ≤ x ∧ x < (bCore n).key 0 + 0x1_0000 then none
      else Sparse.find x s.staged := by
  obtain ⟨rs, dropped, routers, router⟩ := dropAdmission_spec s n
  obtain ⟨r, st, cleared, regs, zero, staged⟩ := clearRegs_spec ((s.dropAdmission n).setCore n clearedCore) n
  rw [dropped] at cleared regs zero staged
  have begun : s.beginClear n = _ := (congrArg (fun u : State => clearRegs (u.setCore n clearedCore) n) dropped).trans cleared
  refine ⟨_, begun, rfl, fun m hm => ?_, routers, router, ?_, regs, zero, staged⟩
  · exact (State.core_setCore s n m clearedCore).trans (if_neg (List.mem_singleton.not.1 hm))
  · exact (State.core_setCore s n n clearedCore).trans (if_pos rfl)

/-! ## FLUSH -/

/-- A flush that is pending takes every word that waits (R163). -/
theorem feedWords_flush (inbox l : List InWord) : (feedWords true inbox l).2 = [] := by
  induction l generalizing inbox with
  | nil => rfl
  | cons w rest ih =>
    rw [feedWords]
    split
    · exact ih _
    · exact ih _

/-- A flush that waits for the packet that is being admitted (R163). -/
theorem feed_flush {s : State} {n : Nat} {a : Admission} (pending : (s.core n).flushPending = true)
    (admitting : (s.core n).admitting = some a) : feed s n =
      (((s.setCore n { s.core n with inbox := (feedWords true (s.core n).inbox a.rest).1, admitting := none }).addCount n
        (pCid a.pkt)).wakeParked n).modCore n Core.flushed := by
  rw [feed, admitting]
  simp only [pending, feedWords_flush, if_true]

/-! ## HALT and CLEAR_FAULT -/

theorem halt_spec (s : State) (n : Nat) (b : Nat) :
    let t := s.halt n b
    ContextsOnly (s.setField (bCore n) 0x18 4 4 b) t n ∧ ∀ i, i < 4 → t.ctx n i =
      if b.testBit i then (s.ctx n i).haltTo true (s.core n).inbox
      else if bit (s.reg (bCore n) 0x18) (4 + i) then (s.ctx n i).haltTo false (s.core n).inbox else s.ctx n i := by
  intro t
  have step : ∀ (u : State) i, ChangesTo u
      (if b.testBit i then u.haltOne n i true
        else if bit (s.reg (bCore n) 0x18) (4 + i) then u.haltOne n i false else u) n i
      (if b.testBit i then (u.ctx n i).haltTo true (u.core n).inbox
        else if bit (s.reg (bCore n) 0x18) (4 + i) then (u.ctx n i).haltTo false (u.core n).inbox else u.ctx n i) := by
    intro u i
    split
    · exact haltOne_changesTo u n i true
    · split
      · exact haltOne_changesTo u n i false
      · exact changesTo_self u n i
  obtain ⟨only, ctx⟩ := foldl_changesTo (g := fun i inbox x => if b.testBit i then x.haltTo true inbox
    else if bit (s.reg (bCore n) 0x18) (4 + i) then x.haltTo false inbox else x) step (s.setField (bCore n) 0x18 4 4 b) 4
  exact ⟨only, fun i hi => (ctx i).trans (if_pos hi)⟩

theorem clearFault_spec (s : State) (n : Nat) (b : Nat) :
    let t := s.clearFault n b
    ContextsOnly s t n ∧ t.regs = s.regs ∧
      ∀ i, i < 4 → t.ctx n i = if b.testBit i then (s.ctx n i).faultCleared else s.ctx n i := by
  intro t
  have step : ∀ (u : State) i, ChangesTo u (if b.testBit i then u.clearFaultOne n i else u) n i
      (if b.testBit i then (u.ctx n i).faultCleared else u.ctx n i) := by
    intro u i
    split
    · exact clearFaultOne_changesTo u n i
    · exact changesTo_self u n i
  obtain ⟨only, ctx⟩ := foldl_changesTo (g := fun i _ x => if b.testBit i then x.faultCleared else x) step s 4
  refine ⟨only, ?_, fun i hi => (ctx i).trans (if_pos hi)⟩
  refine List.foldlRecOn (motive := fun u => u.regs = s.regs) _ _ rfl fun (u : State) same i _ => ?_
  rw [← same, State.clearFaultOne]
  split_ifs <;> rfl

theorem flush_admitting {s : State} {n : Nat} (h : (s.core n).admitting ≠ none) :
    s.flush n = s.setCore n { s.core n with flushPending := true } := by
  rw [State.flush, State.modCore_eq]
  simp [Option.isNone_iff_eq_none, h]

theorem flush_idle {s : State} {n : Nat} (h : (s.core n).admitting = none) : s.flush n = s.setCore n (s.core n).flushed := by
  rw [State.flush, State.modCore_eq]
  simp [h]

/-- A context after HALT, case by case (R46). -/
theorem halt_cases {x y : Ctx} {c : Core} {on was : Bool}
    (h : y = if on then x.haltTo true c.inbox else if was then x.haltTo false c.inbox else x) :
    let goes := on = false ∧ was = true ∧ x.state = .halted
    (on = true → x.state = .ready ∨ x.state = .parked → y = { x with state := .halted, idle := false, held := false }) ∧
    (goes → x.wake = true → y = { x with state := .ready, wake := false }) ∧
    (goes → x.wake = false → x.wait = .nothing → y = { x with state := .ready }) ∧
    (goes → x.wake = false → x.wait ≠ .nothing → (x.wait = .inbox → c.packets = 0) → y = { x with state := .parked }) ∧
    (goes → x.wake = false → x.wait = .inbox → 0 < c.packets →
      y = { x with state := .ready, wait := .nothing, cairn := x.cairn + 1 }) ∧
    (¬ goes → (on = false ∨ x.state = .free ∨ x.state = .faulted ∨ x.state = .halted) → y = x) := by
  intro goes
  have resumes : goes → y = if x.wake then { x with state := .ready, wake := false }
      else if x.wait = .nothing then { x with state := .ready }
      else if x.wait = .inbox ∧ 1 ≤ c.packets then { x with state := .ready, wait := .nothing, cairn := x.cairn + 1 }
      else { x with state := .parked } := fun ⟨off, was, halted⟩ => by
    rw [h, off, was, if_neg Bool.false_ne_true, if_pos rfl, Ctx.haltTo, if_neg Bool.false_ne_true, if_pos halted]
    rfl
  refine ⟨fun on stops => ?_, fun g wake => ?_, fun g asleep wait => ?_, fun g asleep wait empty => ?_,
    fun g asleep wait full => ?_, fun stays other => ?_⟩
  · rw [h, if_pos on, Ctx.haltTo, if_pos rfl, if_pos stops]
  · rw [resumes g, if_pos wake]
  · rw [resumes g, if_neg (by simp [asleep]), if_pos wait]
  · rw [resumes g, if_neg (by simp [asleep]), if_neg wait, if_neg]
    rintro ⟨inbox, full⟩
    have := empty inbox
    omega
  · rw [resumes g, if_neg (by simp [asleep]), if_neg (by simp [wait]), if_pos ⟨wait, full⟩]
  · cases on with
    | true =>
      rw [h, if_pos rfl, Ctx.haltTo, if_pos rfl, if_neg]
      rintro (ready | parked) <;> simp_all
    | false =>
      rw [h, if_neg Bool.false_ne_true]
      split
      · rename_i was
        rw [Ctx.haltTo, if_neg Bool.false_ne_true, if_neg fun halted => stays ⟨rfl, was, halted⟩]
      · rfl

/-- A context after CLEAR_FAULT, case by case (R58). -/
theorem clearFault_cases {x y : Ctx} {on : Bool} (h : y = if on then x.faultCleared else x) :
    (on = true → x.state = .faulted → x.outstanding = 0 → y = { x.freed with faultInfo := 0, faultAddr := 0 }) ∧
    (on = true → x.state = .faulted → x.outstanding ≠ 0 → y = { x with clearPending := true }) ∧
    (on = false ∨ x.state ≠ .faulted → y = x) := by
  refine ⟨fun on faulted drained => ?_, fun on faulted busy => ?_, fun off => ?_⟩
  · rw [h, if_pos on, Ctx.faultCleared, if_pos faulted, if_pos drained]
  · rw [h, if_pos on, Ctx.faultCleared, if_pos faulted, if_neg busy]
  · obtain off | alive := off
    · rw [h, if_neg (Bool.eq_false_iff.1 off)]
    · rw [h, Ctx.faultCleared, if_neg alive, ite_self]

/-- Settles O37: each field of CORE_CTL acts as its own lemma says. -/
theorem coreControlStartsClearsHaltsAndFlushes : Obligations.CoreControlStartsClearsHaltsAndFlushes := by
  intro s n hn served c only ctl
  refine ⟨⟨fun ready => ?_, fun unready => ?_⟩, fun clearing => ?_, fun idle => ?_, ?_, fun b => ?_, fun b => ?_, fun idle => ?_,
    fun busy => ?_, fun off => ?_, fun pending idle => ?_, fun a pending admitting => ?_⟩
  · obtain ⟨⟨rest, others, core, -⟩, ctx, kept⟩ := changesTo_setCtx s n 0
      ((s.ctx n 0).started (haltBit s n 0) (s.getField (bCore n) 0x28 3 13 * 8) 0)
    refine ⟨_, (start_next hn served).trans ?_, ⟨rest, others⟩, rfl, core, kept, ?_, fun r => ?_⟩
    · rw [State.start, if_pos ((mayStart_iff s n).2 ready)]
      rfl
    · rw [ctx, Ctx.started_eq]
      rfl
    · rw [ctx, Ctx.started_eq]
      exact getG_zero _ rfl r
  · rw [start_next hn served, State.start, if_neg fun may => unready ((mayStart_iff s n).1 may), startRefused_eq s hn]
  · rw [clear_next hn served, State.clear, if_pos clearing]
  · obtain ⟨t, begun, spec⟩ := beginClear_spec s n
    refine ⟨t, ?_, spec⟩
    rw [clear_next hn served, State.clear, if_neg (Bool.eq_false_iff.1 idle), begun]
  · exact clearDone_next hn served
  · obtain ⟨⟨rest, others, core, regs⟩, ctx⟩ := halt_spec s n b.toNat
    refine ⟨s.halt n b.toNat, halt_next hn served b, ⟨by rw [rest]; rfl, others⟩, core, fun key hk => ?_, ?_, fun i hi => ?_⟩
    · rw [regs key (not_mem_of_not_mem_pair hk).2, State.setField_eq, State.find_setReg,
        if_neg (List.mem_singleton.not.1 (not_mem_of_not_mem_pair hk).1)]
    · rw [State.reg_congr (by rw [rest]) (regs _ (by simp)), State.setField_eq, State.reg_setReg, if_pos rfl]
    · exact halt_cases (ctx i hi)
  · obtain ⟨⟨rest, others, core, -⟩, regs, ctx⟩ := clearFault_spec s n b.toNat
    exact ⟨s.clearFault n b.toNat, clearFault_next hn served b, ⟨rest, others⟩, regs, core,
      fun i hi => clearFault_cases (ctx i hi)⟩
  · rw [flush_next hn served, flush_idle idle]
    rfl
  · rw [flush_next hn served, flush_admitting busy]
  · rw [flushComplete_next hn, if_neg (Bool.eq_false_iff.1 off)]
  · rw [flushComplete_next hn, if_pos pending, if_pos (Option.isNone_iff_eq_none.2 idle)]
    rfl
  · have busy : ¬ (s.core n).admitting.isNone = true := fun idle => by
      rw [Option.isNone_iff_eq_none.1 idle] at admitting
      contradiction
    refine ⟨(feedWords true (s.core n).inbox a.rest).1, ?_⟩
    rw [flushComplete_next hn, if_pos pending, if_neg busy, feed_flush pending admitting]
    rfl

end Sys2Proof.Machine
end

section
/-! SUPPORT. EXACT accumulators: their field N, their flags, terms and sums (R111 to R114). -/

namespace Sys2Proof.Machine

/-! ## Two's complement -/

theorem intCode_lt (w : Nat) (v : Int) : intCode w v < 2 ^ w := by
  have pos : (0 : Int) < (2 ^ w : Nat) := by exact_mod_cast Nat.two_pow_pos w
  have low := Int.emod_nonneg v pos.ne'
  have high := Int.emod_lt_of_pos v pos
  rw [intCode]
  omega

/-- The value of a code that is a number modulo 2^w, where the number has that width. -/
theorem intOf_of_emod {w c : Nat} {v : Int} (hw : 0 < w) (code : (c : Int) = v % (2 ^ w : Nat))
    (low : -(2 ^ (w - 1) : Nat) ≤ v) (high : v < (2 ^ (w - 1) : Nat)) : intOf w c = v := by
  have double : 2 ^ w = 2 * 2 ^ (w - 1) := by rw [← pow_succ', Nat.sub_add_cancel hw]
  have lt : c < 2 ^ w := by
    have := Int.emod_lt_of_pos v (show (0 : Int) < (2 ^ w : Nat) by exact_mod_cast Nat.two_pow_pos w)
    omega
  have sign : c.testBit (w - 1) = decide (2 ^ (w - 1) ≤ c) := by
    rw [Nat.testBit_eq_decide_div_mod_eq, decide_eq_decide]
    have : c / 2 ^ (w - 1) < 2 := Nat.div_lt_of_lt_mul (by omega)
    have one : 2 ^ (w - 1) ≤ c ↔ 1 ≤ c / 2 ^ (w - 1) := by
      rw [Nat.le_div_iff_mul_le (Nat.two_pow_pos _), one_mul]
    generalize c / 2 ^ (w - 1) = q at *
    omega
  rw [intOf, sign]
  by_cases neg : v < 0
  · have : v % (2 ^ w : Nat) = v + (2 ^ w : Nat) := by
      rw [← Int.add_emod_right, Int.emod_eq_of_lt (by omega) (by omega)]
    rw [if_pos (decide_eq_true (by omega))]
    omega
  · have : v % (2 ^ w : Nat) = v := Int.emod_eq_of_lt (by omega) (by omega)
    rw [if_neg (by rw [decide_eq_true_iff]; omega)]
    omega

theorem intOf_intCode {w : Nat} {v : Int} (hw : 0 < w) (low : -(2 ^ (w - 1) : Nat) ≤ v)
    (high : v < (2 ^ (w - 1) : Nat)) :
    intOf w (intCode w v) = v := by
  refine intOf_of_emod hw ?_ low high
  have := Int.emod_nonneg v (show ((2 ^ w : Nat) : Int) ≠ 0 by exact_mod_cast (Nat.two_pow_pos w).ne')
  rw [intCode]
  omega

/-- A code is its value modulo 2^w. -/
theorem intOf_emod {w c : Nat} (h : c < 2 ^ w) : intOf w c % (2 ^ w : Nat) = c := by
  have small : (c : Int) % (2 ^ w : Nat) = c := Int.emod_eq_of_lt (by omega) (by exact_mod_cast h)
  rw [intOf]
  split
  · rw [Int.sub_emod_right, small]
  · exact small

theorem intCode_intOf {w c : Nat} (h : c < 2 ^ w) : intCode w (intOf w c) = c := by
  rw [intCode, intOf_emod h]
  rfl

/-! ## Accumulators -/

theorem accBits_pos (wide : Bool) : 0 < accBits wide := by cases wide <;> decide

theorem mkAcc_div (wide : Bool) (v : Int) (l s i : Bool) : mkAcc wide v l s i / 16 = intCode (accBits wide) v := by
  rw [mkAcc]
  have := l.toNat_le
  have := s.toNat_le
  have := i.toNat_le
  omega

theorem mkAcc_mod (wide : Bool) (v : Int) (l s i : Bool) :
    mkAcc wide v l s i % 16 = l.toNat + 2 * s.toNat + 4 * i.toNat := by
  rw [mkAcc]
  have := l.toNat_le
  have := s.toNat_le
  have := i.toNat_le
  omega

/-- N of an accumulator that was made from a number of its width (R111). -/
theorem accN_mkAcc {wide : Bool} {v : Int} (l s i : Bool) (low : -(2 ^ (accBits wide - 1) : Nat) ≤ v)
    (high : v < (2 ^ (accBits wide - 1) : Nat)) : accN wide (mkAcc wide v l s i) = v := by
  rw [accN, mkAcc_div, Nat.mod_eq_of_lt (intCode_lt _ _), intOf_intCode (accBits_pos wide) low high]

theorem mkAcc_testBit (wide : Bool) (v : Int) (l s i : Bool) {k : Nat} (hk : k < 4) :
    (mkAcc wide v l s i).testBit k = (l.toNat + 2 * s.toNat + 4 * i.toNat).testBit k := by
  rw [← mkAcc_mod wide v l s i, show 16 = 2 ^ 4 from rfl, Nat.testBit_mod_two_pow, decide_eq_true hk, Bool.true_and]

/-- The flags LOSS, SAT and INVALID of an accumulator, and its reserved bit (R111). -/
theorem mkAcc_flags (wide : Bool) (v : Int) (l s i : Bool) :
    (mkAcc wide v l s i).testBit 0 = l ∧ (mkAcc wide v l s i).testBit 1 = s ∧ (mkAcc wide v l s i).testBit 2 = i ∧
      (mkAcc wide v l s i).testBit 3 = false := by
  rw [mkAcc_testBit _ _ _ _ _ (by decide), mkAcc_testBit _ _ _ _ _ (by decide), mkAcc_testBit _ _ _ _ _ (by decide),
    mkAcc_testBit _ _ _ _ _ (by decide)]
  cases l <;> cases s <;> cases i <;> decide

theorem mkAcc_lt (wide : Bool) (v : Int) (l s i : Bool) : mkAcc wide v l s i < 2 ^ (accBits wide + 4) := by
  have code := intCode_lt (accBits wide) v
  have flags := mkAcc_mod wide v l s i
  have div := mkAcc_div wide v l s i
  rw [pow_add]
  omega

/-! ## Truncation -/

theorem truncAt_up (m k : Nat) : truncAt m k = (m * 2 ^ k, true) := by
  rw [truncAt, if_pos (Int.natCast_nonneg k), Int.toNat_natCast, Nat.shiftLeft_eq]

theorem truncAt_down (m k : Nat) : truncAt m (-(k : Int)) = (m / 2 ^ k, decide (m % 2 ^ k = 0)) := by
  have exact_ : (m / 2 ^ k * 2 ^ k == m) = decide (m % 2 ^ k = 0) := by
    rw [Bool.eq_iff_iff, beq_iff_eq, decide_eq_true_iff, ← Nat.dvd_iff_mod_eq_zero]
    exact ⟨fun h => Dvd.intro_left _ h, fun h => Nat.div_mul_cancel h⟩
  rw [truncAt]
  split
  · obtain rfl : k = 0 := by omega
    simp [Nat.mod_one]
  · simp only [neg_neg, Int.toNat_natCast, Nat.shiftRight_eq_div_pow, Nat.shiftLeft_eq, exact_]

/-! ## Terms (R112) -/

theorem termMax_lt (wide : Bool) : termMax wide < 2 ^ (accBits wide - 1) := by cases wide <;> decide

/-- The term of a finite value, from its truncated magnitude (R112). -/
theorem term_fin {wide neg : Bool} {anchor : Int} {m q : Nat} {e : Int} {exact_ : Bool}
    (cut : truncAt m (e - anchor) = (q, exact_)) : term wide anchor (.fin neg m e) =
      mkAcc wide (if neg then -((min q (termMax wide) : Nat) : Int) else (min q (termMax wide) : Nat)) (!exact_)
        (decide (termMax wide < q)) false := by
  rw [term, cut]

theorem accN_term_fin {wide neg : Bool} {anchor : Int} {m q : Nat} {e : Int} {exact_ : Bool}
    (cut : truncAt m (e - anchor) = (q, exact_)) : accN wide (term wide anchor (.fin neg m e)) =
      if neg then -((min q (termMax wide) : Nat) : Int) else (min q (termMax wide) : Nat) := by
  have bound := termMax_lt wide
  have le : min q (termMax wide) ≤ termMax wide := Nat.min_le_right _ _
  rw [term_fin cut]
  refine accN_mkAcc _ _ _ ?_ ?_
  · split <;> omega
  · split <;> omega

theorem accN_term_natAbs_le (wide : Bool) (anchor : Int) (x : Machine.Num) :
    (accN wide (term wide anchor x)).natAbs ≤ termMax wide := by
  have bound := termMax_lt wide
  cases x with
  | nan =>
    rw [term, accN_mkAcc _ _ _ (by omega) (by positivity)]
    exact Nat.zero_le _
  | inf neg =>
    rw [term, accN_mkAcc _ _ _ (by split <;> omega) (by split <;> omega)]
    split <;> omega
  | fin neg m e =>
    have le : min (truncAt m (e - anchor)).1 (termMax wide) ≤ termMax wide := Nat.min_le_right _ _
    rw [accN_term_fin (q := (truncAt m (e - anchor)).1) rfl]
    split <;> omega

/-- What a finite term holds, where its magnitude is cut to q (R112). -/
theorem term_spec {wide neg : Bool} {anchor : Int} {m q : Nat} {e : Int} {exact_ : Bool}
    (cut : truncAt m (e - anchor) = (q, exact_)) :
    (accN wide (term wide anchor (.fin neg m e))).natAbs = min q (termMax wide) ∧
    (term wide anchor (.fin neg m e)).testBit 0 = !exact_ ∧
    (term wide anchor (.fin neg m e)).testBit 1 = decide (termMax wide < q) ∧
    (neg = false → 0 ≤ accN wide (term wide anchor (.fin neg m e))) ∧
    (neg = true → accN wide (term wide anchor (.fin neg m e)) ≤ 0) := by
  obtain ⟨loss, sat, -, -⟩ := mkAcc_flags wide
    (if neg then -((min q (termMax wide) : Nat) : Int) else (min q (termMax wide) : Nat))
    (!exact_) (decide (termMax wide < q)) false
  rw [accN_term_fin cut]
  refine ⟨?_, by rw [term_fin cut, loss], by rw [term_fin cut, sat], ?_, ?_⟩
  · split <;> omega
  · rintro rfl
    simp
  · rintro rfl
    simp

/-! ## Sums (R113, R114) -/

theorem exactAdd_div (w a b : Nat) : exactAdd w a b / 16 = (a / 16 + b / 16) % 2 ^ w := by
  have flags : (a % 8) ||| (b % 8) < 2 ^ 3 := Nat.or_lt_two_pow (Nat.mod_lt _ (by decide)) (Nat.mod_lt _ (by decide))
  rw [exactAdd]
  omega

theorem accN_emod (wide : Bool) (a : Nat) :
    accN wide a % (2 ^ accBits wide : Nat) = (a / 16 : Nat) % (2 ^ accBits wide : Nat) := by
  rw [accN, intOf_emod (Nat.mod_lt _ (Nat.two_pow_pos _)), Int.natCast_mod]

/-- A sum of accumulators holds the sum of their numbers modulo its width (R113). -/
theorem foldl_exactAdd_emod (wide : Bool) (l : List Nat) (a : Nat) :
    ((l.foldl (exactAdd (accBits wide)) a / 16 : Nat) : Int) % (2 ^ accBits wide : Nat) =
      ((a / 16 : Nat) + (l.map (accN wide)).sum) % (2 ^ accBits wide : Nat) := by
  induction l generalizing a with
  | nil => simp
  | cons x rest ih =>
    rw [List.foldl_cons, ih, exactAdd_div, List.map_cons, List.sum_cons, Int.natCast_mod, Int.emod_add_emod,
      Nat.cast_add,
      add_assoc]
    exact Int.ModEq.add_left _ (Int.ModEq.add_right _ (accN_emod wide x).symm)

theorem sum_natAbs_le {l : List Int} {b : Nat} (h : ∀ x ∈ l, x.natAbs ≤ b) : l.sum.natAbs ≤ l.length * b := by
  induction l with
  | nil => simp
  | cons x rest ih =>
    have head := h x List.mem_cons_self
    have tail := ih fun y hy => h y (List.mem_cons_of_mem _ hy)
    rw [List.sum_cons, List.length_cons, Nat.succ_mul]
    omega

/-- A sum of as many terms as the format has room for holds their exact sum (R114). -/
theorem accN_sum_terms (wide : Bool) (anchor : Int) {ts : List Machine.Num}
    (few : ts.length ≤ if wide then 2 ^ 32 else 2 ^ 16) :
    accN wide ((ts.map (term wide anchor)).foldl (exactAdd (accBits wide)) 0) =
      (ts.map fun x => accN wide (term wide anchor x)).sum := by
  have total : (ts.map fun x => accN wide (term wide anchor x)).sum.natAbs ≤ ts.length * termMax wide := by
    have := sum_natAbs_le (l := ts.map fun x => accN wide (term wide anchor x)) (b := termMax wide) fun x hx => by
      obtain ⟨y, -, rfl⟩ := List.mem_map.1 hx
      exact accN_term_natAbs_le wide anchor y
    rwa [List.length_map] at this
  have room : ts.length * termMax wide < 2 ^ (accBits wide - 1) := by
    refine (Nat.mul_le_mul_right _ few).trans_lt ?_
    cases wide <;> decide
  have sum := foldl_exactAdd_emod wide (ts.map (term wide anchor)) 0
  rw [List.map_map, Nat.zero_div, Nat.cast_zero, zero_add] at sum
  rw [accN]
  refine intOf_of_emod (accBits_pos wide) ?_ ?_ ?_
  · rw [Int.natCast_mod, sum]
    rfl
  · omega
  · omega

end Sys2Proof.Machine
end

section
/-! SUPPORT. Accumulators that change anchor and width, and the status of an element that becomes one (R116, R117,
R120). -/

namespace Sys2Proof.Machine

/-! ## Re-alignment -/

/-- A number re-aligned from one anchor to another, cut toward zero (R120). -/
def cutTo (v ai ao : Int) : Int := if ao ≤ ai then v * 2 ^ (ai - ao).toNat else v.tdiv (2 ^ (ao - ai).toNat)

/-- A magnitude with its sign again. -/
theorem signed_natAbs (v : Int) : (if v < 0 then -(v.natAbs : Int) else v.natAbs) = v := by split <;> omega

theorem signed_mul (v : Int) (k : Nat) :
    (if v < 0 then -((v.natAbs * 2 ^ k : Nat) : Int) else (v.natAbs * 2 ^ k : Nat)) = v * 2 ^ k := by
  conv_rhs => rw [← signed_natAbs v]
  push_cast
  split <;> ring

theorem signed_div (v : Int) (d : Nat) : (if v < 0 then -((v.natAbs / d : Nat) : Int) else (v.natAbs / d : Nat)) =
    v.tdiv d := by
  obtain ⟨n, rfl | rfl⟩ := v.eq_nat_or_neg
  · rw [if_neg (by omega), Int.natAbs_natCast, Int.ofNat_tdiv]
  · rw [Int.natAbs_neg, Int.natAbs_natCast, Int.neg_tdiv, Int.ofNat_tdiv]
    split
    · rfl
    · obtain rfl : n = 0 := by omega
      simp

theorem realignN_eq (wi : Bool) (ai ao : Int) (a : Nat) : (realignN wi ai ao a).1 = cutTo (accN wi a) ai ao ∧
    ((realignN wi ai ao a).2 = false ↔ ai < ao ∧ cutTo (accN wi a) ai ao * 2 ^ (ao - ai).toNat ≠ accN wi a) := by
  set v := accN wi a with hv
  by_cases up : ao ≤ ai
  · have shift : ai - ao = ((ai - ao).toNat : Int) := by omega
    have is : realignN wi ai ao a = (v * 2 ^ (ai - ao).toNat, true) := by
      rw [realignN, ← hv, shift, truncAt_up]
      simp only [signed_mul, Int.toNat_natCast]
    rw [is, cutTo, if_pos up]
    simpa using fun h : ai < ao => absurd h (by omega)
  · have shift : ai - ao = -((ao - ai).toNat : Int) := by omega
    have is : realignN wi ai ao a = (v.tdiv (2 ^ (ao - ai).toNat), decide (v.natAbs % 2 ^ (ao - ai).toNat = 0)) := by
      rw [realignN, ← hv, shift, truncAt_down]
      have cut := signed_div v (2 ^ (ao - ai).toNat)
      push_cast at cut ⊢
      rw [cut]
    rw [is, cutTo, if_neg up]
    refine ⟨rfl, ?_⟩
    rw [decide_eq_false_iff_not, ← Nat.dvd_iff_mod_eq_zero, ← Int.natCast_dvd, not_iff_comm]
    push_cast
    constructor
    · intro kept
      by_contra apart
      exact kept ⟨by omega, fun same => apart (Dvd.intro_left _ same)⟩
    · rintro divides ⟨-, apart⟩
      exact apart (Int.tdiv_mul_cancel divides)

/-- N lies outside the field of a width (R120). -/
theorem accOut_iff (wide : Bool) (x : Int) :
    accOut wide x = true ↔ x < -(2 ^ (accBits wide - 1)) ∨ (2 : Int) ^ (accBits wide - 1) ≤ x := by
  rw [accOut, Bool.or_eq_true, decide_eq_true_iff, decide_eq_true_iff, accHi, accLo]
  push_cast
  omega

/-- An accumulator with INVALID set, re-aligned (R117; assumption 81). -/
theorem realign_invalid (wi wo : Bool) (ai ao : Int) {a : Nat} (h : a.testBit 2 = true) :
    accN wo (realign wi wo ai ao a) = 0 ∧ realign wi wo ai ao a % 16 = a % 8 := by
  rw [realign, if_pos h]
  refine ⟨accN_mkAcc _ _ _ (neg_nonpos.2 (by positivity)) (by positivity), ?_⟩
  rw [mkAcc_mod]
  simp only [Nat.testBit_eq_decide_div_mod_eq, decide_eq_true_iff] at h ⊢
  rcases Nat.mod_two_eq_zero_or_one (a / 2 ^ 0) with h0 | h0 <;>
    rcases Nat.mod_two_eq_zero_or_one (a / 2 ^ 1) with h1 | h1 <;>
    simp only [h0, h1, decide_true, Bool.toNat_true, Nat.zero_ne_one, decide_false, Bool.toNat_false] <;> omega

/-- An accumulator without INVALID, re-aligned (R120). -/
theorem realign_valid (wi wo : Bool) (ai ao : Int) {a : Nat} (h : a.testBit 2 = false) :
    let v := accN wi a
    let cut := cutTo v ai ao
    let top : Int := 2 ^ (accBits wo - 1)
    let r := realign wi wo ai ao a
    accN wo r = max (-top) (min (top - 1) cut) ∧
    (r.testBit 0 = true ↔ a.testBit 0 = true ∨ (ai < ao ∧ cut * 2 ^ (ao - ai).toNat ≠ v)) ∧
    (r.testBit 1 = true ↔ a.testBit 1 = true ∨ cut < -top ∨ top ≤ cut) ∧ r.testBit 2 = false ∧ r.testBit 3 = false := by
  obtain ⟨number, lost⟩ := realignN_eq wi ai ao a
  have pos : (0 : Int) < 2 ^ (accBits wo - 1) := by positivity
  rw [realign, if_neg (Bool.eq_false_iff.1 h)]
  obtain ⟨loss, sat, inval, none⟩ := mkAcc_flags wo (max (accLo wo) (min (accHi wo) (realignN wi ai ao a).1))
    (!(realignN wi ai ao a).2 || a.testBit 0) (accOut wo (realignN wi ai ao a).1 || a.testBit 1) false
  refine ⟨?_, ?_, ?_, inval, none⟩
  · rw [accN_mkAcc, number, accLo, accHi]
    · push_cast
      rfl
    · simp only [accLo, accHi]
      push_cast
      omega
    · simp only [accLo, accHi]
      push_cast
      omega
  · rw [loss, Bool.or_eq_true, Bool.not_eq_true', lost, or_comm]
  · rw [sat, Bool.or_eq_true, accOut_iff, number, or_comm]

theorem realign_testBit_two (wi wo : Bool) (ai ao : Int) (a : Nat) :
    (realign wi wo ai ao a).testBit 2 = a.testBit 2 := by
  cases h : a.testBit 2 with
  | false => exact (realign_valid wi wo ai ao h).2.2.2.1
  | true =>
    rw [realign, if_pos h]
    exact (mkAcc_flags ..).2.2.1

theorem realign_lt (wi wo : Bool) (ai ao : Int) (a : Nat) : realign wi wo ai ao a < 2 ^ (accBits wo + 4) := by
  rw [realign]
  split <;> exact mkAcc_lt ..

theorem term_lt (wide : Bool) (anchor : Int) (x : Machine.Num) : term wide anchor x < 2 ^ (accBits wide + 4) := by
  cases x <;> exact mkAcc_lt ..

/-! ## Status of a conversion to EXACT (R116, R117, R125) -/

/-- Three flags as bits 3 to 5 of a status. -/
theorem statusBits (o i n : Bool) :
    let st := 8 * o.toNat + 16 * i.toNat + 32 * n.toNat
    st.testBit 3 = o ∧ st.testBit 4 = i ∧ st.testBit 5 = n ∧ st < 64 ∧ st % 8 = 0 := by
  cases o <;> cases i <;> cases n <;> decide

theorem exactStatus_bits (t : Tile) (wide : Bool) (ao : Int) (r k : Nat) :
    (exactStatus t wide ao r k).testBit 3 = srcOver t wide ao r k ∧
    (exactStatus t wide ao r k).testBit 4 = srcLost t wide ao r k ∧
    (exactStatus t wide ao r k).testBit 5 = (srcAcc t wide ao r k).testBit 2 ∧
    exactStatus t wide ao r k < 64 ∧ exactStatus t wide ao r k % 8 = 0 := statusBits _ _ _

/-- The status of an accumulator that becomes another (R117, R120). -/
theorem exactStatus_exact {t : Tile} {wide : Bool} {ao : Int} {r k : Nat} (h : isExact t.fmt = true) :
    let a := t.code r k
    let v := accN (t.fmt == 0x21) a
    let cut := cutTo v t.anchor ao
    let top : Int := 2 ^ (accBits wide - 1)
    let out := cut < -top ∨ top ≤ cut
    let st := exactStatus t wide ao r k
    (st.testBit 3 = true ↔ a.testBit 2 = false ∧ out) ∧
    (st.testBit 4 = true ↔ a.testBit 1 = false ∧ a.testBit 2 = false ∧
      (out ∨ (t.anchor < ao ∧ cut * 2 ^ (ao - t.anchor).toNat ≠ v))) ∧
    st.testBit 5 = a.testBit 2 ∧ st < 64 := by
  obtain ⟨ovf, lost, nan, lt, -⟩ := exactStatus_bits t wide ao r k
  obtain ⟨number, cut⟩ := realignN_eq (t.fmt == 0x21) t.anchor ao (t.code r k)
  refine ⟨?_, ?_, ?_, lt⟩
  · rw [ovf, srcOver, if_pos h, Bool.and_eq_true, Bool.not_eq_true', accOut_iff, number]
  · rw [lost, srcLost, if_pos h]
    simp only [Bool.and_eq_true, Bool.not_eq_true', Bool.or_eq_true, accOut_iff, number, cut]
    rw [and_assoc, or_comm]
  · rw [nan, srcAcc, if_pos h, realign_testBit_two]

theorem exactStatus_value {t : Tile} (wide : Bool) (ao : Int) {r k : Nat} (h : isExact t.fmt = false) :
    exactStatus t wide ao r k =
      match t.value r k with
      | .nan => 32
      | .inf _ => 0
      | .fin neg m e =>
        let q := (truncAt m (e - ao)).1
        8 * (accOut wide (if neg then -(q : Int) else q)).toNat + 16 * (term wide ao (.fin neg m e) % 4 != 0).toNat +
          32 * ((term wide ao (.fin neg m e)).testBit 2).toNat := by
  have plain := Bool.eq_false_iff.1 h
  rw [exactStatus, srcOver, srcLost, srcAcc, if_neg plain, if_neg plain, if_neg plain]
  cases t.value r k with
  | nan => rw [show (term wide ao .nan).testBit 2 = true from (mkAcc_flags ..).2.2.1]; rfl
  | inf s => rw [show (term wide ao (.inf s)).testBit 2 = false from (mkAcc_flags ..).2.2.1]; rfl
  | fin neg m e => rfl

/-- A magnitude m × 2^e over 2^ao, cut to an integer, and whether it was exact. -/
theorem truncAt_sub (m : Nat) (e ao : Int) :
    let q : Int := if ao ≤ e then m * 2 ^ (e - ao).toNat else m / 2 ^ (ao - e).toNat
    ((truncAt m (e - ao)).1 : Int) = q ∧ ((truncAt m (e - ao)).2 = false ↔ e < ao ∧ q * 2 ^ (ao - e).toNat ≠ m) := by
  by_cases up : ao ≤ e
  · have shift : e - ao = ((e - ao).toNat : Int) := by omega
    simp only [if_pos up]
    rw [shift, truncAt_up]
    refine ⟨by push_cast; rfl, ?_⟩
    simpa using fun h : e < ao => absurd h (by omega)
  · have shift : e - ao = -((ao - e).toNat : Int) := by omega
    simp only [if_neg up]
    rw [shift, truncAt_down]
    refine ⟨by push_cast; rfl, ?_⟩
    rw [decide_eq_false_iff_not, ← Nat.dvd_iff_mod_eq_zero]
    have whole : 2 ^ (ao - e).toNat ∣ m ↔ m / 2 ^ (ao - e).toNat * 2 ^ (ao - e).toNat = m :=
      ⟨Nat.div_mul_cancel, Dvd.intro_left _⟩
    rw [whole]
    have cast : (m : Int) / 2 ^ (ao - e).toNat * 2 ^ (ao - e).toNat =
      (m / 2 ^ (ao - e).toNat * 2 ^ (ao - e).toNat : Nat) := by
      push_cast
      rfl
    rw [cast]
    constructor
    · exact fun apart => ⟨by omega, fun same => apart (by exact_mod_cast same)⟩
    · exact fun h same => h.2 (by exact_mod_cast same)

/-- The status of a finite value that becomes an accumulator (R116, R117). -/
theorem exactStatus_fin {t : Tile} {wide : Bool} {ao : Int} {r k : Nat}
    (h : isExact t.fmt = false) {s : Bool} {m : Nat} {e : Int}
    (value : t.value r k = .fin s m e) :
    let q : Int := if ao ≤ e then m * 2 ^ (e - ao).toNat else m / 2 ^ (ao - e).toNat
    let top : Int := 2 ^ (accBits wide - 1)
    let st := exactStatus t wide ao r k
    (st.testBit 3 = true ↔ if s then top < q else top ≤ q) ∧
    (st.testBit 4 = true ↔ termMax wide < q ∨ (e < ao ∧ q * 2 ^ (ao - e).toNat ≠ m)) ∧ st.testBit 5 = false := by
  obtain ⟨number, cut⟩ := truncAt_sub m e ao
  have is := exactStatus_value wide ao (r := r) (k := k) h
  rw [value] at is
  obtain ⟨ovf, lost, nan, -⟩ := statusBits
    (accOut wide (if s then -((truncAt m (e - ao)).1 : Int) else (truncAt m (e - ao)).1))
    (term wide ao (.fin s m e) % 4 != 0) ((term wide ao (.fin s m e)).testBit 2)
  obtain ⟨-, loss, sat, -⟩ := term_spec (wide := wide) (neg := s) (anchor := ao) (m := m) (e := e)
    (q := (truncAt m (e - ao)).1) (exact_ := (truncAt m (e - ao)).2) rfl
  have valid : (term wide ao (.fin s m e)).testBit 2 = false := (mkAcc_flags ..).2.2.1
  have flagged : (term wide ao (.fin s m e) % 4 != 0) = true ↔
      (term wide ao (.fin s m e)).testBit 0 = true ∨ (term wide ao (.fin s m e)).testBit 1 = true := by
    generalize term wide ao (.fin s m e) = x
    simp only [bne_iff_ne, Nat.testBit_eq_decide_div_mod_eq, decide_eq_true_iff]
    omega
  have positive : (0 : Int) ≤ ((truncAt m (e - ao)).1 : Int) := Int.natCast_nonneg _
  simp only
  rw [is]
  refine ⟨?_, ?_, nan.trans valid⟩
  · rw [ovf, accOut_iff, ← number]
    have pos : (0 : Int) < 2 ^ (accBits wide - 1) := by positivity
    cases s <;> simp <;> omega
  · rw [lost, flagged, loss, sat, Bool.not_eq_true', cut, decide_eq_true_iff, or_comm, ← number, Nat.cast_lt]

end Sys2Proof.Machine
end

section
/-! SUPPORT. Rounding to nearest even: the nearest entry of a rising sequence, the codes of a floating-point format, and
the nearest integer (R108, R116, R117). -/

namespace Sys2Proof.Machine

/-! ## The nearest entry of a rising sequence -/

/-- Entry r of W is nearest to M, and even where another entry is as near. -/
def Nearest (W : Nat → Nat) (M r : Nat) : Prop :=
  ∀ k, k ≠ r → ((M : Int) - W r).natAbs ≤ ((M : Int) - W k).natAbs ∧
    (((M : Int) - W r).natAbs = ((M : Int) - W k).natAbs → r % 2 = 0)

section
variable {W : Nat → Nat} (rising : StrictMono W) {M j r : Nat}
include rising

theorem nearest_of_eq (same : W r = M) : Nearest W M r := fun k hk => by
  have apart : W k ≠ W r := fun h => hk (rising.injective h)
  omega

/-- Between two neighbours the nearer one is nearest. -/
theorem nearest_of_between (low : W j ≤ M) (high : M ≤ W (j + 1))
    (choice : (r = j ∧ 2 * M ≤ W j + W (j + 1) ∧ (2 * M = W j + W (j + 1) → j % 2 = 0)) ∨
      (r = j + 1 ∧ W j + W (j + 1) ≤ 2 * M ∧ (2 * M = W j + W (j + 1) → (j + 1) % 2 = 0))) :
    Nearest W M r := fun k hk => by
  have step : W j < W (j + 1) := rising (Nat.lt_succ_self j)
  obtain below | rfl | rfl | above : k < j ∨ k = j ∨ k = j + 1 ∨ j + 1 < k := by omega
  · have := rising below
    obtain ⟨rfl, mid, tie⟩ | ⟨rfl, mid, tie⟩ := choice <;> omega
  · obtain ⟨rfl, mid, tie⟩ | ⟨rfl, mid, tie⟩ := choice <;> omega
  · obtain ⟨rfl, mid, tie⟩ | ⟨rfl, mid, tie⟩ := choice <;> omega
  · have := rising above
    obtain ⟨rfl, mid, tie⟩ | ⟨rfl, mid, tie⟩ := choice <;> omega

/-- The nearest entry lies above j just where M is above the middle of j and its successor, or on it with j odd. -/
theorem Nearest.lt_iff (h : Nearest W M r) :
    j < r ↔ W j + W (j + 1) < 2 * M ∨ (W j + W (j + 1) = 2 * M ∧ j % 2 = 1) := by
  have step : W j < W (j + 1) := rising (Nat.lt_succ_self j)
  constructor
  · intro above
    have next : W (j + 1) ≤ W r := rising.monotone above
    obtain ⟨near, tie⟩ := h j (by omega)
    by_cases same : W r = W (j + 1)
    · have := rising.injective same
      omega
    · omega
  · intro mid
    by_contra below
    obtain ⟨near, tie⟩ := h (j + 1) (by omega)
    have le : W r ≤ W j := rising.monotone (by omega)
    by_cases same : W r = W j
    · have := rising.injective same
      omega
    · omega

end

/-! ## Shifting -/

theorem shiftRne_eq (v k : Nat) : shiftRne v k =
    if 2 ^ k < 2 * (v % 2 ^ k) ∨ (2 * (v % 2 ^ k) = 2 ^ k ∧ v / 2 ^ k % 2 = 1) then v / 2 ^ k + 1 else v / 2 ^ k := by
  have rest : v - v / 2 ^ k * 2 ^ k = v % 2 ^ k := by
    have := Nat.div_add_mod' v (2 ^ k)
    omega
  simp only [shiftRne, Nat.shiftRight_eq_div_pow, Nat.shiftLeft_eq, rest, gt_iff_lt]

/-! ## Codes of a floating-point format -/

/-- The magnitude of a code in units of the smallest subnormal, for every number of exponent bits (R108). -/
def FFmt.units (f : FFmt) (k : Nat) : Nat :=
  if k / 2 ^ f.mbits = 0 then k % 2 ^ f.mbits else (k % 2 ^ f.mbits + 2 ^ f.mbits) * 2 ^ (k / 2 ^ f.mbits - 1)

/-- Within a binade, or among the subnormals and the first binade, magnitudes go in equal steps. -/
theorem FFmt.units_affine (f : FFmt) {E r : Nat} (low : E = 0 ∨ 2 ^ f.mbits ≤ r) (high : r ≤ 2 * 2 ^ f.mbits) :
    f.units (E * 2 ^ f.mbits + r) = r * 2 ^ E := by
  have pos := Nat.two_pow_pos f.mbits
  rw [FFmt.units]
  generalize 2 ^ f.mbits = P at *
  obtain sub | normal | top : r < P ∨ (P ≤ r ∧ r < 2 * P) ∨ r = 2 * P := by omega
  · obtain rfl : E = 0 := by omega
    simp [Nat.div_eq_of_lt sub, Nat.mod_eq_of_lt sub]
  · have split : E * P + r = (r - P) + (E + 1) * P := by rw [Nat.succ_mul]; omega
    have div : (E * P + r) / P = E + 1 := by
      rw [split, Nat.add_mul_div_right _ _ pos, Nat.div_eq_of_lt (by omega)]
      omega
    have mod : (E * P + r) % P = r - P := by rw [split, Nat.add_mul_mod_self_right, Nat.mod_eq_of_lt (by omega)]
    rw [div, mod, if_neg (by omega), Nat.sub_add_cancel normal.1, Nat.add_sub_cancel]
  · have split : E * P + r = 0 + (E + 2) * P := by rw [top]; ring
    have div : (E * P + r) / P = E + 2 := by
      rw [split, Nat.add_mul_div_right _ _ pos, Nat.zero_div]
      omega
    have mod : (E * P + r) % P = 0 := by rw [split, Nat.add_mul_mod_self_right, Nat.zero_mod]
    rw [div, mod, if_neg (by omega), top, show E + 2 - 1 = E + 1 from rfl, pow_succ]
    ring

theorem FFmt.exists_affine (f : FFmt) (k : Nat) :
    ∃ E r, k = E * 2 ^ f.mbits + r ∧ (E = 0 ∨ 2 ^ f.mbits ≤ r) ∧ r < 2 * 2 ^ f.mbits := by
  have parts := Nat.div_add_mod' k (2 ^ f.mbits)
  have small := Nat.mod_lt k (Nat.two_pow_pos f.mbits)
  by_cases sub : k / 2 ^ f.mbits = 0
  · refine ⟨0, k, by omega, .inl rfl, ?_⟩
    rw [sub] at parts
    omega
  · refine ⟨k / 2 ^ f.mbits - 1, k % 2 ^ f.mbits + 2 ^ f.mbits, ?_, .inr (Nat.le_add_left ..), by omega⟩
    have : (k / 2 ^ f.mbits - 1) * 2 ^ f.mbits + 2 ^ f.mbits = k / 2 ^ f.mbits * 2 ^ f.mbits := by
      rw [← Nat.succ_mul, Nat.succ_eq_add_one, Nat.sub_add_cancel (Nat.one_le_iff_ne_zero.2 sub)]
    omega

theorem FFmt.units_strictMono (f : FFmt) : StrictMono f.units := by
  refine strictMono_nat_of_lt_succ fun k => ?_
  obtain ⟨E, r, rfl, low, high⟩ := f.exists_affine k
  rw [add_assoc, f.units_affine low high.le, f.units_affine (low.imp id (by omega)) high]
  exact Nat.mul_lt_mul_of_pos_right (Nat.lt_succ_self r) (Nat.two_pow_pos E)

/-- A finite code's value (R108). -/
theorem FFmt.decode_fin (f : FFmt) {c : Nat} (h : c % 2 ^ f.width ≤ f.maxFinite) :
    ∃ m e, f.decode c = .fin (c.testBit f.width) m e ∧ f.least ≤ e ∧
      m * 2 ^ (e - f.least).toNat = f.units (c % 2 ^ f.width) := by
  rw [FFmt.decode, if_neg (Nat.not_lt.2 h), FFmt.units]
  split
  · exact ⟨_, _, rfl, le_rfl, by simp [FFmt.least]⟩
  · rename_i normal
    refine ⟨_, _, rfl, ?_, ?_⟩
    · rw [FFmt.least]
      generalize c % 2 ^ f.width / 2 ^ f.mbits = ef at *
      omega
    · congr 2
      rw [FFmt.least]
      generalize c % 2 ^ f.width / 2 ^ f.mbits = ef at *
      omega

/-- A finite code in units of 2^lo, where lo is at most the exponent of the smallest subnormal. -/
theorem FFmt.times_decode (f : FFmt) {c : Nat} (h : c % 2 ^ f.width ≤ f.maxFinite) {lo : Int} (hlo : lo ≤ f.least) :
    (f.decode c).times lo =
      (if c.testBit f.width then -1 else 1) * (f.units (c % 2 ^ f.width) * 2 ^ (f.least - lo).toNat : Nat) := by
  obtain ⟨m, e, is, above, units⟩ := f.decode_fin h
  have exponent : (e - lo).toNat = (e - f.least).toNat + (f.least - lo).toNat := by omega
  rw [is, Num.times, exponent, pow_add, ← mul_assoc, units]

end Sys2Proof.Machine
end

section
/-! SUPPORT. A value rounded to a floating-point format or to an integer (R116, R117, R119). -/

namespace Sys2Proof.Machine

/-! ## Magnitudes -/

/-- The magnitude code of m × 2^e is the nearest one, and the flag tells whether it is another value (R116). -/
theorem FFmt.roundMag_nearest (f : FFmt) (hm : 1 ≤ f.mbits) (m : Nat) {e lo : Int} (least : lo ≤ f.least)
    (low : lo ≤ e) :
    let W := fun k => f.units k * 2 ^ (f.least - lo).toNat
    let M := m * 2 ^ (e - lo).toNat
    Nearest W M (f.roundMag m e).1 ∧ ((f.roundMag m e).2 = true ↔ W (f.roundMag m e).1 ≠ M) := by
  intro W M
  have rising : StrictMono W := fun i j h => Nat.mul_lt_mul_of_pos_right (f.units_strictMono h) (Nat.two_pow_pos _)
  by_cases zero : m = 0
  · have is : f.roundMag m e = (0, false) := by rw [FFmt.roundMag, if_pos zero]
    have none : W 0 = M := by simp [W, M, zero, FFmt.units]
    rw [is]
    exact ⟨nearest_of_eq rising none, by simp [none]⟩
  obtain ⟨big, small⟩ := (Nat.log2_eq_iff zero).1 rfl
  set L := Nat.log2 m with hL
  set q : Int := max ((L : Int) + e) (1 - (f.bias : Int)) - f.mbits with hq
  obtain ⟨E, hE⟩ : ∃ E : Nat, q = f.least + E := ⟨(q - f.least).toNat, by rw [FFmt.least]; omega⟩
  have base : (q + f.mbits + f.bias - 1).toNat = E := by rw [FFmt.least] at hE; omega
  have unfolded : f.roundMag m e = if q ≤ e then (E * 2 ^ f.mbits + m * 2 ^ (e - q).toNat, false)
      else (E * 2 ^ f.mbits + shiftRne m (q - e).toNat,
        shiftRne m (q - e).toNat * 2 ^ (q - e).toNat != m) := by
    rw [FFmt.roundMag, if_neg zero]
    simp only [← hL, ← hq, base, Nat.shiftLeft_eq]
  have scale : 2 ^ E * 2 ^ (f.least - lo).toNat = 2 ^ (q - lo).toNat := by
    rw [← pow_add]
    congr 1
    omega
  have affine : ∀ r, (E = 0 ∨ 2 ^ f.mbits ≤ r) → r ≤ 2 * 2 ^ f.mbits →
    W (E * 2 ^ f.mbits + r) = r * 2 ^ (q - lo).toNat :=
    fun r hlow hhigh => by
      simp only [W]
      rw [f.units_affine hlow hhigh, mul_assoc, scale]
  have even : 2 ^ f.mbits % 2 = 0 := by
    obtain ⟨k, hk⟩ := Nat.exists_eq_add_of_le hm
    rw [hk, pow_add, pow_one, Nat.mul_mod_right]
  rw [unfolded]
  by_cases fits : q ≤ e
  · rw [if_pos fits]
    have room : L + (e - q).toNat ≤ f.mbits := by omega
    have high : m * 2 ^ (e - q).toNat ≤ 2 * 2 ^ f.mbits := by
      calc m * 2 ^ (e - q).toNat ≤ 2 ^ (L + 1) * 2 ^ (e - q).toNat := Nat.mul_le_mul_right _ small.le
        _ = 2 ^ (L + 1 + (e - q).toNat) := (pow_add ..).symm
        _ ≤ 2 ^ (f.mbits + 1) := Nat.pow_le_pow_right (by decide) (by omega)
        _ = 2 * 2 ^ f.mbits := by rw [pow_succ, mul_comm]
    have low' : E = 0 ∨ 2 ^ f.mbits ≤ m * 2 ^ (e - q).toNat := by
      by_cases sub : E = 0
      · exact .inl sub
      · right
        have full : f.mbits = L + (e - q).toNat := by
          rw [FFmt.least] at hE
          omega
        calc 2 ^ f.mbits = 2 ^ L * 2 ^ (e - q).toNat := by rw [full, pow_add]
          _ ≤ m * 2 ^ (e - q).toNat := Nat.mul_le_mul_right _ big
    have same : W (E * 2 ^ f.mbits + m * 2 ^ (e - q).toNat) = M := by
      rw [affine _ low' high, mul_assoc, ← pow_add]
      simp only [M]
      congr 2
      omega
    exact ⟨nearest_of_eq rising same, by simp [same]⟩
  · rw [if_neg fits]
    set k := (q - e).toNat with hk
    have pos := Nat.two_pow_pos k
    have whole : M = m * 2 ^ (e - lo).toNat := rfl
    have apart : 2 ^ (q - lo).toNat = 2 ^ k * 2 ^ (e - lo).toNat := by
      rw [← pow_add]
      congr 1
      omega
    have below : m / 2 ^ k < 2 * 2 ^ f.mbits := by
      refine Nat.div_lt_of_lt_mul (small.trans_le ?_)
      rw [← pow_succ', ← pow_add]
      exact Nat.pow_le_pow_right (by decide) (by omega)
    have low' : E = 0 ∨ 2 ^ f.mbits ≤ m / 2 ^ k := by
      by_cases sub : E = 0
      · exact .inl sub
      · right
        have full : L = f.mbits + k := by
          rw [FFmt.least] at hE
          omega
        rw [Nat.le_div_iff_mul_le pos, ← pow_add, ← full]
        exact big
    have parts := Nat.div_add_mod' m (2 ^ k)
    have rest := Nat.mod_lt m pos
    have here := affine (m / 2 ^ k) low' below.le
    have next := affine (m / 2 ^ k + 1) (low'.imp id (by omega)) below
    have rounded := shiftRne_eq m k
    have T : 0 < 2 ^ (e - lo).toNat := Nat.two_pow_pos _
    rw [apart, ← mul_assoc] at here next
    have mid : W (E * 2 ^ f.mbits + m / 2 ^ k) + W (E * 2 ^ f.mbits + m / 2 ^ k + 1) =
        (2 * (m / 2 ^ k * 2 ^ k) + 2 ^ k) * 2 ^ (e - lo).toNat := by
      rw [here, add_assoc, next]
      ring
    constructor
    · refine nearest_of_between rising (j := E * 2 ^ f.mbits + m / 2 ^ k) ?_ ?_ ?_
      · rw [here, whole]
        exact Nat.mul_le_mul_right _ (by omega)
      · rw [add_assoc, next, whole]
        exact Nat.mul_le_mul_right _ (by rw [Nat.add_one_mul]; omega)
      · rw [mid, whole, ← mul_assoc 2 m, rounded]
        have parity : (E * 2 ^ f.mbits) % 2 = 0 := by rw [Nat.mul_mod, even, Nat.mul_zero, Nat.zero_mod]
        have le : ∀ a b, a ≤ b → a * 2 ^ (e - lo).toNat ≤ b * 2 ^ (e - lo).toNat := fun a b => Nat.mul_le_mul_right _
        have eq : ∀ a b, a * 2 ^ (e - lo).toNat = b * 2 ^ (e - lo).toNat → a = b :=
          fun a b => Nat.eq_of_mul_eq_mul_right T
        generalize m / 2 ^ k * 2 ^ k = a at *
        generalize m / 2 ^ k = r at *
        generalize 2 ^ k = d at *
        split
        · exact .inr ⟨rfl, le _ _ (by omega), fun tie => by have := eq _ _ tie; omega⟩
        · exact .inl ⟨rfl, le _ _ (by omega), fun tie => by have := eq _ _ tie; omega⟩
    · have value : W (E * 2 ^ f.mbits + shiftRne m k) = shiftRne m k * 2 ^ k * 2 ^ (e - lo).toNat := by
        rw [rounded]
        split
        · rw [← add_assoc] at next ⊢
          exact next
        · exact here
      rw [value, whole, bne_iff_ne, ne_eq, ne_eq, Nat.mul_left_inj T.ne']

/-! ## Formats -/

/-- What rounding needs of a format: magnitudes go in equal steps about its largest finite one (R108). -/
structure FFmt.Regular (f : FFmt) : Prop where
  mantissa : 1 ≤ f.mbits
  top_lt : f.maxFinite < 2 ^ f.width
  top_pos : 1 ≤ f.maxFinite
  even_step : f.units (f.maxFinite + 1) + f.units (f.maxFinite - 1) = 2 * f.units f.maxFinite

theorem signBit_code (f : FFmt) (s : Bool) {k : Nat} (h : k < 2 ^ f.width) :
    f.signBit s + k < 2 ^ (f.width + 1) ∧ (f.signBit s + k).testBit f.width = s ∧
      (f.signBit s + k) % 2 ^ f.width = k := by
  rw [FFmt.signBit, pow_succ]
  cases s with
  | false =>
    rw [if_neg Bool.false_ne_true, Nat.zero_add]
    exact ⟨by omega, Nat.testBit_lt_two_pow h, Nat.mod_eq_of_lt h⟩
  | true =>
    rw [if_pos rfl]
    refine ⟨by omega, ?_, by rw [Nat.add_mod_left, Nat.mod_eq_of_lt h]⟩
    rw [Nat.testBit_two_pow_add_eq, Nat.testBit_lt_two_pow h]
    rfl

theorem mod_two_of_width (f : FFmt) (hm : 1 ≤ f.mbits) (c : Nat) : c % 2 ^ f.width % 2 = c % 2 := by
  have : 2 ∣ 2 ^ f.width := by
    rw [FFmt.width]
    exact Dvd.dvd.trans (by norm_num) (pow_dvd_pow 2 (show 1 ≤ f.ebits + f.mbits by omega))
  exact Nat.mod_mod_of_dvd c this

theorem times_natAbs (s : Bool) (m : Nat) (e lo : Int) :
    ((Machine.Num.fin s m e).times lo).natAbs = m * 2 ^ (e - lo).toNat := by
  rw [Num.times, Int.natAbs_mul]
  cases s <;> simp [Int.natAbs_mul, Int.natAbs_pow]

section
variable {g : FFmt} (regular : g.Regular) {lo : Int} (least : lo ≤ g.least)
include regular least

/-- A finite magnitude code in units of 2^lo. -/
theorem FFmt.natAbs_decode {k : Nat} (h : k ≤ g.maxFinite) :
    ((g.decode k).times lo).natAbs = g.units k * 2 ^ (g.least - lo).toNat := by
  have small : k % 2 ^ g.width = k := Nat.mod_eq_of_lt (h.trans_lt regular.top_lt)
  rw [g.times_decode (by rwa [small]) least, small, Int.natAbs_mul]
  split <;> simp [Int.natAbs_mul, Int.natAbs_pow]

/-- The nearest code exceeds the largest finite one just where the value does (R117). -/
theorem FFmt.over_iff {x : Int} {r : Nat} (near : Nearest (fun k => g.units k * 2 ^ (g.least - lo).toNat) x.natAbs r) :
    g.Over lo x ↔ g.maxFinite < r := by
  have rising : StrictMono fun k => g.units k * 2 ^ (g.least - lo).toNat :=
    fun i j h => Nat.mul_lt_mul_of_pos_right (g.units_strictMono h) (Nat.two_pow_pos _)
  have step : g.units (g.maxFinite - 1) < g.units g.maxFinite := g.units_strictMono (by have := regular.top_pos; omega)
  rw [near.lt_iff rising, FFmt.Over]
  simp only [FFmt.natAbs_decode regular least le_rfl, FFmt.natAbs_decode regular least (Nat.sub_le g.maxFinite 1)]
  have even := congrArg (· * 2 ^ (g.least - lo).toNat) regular.even_step
  have less := Nat.mul_lt_mul_of_pos_right step (Nat.two_pow_pos (g.least - lo).toNat)
  simp only [Nat.add_mul, Nat.mul_assoc] at even
  omega

/-- A sign with the nearest code, or with the code that stands for an overflow, is what rounding gives (R116, R117). -/
theorem FFmt.roundsTo {x : Int} {r cap : Nat} {s : Bool} (hcap : cap < 2 ^ g.width)
    (near : Nearest (fun k => g.units k * 2 ^ (g.least - lo).toNat) x.natAbs r) :
    g.RoundsTo cap lo x s (g.signBit s + if g.maxFinite < r then cap else r) := by
  have lt : (if g.maxFinite < r then cap else r) < 2 ^ g.width := by
    have := regular.top_lt
    split <;> omega
  obtain ⟨bound, sign, mag⟩ := signBit_code g s lt
  rw [FFmt.RoundsTo]
  simp only [mag, FFmt.over_iff regular least near]
  refine ⟨bound, sign, fun h => if_pos h, fun h => ?_⟩
  rw [if_neg h]
  refine ⟨Nat.not_lt.1 h, fun k hk apart => ?_⟩
  obtain ⟨closer, tie⟩ := near k apart
  rw [FFmt.natAbs_decode regular least (Nat.not_lt.1 h), FFmt.natAbs_decode regular least hk]
  refine ⟨closer, fun same => ?_⟩
  have parity := mod_two_of_width g regular.mantissa (g.signBit s + r)
  rw [(signBit_code g s (by have := regular.top_lt; omega : r < 2 ^ g.width)).2.2] at parity
  rw [← parity]
  exact tie same

end

end Sys2Proof.Machine
end

section
/-! SUPPORT. Codes of the floating-point element formats and conversion to them (R108, R116, R117, R119). -/

namespace Sys2Proof.Machine

/-! ## The formats (R108) -/

theorem FFmt.regular_of_mem : ∀ g ∈ [fmtFp32, fmtFp16, fmtBf16, fmtE4M3, fmtE5M2, fmtE3M2, fmtE2M3, fmtE2M1],
    g.Regular := by
  simp only [List.forall_mem_cons]
  refine ⟨?_, ?_, ?_, ?_, ?_, ?_, ?_, ?_, fun _ h => nomatch h⟩ <;> exact ⟨by decide, by decide, by decide, by decide⟩

theorem FFmt.regular {f : Nat} {g : FFmt} (h : floatFmt f = some g) : g.Regular := by
  refine g.regular_of_mem ?_
  unfold floatFmt at h
  split at h <;> cases h <;> decide

/-! ## Codes (R108) -/

/-- The exponent field and the mantissa of a code. -/
theorem FFmt.mag_fields (g : FFmt) (c : Nat) :
    c % 2 ^ g.width / 2 ^ g.mbits = c / 2 ^ g.mbits % 2 ^ g.ebits ∧
      c % 2 ^ g.width % 2 ^ g.mbits = c % 2 ^ g.mbits := by
  rw [FFmt.width, pow_add, mul_comm]
  exact ⟨Nat.mod_mul_right_div_self .., Nat.mod_mul_right_mod ..⟩

/-- A magnitude code in units of the smallest subnormal, from its fields. -/
theorem FFmt.units_mag (g : FFmt) (c : Nat) :
    g.units (c % 2 ^ g.width) =
      let e := c / 2 ^ g.mbits % 2 ^ g.ebits
      if e = 0 then c % 2 ^ g.mbits else (c % 2 ^ g.mbits + 2 ^ g.mbits) * 2 ^ (e - 1) := by
  rw [FFmt.units, (g.mag_fields c).1, (g.mag_fields c).2]

/-- In a format with infinities the codes beyond the largest finite one are those with the top exponent. -/
theorem FFmt.maxFinite_lt_of_ieee {g : FFmt} (h : g.special = .ieee) (he : 1 ≤ g.ebits) (c : Nat) :
    g.maxFinite < c % 2 ^ g.width ↔ c / 2 ^ g.mbits % 2 ^ g.ebits = 2 ^ g.ebits - 1 := by
  have small : c / 2 ^ g.mbits % 2 ^ g.ebits < 2 ^ g.ebits := Nat.mod_lt _ (Nat.two_pow_pos _)
  have big : 2 ^ 1 ≤ 2 ^ g.ebits := Nat.pow_le_pow_right (by decide) he
  have pos : 0 < (2 ^ g.ebits - 1) * 2 ^ g.mbits := Nat.mul_pos (by omega) (Nat.two_pow_pos _)
  have reach := Nat.le_div_iff_mul_le (Nat.two_pow_pos g.mbits) (x := 2 ^ g.ebits - 1) (y := c % 2 ^ g.width)
  rw [(g.mag_fields c).1] at reach
  rw [FFmt.maxFinite, h]
  simp only
  omega

/-- The value of a finite code. -/
theorem FFmt.decode_finite (g : FFmt) {c : Nat} (h : ¬ g.maxFinite < c % 2 ^ g.width) :
    (g.decode c).mag ≠ none ∧ (g.decode c).times g.least =
      (if c.testBit g.width then -1 else 1) *
        (let e := c / 2 ^ g.mbits % 2 ^ g.ebits
         if e = 0 then c % 2 ^ g.mbits else (c % 2 ^ g.mbits + 2 ^ g.mbits) * 2 ^ (e - 1) : Nat) := by
  constructor
  · obtain ⟨m, e, is, -⟩ := g.decode_fin (Nat.not_lt.1 h)
    rw [is]
    exact Option.some_ne_none _
  · rw [g.times_decode (Nat.not_lt.1 h) le_rfl, sub_self, Int.toNat_zero, pow_zero, mul_one, g.units_mag]

/-- The value of a code that is not finite. -/
theorem FFmt.decode_special (g : FFmt) {c : Nat} (h : g.maxFinite < c % 2 ^ g.width) :
    g.decode c = if g.special = .ieee ∧ c % 2 ^ g.mbits = 0 then .inf (c.testBit g.width) else .nan := by
  rw [FFmt.decode, if_pos h, (g.mag_fields c).2]

theorem FFmt.ieee_iff {f : Nat} {g : FFmt} (h : floatFmt f = some g) :
    g.special = .ieee ↔ f = 0x01 ∨ f = 0x02 ∨ f = 0x03 ∨ f = 0x05 ∨ f = 0x11 := by
  unfold floatFmt at h
  split at h <;> cases h <;> decide

theorem FFmt.e4m3_iff {f : Nat} {g : FFmt} (h : floatFmt f = some g) : g.special = .e4m3 ↔ f = 0x04 ∨ f = 0x10 := by
  unfold floatFmt at h
  split at h <;> cases h <;> decide

theorem FFmt.ebits_pos {f : Nat} {g : FFmt} (h : floatFmt f = some g) : 1 ≤ g.ebits := by
  unfold floatFmt at h
  split at h <;> cases h <;> decide

theorem fmtE4M3_special (c : Nat) :
    fmtE4M3.maxFinite < c % 2 ^ fmtE4M3.width ↔ c / 2 ^ fmtE4M3.mbits % 2 ^ fmtE4M3.ebits = 15 ∧
      c % 2 ^ fmtE4M3.mbits = 7 := by
  change 126 < c % 128 ↔ c / 8 % 16 = 15 ∧ c % 8 = 7
  omega

theorem FFmt.plain_finite {g : FFmt} (h : g.special = .plain) (c : Nat) : ¬ g.maxFinite < c % 2 ^ g.width := by
  have := Nat.mod_lt c (Nat.two_pow_pos g.width)
  rw [FFmt.maxFinite, h]
  simp only
  omega

/-- The value of each code of a floating-point element format (R108). -/
theorem decode_cases {f : Nat} {g : FFmt} (h : floatFmt f = some g) (c : Nat) :
    let s := c.testBit g.width
    let e := c / 2 ^ g.mbits % 2 ^ g.ebits
    let m := c % 2 ^ g.mbits
    let ieee := f = 0x01 ∨ f = 0x02 ∨ f = 0x03 ∨ f = 0x05 ∨ f = 0x11
    let e4m3 := f = 0x04 ∨ f = 0x10
    if ieee ∧ e = 2 ^ g.ebits - 1 then g.decode c = (if m = 0 then .inf s else .nan)
    else if e4m3 ∧ e = 15 ∧ m = 7 then g.decode c = .nan
    else (g.decode c).mag ≠ none ∧ (g.decode c).times g.least =
      (if s then -1 else 1) * (if e = 0 then m else (m + 2 ^ g.mbits) * 2 ^ (e - 1) : Nat) := by
  intro s e m ieee e4m3
  have isIeee : g.special = .ieee ↔ ieee := FFmt.ieee_iff h
  have isE4M3 : e4m3 → g = fmtE4M3 := by
    rintro (rfl | rfl) <;> exact (Option.some.inj h).symm
  by_cases i : ieee
  · have not4 : ¬ e4m3 := by
      simp only [ieee] at i
      simp only [e4m3]
      omega
    have top := FFmt.maxFinite_lt_of_ieee (isIeee.2 i) (FFmt.ebits_pos h) c
    by_cases special : e = 2 ^ g.ebits - 1
    · rw [if_pos ⟨i, special⟩, g.decode_special (top.2 special)]
      simp only [isIeee.2 i, true_and]
      rfl
    · rw [if_neg fun x => special x.2, if_neg fun x => not4 x.1]
      exact g.decode_finite fun x => special (top.1 x)
  · rw [if_neg fun x => i x.1]
    by_cases i4 : e4m3
    · obtain rfl := isE4M3 i4
      by_cases special : e = 15 ∧ m = 7
      · rw [if_pos ⟨i4, special⟩, FFmt.decode_special _ ((fmtE4M3_special c).2 special),
          if_neg fun x => i (isIeee.1 x.1)]
      · rw [if_neg fun x => special x.2]
        exact FFmt.decode_finite _ fun x => special ((fmtE4M3_special c).1 x)
    · rw [if_neg fun x => i4 x.1]
      have plain : g.special = .plain := by
        cases kind : g.special with
        | plain => rfl
        | ieee => exact absurd (isIeee.1 kind) i
        | e4m3 => exact absurd ((FFmt.e4m3_iff h).1 kind) i4
      exact g.decode_finite (FFmt.plain_finite plain c)

/-! ## Conversion (R116, R117, R119) -/

/-- The magnitude code that stands for an overflow in conversions other than to MX (R117). -/
def FFmt.topCode (g : FFmt) : Nat :=
  match g.special with
  | .ieee => (2 ^ g.ebits - 1) * 2 ^ g.mbits
  | _ => g.maxFinite

/-- A finite value in a format, and the code that its magnitude gets. -/
theorem FFmt.nearest_roundMag {g : FFmt} (regular : g.Regular) (s : Bool) (m : Nat) (e : Int) :
    let lo := min e g.least
    Nearest (fun k => g.units k * 2 ^ (g.least - lo).toNat) ((Machine.Num.fin s m e).times lo).natAbs
      (g.roundMag m e).1 := by
  intro lo
  rw [times_natAbs]
  exact (g.roundMag_nearest regular.mantissa m (min_le_right ..) (min_le_left ..)).1

/-- A value that overflows lies above the largest finite one (R117). -/
theorem FFmt.Over.lt {g : FFmt} (regular : g.Regular) {lo x : Int} (least : lo ≤ g.least) (h : g.Over lo x) :
    g.units g.maxFinite * 2 ^ (g.least - lo).toNat < x.natAbs := by
  have step := Nat.mul_lt_mul_of_pos_right
    (g.units_strictMono (show g.maxFinite - 1 < g.maxFinite by have := regular.top_pos; omega))
    (Nat.two_pow_pos (g.least - lo).toNat)
  rw [FFmt.Over] at h
  simp only [FFmt.natAbs_decode regular least le_rfl, FFmt.natAbs_decode regular least (Nat.sub_le g.maxFinite 1)] at h
  omega

/-- A finite value converted to a format with its code for overflows (R116, R117, R119). -/
theorem FFmt.rounded {g : FFmt} (regular : g.Regular) {cap : Nat} (hcap : cap < 2 ^ g.width) (s : Bool) (m : Nat)
    (e : Int) :
    let lo := min e g.least
    let x := (Machine.Num.fin s m e).times lo
    let r := g.roundMag m e
    g.RoundsTo cap lo x s (g.signBit s + if g.maxFinite < r.1 then cap else r.1) ∧
      (g.Over lo x ↔ g.maxFinite < r.1) := by
  intro lo x r
  have near : Nearest _ x.natAbs r.1 := FFmt.nearest_roundMag regular s m e
  exact ⟨FFmt.roundsTo regular (min_le_right ..) hcap near, FFmt.over_iff regular (min_le_right ..) near⟩

/-- A code with the overflow's magnitude stands for no value above the largest finite one. -/
theorem FFmt.natAbs_topCode_le {g : FFmt} (hcap : g.topCode < 2 ^ g.width) (s : Bool) {lo : Int}
    (least : lo ≤ g.least) :
    ((g.decode (g.signBit s + g.topCode)).times lo).natAbs ≤ g.units g.maxFinite * 2 ^ (g.least - lo).toNat := by
  have mag := (signBit_code g s hcap).2.2
  by_cases finite : g.topCode ≤ g.maxFinite
  · rw [g.times_decode (by rwa [mag]) least, mag, Int.natAbs_mul]
    have := Nat.mul_le_mul_right (2 ^ (g.least - lo).toNat) (g.units_strictMono.monotone finite)
    split <;> simpa [Int.natAbs_mul, Int.natAbs_pow] using this
  · have : g.decode (g.signBit s + g.topCode) = if g.special = .ieee ∧ (g.signBit s + g.topCode) % 2 ^ g.mbits = 0 then
        .inf ((g.signBit s + g.topCode).testBit g.width) else .nan := g.decode_special (by rw [mag]; omega)
    rw [this]
    split <;> exact Nat.zero_le _

theorem FFmt.encode_fin {g : FFmt} (regular : g.Regular) (hcap : g.topCode < 2 ^ g.width) (s : Bool) (m : Nat)
    (e : Int) :
    let r := g.encode (.fin s m e)
    let lo := min e g.least
    let x := (Machine.Num.fin s m e).times lo
    g.RoundsTo g.topCode lo x s r.code ∧ r.nan = false ∧ (r.ovf = true ↔ g.Over lo x) ∧
      (r.inexact = true ↔ (g.decode r.code).times lo ≠ x) := by
  intro r lo x
  obtain ⟨rounds, ovf⟩ := FFmt.rounded regular hcap s m e
  have least : lo ≤ g.least := min_le_right ..
  have is : r = if g.maxFinite < (g.roundMag m e).1 then
      { code := g.signBit s + g.topCode, ovf := true, inexact := true } else
      { code := g.signBit s + (g.roundMag m e).1, inexact := (g.roundMag m e).2 } := rfl
  by_cases big : g.maxFinite < (g.roundMag m e).1
  · rw [if_pos big] at rounds is
    rw [is]
    have high := FFmt.Over.lt regular least (ovf.2 big)
    have low := FFmt.natAbs_topCode_le hcap s least
    refine ⟨rounds, rfl, by simpa using ovf.2 big, ?_⟩
    simp only [true_iff]
    rintro same
    rw [same] at low
    exact absurd high (Nat.not_lt.2 low)
  · rw [if_neg big] at rounds is
    rw [is]
    have small := (Nat.not_lt.1 big).trans_lt regular.top_lt
    obtain ⟨-, sign, mag⟩ := signBit_code g s small
    have flag := (g.roundMag_nearest regular.mantissa m least (min_le_left ..)).2
    refine ⟨rounds, rfl, by simpa using fun h => big (ovf.1 h), ?_⟩
    simp only [x]
    rw [g.times_decode (by rw [mag]; exact Nat.not_lt.1 big) least, sign, mag, Num.times, flag, ne_eq, ne_eq,
      mul_right_inj' (by split <;> decide),
      Nat.cast_inj]

/-- The codes that R117's table names for overflow and NaN. -/
theorem topCode_of_row {f cap nanCode : Nat} {g : FFmt} (h : floatFmt f = some g)
    (row : (f, cap, nanCode) ∈ [(0x01, 0x7F80_0000, 0x7FC0_0000), (0x02, 0x7C00, 0x7E00), (0x03, 0x7F80, 0x7FC0),
      (0x04, 0x7E, 0x7F), (0x05, 0x7C, 0x7E)]) :
    cap = g.topCode ∧ cap < 2 ^ g.width ∧ nanCode = g.nanCode ∧ (g.special != .ieee) = decide (f = 0x04) := by
  simp only [List.mem_cons, Prod.mk.injEq, List.not_mem_nil, or_false] at row
  obtain ⟨rfl, rfl, rfl⟩ | ⟨rfl, rfl, rfl⟩ | ⟨rfl, rfl, rfl⟩ | ⟨rfl, rfl, rfl⟩ | ⟨rfl, rfl, rfl⟩ :=
    row <;> cases h <;> decide

end Sys2Proof.Machine
end

section
/-! SUPPORT. Conversion to integers and to blocks of the MX formats (R109, R110, R116, R117, R119). -/

namespace Sys2Proof.Machine

/-! ## Integers -/

/-- A magnitude rounded to the nearest integer, with its sign, and whether it was exact (R116). -/
theorem nearestAt_spec (s : Bool) (m : Nat) (e : Int) :
    let lo := min e 0
    let x := (Machine.Num.fin s m e).times lo
    let v : Int := if s then -((nearestAt m e).1 : Int) else (nearestAt m e).1
    NearestInt lo x v ∧ ((nearestAt m e).2 = true ↔ v * 2 ^ (-lo).toNat = x) := by
  intro lo x v
  have hx : x = (if s then -1 else 1) * (m * 2 ^ (e - lo).toNat : Nat) := rfl
  have hv : v = (if s then -1 else 1) * ((nearestAt m e).1 : Nat) := by
    simp only [v]
    split <;> simp
  have unit : (if s then -1 else 1 : Int) = 1 ∨ (if s then -1 else 1 : Int) = -1 := by cases s <;> simp
  rw [hv, hx]
  generalize (if s then -1 else 1 : Int) = sign at unit
  rw [NearestInt]
  by_cases whole : 0 ≤ e
  · have zero : lo = 0 := min_eq_right whole
    rw [nearestAt, if_pos whole, zero]
    simp [Nat.shiftLeft_eq]
  · have low : lo = e := min_eq_left (by omega)
    have neg : ¬ 0 ≤ lo := by omega
    rw [nearestAt, if_neg whole, if_neg neg, low, sub_self, Int.toNat_zero, pow_zero, mul_one]
    set k := (-e).toNat with hk
    have value := shiftRne_eq m k
    have parts := Nat.div_add_mod' m (2 ^ k)
    have rest := Nat.mod_lt m (Nat.two_pow_pos k)
    have cast : (2 : Int) ^ k = (2 ^ k : Nat) := by push_cast; rfl
    have error : ((sign * m : Int) - sign * (shiftRne m k : Nat) * (2 ^ k : Nat)).natAbs =
        ((m : Int) - (shiftRne m k * 2 ^ k : Nat)).natAbs := by
      obtain rfl | rfl := unit <;> push_cast <;> ring_nf
      omega
    refine ⟨?_, ?_⟩
    · simp only [cast, error]
      have odd : sign * (shiftRne m k : Nat) % 2 = 0 ↔ shiftRne m k % 2 = 0 := by obtain rfl | rfl := unit <;> omega
      rw [odd, value]
      split
      · rw [Nat.add_one_mul]
        generalize m / 2 ^ k * 2 ^ k = a at *
        generalize m / 2 ^ k = q at *
        omega
      · generalize m / 2 ^ k * 2 ^ k = a at *
        generalize m / 2 ^ k = q at *
        omega
    · rw [beq_iff_eq, Nat.shiftLeft_eq, cast]
      obtain rfl | rfl := unit
      · push_cast
        rw [one_mul, one_mul]
        norm_cast
      · rw [neg_one_mul, neg_one_mul, neg_mul, neg_inj]
        norm_cast

/-- What lies beyond a bound after rounding is not that bound. -/
theorem NearestInt.ne_of_lt {lo x v b : Int} (near : NearestInt lo x v) (low : lo ≤ 0) (apart : b < v ∨ v < b) :
    b * 2 ^ (-lo).toNat ≠ x := by
  rintro rfl
  rw [NearestInt] at near
  split at near
  · obtain rfl : lo = 0 := by omega
    simp at near
    omega
  · have pos : (0 : Int) < 2 ^ (-lo).toNat := by positivity
    obtain ⟨close, -⟩ := near
    rw [← sub_mul, Int.natAbs_mul, Nat.cast_mul, Int.natAbs_of_nonneg pos.le] at close
    have one : 1 ≤ (b - v).natAbs := by omega
    have := Int.mul_le_mul_of_nonneg_right (Int.ofNat_le.2 one) pos.le
    generalize ((b - v).natAbs : Int) * 2 ^ (-lo).toNat = far at *
    omega

section
variable {w : Nat} (hw : 0 < w)
include hw

/-- A value clamped to a two's-complement width. -/
theorem intOf_clamp (v : Int) :
    intOf w (intCode w (max (-(2 ^ (w - 1))) (min (2 ^ (w - 1) - 1) v))) =
      max (-(2 ^ (w - 1))) (min (2 ^ (w - 1) - 1) v) := by
  have pos : (0 : Int) < 2 ^ (w - 1) := by positivity
  refine intOf_intCode hw ?_ ?_
  · push_cast
    omega
  · push_cast
    omega

/-- A finite value converted to a two's-complement integer (R116, R117). -/
theorem encodeInt_fin (s : Bool) (m : Nat) (e : Int) :
    let hi : Int := 2 ^ (w - 1) - 1
    let lowest : Int := -(2 ^ (w - 1))
    let r := encodeInt w (.fin s m e)
    let lo := min e 0
    let x := (Machine.Num.fin s m e).times lo
    ∃ v, NearestInt lo x v ∧ r.code < 2 ^ w ∧ intOf w r.code = max lowest (min hi v) ∧ r.nan = false ∧
      (r.ovf = true ↔ hi < v ∨ v < lowest) ∧ (r.inexact = true ↔ intOf w r.code * 2 ^ (-lo).toNat ≠ x) := by
  intro hi lowest r lo x
  have pos : (0 : Int) < 2 ^ (w - 1) := by positivity
  obtain ⟨near, same⟩ := nearestAt_spec s m e
  set v : Int := if s then -((nearestAt m e).1 : Int) else (nearestAt m e).1 with hv
  have is : r = if hi < v then { code := intCode w hi, ovf := true, inexact := true }
      else if v < lowest then { code := intCode w lowest, ovf := true, inexact := true }
      else { code := intCode w v, inexact := !(nearestAt m e).2 } := by
    simp only [r, encodeInt, hi, lowest, hv]
    push_cast
    rfl
  have code : r.code = intCode w (max lowest (min hi v)) := by
    rw [is]
    split
    · rw [show max lowest (min hi v) = hi by omega]
    · split
      · rw [show max lowest (min hi v) = lowest by omega]
      · rw [show max lowest (min hi v) = v by omega]
  refine ⟨v, near, ?_, ?_, ?_, ?_, ?_⟩
  · rw [code]
    exact intCode_lt ..
  · rw [code]
    exact intOf_clamp hw v
  · rw [is]
    split
    · rfl
    · split <;> rfl
  · rw [is]
    split
    · simpa using .inl ‹_›
    · split
      · simpa using .inr ‹_›
      · simpa using ⟨Int.not_lt.1 ‹_›, Int.not_lt.1 ‹_›⟩
  · rw [code, intOf_clamp hw v]
    have out : ∀ b, b < v ∨ v < b → b * 2 ^ (-lo).toNat ≠ x := fun b h => near.ne_of_lt (min_le_right ..) h
    rw [is]
    split
    · simpa using out _ (by omega)
    · split
      · simpa using out _ (by omega)
      · have inside : max lowest (min hi v) = v := by omega
        rw [show max (-(2 ^ (w - 1))) (min (2 ^ (w - 1) - 1) v) = v from inside]
        rw [Bool.not_eq_true', ne_eq, ← Bool.not_eq_true, not_iff_not]
        exact same

theorem encodeInt_inf (s : Bool) :
    let r := encodeInt w (.inf s)
    intOf w r.code = (if s then -(2 ^ (w - 1)) else 2 ^ (w - 1) - 1) ∧ r.nan = false ∧ r.ovf = true ∧
      r.inexact = false := by
  refine ⟨?_, rfl, rfl, rfl⟩
  have pos : (0 : Int) < 2 ^ (w - 1) := by positivity
  simp only [encodeInt]
  push_cast
  refine intOf_intCode hw ?_ ?_
  · push_cast
    split <;> omega
  · push_cast
    split <;> omega

end

/-- The integer formats convert as their widths do. -/
theorem convElem_int {f w : Nat} (row : (f, w) ∈ [(0x06, 8), (0x07, 4), (0x08, 16), (0x09, 32)]) (x : Machine.Num) :
    convElem f x = encodeInt w x ∧ 0 < w := by
  simp only [List.mem_cons, Prod.mk.injEq, List.not_mem_nil, or_false] at row
  obtain ⟨rfl, rfl⟩ | ⟨rfl, rfl⟩ | ⟨rfl, rfl⟩ | ⟨rfl, rfl⟩ := row <;> exact ⟨rfl, by decide⟩

/-! ## MX blocks (R119) -/

/-- The largest magnitude so far and one more value (R119). -/
def maxLog (acc : Option Int) (x : Machine.Num) : Option Int :=
  match x.mag with
  | some (m, e) =>
    if m = 0 then acc
    else
      let k := (Nat.log2 m : Int) + e
      match acc with
      | some a => some (max a k)
      | none => some k
  | none => acc

theorem amaxLog_eq (l : List Machine.Num) : amaxLog l = l.foldl maxLog none := rfl

theorem foldl_maxLog_zero {l : List Machine.Num} (zero : ∀ x ∈ l, ∃ s e, x = .fin s 0 e) (acc : Option Int) :
    l.foldl maxLog acc = acc := by
  induction l with
  | nil => rfl
  | cons x rest ih =>
    obtain ⟨s, e, rfl⟩ := zero x List.mem_cons_self
    exact ih fun y hy => zero y (List.mem_cons_of_mem _ hy)

/-- The greatest exponent of a block, where one value has it and none has more. -/
theorem foldl_maxLog_max {k : Int} {l : List Machine.Num}
    (le : ∀ x ∈ l, ∃ s m e, x = .fin s m e ∧ (m = 0 ∨ (m.log2 : Int) + e ≤ k)) {acc : Option Int}
    (small : ∀ a ∈ acc, a ≤ k)
    (hit : acc = some k ∨ ∃ x ∈ l, ∃ s m e, x = .fin s m e ∧ m ≠ 0 ∧ (m.log2 : Int) + e = k) :
    l.foldl maxLog acc = some k := by
  induction l generalizing acc with
  | nil => simpa using hit
  | cons x rest ih =>
    obtain ⟨s, m, e, rfl, bound⟩ := le x List.mem_cons_self
    have rest_le := fun y hy => le y (List.mem_cons_of_mem _ hy)
    have later : (∃ y ∈ Machine.Num.fin s m e :: rest, ∃ s m e, y = .fin s m e ∧ m ≠ 0 ∧ (m.log2 : Int) + e = k) →
        (m ≠ 0 ∧ (m.log2 : Int) + e = k) ∨ ∃ y ∈ rest, ∃ s m e, y = .fin s m e ∧ m ≠ 0 ∧ (m.log2 : Int) + e = k := by
      rintro ⟨y, hy, s', m', e', rfl, big⟩
      obtain same | hy := List.mem_cons.1 hy
      · cases same
        exact .inl big
      · exact .inr ⟨_, hy, s', m', e', rfl, big⟩
    rw [List.foldl_cons]
    by_cases zero : m = 0
    · have kept : maxLog acc (.fin s m e) = acc := if_pos zero
      rw [kept]
      exact ih rest_le small (hit.imp_right fun h => (later h).resolve_left fun h => h.1 zero)
    · have bound := bound.resolve_left zero
      cases acc with
      | none =>
        have first : maxLog none (.fin s m e) = some ((m.log2 : Int) + e) := if_neg zero
        rw [first]
        refine ih rest_le (fun a ha => ?_) ?_
        · cases ha
          exact bound
        · exact (later (hit.resolve_left (Option.some_ne_none k).symm)).imp (fun h => congrArg some h.2) id
      | some a =>
        have next : maxLog (some a) (.fin s m e) = some (max a ((m.log2 : Int) + e)) := if_neg zero
        have ha : a ≤ k := small a rfl
        rw [next]
        refine ih rest_le (fun b hb => ?_) ?_
        · cases hb
          exact max_le ha bound
        · rcases hit with hit | hit
          · left
            cases hit
            rw [max_eq_left bound]
          · exact (later hit).imp (fun h => by rw [h.2, max_eq_right ha]) id

/-- The greatest exponent of a block of finite values (R119). -/
theorem amaxLog_max {k : Int} {l : List Machine.Num}
    (le : ∀ x ∈ l, ∃ s m e, x = .fin s m e ∧ (m = 0 ∨ (m.log2 : Int) + e ≤ k))
    (hit : ∃ x ∈ l, ∃ s m e, x = .fin s m e ∧ m ≠ 0 ∧ (m.log2 : Int) + e = k) : amaxLog l = some k :=
  foldl_maxLog_max le (fun _ h => nomatch h) (.inr hit)

theorem any_mag_isNone_iff (l : List Machine.Num) : l.any (fun x => x.mag.isNone) = true ↔ ∃ x ∈ l, x.mag = none := by
  simp only [List.any_eq_true, Option.isNone_iff_eq_none]

/-- A block with a value that is not finite (R119). -/
theorem mxBlock_none (f : Nat) {l : List Machine.Num} (h : ∃ x ∈ l, x.mag = none) :
    mxBlock f l = (0xFF, List.replicate l.length 0, 32) := by
  rw [mxBlock, if_pos ((any_mag_isNone_iff l).2 h), List.map_const']

/-- A block of zeros (R119). -/
theorem mxBlock_zero (f : Nat) {l : List Machine.Num} (h : ∀ x ∈ l, ∃ s e, x = .fin s 0 e) :
    mxBlock f l = (0x7F, List.replicate l.length 0, 0) := by
  have finite : ¬ l.any (fun x => x.mag.isNone) = true := by
    rw [any_mag_isNone_iff]
    rintro ⟨x, hx, none⟩
    obtain ⟨s, e, rfl⟩ := h x hx
    exact nomatch none
  rw [mxBlock, if_neg finite, amaxLog_eq, foldl_maxLog_zero h]
  simp only [List.map_const']

/-- The exponent of a block's scale (R119). -/
def mxShift (f : Nat) (k : Int) : Int := max (-127) (min 127 (k - mxEmax f))

/-- A block of finite values that are not all zero (R119). -/
theorem mxBlock_finite (f : Nat) {k : Int} {l : List Machine.Num}
    (le : ∀ x ∈ l, ∃ s m e, x = .fin s m e ∧ (m = 0 ∨ (m.log2 : Int) + e ≤ k))
    (hit : ∃ x ∈ l, ∃ s m e, x = .fin s m e ∧ m ≠ 0 ∧ (m.log2 : Int) + e = k) :
    (mxBlock f l).1 = (mxShift f k + 127).toNat ∧
      (mxBlock f l).2.1 = l.map fun v => (mxElem f (v.scaleBy (-mxShift f k))).code := by
  have finite : ¬ l.any (fun x => x.mag.isNone) = true := by
    rw [any_mag_isNone_iff]
    rintro ⟨x, hx, none⟩
    obtain ⟨s, m, e, rfl, -⟩ := le x hx
    exact nomatch none
  rw [mxBlock, if_neg finite, amaxLog_max le hit]
  simp only [List.map_map]
  exact ⟨rfl, rfl⟩

/-- An element of a floating-point MX format (R119). -/
theorem mxElem_float {f : Nat} {g : FFmt} (h : floatFmt f = some g) (s : Bool) (m : Nat) (e : Int) :
    let lo := min e g.least
    g.RoundsTo g.maxFinite lo ((Machine.Num.fin s m e).times lo) s (mxElem f (.fin s m e)).code := by
  have regular := FFmt.regular h
  have rounds := (FFmt.rounded regular regular.top_lt s m e).1
  intro lo
  have code : (mxElem f (.fin s m e)).code =
      g.signBit s + if g.maxFinite < (g.roundMag m e).1 then g.maxFinite else (g.roundMag m e).1 := by
    rw [mxElem, h]
    simp only
    split <;> rfl
  rw [code]
  exact rounds

/-- An element of the integer MX format, in units of 2^−6 (R109, R119). -/
theorem mxElem_int (s : Bool) (m : Nat) (e : Int) :
    let lo := min (e + 6) 0
    ∃ v, NearestInt lo ((Machine.Num.fin s m (e + 6)).times lo) v ∧ (mxElem 0x15 (.fin s m e)).code < 256 ∧
      intOf 8 (mxElem 0x15 (.fin s m e)).code = max (-128) (min 127 v) := by
  intro lo
  refine ⟨_, (nearestAt_spec s m (e + 6)).1, intCode_lt 8 _, ?_⟩
  have code : (mxElem 0x15 (.fin s m e)).code = intCode 8 (max (-(2 ^ (8 - 1))) (min (2 ^ (8 - 1) - 1)
      (if s then -((nearestAt m (e + 6)).1 : Int) else (nearestAt m (e + 6)).1))) := by
    simp only [mxElem, floatFmt, Num.scaleBy]
    cases s
    · simp only [Bool.false_eq_true, if_false]
      congr 1
      omega
    · simp only [if_true]
      congr 1
      omega
  rw [code, intOf_clamp (by decide)]
  norm_num

/-- The block that an MX conversion makes (R119). -/
theorem mxBlock_spec {f : Nat} {emax : Int} {l : List Machine.Num} (length : l.length = 32)
    (row : (f, emax) ∈ [(0x10, (8 : Int)), (0x11, 15), (0x12, 4), (0x13, 2), (0x14, 2), (0x15, 0)]) {k : Int}
    (le : ∀ x ∈ l, ∃ s m e, x = .fin s m e ∧ (m = 0 ∨ (m.log2 : Int) + e ≤ k))
    (hit : ∃ x ∈ l, ∃ s m e, x = .fin s m e ∧ m ≠ 0 ∧ (m.log2 : Int) + e = k) :
    let r := mxBlock f l
    let X := max (-127) (min 127 (k - emax))
    (r.1 : Int) = X + 127 ∧ r.2.1.length = 32 ∧
      ∀ q s m e, l[q]? = some (.fin s m e) →
        let c := r.2.1.getD q 0
        (∀ g, floatFmt f = some g →
          let lo := min (e - X) g.least
          g.RoundsTo g.maxFinite lo ((Machine.Num.fin s m (e - X)).times lo) s c) ∧
        (f = 0x15 →
          let lo := min (e - X + 6) 0
          ∃ v, NearestInt lo ((Machine.Num.fin s m (e - X + 6)).times lo) v ∧ c < 256 ∧
            intOf 8 c = max (-128) (min 127 v)) := by
  intro r X
  obtain ⟨scale, codes⟩ := mxBlock_finite f le hit
  have shift : mxShift f k = X := by
    have : mxEmax f = emax := by
      simp only [List.mem_cons, Prod.mk.injEq, List.not_mem_nil, or_false] at row
      obtain ⟨rfl, rfl⟩ | ⟨rfl, rfl⟩ | ⟨rfl, rfl⟩ | ⟨rfl, rfl⟩ | ⟨rfl, rfl⟩ | ⟨rfl, rfl⟩ := row <;> rfl
    rw [mxShift, this]
  rw [shift] at scale codes
  refine ⟨?_, ?_, fun q s m e at_ => ?_⟩
  · simp only [r, scale, X]
    omega
  · simp only [r]
    rw [codes, List.length_map, length]
  · have element : r.2.1.getD q 0 = (mxElem f (.fin s m (e - X))).code := by
      simp only [r]
      rw [codes, List.getD_eq_getElem?_getD, List.getElem?_map, at_]
      simp only [Option.map_some, Option.getD_some, Num.scaleBy, sub_eq_add_neg]
    simp only [element]
    refine ⟨fun g h => mxElem_float h s m (e - X), ?_⟩
    rintro rfl
    exact mxElem_int s m (e - X)

end Sys2Proof.Machine
end

section
/-! SUPPORT. The bits of byte lists, the header of a result and the tile that a reader finds in it (R98 to R105,
R124). -/

namespace Sys2Proof.Machine

/-! ## Bits of byte lists -/

/-- Bit j of a byte list, little-endian. -/
def bitOf (l : List Byte) (j : Nat) : Bool := (l.getD (j / 8) 0).getLsbD (j % 8)

theorem bitOf_append_left {a : List Byte} (b : List Byte) {j : Nat} (h : j < 8 * a.length) :
    bitOf (a ++ b) j = bitOf a j := by
  rw [bitOf, bitOf, List.getD_append _ _ _ _ (by omega)]

theorem bitOf_leBytes (v : Nat) {n j : Nat} (h : j < 8 * n) : bitOf (leBytes v n) j = v.testBit j := by
  rw [bitOf, leBytes_getD _ _ _ (by omega), BitVec.getLsbD_ofNat, decide_eq_true (Nat.mod_lt j (by decide)),
    Bool.true_and,
    show 256 = 2 ^ 8 from rfl, ← Nat.pow_mul, Nat.testBit_div_two_pow, Nat.mod_add_div]

/-- Bits at a position of a byte list (R101). -/
theorem bitsAt_testBit (l : List Byte) (p n i : Nat) :
    (bitsAt l p n).testBit i = (decide (i < n) && bitOf l (p + i)) := by
  rw [bitsAt, Nat.testBit_mod_two_pow, Nat.testBit_shiftRight, leNat_testBit]
  by_cases h : i < n
  · have inside : (p % 8 + i) / 8 < ceilDiv (p % 8 + n) 8 := by
      rw [ceilDiv]
      omega
    have byte : p / 8 + (p % 8 + i) / 8 = (p + i) / 8 := by omega
    have place : (p % 8 + i) % 8 = (p + i) % 8 := by omega
    rw [List.getD_eq_getElem?_getD, List.getElem?_take_of_lt inside, List.getElem?_drop, byte, place, bitOf,
      List.getD_eq_getElem?_getD]
  · rw [decide_eq_false h, Bool.false_and, Bool.false_and]

/-! ## Packed codes (R101) -/

theorem testBit_packed (b : Nat) (l : List Nat) {k i : Nat} (hk : k < l.length) (hi : i < b) :
    (l.foldr (fun c a => c % 2 ^ b + 2 ^ b * a) 0).testBit (k * b + i) = (l.getD k 0).testBit i := by
  induction l generalizing k with
  | nil => exact absurd hk (Nat.not_lt_zero k)
  | cons c rest ih =>
    rw [List.foldr_cons, Nat.add_comm (c % 2 ^ b), Nat.testBit_two_pow_mul_add _ (Nat.mod_lt _ (Nat.two_pow_pos b))]
    cases k with
    | zero => rw [Nat.zero_mul, Nat.zero_add, if_pos hi, Nat.testBit_mod_two_pow, decide_eq_true hi]; rfl
    | succ k =>
      have past : (k + 1) * b + i - b = k * b + i := by rw [Nat.add_one_mul]; omega
      rw [if_neg (by rw [Nat.add_one_mul]; omega), past, ih (Nat.lt_of_succ_lt_succ hk), List.getD_cons_succ]

theorem packCodes_length (b : Nat) (l : List Nat) :
    (packCodes b l).length = ceilDiv (l.length * b) 8 := leBytes_length ..

theorem bitOf_packCodes (b : Nat) (l : List Nat) {k i : Nat} (hk : k < l.length) (hi : i < b) :
    bitOf (packCodes b l) (k * b + i) = (l.getD k 0).testBit i := by
  have room : k * b + b ≤ l.length * b := by
    rw [← Nat.succ_mul]
    exact Nat.mul_le_mul_right b hk
  rw [packCodes, bitOf_leBytes _ (by rw [ceilDiv]; omega), testBit_packed b l hk hi]

/-- Rows of entries, each a function of its place. -/
def grid {α : Type} (rows cols : Nat) (g : Nat → Nat → α) : List (List α) :=
  (List.range rows).map fun r => (List.range cols).map (g r)

theorem packed_length (b rows cols : Nat) (code : Nat → Nat → Nat) :
    ((grid rows cols code).flatMap (packCodes b)).length = rows * ceilDiv (cols * b) 8 := by
  simp [grid, List.length_flatMap, packCodes_length, Function.comp_def]

/-- A code of packed rows, read back (R101). -/
theorem bitsAt_packed {b rows cols r k : Nat} (code : Nat → Nat → Nat) (scales : List Byte) (hr : r < rows)
    (hk : k < cols)
    (small : code r k < 2 ^ b) :
    bitsAt ((grid rows cols code).flatMap (packCodes b) ++ scales) (8 * (r * ceilDiv (cols * b) 8) + k * b) b =
      code r k := by
  set rb := ceilDiv (cols * b) 8 with hrb
  have row : k * b + b ≤ cols * b := by
    rw [← Nat.succ_mul]
    exact Nat.mul_le_mul_right b hk
  have fits : cols * b ≤ 8 * rb := by
    rw [hrb, ceilDiv]
    omega
  have rowEnd : r * rb + rb ≤ rows * rb := by
    rw [← Nat.succ_mul]
    exact Nat.mul_le_mul_right rb hr
  refine Nat.eq_of_testBit_eq fun i => ?_
  rw [bitsAt_testBit]
  by_cases hi : i < b
  · have place : 8 * (r * rb) + k * b + i = 8 * (r * rb) + (k * b + i) := Nat.add_assoc ..
    have length := packed_length b rows cols code
    rw [decide_eq_true hi, Bool.true_and, place, bitOf_append_left _ (by rw [length, ← hrb]; omega)]
    have byte : (8 * (r * rb) + (k * b + i)) / 8 = rb * r + (k * b + i) / 8 := by
      rw [Nat.mul_add_div (by decide), Nat.mul_comm]
    have inner : (k * b + i) / 8 < rb := by omega
    have element : (rb * r + (k * b + i) / 8) / rb = r := by
      rw [Nat.mul_add_div (by omega), Nat.div_eq_of_lt inner, Nat.add_zero]
    have rest : (rb * r + (k * b + i) / 8) % rb = (k * b + i) / 8 := by
      rw [Nat.mul_add_mod, Nat.mod_eq_of_lt inner]
    have bound : rb * r + (k * b + i) / 8 < rb * (List.range rows).length := by
      rw [List.length_range, Nat.mul_comm rb rows, Nat.mul_comm rb r]
      omega
    have it : (List.range rows).getD r 0 = r := by rw [List.getD_eq_getElem _ _ (by simpa using hr), List.getElem_range]
    have whole := bitOf_packCodes b ((List.range cols).map (code r)) (k := k) (i := i) (by simpa using hk) hi
    rw [bitOf, byte, Nat.mul_add_mod, grid, List.flatMap_map,
      List.getD_flatMap _ _ 0 (n := rb) (fun a => by rw [packCodes_length]; simp [hrb]) _ bound, element, rest, it]
    rw [bitOf] at whole
    rw [whole, List.getD_eq_getElem _ _ (by simpa using hk), List.getElem_map, List.getElem_range]
  · rw [decide_eq_false hi, Bool.false_and]
    exact (Nat.testBit_lt_two_pow (small.trans_le (Nat.pow_le_pow_right (by decide) (Nat.le_of_not_lt hi)))).symm

/-! ## Headers (R99, R104, R124) -/

theorem quadAt_append_right (a l : List Byte) (o : Nat) : quadAt (a ++ l) (a.length + o) = quadAt l o := by
  rw [quadAt, quadAt, List.drop_append, List.drop_eq_nil_of_le (Nat.le_add_right ..), List.nil_append,
    Nat.add_sub_cancel_left]

/-- Bytes before an offset do not change with what follows them. -/
theorem quadAt_congr {a b : List Byte} {n o : Nat} (same : a.take n = b.take n) (h : o + 8 ≤ n) :
    quadAt a o = quadAt b o := by
  have cut : ∀ l : List Byte, (l.drop o).take 8 = ((l.take n).drop o).take 8 := fun l => by
    rw [List.drop_take, List.take_take, Nat.min_eq_left (by omega)]
  rw [quadAt, quadAt, cut a, cut b, same]

/-- A quad's low half from the bytes that begin it. -/
theorem bits_quadAt_leBytes (v : Nat) (l : List Byte) : bits (quadAt (leBytes v 4 ++ l) 0) 0 32 = v % 2 ^ 32 := by
  refine Nat.eq_of_testBit_eq fun i => ?_
  rw [testBit_bits, Nat.testBit_mod_two_pow]
  by_cases hi : i < 32
  · have low : (4 : Nat) = (leBytes v 4).length := (leBytes_length v 4).symm
    have take : (leBytes v 4 ++ l).take 8 = leBytes v 4 ++ l.take 4 := by
      rw [List.take_append, List.take_of_length_le (by rw [← low]; decide), ← low]
    have there : bitOf (leBytes v 4 ++ l.take 4) i = v.testBit i := by
      rw [bitOf_append_left _ (by rw [← low]; omega), bitOf_leBytes _ (by omega)]
    rw [bit, quadAt, List.drop_zero, take, BitVec.getLsbD_ofNat, Nat.zero_add, leNat_testBit]
    rw [bitOf] at there
    rw [there, decide_eq_true (show i < 64 by omega), Bool.true_and]
  · rw [decide_eq_false hi, Bool.false_and, Bool.false_and]

theorem patch_take {hdr : List Byte} (crc : List Byte) (whole : hdr.length = 64) :
    (patch hdr 56 crc).take 56 = hdr.take 56 := by
  have n : (hdr.take 56).length = 56 := by simp [whole]
  rw [patch, List.append_assoc, List.take_left' n]

section
variable {hdr crc : List Byte} (whole : hdr.length = 64) (four : crc.length = 4)
include whole four

theorem patch_length : (patch hdr 56 crc).length = 64 := by
  simp only [patch, List.length_append, List.length_take, List.length_drop, whole, four]
  decide

theorem patch_drop : (patch hdr 56 crc).drop 60 = hdr.drop 60 := by
  have n : (hdr.take 56 ++ crc).length = 60 := by simp [whole, four]
  rw [patch, List.drop_left' n, four]

/-- The checksum leaves its own field out (R104). -/
theorem tileCrc_patch (data : List Byte) : tileCrc (patch hdr 56 crc) data = tileCrc hdr data := by
  rw [tileCrc, tileCrc, patch_take crc whole, patch_drop whole four]

end

/-- A tile with its own checksum passes (R104, R105). -/
theorem crcOk_patch {hdr : List Byte} (whole : hdr.length = 64) (o : Nat) (data : List Byte) :
    (⟨o, patch hdr 56 (leBytes (tileCrc hdr data).toNat 4), data⟩ : Tile).crcOk = true := by
  have n : (hdr.take 56).length = 56 := by simp [whole]
  have field_ : bits (quadAt (patch hdr 56 (leBytes (tileCrc hdr data).toNat 4)) (8 * 7)) 0 32 =
    (tileCrc hdr data).toNat := by
    rw [patch, List.append_assoc, show 8 * 7 = (hdr.take 56).length + 0 by rw [n], quadAt_append_right,
      bits_quadAt_leBytes]
    exact Nat.mod_eq_of_lt (tileCrc hdr data).isLt
  rw [Tile.crcOk, Tile.crc, Tile.q, field_, tileCrc_patch whole (leBytes_length ..), beq_self_eq_true]

/-! ## Reading a tile (R98) -/

theorem Core.readSpad_add (c : Core) (o a b : Nat) : c.readSpad o (a + b) = c.readSpad o a ++ c.readSpad (o + a) b := by
  refine List.ext_getElem (by simp [Core.readSpad_length]) fun i h h' => ?_
  rw [Core.readSpad_length] at h
  rw [← List.getD_eq_getElem _ 0 _, ← List.getD_eq_getElem _ 0 _, Core.readSpad_getD _ _ _ h]
  by_cases low : i < a
  · rw [List.getD_append _ _ _ _ (by rwa [Core.readSpad_length]), Core.readSpad_getD _ _ _ low]
  · rw [List.getD_append_right _ _ _ _ (by rw [Core.readSpad_length]; omega), Core.readSpad_length,
      Core.readSpad_getD _ _ _ (by omega), show o + a + (i - a) = o + i by omega]

/-- The tile that a header and its data make. -/
theorem readTile_eq {c : Core} {o : Nat} {hdr data : List Byte}
    (there : c.readSpad o (hdr ++ data).length = hdr ++ data)
    (whole : hdr.length = 64) (len : (⟨o, hdr, []⟩ : Tile).dataLen = data.length) (fits : data.length ≤ 8192) :
    readTile c o = ⟨o, hdr, data⟩ := by
  rw [List.length_append, whole, Core.readSpad_add] at there
  obtain ⟨header, rest⟩ := List.append_inj there (by rw [Core.readSpad_length, whole])
  rw [readTile]
  simp only [header, Tile.checkLen, len, if_pos fits, rest]

end Sys2Proof.Machine
end

section
/-! SUPPORT. The tile that a result makes: its header, its checksum and its elements (R99 to R105, R124). -/

namespace Sys2Proof.Machine

/-! ## The header of a result (R124) -/

theorem quadAt_four (a b c d : Word) (l : List Byte) :
    let h := quadBytes a ++ quadBytes b ++ quadBytes c ++ quadBytes d ++ l
    quadAt h 0 = a ∧ quadAt h 8 = b ∧ quadAt h 16 = c ∧ quadAt h 24 = d := by
  have eight : ∀ w : Word, (quadBytes w).length = 8 := fun w => leBytes_length ..
  have next : ∀ (w : Word) (l : List Byte) (o : Nat), quadAt (quadBytes w ++ l) (8 + o) = quadAt l o := fun w l o => by
    rw [← eight w, quadAt_append_right]
  simp only [List.append_assoc]
  refine ⟨quadAt_append .., ?_, ?_, ?_⟩
  · exact (next _ _ 0).trans (quadAt_append ..)
  · exact (next _ _ 8).trans ((next _ _ 0).trans (quadAt_append ..))
  · exact (next _ _ 16).trans ((next _ _ 8).trans ((next _ _ 0).trans (quadAt_append ..)))

/-- SCALE_OFFSET of a result (R124). -/
def outScaleOff (f rows cols : Nat) : Nat := if isMx f then rows * rowBytes f cols else 0

/-- SCALE_STRIDE of a result (R124). -/
def outScaleStride (f cols : Nat) : Nat := if isMx f then cols / 32 else 0

theorem outBytes_eq (f rows cols : Nat) : outBytes f rows cols =
    if rows = 0 ∨ cols = 0 then 0 else rows * rowBytes f cols + rows * outScaleStride f cols := by
  rw [outBytes, outScaleStride]
  cases isMx f <;> rfl

theorem outHeader_eq (f rows cols seq node ctx : Nat) (anchor : Int) : outHeader f rows cols seq node ctx anchor =
    quadBytes (field 0 8 f ||| field 16 16 rows ||| field 32 16 cols) ++
    quadBytes (field 0 16 (rowBytes f cols) ||| field 16 16 (outBytes f rows cols) |||
      field 32 16 (outScaleOff f rows cols) ||| field 48 16 (outScaleStride f cols)) ++
    quadBytes (field 0 32 seq ||| field 32 14 node ||| field 46 2 ctx) ++
    quadBytes (field 0 16 (if isExact f then intCode 16 anchor else 0)) ++ List.replicate 32 0 := by
  rw [outBytes_eq]
  rfl

theorem outHeader_length (f rows cols seq node ctx : Nat) (anchor : Int) :
    (outHeader f rows cols seq node ctx anchor).length = 64 := by
  simp [outHeader_eq, quadBytes]

/-- The fields of a result's header, in place of the checksum any four bytes (R99, R124). -/
theorem outHeader_fields (f rows cols seq node ctx : Nat) (anchor : Int) (o : Nat) (crc data : List Byte) :
    let t : Tile := ⟨o, patch (outHeader f rows cols seq node ctx anchor) 56 crc, data⟩
    (t.fmt = f % 2 ^ 8 ∧ t.rows = rows % 2 ^ 16 ∧ t.cols = cols % 2 ^ 16) ∧
    (t.stride = rowBytes f cols % 2 ^ 16 ∧ t.dataLen = outBytes f rows cols % 2 ^ 16 ∧
      t.scaleOff = outScaleOff f rows cols % 2 ^ 16 ∧ t.scaleStride = outScaleStride f cols % 2 ^ 16) ∧
    bits (t.q 2) 0 32 = seq % 2 ^ 32 ∧ bits (t.q 2) 32 14 = node % 2 ^ 14 ∧ bits (t.q 2) 46 2 = ctx % 2 ^ 2 ∧
    bits (t.q 3) 0 16 = (if isExact f then intCode 16 anchor else 0) % 2 ^ 16 := by
  intro t
  have quad : ∀ i, i < 4 → t.q i = quadAt (outHeader f rows cols seq node ctx anchor) (8 * i) := fun i hi =>
    quadAt_congr (patch_take crc (outHeader_length ..)) (by omega)
  obtain ⟨q0, q1, q2, q3⟩ := quadAt_four (field 0 8 f ||| field 16 16 rows ||| field 32 16 cols)
    (field 0 16 (rowBytes f cols) ||| field 16 16 (outBytes f rows cols) |||
      field 32 16 (outScaleOff f rows cols) ||| field 48 16 (outScaleStride f cols))
    (field 0 32 seq ||| field 32 14 node ||| field 46 2 ctx)
    (field 0 16 (if isExact f then intCode 16 anchor else 0)) (List.replicate 32 0)
  rw [← outHeader_eq] at q0 q1 q2 q3
  have t0 := (quad 0 (by decide)).trans q0
  have t1 := (quad 1 (by decide)).trans q1
  have t2 := (quad 2 (by decide)).trans q2
  have t3 := (quad 3 (by decide)).trans q3
  simp only [Tile.fmt, Tile.rows, Tile.cols, Tile.stride, Tile.dataLen, Tile.scaleOff, Tile.scaleStride, t0, t1, t2, t3]
  simp (disch := decide) only [bits_or, bits_field_same, bits_field_other, Nat.or_zero, Nat.zero_or, and_self]

/-! ## Formats (R100) -/

/-- The formats with the bits of their elements (R100). -/
def fmtTable : List (Nat × Nat) :=
  [(0x01, 32), (0x02, 16), (0x03, 16), (0x04, 8), (0x05, 8), (0x06, 8), (0x07, 4), (0x08, 16), (0x09, 32), (0x10, 8),
    (0x11, 8), (0x12, 6), (0x13, 6), (0x14, 4), (0x15, 8), (0x20, 64), (0x21, 128), (0x3F, 8)]

theorem fmtBits_iff (f b : Nat) : fmtBits f = some b ↔ (f, b) ∈ fmtTable := by
  constructor
  · intro h
    unfold fmtBits at h
    split at h <;> cases h <;> decide
  · have table : ∀ p ∈ fmtTable, fmtBits p.1 = some p.2 := by decide
    exact fun h => table _ h

theorem fmt_lt {f b : Nat} (h : fmtBits f = some b) : f < 2 ^ 8 := by
  have table : ∀ p ∈ fmtTable, p.1 < 2 ^ 8 := by decide
  exact table _ ((fmtBits_iff f b).1 h)

/-- Elements of whole 16-bit units fill their rows (R102). -/
theorem rowBytes_aligned {f b : Nat} (h : fmtBits f = some b) (wide : 16 ≤ b) (cols : Nat) :
    rowBytes f cols % (b / 8) = 0 := by
  have table : ∀ p ∈ fmtTable, 16 ≤ p.2 → p.2 = 16 ∨ p.2 = 32 ∨ p.2 = 64 ∨ p.2 = 128 := by decide
  rw [rowBytes, h, Option.getD_some, ceilDiv]
  obtain rfl | rfl | rfl | rfl := table _ ((fmtBits_iff f b).1 h) wide <;> omega

theorem isMx_iff (f : Nat) : isMx f = true ↔ 0x10 ≤ f ∧ f ≤ 0x15 := by simp [isMx]

/-! ## The tile of a result (R98 to R105, R124) -/

section
variable {f b rows cols : Nat} (bits_ : fmtBits f = some b) (hrows : rows < 2 ^ 16) (hcols : cols < 2 ^ 16)
  (fits : outBytes f rows cols ≤ 8192) (blocks : isMx f = true → cols % 32 = 0)
  {scales : List Nat} (hscales : scales.length = rows * outScaleStride f cols)
  (seq node ctx : Nat) (anchor : Int) (code : Nat → Nat → Nat)

/-- The data of a result of codes row by row (R101, R124). -/
def outData (f rows cols : Nat) (code : Nat → Nat → Nat) (scales : List Nat) : List Byte :=
  (grid rows cols code).flatMap (packCodes ((fmtBits f).getD 8)) ++ scales.map fun k => BitVec.ofNat 8 k

/-- The header of a result with its checksum (R104). -/
def outHdr (f rows cols seq node ctx : Nat) (anchor : Int) (data : List Byte) : List Byte :=
  patch (outHeader f rows cols seq node ctx anchor) 56
    (leBytes (tileCrc (outHeader f rows cols seq node ctx anchor) data).toNat 4)

theorem outTile_eq : outTile f rows cols seq node ctx anchor (grid rows cols code) scales =
    outHdr f rows cols seq node ctx anchor (outData f rows cols code scales) ++ outData f rows cols code scales := rfl

theorem outHdr_length (data : List Byte) : (outHdr f rows cols seq node ctx anchor data).length = 64 :=
  patch_length (outHeader_length ..) (leBytes_length ..)

include bits_ hscales in
theorem outData_length : (outData f rows cols code scales).length = outBytes f rows cols := by
  rw [outData, List.length_append, packed_length, List.length_map, hscales, outBytes_eq, bits_, Option.getD_some,
    rowBytes, bits_,
    Option.getD_some]
  split
  · rename_i empty
    obtain rfl | rfl := empty
    · rw [Nat.zero_mul, Nat.zero_mul]
    · have none : outScaleStride f 0 = 0 := by
        rw [outScaleStride]
        split <;> rfl
      rw [none, Nat.zero_mul, ceilDiv]
      simp
  · rfl

include fits in
/-- The fields of a result that fits are not cut. -/
theorem outFields_lt (some_ : rows ≠ 0 ∧ cols ≠ 0) :
    rowBytes f cols < 2 ^ 16 ∧ outScaleOff f rows cols < 2 ^ 16 := by
  rw [outBytes_eq, if_neg (by omega)] at fits
  have one := Nat.le_mul_of_pos_left (rowBytes f cols) (Nat.pos_of_ne_zero some_.1)
  rw [outScaleOff]
  refine ⟨by omega, ?_⟩
  split <;> omega

include hcols in
theorem outScaleStride_lt : outScaleStride f cols < 2 ^ 16 := by
  rw [outScaleStride]
  split <;> omega

include bits_ fits blocks in
/-- The header of a result is consistent (R102; assumption 79). -/
theorem consistent_of_fields {t : Tile} (pairs : f ≠ 0x07 ∨ cols % 2 = 0) (hf : t.fmt = f) (hr : t.rows = rows)
    (hc : t.cols = cols) (hs : t.stride = rowBytes f cols % 2 ^ 16) (hl : t.dataLen = outBytes f rows cols)
    (ho : t.scaleOff = outScaleOff f rows cols % 2 ^ 16) (hst : t.scaleStride = outScaleStride f cols) :
    t.consistent = true := by
  have len := outBytes_eq f rows cols
  rw [Tile.consistent, hf, bits_]
  simp only [hr, hc, hl, decide_eq_true fits, Bool.true_and]
  by_cases empty : rows = 0 ∨ cols = 0
  · rw [if_pos empty] at len ⊢
    rw [len, beq_self_eq_true]
  · rw [if_neg empty] at len ⊢
    obtain ⟨strideFits, offFits⟩ := outFields_lt fits (not_or.1 empty)
    rw [Nat.mod_eq_of_lt strideFits] at hs
    rw [Nat.mod_eq_of_lt offFits] at ho
    have aligned : (decide (b < 16) || rowBytes f cols % (b / 8) == 0) = true := by
      by_cases narrow : b < 16
      · rw [decide_eq_true narrow, Bool.true_or]
      · rw [rowBytes_aligned bits_ (Nat.not_lt.1 narrow), beq_self_eq_true, Bool.or_true]
    have even : (f != 0x07 || cols % 2 == 0) = true := by
      obtain h | h := pairs <;> simp [h]
    rw [hs, ho, hst, aligned, even, decide_eq_true le_rfl]
    rw [outScaleOff, outScaleStride] at *
    cases mx : isMx f with
    | false => simpa [mx] using len
    | true => simpa [mx, blocks mx] using len

/-- The tile that a reader of a result finds (R98). -/
def outRead (o f rows cols seq node ctx : Nat) (anchor : Int) (code : Nat → Nat → Nat) (scales : List Nat) : Tile :=
  ⟨o, outHdr f rows cols seq node ctx anchor (outData f rows cols code scales), outData f rows cols code scales⟩

include bits_ hrows hcols fits in
/-- The fields of a result, uncut where they name its shape (R124). -/
theorem outRead_fields (o : Nat) :
    let t := outRead o f rows cols seq node ctx anchor code scales
    (t.fmt = f ∧ t.rows = rows ∧ t.cols = cols) ∧
    (t.stride = rowBytes f cols % 2 ^ 16 ∧ t.dataLen = outBytes f rows cols ∧
      t.scaleOff = outScaleOff f rows cols % 2 ^ 16 ∧ t.scaleStride = outScaleStride f cols) ∧
    bits (t.q 2) 0 32 = seq % 2 ^ 32 ∧ bits (t.q 2) 32 14 = node % 2 ^ 14 ∧ bits (t.q 2) 46 2 = ctx % 4 ∧
    bits (t.q 3) 0 16 = if isExact f then intCode 16 anchor else 0 := by
  have code16 : (if isExact f then intCode 16 anchor else 0) < 2 ^ 16 := by
    split
    · exact intCode_lt ..
    · decide
  have fields := outHeader_fields f rows cols seq node ctx anchor o
    (leBytes (tileCrc (outHeader f rows cols seq node ctx anchor) (outData f rows cols code scales)).toNat 4)
    (outData f rows cols code scales)
  rw [Nat.mod_eq_of_lt (fmt_lt bits_), Nat.mod_eq_of_lt hrows, Nat.mod_eq_of_lt hcols,
    Nat.mod_eq_of_lt (show outBytes f rows cols < 2 ^ 16 by omega), Nat.mod_eq_of_lt (outScaleStride_lt hcols),
    Nat.mod_eq_of_lt code16] at fields
  exact fields

include bits_ hscales in
theorem outTile_length : (outTile f rows cols seq node ctx anchor (grid rows cols code) scales).length =
    64 + outBytes f rows cols := by
  rw [outTile_eq, List.length_append, outHdr_length, outData_length bits_ hscales]

include bits_ hrows hcols fits hscales in
theorem readTile_outTile {c : Core} {o : Nat}
    (there : c.readSpad o (outTile f rows cols seq node ctx anchor (grid rows cols code) scales).length =
      outTile f rows cols seq node ctx anchor (grid rows cols code) scales) :
    readTile c o = outRead o f rows cols seq node ctx anchor code scales := by
  obtain ⟨-, ⟨-, len, -⟩, -⟩ := outRead_fields bits_ hrows hcols fits seq node ctx anchor code (scales := scales) o
  have length := outData_length bits_ hscales code
  rw [outTile_eq] at there
  exact readTile_eq there (outHdr_length ..) (len.trans length.symm) (length.trans_le fits)

include bits_ hrows hcols fits in
/-- An element of a result, read back (R101). -/
theorem outRead_code (o : Nat) {r k : Nat} (hr : r < rows) (hk : k < cols) (small : code r k < 2 ^ b) :
    (outRead o f rows cols seq node ctx anchor code scales).code r k = code r k := by
  obtain ⟨⟨hf, -, -⟩, ⟨hs, -⟩, -⟩ := outRead_fields bits_ hrows hcols fits seq node ctx anchor code (scales := scales) o
  rw [Nat.mod_eq_of_lt (outFields_lt fits ⟨by omega, by omega⟩).1] at hs
  have width : (fmtBits f).getD 8 = b := by rw [bits_, Option.getD_some]
  have row : rowBytes f cols = ceilDiv (cols * b) 8 := by rw [rowBytes, bits_, Option.getD_some]
  have data : (outRead o f rows cols seq node ctx anchor code scales).data =
      (grid rows cols code).flatMap (packCodes b) ++ scales.map fun k => BitVec.ofNat 8 k := by
    rw [← width]
    rfl
  rw [Tile.code, hf, hs, width, row, data]
  exact bitsAt_packed code _ hr hk small

include bits_ hrows hcols fits hscales in
/-- The scale of an element of an MX result, read back (R101, R110). -/
theorem outRead_scale (mx : isMx f = true) (o : Nat) {r k : Nat} (hr : r < rows) (hk : k / 32 < cols / 32) :
    (outRead o f rows cols seq node ctx anchor code scales).scale r k =
      scales.getD (r * (cols / 32) + k / 32) 0 % 256 := by
  obtain ⟨-, ⟨-, -, ho, hst⟩, -⟩ := outRead_fields bits_ hrows hcols fits seq node ctx anchor code (scales := scales) o
  rw [Nat.mod_eq_of_lt (outFields_lt fits ⟨by omega, by omega⟩).2, outScaleOff, if_pos mx] at ho
  rw [outScaleStride, if_pos mx] at hst hscales
  have data : (outRead o f rows cols seq node ctx anchor code scales).data = outData f rows cols code scales := rfl
  have codes : ((grid rows cols code).flatMap (packCodes ((fmtBits f).getD 8))).length = rows * rowBytes f cols := by
    rw [packed_length, rowBytes, bits_, Option.getD_some, Option.getD_some]
  have inside : r * (cols / 32) + k / 32 < scales.length := by
    rw [hscales]
    calc r * (cols / 32) + k / 32 < r * (cols / 32) + cols / 32 := Nat.add_lt_add_left hk _
      _ = (r + 1) * (cols / 32) := (Nat.succ_mul ..).symm
      _ ≤ rows * (cols / 32) := Nat.mul_le_mul_right _ hr
  have past : rows * rowBytes f cols + r * (cols / 32) + k / 32 - rows * rowBytes f cols =
      r * (cols / 32) + k / 32 := by omega
  have after : ((grid rows cols code).flatMap (packCodes ((fmtBits f).getD 8))).length ≤
      rows * rowBytes f cols + r * (cols / 32) + k / 32 := by
    rw [codes, Nat.add_assoc]
    exact Nat.le_add_right ..
  rw [Tile.scale, ho, hst, data, outData, List.getD_append_right _ _ _ _ after, codes, past,
    List.getD_eq_getElem _ _ (by rw [List.length_map]; exact inside), List.getElem_map,
    List.getD_eq_getElem _ _ inside]
  rfl

include bits_ hrows hcols fits blocks hscales in
/-- A result of element codes and scales is the tile that R124 asks for. -/
theorem tileIs_outTile (small : ∀ r k, r < rows → k < cols → code r k < 2 ^ b) (hseq : seq < 2 ^ 32) :
    TileIs (outTile f rows cols seq node ctx anchor (grid rows cols code) scales) f rows cols seq node ctx
      (if isExact f then intCode 16 anchor else 0) code := by
  intro c o there
  obtain ⟨⟨hf, hr, hc⟩, ⟨hs, hl, ho, hst⟩, hq, hn, hx, ha⟩ :=
    outRead_fields bits_ hrows hcols fits seq node ctx anchor code (scales := scales) o
  rw [Nat.mod_eq_of_lt hseq] at hq
  rw [readTile_outTile bits_ hrows hcols fits hscales seq node ctx anchor code there,
    outTile_length bits_ hscales]
  refine ⟨congrArg (64 + ·) hl.symm, hf, hr, hc, hq, hn, hx, ha, crcOk_patch (outHeader_length ..) o _,
    fun pairs => consistent_of_fields bits_ fits blocks pairs hf hr hc hs hl ho hst, fun someRow someCol => ⟨?_, ?_⟩⟩
  · rw [hs, Nat.mod_eq_of_lt (outFields_lt fits ⟨someRow, someCol⟩).1]
  · exact fun r k hr hk => outRead_code bits_ hrows hcols fits seq node ctx anchor code o hr hk (small r k hr hk)

end

end Sys2Proof.Machine
end

section
/-! SUPPORT. The checks at use fail as R106 orders them, and which descriptors are wrong (R106, R121). -/

namespace Sys2Proof.Machine

/-! ## First entries -/

theorem firstOf_iff {α : Type} {l : List α} {p : α → Prop} {x : α} :
    FirstOf l p x ↔ p x ∧ ∃ a b, l = a ++ x :: b ∧ ∀ y ∈ a, ¬ p y := by
  constructor
  · rintro ⟨i, at_, hit, before⟩
    obtain ⟨lt, rfl⟩ := List.getElem?_eq_some_iff.1 at_
    refine ⟨hit, l.take i, l.drop (i + 1), ?_, fun y hy => ?_⟩
    · rw [List.getElem_cons_drop, List.take_append_drop]
    · obtain ⟨j, hj, rfl⟩ := List.mem_take_iff_getElem.1 hy
      exact before j _ (by omega) (List.getElem?_eq_getElem _)
  · rintro ⟨hit, a, b, rfl, before⟩
    refine ⟨a.length, by simp, hit, fun j y hj at_ => before y ?_⟩
    rw [List.getElem?_append_left hj] at at_
    exact List.mem_of_getElem? at_

theorem find?_eq_some_iff_firstOf {α : Type} {l : List α} {q : α → Bool} {p : α → Prop}
    (same : ∀ x, q x = true ↔ p x) {x : α} :
    l.find? q = some x ↔ FirstOf l p x := by
  rw [firstOf_iff, List.find?_eq_some_iff_append, same]
  simp only [Bool.not_eq_true', ← same, Bool.not_eq_true]

theorem firstOf_map {α β : Type} {l : List α} {f : α → β} {p : β → Prop} {y : β} :
    FirstOf (l.map f) p y ↔ ∃ x, f x = y ∧ FirstOf l (fun x => p (f x)) x := by
  constructor
  · rintro ⟨i, at_, hit, before⟩
    rw [List.getElem?_map, Option.map_eq_some_iff] at at_
    obtain ⟨x, at_, rfl⟩ := at_
    exact ⟨x, rfl, i, at_, hit, fun j z hj hz => before j _ hj (by rw [List.getElem?_map, hz]; rfl)⟩
  · rintro ⟨x, rfl, i, at_, hit, before⟩
    refine ⟨i, by rw [List.getElem?_map, at_]; rfl, hit, fun j z hj hz => ?_⟩
    rw [List.getElem?_map, Option.map_eq_some_iff] at hz
    obtain ⟨w, hz, rfl⟩ := hz
    exact before j w hj hz

/-! ## Parity (R52, R74) -/

theorem firstBad_eq_none_iff (c : Core) {a n : Nat} (some_ : 0 < n) :
    firstBad c.badSpad a n = none ↔ c.parityOk a n := by
  refine ⟨fun h => ?_, firstBad_none⟩
  rw [← Option.not_isSome_iff_eq_none, firstBad_isSome_iff] at h
  intro w hw
  by_contra bad
  exact h ⟨some_, w, hw, by omega, by omega⟩

/-- The least bad word among those of some bytes. -/
theorem firstBad_eq_some_iff (c : Core) {a n : Nat} (some_ : 0 < n) {b : Nat} : firstBad c.badSpad a n = some b ↔
    ∃ w, b = 8 * w ∧ (w ∈ c.badSpad ∧ a ≤ 8 * w + 7 ∧ 8 * w < a + n) ∧ ∀ x ∈ c.badSpad, a ≤ 8 * x + 7 → w ≤ x := by
  rw [firstBad_eq, if_neg some_.ne', Option.map_eq_some_iff]
  refine exists_congr fun w => ?_
  rw [List.min?_eq_some_iff]
  simp only [List.mem_filter, Bool.and_eq_true, decide_eq_true_iff]
  constructor
  · rintro ⟨⟨⟨hw, low, high⟩, least⟩, rfl⟩
    refine ⟨rfl, ⟨hw, by omega, by omega⟩, fun x hx above => ?_⟩
    by_contra below
    exact below (least x ⟨hx, by omega, by omega⟩)
  · rintro ⟨rfl, ⟨hw, low, high⟩, least⟩
    exact ⟨⟨⟨hw, by omega, by omega⟩, fun x ⟨hx, above, _⟩ => least x hx (by omega)⟩, rfl⟩

/-! ## The order of the checks (R106) -/

/-- A place of a descriptor as the statements write it. -/
def Span.triple (p : Span) : Nat × Nat × Nat := (p.off, p.len, p.align)

section
variable {c : Core} {desc : Nat} {spans : List Span} {offs : List Nat} {bad verify : Bool}

theorem spans_inside_iff : spans.find? (fun p => decide (spadEnd < p.off + p.len)) = none ↔
    ∀ p ∈ spans.map Span.triple, p.1 + p.2.1 ≤ 0x20_0000 := by
  rw [List.find?_eq_none, List.forall_mem_map]
  refine forall₂_congr fun p _ => ?_
  rw [decide_eq_true_iff, not_lt]
  rfl

theorem spans_aligned_iff : spans.find? (fun p => decide (p.off % p.align ≠ 0)) = none ↔
    ∀ p ∈ spans.map Span.triple, p.1 % p.2.2 = 0 := by
  simp [List.find?_eq_none, Span.triple]

theorem tiles_parity_iff :
    (offs.map (readTile c)).findSome? (fun t => firstBad c.badSpad t.off (64 + t.checkLen)) = none ↔
    ∀ o ∈ offs, c.parityOk o (tileLen (readTile c o)) := by
  rw [List.findSome?_map, List.findSome?_eq_none_iff]
  exact forall₂_congr fun o _ => firstBad_eq_none_iff c (Nat.add_pos_left (by decide) _)

theorem tiles_parity_first {a : Nat} :
    (offs.map (readTile c)).findSome? (fun t => firstBad c.badSpad t.off (64 + t.checkLen)) = some a ↔
    ∃ o w, a = 8 * w ∧ FirstOf offs (fun o => ¬ c.parityOk o (tileLen (readTile c o))) o ∧
      (w ∈ c.badSpad ∧ o ≤ 8 * w + 7 ∧ 8 * w < o + tileLen (readTile c o)) ∧
      ∀ x ∈ c.badSpad, o ≤ 8 * x + 7 → w ≤ x := by
  have pos : ∀ o, 0 < tileLen (readTile c o) := fun o => Nat.add_pos_left (by decide) _
  have there : ∀ o, firstBad c.badSpad (readTile c o).off (64 + (readTile c o).checkLen) =
      firstBad c.badSpad o (tileLen (readTile c o)) := fun o => rfl
  simp only [List.findSome?_map, List.findSome?_eq_some_iff, Function.comp_apply, there, firstOf_iff]
  constructor
  · rintro ⟨l, o, r, split, hit, before⟩
    obtain ⟨w, is, hw, least⟩ := (firstBad_eq_some_iff c (pos o)).1 hit
    refine ⟨o, w, is, ⟨fun ok => ?_, l, r, split, fun y hy =>
      not_not.2 ((firstBad_eq_none_iff c (pos y)).1 (before y hy))⟩,
      hw, least⟩
    rw [firstBad_none ok] at hit
    exact nomatch hit
  · rintro ⟨o, w, is, ⟨-, l, r, split, before⟩, hw, least⟩
    exact ⟨l, o, r, split, (firstBad_eq_some_iff c (pos o)).2 ⟨w, is, hw, least⟩,
      fun y hy => firstBad_none (not_not.1 (before y hy))⟩

theorem tiles_find_first {q : Tile → Bool} {t : Tile} : (offs.map (readTile c)).find? (fun t => !q t) = some t ↔
    ∃ o, readTile c o = t ∧ FirstOf offs (fun o => q (readTile c o) = false) o := by
  rw [find?_eq_some_iff_firstOf (p := fun t => q t = false) (fun x => by simp), firstOf_map]

theorem tiles_find_none {q : Tile → Bool} : (offs.map (readTile c)).find? (fun t => !q t) = none ↔
    ∀ o ∈ offs, q (readTile c o) = true := by
  simp [List.find?_eq_none]

/-- What holds when every check has passed (R106). -/
theorem checkUse_none (h : checkUse c desc spans (offs.map (readTile c)) bad verify = none) :
    bad = false ∧ ∀ o ∈ offs, (readTile c o).consistent = true := by
  rw [checkUse] at h
  split at h
  · exact nomatch h
  split at h
  · exact nomatch h
  split at h
  · exact nomatch h
  split at h
  · exact nomatch h
  rename_i fine
  split at h
  · exact nomatch h
  rename_i shaped
  exact ⟨Bool.eq_false_iff.2 fine, tiles_find_none.1 shaped⟩

/-- The checks fail as R106 says. -/
theorem useFails_of_checkUse {code addr : Nat}
    (h : checkUse c desc spans (offs.map (readTile c)) bad verify = some (code, addr)) :
    UseFails c desc (spans.map Span.triple) offs (bad = true) verify code addr := by
  rw [checkUse] at h
  split at h
  · rename_i p first
    cases h
    refine .range p.triple (firstOf_map.2 ⟨p, rfl, (find?_eq_some_iff_firstOf fun x => ?_).1 first⟩)
    rw [decide_eq_true_iff]
    rfl
  rename_i inside
  split at h
  · rename_i p first
    cases h
    refine .align p.triple (spans_inside_iff.1 inside)
      (firstOf_map.2 ⟨p, rfl, (find?_eq_some_iff_firstOf fun x => ?_).1 first⟩)
    rw [decide_eq_true_iff]
    rfl
  rename_i aligned
  have placed : ∀ p ∈ spans.map Span.triple, p.1 + p.2.1 ≤ 0x20_0000 ∧ p.1 % p.2.2 = 0 :=
    fun p hp => ⟨spans_inside_iff.1 inside p hp, spans_aligned_iff.1 aligned p hp⟩
  split at h
  · rename_i a first
    cases h
    obtain ⟨o, w, rfl, first, hit, least⟩ := tiles_parity_first.1 first
    exact .parity o w placed first hit least
  rename_i parity
  have parity := tiles_parity_iff.1 parity
  split at h
  · rename_i wrong
    cases h
    exact .desc placed parity wrong
  rename_i fine
  split at h
  · rename_i t first
    cases h
    obtain ⟨o, rfl, here⟩ := tiles_find_first.1 first
    exact .header o placed parity fine here
  rename_i shaped
  have shaped := tiles_find_none.1 shaped
  split at h
  · rename_i t first
    cases h
    cases tested : verify with
    | false =>
      rw [tested] at first
      exact nomatch first
    | true =>
      rw [tested, if_pos rfl] at first
      obtain ⟨o, rfl, here⟩ := tiles_find_first.1 first
      exact .checksum o placed parity fine shaped rfl here
  · exact nomatch h

/-- What fails as R106 says is what the checks find. -/
theorem checkUse_of_useFails {code addr : Nat}
    (h : UseFails c desc (spans.map Span.triple) offs (bad = true) verify code addr) :
    checkUse c desc spans (offs.map (readTile c)) bad verify = some (code, addr) := by
  have inside : (∀ p ∈ spans.map Span.triple, p.1 + p.2.1 ≤ 0x20_0000 ∧ p.1 % p.2.2 = 0) →
      spans.find? (fun p => decide (spadEnd < p.off + p.len)) = none :=
    fun placed => spans_inside_iff.2 fun p hp => (placed p hp).1
  have aligned : (∀ p ∈ spans.map Span.triple, p.1 + p.2.1 ≤ 0x20_0000 ∧ p.1 % p.2.2 = 0) →
      spans.find? (fun p => decide (p.off % p.align ≠ 0)) = none :=
    fun placed => spans_aligned_iff.2 fun p hp => (placed p hp).2
  rw [checkUse]
  cases h with
  | range p first =>
    obtain ⟨q, rfl, here⟩ := firstOf_map.1 first
    have found : spans.find? (fun p => decide (spadEnd < p.off + p.len)) = some q :=
      (find?_eq_some_iff_firstOf fun x => by rw [decide_eq_true_iff]; rfl).2 here
    rw [found]
    rfl
  | align p fit first =>
    obtain ⟨q, rfl, here⟩ := firstOf_map.1 first
    have found : spans.find? (fun p => decide (p.off % p.align ≠ 0)) = some q :=
      (find?_eq_some_iff_firstOf fun x => by rw [decide_eq_true_iff]; rfl).2 here
    rw [spans_inside_iff.2 fit, found]
    rfl
  | parity o w placed first hit least =>
    rw [inside placed, aligned placed, tiles_parity_first.2 ⟨o, w, rfl, first, hit, least⟩]
  | desc placed parity wrong =>
    rw [inside placed, aligned placed, tiles_parity_iff.2 parity]
    exact if_pos wrong
  | header _ placed parity fine first =>
    rw [inside placed, aligned placed, tiles_parity_iff.2 parity]
    simp only
    rw [if_neg fine, tiles_find_first.2 ⟨addr, rfl, first⟩]
    rfl
  | checksum _ placed parity fine shaped tested first =>
    rw [inside placed, aligned placed, tiles_parity_iff.2 parity]
    simp only
    rw [if_neg fine, tiles_find_none.2 shaped]
    simp only
    rw [if_pos tested, tiles_find_first.2 ⟨addr, rfl, first⟩]
    rfl

theorem checkUse_iff {code addr : Nat} : checkUse c desc spans (offs.map (readTile c)) bad verify = some (code, addr) ↔
    UseFails c desc (spans.map Span.triple) offs (bad = true) verify code addr :=
  ⟨useFails_of_checkUse, checkUse_of_useFails⟩

end

/-! ## Descriptors (R121) -/

theorem onlyBits_iff (w mask : Word) : onlyBits w mask = true ↔ ∀ i, i < 64 → mask.getLsbD i = false →
    bit w i = false := by
  rw [onlyBits, beq_iff_eq]
  constructor
  · intro none i hi out
    have := congrArg (BitVec.getLsbD · i) none
    simp only [BitVec.getLsbD_and, BitVec.getLsbD_not, out, hi, decide_true, Bool.not_false, Bool.and_true] at this
    exact this.trans BitVec.getLsbD_zero
  · intro h
    refine BitVec.eq_of_getLsbD_eq fun i hi => ?_
    have := h i hi
    rw [bit] at this
    rw [BitVec.getLsbD_and, BitVec.getLsbD_not, decide_eq_true hi, Bool.true_and]
    cases out : mask.getLsbD i with
    | false =>
      rw [show w.getLsbD i = false from this out, Bool.false_and]
      exact BitVec.getLsbD_zero.symm
    | true =>
      rw [Bool.not_true, Bool.and_false]
      exact BitVec.getLsbD_zero.symm

theorem msk_getLsbD {high low : Nat} (h : low ≤ high) (hi : high < 64) (i : Nat) :
    (msk high low).getLsbD i = true ↔ low ≤ i ∧ i ≤ high := by
  rw [msk, maskAt_getLsbD _ _ _ (by omega), Bool.and_eq_true, decide_eq_true_iff, decide_eq_true_iff]
  omega

/-- A descriptor that no operation takes (R121). -/
theorem commonOk_iff (d : Desc) : d.commonOk = false ↔ DescWrong d := by
  have pair : ∀ i, (msk 20 0 ||| msk 52 32).getLsbD i = false ↔ ¬ (i ≤ 20 ∨ (32 ≤ i ∧ i ≤ 52)) := fun i => by
    rw [← Bool.not_eq_true, BitVec.getLsbD_or, Bool.or_eq_true, msk_getLsbD (by decide) (by decide),
      msk_getLsbD (by decide) (by decide)]
    omega
  have third : ∀ i, (msk 28 0 ||| msk 52 32 ||| msk 61 56).getLsbD i = false ↔
      ¬ (i ≤ 28 ∨ (32 ≤ i ∧ i ≤ 52) ∨ (56 ≤ i ∧ i ≤ 61)) := fun i => by
    rw [← Bool.not_eq_true, BitVec.getLsbD_or, BitVec.getLsbD_or, Bool.or_eq_true, Bool.or_eq_true,
      msk_getLsbD (by decide) (by decide), msk_getLsbD (by decide) (by decide), msk_getLsbD (by decide) (by decide)]
    omega
  have fourth : ∀ i, (msk 31 0 ||| msk 52 32).getLsbD i = false ↔ ¬ (i ≤ 31 ∨ (32 ≤ i ∧ i ≤ 52)) := fun i => by
    rw [← Bool.not_eq_true, BitVec.getLsbD_or, Bool.or_eq_true, msk_getLsbD (by decide) (by decide),
      msk_getLsbD (by decide) (by decide)]
    omega
  rw [← Bool.not_eq_true, ← not_iff_not, not_not, DescWrong]
  simp only [Desc.commonOk, Bool.and_eq_true, onlyBits_iff, pair, third, fourth, beq_iff_eq, Bool.or_eq_true,
    Desc.statusEn,
    Desc.status, Desc.acc, Desc.accIn]
  constructor
  · rintro ⟨⟨⟨⟨⟨⟨⟨⟨⟨h0, h1⟩, h2⟩, h3⟩, h4⟩, h5⟩, h6⟩, h7⟩, status⟩, acc⟩
      (⟨i, hi, ⟨out, set⟩ | ⟨out, set⟩ | ⟨out, set⟩⟩ | used | ⟨off, named⟩ | ⟨off, named⟩)
    · rcases set with set | set
      · exact Bool.false_ne_true ((h0 i hi out).symm.trans set)
      · exact Bool.false_ne_true ((h1 i hi out).symm.trans set)
    · exact Bool.false_ne_true ((h2 i hi out).symm.trans set)
    · exact Bool.false_ne_true ((h3 i hi out).symm.trans set)
    · exact used ⟨h4, h5, h6, h7⟩
    · exact named (status.resolve_left (Bool.eq_false_iff.1 off))
    · exact named (acc.resolve_left (Bool.eq_false_iff.1 off))
  · intro fine
    obtain ⟨noBit, fine⟩ := not_or.1 fine
    obtain ⟨quads, fine⟩ := not_or.1 fine
    obtain ⟨status, acc⟩ := not_or.1 fine
    obtain ⟨h4, h5, h6, h7⟩ := not_not.1 quads
    have clear : ∀ {i : Nat} {w : Word}, ¬ bit w i = true → bit w i = false := Bool.eq_false_iff.2
    refine ⟨⟨⟨⟨⟨⟨⟨⟨⟨fun i hi out => clear fun set => noBit ⟨i, hi, .inl ⟨out, .inl set⟩⟩,
      fun i hi out => clear fun set => noBit ⟨i, hi, .inl ⟨out, .inr set⟩⟩⟩,
      fun i hi out => clear fun set => noBit ⟨i, hi, .inr (.inl ⟨out, set⟩)⟩⟩,
      fun i hi out => clear fun set => noBit ⟨i, hi, .inr (.inr ⟨out, set⟩)⟩⟩, h4⟩, h5⟩, h6⟩, h7⟩, ?_⟩, ?_⟩
    · exact or_iff_not_imp_left.2 fun off => not_not.1 fun named => status ⟨clear off, named⟩
    · exact or_iff_not_imp_left.2 fun off => not_not.1 fun named => acc ⟨clear off, named⟩

end Sys2Proof.Machine
end

section
/-! SUPPORT. When each tensor operation faults (R102, R106, R121, R123, R129 to R131). -/

namespace Sys2Proof.Machine

/-! ## Headers and shapes (R102) -/

theorem rowBytes_eq {f b : Nat} (h : fmtBits f = some b) (cols : Nat) : rowBytes f cols = (cols * b + 7) / 8 := by
  rw [rowBytes, h]
  rfl

/-- A header is consistent where R102 says so. -/
theorem consistent_iff (t : Tile) : t.consistent = true ↔ ∃ b, fmtBits t.fmt = some b ∧ HeaderConsistent t b := by
  rw [Tile.consistent]
  cases bits_ : fmtBits t.fmt with
  | none => simp
  | some b =>
    have same : (∃ b', some b = some b' ∧ HeaderConsistent t b') ↔ HeaderConsistent t b :=
      ⟨fun ⟨b', is, h⟩ => Option.some.inj is ▸ h, fun h => ⟨b, rfl, h⟩⟩
    rw [same, HeaderConsistent]
    simp only [Bool.and_eq_true, decide_eq_true_iff]
    refine and_congr_right fun _ => ?_
    by_cases empty : t.rows = 0 ∨ t.cols = 0
    · rw [if_pos empty, if_pos empty, beq_iff_eq]
    · rw [if_neg empty, if_neg empty, rowBytes_eq bits_]
      simp only [← isMx_iff]
      cases isMx t.fmt with
      | false =>
        simp only [Bool.and_eq_true, Bool.or_eq_true, bne_iff_ne, beq_iff_eq, decide_eq_true_iff, Bool.not_false,
          true_or, Bool.false_eq_true, if_false, and_true, true_and, ← not_lt, imp_iff_not_or, not_not, and_assoc,
          not_false_eq_true, not_true_eq_false, false_or, ne_eq]
      | true =>
        simp only [Bool.and_eq_true, Bool.or_eq_true, bne_iff_ne, beq_iff_eq, decide_eq_true_iff, Bool.not_true,
          true_or, Bool.false_eq_true, if_true, true_and, ← not_lt, imp_iff_not_or, not_not, and_assoc, not_false_eq_true,
          not_true_eq_false, false_or, ne_eq]

/-- The data bytes of a result (R102, R124). -/
theorem outBytes_formula (f rows cols : Nat) : outBytes f rows cols = rows * ((cols * (fmtBits f).getD 0 + 7) / 8 +
    if 0x10 ≤ f ∧ f ≤ 0x15 then cols / 32 else 0) := by
  have stride : outScaleStride f cols = if 0x10 ≤ f ∧ f ≤ 0x15 then cols / 32 else 0 := by
    rw [outScaleStride]
    exact if_congr (isMx_iff f) rfl rfl
  have row : rowBytes f cols = (cols * (fmtBits f).getD 0 + 7) / 8 := rfl
  rw [outBytes_eq, stride, row, Nat.mul_add]
  by_cases empty : rows = 0 ∨ cols = 0
  · rw [if_pos empty]
    obtain rfl | rfl := empty
    · simp
    · simp
  · rw [if_neg empty]

/-! ## Fields -/

theorem bits_add_eq_zero_iff (w : Word) (lo a b : Nat) :
    bits w lo (a + b) = 0 ↔ bits w lo a = 0 ∧ bits w (lo + a) b = 0 := by
  have low := bits_low w lo (a + b) a (Nat.le_add_right ..)
  have high := bits_part w lo (a + b) a b le_rfl
  constructor
  · intro zero
    rw [zero] at low high
    exact ⟨by rw [← low, Nat.zero_mod], by rw [← high, Nat.zero_div, Nat.zero_mod]⟩
  · rintro ⟨lowZero, highZero⟩
    rw [lowZero] at low
    rw [highZero, Nat.mod_eq_of_lt (Nat.div_lt_of_lt_mul (by rw [← pow_add]; exact bits_lt ..))] at high
    have := Nat.div_add_mod (bits w lo (a + b)) (2 ^ a)
    rw [high, low, Nat.mul_zero] at this
    exact this.symm

theorem bits_one_eq_zero_iff (w : Word) (i : Nat) : bits w i 1 = 0 ↔ bit w i = false := by
  rw [bits_one]
  cases bit w i <;> decide

/-- TRANSPOSE and SEAL beside each other. -/
theorem turnedOrSeal_iff (d : Desc) : bits d.d2 27 2 ≠ 0 ↔ d.transpose = true ∨ d.isSeal = true := by
  rw [ne_eq, bits_add_eq_zero_iff d.d2 27 1 1, bits_one_eq_zero_iff, bits_one_eq_zero_iff, not_and_or,
    Bool.not_eq_false,
    Bool.not_eq_false]
  rfl

/-- DEPTH and LOG2_L beside each other. -/
theorem depthOrLog_iff (d : Desc) : bits d.d2 56 6 ≠ 0 ↔ d.depth ≠ 0 ∨ d.log2L ≠ 0 := by
  rw [ne_eq, bits_add_eq_zero_iff d.d2 56 4 2, not_and_or]
  rfl

theorem anchor_eq_zero_iff (d : Desc) : d.anchor = 0 ↔ bits d.d2 0 16 = 0 := by
  rw [Desc.anchor]
  constructor
  · intro zero
    have := intOf_emod (bits_lt d.d2 0 16)
    rw [zero, Int.zero_emod] at this
    omega
  · intro zero
    rw [zero]
    rfl

theorem dotIn_false_iff (f : Nat) : dotIn f = false ↔
    f ∉ [0x02, 0x03, 0x04, 0x05, 0x06, 0x07, 0x10, 0x11, 0x12, 0x13, 0x14, 0x15] := by
  rw [← Bool.not_eq_true, not_iff_not, dotIn, Bool.or_eq_true, isMx_iff, Bool.and_eq_true, decide_eq_true_iff,
    decide_eq_true_iff]
  simp only [List.mem_cons, List.not_mem_nil, or_false]
  omega

theorem isExact_iff (f : Nat) : isExact f = true ↔ f = 0x20 ∨ f = 0x21 := by simp [isExact]

theorem dotOut_false_iff (f : Nat) : dotOut f = false ↔ f ∉ [0x01, 0x02, 0x03, 0x04, 0x05, 0x06, 0x09, 0x20, 0x21] := by
  rw [← Bool.not_eq_true, not_iff_not, dotOut]
  simp only [Bool.or_eq_true, isExact_iff, Bool.and_eq_true, decide_eq_true_iff, beq_iff_eq, List.mem_cons,
    List.not_mem_nil, or_false]
  omega

theorem convFmt_false_iff (f : Nat) :
    convFmt f = false ↔ ¬ ((1 ≤ f ∧ f ≤ 9) ∨ (0x10 ≤ f ∧ f ≤ 0x15) ∨ f = 0x20 ∨ f = 0x21) := by
  have known : (fmtBits f).isSome = true ↔ (1 ≤ f ∧ f ≤ 9) ∨ (0x10 ≤ f ∧ f ≤ 0x15) ∨ f = 0x20 ∨ f = 0x21 ∨
    f = 0x3F := by
    rw [Option.isSome_iff_exists]
    simp only [fmtBits_iff, fmtTable, List.mem_cons, Prod.mk.injEq, List.not_mem_nil, or_false, exists_or, exists_and_left,
      exists_eq, and_true]
    omega
  rw [← Bool.not_eq_true, not_iff_not, convFmt, Bool.and_eq_true, known, bne_iff_ne]
  omega

/-- An EXACT result of the other width than WIDE (R123). -/
theorem otherWidth_iff (f : Nat) (wide : Bool) : (isExact f && f != exactFmt wide) = true ↔
    (f = 0x20 ∧ wide = true) ∨ (f = 0x21 ∧ ¬ wide = true) := by
  rw [Bool.and_eq_true, isExact_iff, bne_iff_ne, exactFmt]
  cases wide
  · simp only [Bool.false_eq_true, if_false, and_false, false_or, not_false_eq_true, and_true]
    omega
  · simp only [if_true, and_true, not_true_eq_false, and_false, or_false]
    omega

/-! ## An operation and its checks -/

/-- A result, or the fault that the checks before it found. -/
def useResult (x : Option (Nat × Nat)) (r : TResult) : TResult :=
  match x with
  | some (code, addr) => .fault code addr
  | none => r

theorem useResult_fault_iff {x : Option (Nat × Nat)} {out : List Byte} {status code addr : Nat} :
    useResult x (.ok out status) = .fault code addr ↔ x = some (code, addr) := by
  rcases x with _ | ⟨c, a⟩
  · simp [useResult]
  · simp [useResult]

theorem useResult_ok_iff {x : Option (Nat × Nat)} {r : TResult} {out : List Byte} {status : Nat} :
    useResult x r = .ok out status ↔ x = none ∧ r = .ok out status := by
  rcases x with _ | ⟨c, a⟩
  · simp [useResult]
  · simp [useResult]

/-- The tile of accumulators, where the descriptor names one (R121). -/
def accOffs (d : Desc) : List Nat := if d.acc then [d.accIn] else []

/-- The places of an operation in the order of R106. -/
def usePlaces (c : Core) (d : Desc) (offs : List Nat) (len : Nat) : List (Nat × Nat × Nat) :=
  offs.map (fun o => (o, tileLen (readTile c o), 64)) ++ [(d.out, len, 64)] ++
    (if bit d.d2 26 then [(bits d.d2 32 21, 8, 8)] else [])

theorem usePlaces_eq (c : Core) (d : Desc) (offs : List Nat) (f rows cols : Nat) :
    (((offs.map (readTile c)).map Tile.span ++ [outSpan d.out f rows cols] ++ d.statusSpan).map Span.triple) =
      usePlaces c d offs (resultLen f rows cols) := by
  have status : d.statusSpan.map Span.triple = if bit d.d2 26 then [(bits d.d2 32 21, 8, 8)] else [] := by
    rw [Desc.statusSpan, apply_ite (List.map Span.triple)]
    rfl
  rw [List.map_append, List.map_append, status, List.map_map, List.map_map]
  rfl

theorem readTile_accOffs (c : Core) (d : Desc) : (accOffs d).map (readTile c) =
    if d.acc then [readTile c d.accIn] else [] := by
  rw [accOffs, apply_ite (List.map (readTile c))]
  rfl

/-- The tile of accumulators does not agree (R123, R129). -/
def accsBad (c : Core) (d : Desc) (f rows cols : Nat) : Bool :=
  (if d.acc then [readTile c d.accIn] else []).any fun t =>
    !(t.fmt == f && t.rows == rows && t.cols == cols && t.anchor == d.anchor)

theorem accsBad_iff (c : Core) (d : Desc) (f rows cols : Nat) :
    accsBad c d f rows cols = true ↔ bit d.d2 24 = true ∧ AccWrong (readTile c d.accIn) f rows cols d.anchor := by
  have acc : bit d.d2 24 = d.acc := rfl
  rw [accsBad, acc, AccWrong]
  cases d.acc with
  | false => simp
  | true =>
    simp only [if_true, List.any_cons, List.any_nil, Bool.or_false, Bool.not_eq_true', Bool.and_eq_false_iff,
      beq_eq_false_iff_ne,
      true_and, or_assoc]

/-! ## DOT (R123) -/

/-- The descriptor of a DOT or the agreement of its tiles is wrong. -/
def dotBad (c : Core) (d : Desc) : Bool :=
  let a := readTile c d.in0
  let b := readTile c d.in1
  !(d.commonOk && d.in2 == 0 && !d.transpose && !d.isSeal && d.depth == 0 && d.log2L == 0 &&
      dotIn a.fmt && dotIn b.fmt && a.cols == b.cols && dotOut d.outFmt &&
      !(isExact d.outFmt && d.outFmt != exactFmt d.wide) &&
      decide (outBytes d.outFmt a.rows b.rows ≤ 8192)) || accsBad c d (exactFmt d.wide) a.rows b.rows

/-- Element (i, j) of a DOT's accumulators. -/
def dotAcc (c : Core) (d : Desc) (i j : Nat) : Nat :=
  dotElem d.wide d.anchor (readTile c d.in0) (readTile c d.in1)
    (if d.acc then startAcc d.wide ((readTile c d.accIn).code i j) else 0) i j

theorem dotRun_eq (c : Core) (node ctx desc : Nat) (d : Desc) :
    let a := readTile c d.in0
    let b := readTile c d.in1
    let res := grid a.rows b.rows (dotAcc c d)
    let r := convertAccs d.outFmt d.wide d.anchor res
    dotRun c node ctx desc d = useResult (checkUse c desc
      ((([d.in0, d.in1] ++ accOffs d).map (readTile c)).map Tile.span ++ [outSpan d.out d.outFmt a.rows b.rows] ++
        d.statusSpan)
      (([d.in0, d.in1] ++ accOffs d).map (readTile c)) (dotBad c d) true)
      (.ok (outTile d.outFmt a.rows b.rows d.outSeq node ctx d.anchor r.1 []) (accFlags res ||| r.2)) := by
  rw [List.map_append, readTile_accOffs]
  rfl

theorem dotBad_iff (c : Core) (d : Desc) :
    let x := readTile c d.in0
    let y := readTile c d.in1
    dotBad c d = true ↔ DescWrong d ∨ d.in2 ≠ 0 ∨ bits d.d2 27 2 ≠ 0 ∨ bits d.d2 56 6 ≠ 0 ∨
      (∃ t ∈ [x, y], t.fmt ∉ [0x02, 0x03, 0x04, 0x05, 0x06, 0x07, 0x10, 0x11, 0x12, 0x13, 0x14, 0x15]) ∨
      x.cols ≠ y.cols ∨ d.outFmt ∉ [0x01, 0x02, 0x03, 0x04, 0x05, 0x06, 0x09, 0x20, 0x21] ∨
        (d.outFmt = 0x20 ∧ d.wide = true) ∨
      (d.outFmt = 0x21 ∧ ¬ d.wide = true) ∨ 8192 < outBytes d.outFmt x.rows y.rows ∨
      (bit d.d2 24 = true ∧ AccWrong (readTile c d.accIn) (if d.wide then 0x21 else 0x20) x.rows y.rows d.anchor) := by
  intro x y
  have inputs : (∃ t ∈ [x, y], t.fmt ∉ [0x02, 0x03, 0x04, 0x05, 0x06, 0x07, 0x10, 0x11, 0x12, 0x13, 0x14, 0x15]) ↔
      dotIn x.fmt = false ∨ dotIn y.fmt = false := by
    simp only [List.exists_mem_cons_iff, ← dotIn_false_iff, List.not_mem_nil, false_and, exists_false, or_false]
  have widths : (d.outFmt = 0x20 ∧ d.wide = true) ∨ (d.outFmt = 0x21 ∧ ¬ d.wide = true) ∨
    8192 < outBytes d.outFmt x.rows y.rows ∨
      (bit d.d2 24 = true ∧ AccWrong (readTile c d.accIn) (if d.wide then 0x21 else 0x20) x.rows y.rows d.anchor) ↔
      (isExact d.outFmt && d.outFmt != exactFmt d.wide) = true ∨ 8192 < outBytes d.outFmt x.rows y.rows ∨
      (bit d.d2 24 = true ∧ AccWrong (readTile c d.accIn) (exactFmt d.wide) x.rows y.rows d.anchor) := by
    rw [otherWidth_iff, or_assoc]
    rfl
  rw [inputs, ← dotOut_false_iff, widths, turnedOrSeal_iff, depthOrLog_iff, ← commonOk_iff, ← accsBad_iff]
  simp only [dotBad, Bool.or_eq_true, Bool.not_eq_true', Bool.and_eq_false_iff, Bool.not_eq_false', beq_eq_false_iff_ne,
    decide_eq_false_iff_not, not_le, or_assoc, x, y]

theorem dotRun_fault_iff (c : Core) (n ctx desc : Nat) (d : Desc) (code addr : Nat) :
    dotRun c n ctx desc d = .fault code addr ↔
      UseFails c desc
        (usePlaces c d ([d.in0, d.in1] ++ accOffs d)
          (resultLen d.outFmt (readTile c d.in0).rows (readTile c d.in1).rows))
        ([d.in0, d.in1] ++ accOffs d) (dotBad c d = true) true code addr := by
  rw [dotRun_eq, useResult_fault_iff, checkUse_iff, usePlaces_eq]

/-! ## FOREST (R127 to R129) -/

/-- The descriptor of a FOREST or the agreement of its tiles is wrong. -/
def forestBad (c : Core) (d : Desc) : Bool :=
  let ft := readTile c d.in0
  let sp := readTile c d.in1
  let lf := readTile c d.in2
  let lw := 2 ^ d.log2L
  (!(d.commonOk && d.outFmt == 0x20 && !d.wide && !d.transpose && !d.isSeal &&
      decide (1 ≤ d.depth) && decide (d.depth ≤ 12) &&
      (ft.fmt == 0x01 || ft.fmt == 0x02 || ft.fmt == 0x08) && sp.fmt == 0x3F &&
      (lf.fmt == 0x01 || lf.fmt == 0x02 || lf.fmt == 0x09 || lf.fmt == 0x08 || lf.fmt == 0x06) &&
      decide (1 ≤ ft.cols) && decide (ft.cols ≤ 256) && sp.cols == d.depth * 8 &&
      sp.rows == lf.rows && lf.cols == 2 ^ d.depth * lw && decide (outBytes 0x20 ft.rows lw ≤ 8192)) ||
    accsBad c d 0x20 ft.rows lw) ||
  (List.range sp.rows).any (fun t => (List.range d.depth).any fun l => !splitOk ft.fmt ft.cols (splitEntry sp t l))

/-- Output k of a FOREST's sample s. -/
def forestAcc (c : Core) (d : Desc) (s k : Nat) : Nat :=
  forestElem (readTile c d.in0) (readTile c d.in1) (readTile c d.in2) d.depth (2 ^ d.log2L) d.anchor
    (if d.acc then startAcc false ((readTile c d.accIn).code s k) else 0) s k

theorem forestRun_eq (c : Core) (node ctx desc : Nat) (d : Desc) :
    let ft := readTile c d.in0
    let res := grid ft.rows (2 ^ d.log2L) (forestAcc c d)
    forestRun c node ctx desc d = useResult (checkUse c desc
      ((([d.in0, d.in1, d.in2] ++ accOffs d).map (readTile c)).map Tile.span ++
        [outSpan d.out 0x20 ft.rows (2 ^ d.log2L)] ++
        d.statusSpan)
      (([d.in0, d.in1, d.in2] ++ accOffs d).map (readTile c)) (forestBad c d) true)
      (.ok (outTile 0x20 ft.rows (2 ^ d.log2L) d.outSeq node ctx d.anchor res []) (accFlags res)) := by
  rw [List.map_append, readTile_accOffs]
  rfl

/-- Some split entry of some tree is wrong (R127, R129). -/
theorem splitsBad_iff (x y : Tile) (depth : Nat) :
    (List.range y.rows).any (fun t => (List.range depth).any fun l => !splitOk x.fmt x.cols (splitEntry y t l)) = true ↔
    ∃ t l, t < y.rows ∧ l < depth ∧ (x.cols ≤ bits (quadAt y.data (t * y.stride + 8 * l)) 0 8 ∨
      bits (quadAt y.data (t * y.stride + 8 * l)) 8 24 ≠ 0 ∨
      (x.fmt ≠ 0x01 ∧ bits (quadAt y.data (t * y.stride + 8 * l)) 48 16 ≠ 0)) := by
  simp only [List.any_eq_true, List.mem_range, splitOk, Bool.not_eq_true', Bool.and_eq_false_iff,
    decide_eq_false_iff_not, not_lt, beq_eq_false_iff_ne, Bool.or_eq_false_iff, or_assoc]
  constructor
  · rintro ⟨t, ht, l, hl, wrong⟩
    exact ⟨t, l, ht, hl, wrong⟩
  · rintro ⟨t, l, ht, hl, wrong⟩
    exact ⟨t, ht, l, hl, wrong⟩

theorem forestBad_iff (c : Core) (d : Desc) :
    let x := readTile c d.in0
    let y := readTile c d.in1
    let z := readTile c d.in2
    let lw := 2 ^ d.log2L
    forestBad c d = true ↔ DescWrong d ∨ d.outFmt ≠ 0x20 ∨ d.wide = true ∨ bits d.d2 27 2 ≠ 0 ∨ d.depth = 0 ∨
      12 < d.depth ∨
      x.fmt ∉ [0x01, 0x02, 0x08] ∨ y.fmt ≠ 0x3F ∨ z.fmt ∉ [0x01, 0x02, 0x09, 0x08, 0x06] ∨
      x.cols = 0 ∨ 256 < x.cols ∨ y.cols ≠ 8 * d.depth ∨ y.rows ≠ z.rows ∨ z.cols ≠ 2 ^ d.depth * lw ∨
      8192 < 8 * x.rows * lw ∨ (bit d.d2 24 = true ∧ AccWrong (readTile c d.accIn) 0x20 x.rows lw d.anchor) ∨
      ∃ t l, t < y.rows ∧ l < d.depth ∧ let e := quadAt y.data (t * y.stride + 8 * l)
        x.cols ≤ bits e 0 8 ∨ bits e 8 24 ≠ 0 ∨ (x.fmt ≠ 0x01 ∧ bits e 48 16 ≠ 0) := by
  intro x y z lw
  have bytes : 8 * x.rows * lw = outBytes 0x20 x.rows lw := by
    have row : outBytes 0x20 x.rows lw = x.rows * ((lw * 64 + 7) / 8) := outBytes_formula 0x20 x.rows lw
    rw [row, show (lw * 64 + 7) / 8 = 8 * lw by omega]
    ring
  have features : x.fmt ∉ [0x01, 0x02, 0x08] ↔ (x.fmt ≠ 0x01 ∧ x.fmt ≠ 0x02) ∧ x.fmt ≠ 0x08 := by
    simp only [List.mem_cons, List.not_mem_nil, or_false, not_or, and_assoc]
  have leaves : z.fmt ∉ [0x01, 0x02, 0x09, 0x08, 0x06] ↔
      (((z.fmt ≠ 0x01 ∧ z.fmt ≠ 0x02) ∧ z.fmt ≠ 0x09) ∧ z.fmt ≠ 0x08) ∧ z.fmt ≠ 0x06 := by
    simp only [List.mem_cons, List.not_mem_nil, or_false, not_or, and_assoc]
  have none : ∀ k : Nat, k = 0 ↔ k < 1 := fun k => Nat.lt_one_iff.symm
  rw [turnedOrSeal_iff, ← commonOk_iff, ← accsBad_iff, bytes, features, leaves, Nat.mul_comm 8 d.depth, none d.depth,
    none x.cols]
  simp only [forestBad, Bool.or_eq_true, splitsBad_iff, Bool.not_eq_true', Bool.and_eq_false_iff, Bool.not_eq_false',
    beq_eq_false_iff_ne,
    decide_eq_false_iff_not, not_le, or_assoc, Bool.or_eq_false_iff, x, y, z, lw]

theorem forestRun_fault_iff (c : Core) (n ctx desc : Nat) (d : Desc) (code addr : Nat) :
    forestRun c n ctx desc d = .fault code addr ↔
      UseFails c desc
        (usePlaces c d ([d.in0, d.in1, d.in2] ++ accOffs d) (resultLen 0x20 (readTile c d.in0).rows (2 ^ d.log2L)))
        ([d.in0, d.in1, d.in2] ++ accOffs d) (forestBad c d = true) true code addr := by
  rw [forestRun_eq, useResult_fault_iff, checkUse_iff, usePlaces_eq]

/-! ## CONVERT and SEAL (R130, R131) -/

/-- Rows and columns of a CONVERT's result. -/
def convRows (c : Core) (d : Desc) : Nat := if d.transpose then (readTile c d.in0).cols else (readTile c d.in0).rows
/-- Columns of a CONVERT's result. -/
def convCols (c : Core) (d : Desc) : Nat := if d.transpose then (readTile c d.in0).rows else (readTile c d.in0).cols

/-- The descriptor of a CONVERT is wrong. -/
def convertBad (c : Core) (d : Desc) : Bool :=
  !(d.commonOk && d.in1 == 0 && d.in2 == 0 && !d.acc && !d.wide && d.depth == 0 &&
      d.log2L == 0 && d.accIn == 0 && (isExact d.outFmt || d.anchor == 0) && convFmt (readTile c d.in0).fmt &&
        convFmt d.outFmt &&
      decide (outBytes d.outFmt (convRows c d) (convCols c d) ≤ 8192) && (!isMx d.outFmt || convCols c d % 32 == 0))

/-- A named tile of accumulators is wrong where ACC is 0, and where it is 1 that is (R121, R130). -/
theorem only0_iff (d : Desc) {rest : Prop} :
    (d.commonOk = false ∨ d.in1 ≠ 0 ∨ d.in2 ≠ 0 ∨ d.acc = true ∨ d.wide = true ∨ d.depth ≠ 0 ∨ d.log2L ≠ 0 ∨
      d.accIn ≠ 0 ∨ rest) ↔
      DescWrong d ∨ (d.in1 ≠ 0 ∨ d.in2 ≠ 0 ∨ bit d.d2 24 = true ∨ bit d.d2 25 = true ∨ bits d.d2 56 6 ≠ 0) ∨ rest := by
  have acc : bit d.d2 24 = d.acc := rfl
  have wide : bit d.d2 25 = d.wide := rfl
  have named : d.accIn ≠ 0 → DescWrong d ∨ d.acc = true := fun used => by
    by_cases h : d.acc = true
    · exact .inr h
    · exact .inl (.inr (.inr (.inr ⟨Bool.eq_false_iff.2 h, used⟩)))
  rw [commonOk_iff, acc, wide, depthOrLog_iff]
  tauto

theorem convertBad_iff (c : Core) (d : Desc) :
    convertBad c d = true ↔ DescWrong d ∨
      (d.in1 ≠ 0 ∨ d.in2 ≠ 0 ∨ bit d.d2 24 = true ∨ bit d.d2 25 = true ∨ bits d.d2 56 6 ≠ 0) ∨
      (d.outFmt ∉ [0x20, 0x21] ∧ bits d.d2 0 16 ≠ 0) ∨
      (∃ g ∈ [(readTile c d.in0).fmt, d.outFmt], ¬ ((1 ≤ g ∧ g ≤ 9) ∨ (0x10 ≤ g ∧ g ≤ 0x15) ∨ g = 0x20 ∨ g = 0x21)) ∨
      8192 < outBytes d.outFmt (convRows c d) (convCols c d) ∨
      (0x10 ≤ d.outFmt ∧ d.outFmt ≤ 0x15 ∧ convCols c d % 32 ≠ 0) := by
  have formats : (∃ g ∈ [(readTile c d.in0).fmt, d.outFmt], ¬ ((1 ≤ g ∧ g ≤ 9) ∨ (0x10 ≤ g ∧ g ≤ 0x15) ∨ g = 0x20 ∨
    g = 0x21)) ↔
      convFmt (readTile c d.in0).fmt = false ∨ convFmt d.outFmt = false := by
    simp only [List.exists_mem_cons_iff, ← convFmt_false_iff, List.not_mem_nil, false_and, exists_false, or_false]
  have anchored : (d.outFmt ∉ [0x20, 0x21] ∧ bits d.d2 0 16 ≠ 0) ↔ isExact d.outFmt = false ∧ d.anchor ≠ 0 := by
    rw [ne_eq, ne_eq, anchor_eq_zero_iff, ← Bool.not_eq_true, isExact_iff]
    simp only [List.mem_cons, List.not_mem_nil, or_false]
  rw [formats, anchored, ← only0_iff, ← and_assoc (a := 0x10 ≤ d.outFmt), ← isMx_iff]
  simp only [convertBad, Bool.not_eq_true', Bool.and_eq_false_iff, Bool.not_eq_false', beq_eq_false_iff_ne,
    decide_eq_false_iff_not, not_le, or_assoc, Bool.or_eq_false_iff]

/-- The descriptor of a SEAL is wrong. -/
def sealBad (d : Desc) : Bool :=
  !(d.commonOk && d.in1 == 0 && d.in2 == 0 && !d.acc && !d.wide && d.depth == 0 &&
      d.log2L == 0 && d.accIn == 0 && d.anchor == 0 && d.outFmt == 0 && d.out == d.in0)

theorem sealBad_iff (d : Desc) : sealBad d = true ↔ DescWrong d ∨
    (d.in1 ≠ 0 ∨ d.in2 ≠ 0 ∨ bit d.d2 24 = true ∨ bit d.d2 25 = true ∨ bits d.d2 56 6 ≠ 0) ∨
    bits d.d2 0 16 ≠ 0 ∨ d.outFmt ≠ 0 ∨ d.out ≠ d.in0 := by
  have anchored : bits d.d2 0 16 ≠ 0 ↔ d.anchor ≠ 0 := not_congr (anchor_eq_zero_iff d).symm
  rw [← only0_iff, anchored]
  simp only [sealBad, Bool.not_eq_true', Bool.and_eq_false_iff, Bool.not_eq_false', beq_eq_false_iff_ne, or_assoc]

theorem sealRun_eq (c : Core) (desc : Nat) (d : Desc) : sealRun c desc d = useResult (checkUse c desc
    (([d.in0].map (readTile c)).map Tile.span ++ [⟨d.out, 64, 64⟩] ++ d.statusSpan) ([d.in0].map (readTile c))
      (sealBad d) false)
    (.ok (leBytes (tileCrc (readTile c d.in0).hdr (readTile c d.in0).data).toNat 4) 0) := rfl

theorem sealRun_fault_iff (c : Core) (desc : Nat) (d : Desc) (code addr : Nat) :
    sealRun c desc d = .fault code addr ↔
      UseFails c desc (usePlaces c d [d.in0] 64) [d.in0] (sealBad d = true) false code addr := by
  have places : (([d.in0].map (readTile c)).map Tile.span ++ [(⟨d.out, 64, 64⟩ : Span)] ++
    d.statusSpan).map Span.triple =
      usePlaces c d [d.in0] 64 := usePlaces_eq c d [d.in0] 0 0 0
  rw [sealRun_eq, useResult_fault_iff, checkUse_iff, places]

end Sys2Proof.Machine
end

section
/-! SUPPORT. What the results of the tensor engine hold: element codes in range,
MX rows and status bits (R119, R124, R125). -/

namespace Sys2Proof.Machine

/-! ## Grids -/

theorem grid_map {α β : Type} (rows cols : Nat) (g : Nat → Nat → α) (h : α → β) :
    (grid rows cols g).map (fun r => r.map h) = grid rows cols fun r k => h (g r k) := by
  simp [grid, Function.comp_def]

/-! ## Status bits (R125) -/

theorem testBit_foldl_or {α : Type} (g : α → Nat) (l : List α) (a k : Nat) :
    (l.foldl (fun a x => a ||| g x) a).testBit k = true ↔ a.testBit k = true ∨ ∃ x ∈ l, (g x).testBit k = true := by
  induction l generalizing a with
  | nil => simp
  | cons x rest ih => rw [List.foldl_cons, ih, Nat.testBit_or, Bool.or_eq_true, or_assoc, List.exists_mem_cons_iff]

theorem testBit_foldl_rows {α : Type} (g : α → Nat) (l : List (List α)) (a k : Nat) :
    (l.foldl (fun a (r : List α) => r.foldl (fun a x => a ||| g x) a) a).testBit k = true ↔
      a.testBit k = true ∨ ∃ r ∈ l, ∃ x ∈ r, (g x).testBit k = true := by
  induction l generalizing a with
  | nil => simp
  | cons x rest ih => rw [List.foldl_cons, ih, testBit_foldl_or, or_assoc, List.exists_mem_cons_iff]

/-- A bit of the OR over a grid. -/
theorem testBit_foldl_grid {α : Type} (g : α → Nat) (rows cols : Nat) (h : Nat → Nat → α) (k : Nat) :
    ((grid rows cols h).foldl (fun a (r : List α) => r.foldl (fun a x => a ||| g x) a) 0).testBit k = true ↔
      ∃ r c, r < rows ∧ c < cols ∧ (g (h r c)).testBit k = true := by
  rw [testBit_foldl_rows, Nat.zero_testBit]
  simp only [Bool.false_eq_true, false_or, grid, List.mem_map, exists_exists_and_eq_and, List.mem_range]
  constructor
  · rintro ⟨r, hr, c, hc, set⟩
    exact ⟨r, c, hr, hc, set⟩
  · rintro ⟨r, c, hr, hc, set⟩
    exact ⟨r, hr, c, hc, set⟩

theorem testBit_accFlags (rows cols : Nat) (e : Nat → Nat → Nat) (k : Nat) :
    (accFlags (grid rows cols e)).testBit k = true ↔
    ∃ r c, r < rows ∧ c < cols ∧ (k < 3 ∧ (e r c).testBit k = true) := by
  rw [accFlags, testBit_foldl_grid]
  simp only [show 8 = 2 ^ 3 from rfl, Nat.testBit_mod_two_pow, Bool.and_eq_true, decide_eq_true_iff]

/-- A status word from what its bits say. -/
theorem statusIs_of_testBit {status rows cols : Nat} {flag : Nat → Nat → Nat → Bool}
    (is : ∀ k, status.testBit k = true ↔ ∃ r c, r < rows ∧ c < cols ∧ flag r c k = true)
    (high : ∀ r c k, 6 ≤ k → flag r c k = false) : StatusIs status rows cols flag := by
  refine ⟨Nat.lt_pow_two_of_testBit (n := 6) _ fun k hk => ?_, fun k _ => is k⟩
  rw [← Bool.not_eq_true, is]
  rintro ⟨r, c, -, -, set⟩
  rw [high r c k hk] at set
  exact nomatch set

theorem testBit_of_lt_64 {x k : Nat} (h : x < 64) (hk : 6 ≤ k) : x.testBit k = false :=
  Nat.testBit_lt_two_pow (h.trans_le (show 2 ^ 6 ≤ 2 ^ k from Nat.pow_le_pow_right Nat.two_pos hk))

theorem testBit_of_mod_8 {x k : Nat} (h : x % 8 = 0) (hk : k < 3) : x.testBit k = false := by
  have := Nat.testBit_mod_two_pow x 3 k
  rw [show x % 2 ^ 3 = 0 from h, Nat.zero_testBit, decide_eq_true hk, Bool.true_and] at this
  exact this.symm

theorem Conv.status_lt (c : Conv) : c.status < 64 := (statusBits c.ovf c.inexact c.nan).2.2.2.1

theorem Conv.status_mod (c : Conv) : c.status % 8 = 0 := (statusBits c.ovf c.inexact c.nan).2.2.2.2

/-! ## Codes in range -/

theorem exactAdd_lt (w a b : Nat) : exactAdd w a b < 2 ^ (w + 4) := by
  have flags : (a % 8) ||| (b % 8) < 2 ^ 3 := Nat.or_lt_two_pow (Nat.mod_lt _ (by decide)) (Nat.mod_lt _ (by decide))
  have number : (a / 16 + b / 16) % 2 ^ w < 2 ^ w := Nat.mod_lt _ (Nat.two_pow_pos w)
  rw [exactAdd, pow_add]
  omega

theorem startAcc_div (wide : Bool) (a : Nat) :
    startAcc wide a % 16 = a % 8 ∧ startAcc wide a / 16 = a / 16 % 2 ^ accBits wide := by
  rw [startAcc]
  omega

theorem startAcc_lt (wide : Bool) (a : Nat) : startAcc wide a < 2 ^ (accBits wide + 4) := by
  have number : a / 16 % 2 ^ accBits wide < 2 ^ accBits wide := Nat.mod_lt _ (Nat.two_pow_pos _)
  rw [startAcc, pow_add]
  omega

theorem foldl_exactAdd_lt {α : Type} (w : Nat) (g : α → Nat) (l : List α) {a : Nat} (h : a < 2 ^ (w + 4)) :
    l.foldl (fun acc x => exactAdd w acc (g x)) a < 2 ^ (w + 4) := by
  induction l generalizing a with
  | nil => exact h
  | cons x rest ih => exact ih (exactAdd_lt ..)

/-- Bits of an EXACT element. -/
theorem fmtBits_exactFmt (wide : Bool) : fmtBits (exactFmt wide) = some (accBits wide + 4) := by cases wide <;> rfl

theorem floatFmt_bits {f b : Nat} {g : FFmt} (h : floatFmt f = some g) (bits_ : fmtBits f = some b) :
    b = g.width + 1 := by
  unfold floatFmt at h
  split at h <;> cases h <;> cases bits_ <;> rfl

theorem FFmt.special_codes_lt {f : Nat} {g : FFmt} (h : floatFmt f = some g) :
    g.topCode < 2 ^ g.width ∧ g.nanCode < 2 ^ (g.width + 1) := by
  unfold floatFmt at h
  split at h <;> cases h <;> decide

theorem FFmt.encode_code_lt {f : Nat} {g : FFmt} (h : floatFmt f = some g) (x : Machine.Num) :
    (g.encode x).code < 2 ^ (g.width + 1) := by
  obtain ⟨top, nan⟩ := FFmt.special_codes_lt h
  cases x with
  | nan => exact nan
  | inf s => exact (signBit_code g s top).1
  | fin s m e => exact (FFmt.encode_fin (FFmt.regular h) top s m e).1.1

theorem encodeInt_code_lt (w : Nat) (x : Machine.Num) : (encodeInt w x).code < 2 ^ w := by
  cases x with
  | nan => exact Nat.two_pow_pos w
  | inf s => exact intCode_lt ..
  | fin s m e =>
    rw [encodeInt]
    generalize (if s = true then -((nearestAt m e).1 : Int) else (nearestAt m e).1) = v
    split
    · exact intCode_lt ..
    split
    · exact intCode_lt ..
    · exact intCode_lt ..

/-- A converted element fits its format (R117). -/
theorem convElem_code_lt {f b : Nat} (bits_ : fmtBits f = some b) (x : Machine.Num) : (convElem f x).code < 2 ^ b := by
  rw [convElem]
  cases h : floatFmt f with
  | some g =>
    rw [floatFmt_bits h bits_]
    exact FFmt.encode_code_lt h x
  | none =>
    rw [bits_]
    exact encodeInt_code_lt b x

theorem mxElem_code_lt {f b : Nat} (bits_ : fmtBits f = some b) (mx : isMx f = true) (x : Machine.Num) :
    (mxElem f x).code < 2 ^ b := by
  cases h : floatFmt f with
  | some g =>
    rw [floatFmt_bits h bits_]
    cases x with
    | fin s m e => exact (mxElem_float h s m e).1
    | nan =>
      rw [mxElem, h]
      exact Nat.two_pow_pos _
    | inf s =>
      rw [mxElem, h]
      exact Nat.two_pow_pos _
  | none =>
    have int : f = 0x15 := by
      have := (isMx_iff f).1 mx
      by_contra other
      have cases_ : f = 0x10 ∨ f = 0x11 ∨ f = 0x12 ∨ f = 0x13 ∨ f = 0x14 := by omega
      obtain rfl | rfl | rfl | rfl | rfl := cases_ <;> exact nomatch h
    subst int
    cases bits_
    cases x with
    | fin s m e => exact intCode_lt 8 _
    | nan => exact Nat.two_pow_pos _
    | inf s => exact Nat.two_pow_pos _

/-! ## MX blocks and rows (R119) -/

/-- The parts of a block. -/
theorem mxBlock_parts {f b : Nat} (bits_ : fmtBits f = some b) (mx : isMx f = true) (l : List Machine.Num) :
    (mxBlock f l).1 < 256 ∧ (mxBlock f l).2.1.length = l.length ∧ (∀ x ∈ (mxBlock f l).2.1, x < 2 ^ b) ∧
      (mxBlock f l).2.2 < 64 := by
  have zeros : ∀ x ∈ l.map fun _ => (0 : Nat), x < 2 ^ b := fun x hx => by
    obtain ⟨_, -, rfl⟩ := List.mem_map.1 hx
    exact Nat.two_pow_pos b
  rw [mxBlock]
  split
  · exact ⟨(by decide : 255 < 256), List.length_map .., zeros, (by decide : 32 < 64)⟩
  cases amaxLog l with
  | none => exact ⟨(by decide : 127 < 256), List.length_map .., zeros, (by decide : 0 < 64)⟩
  | some k =>
    simp only
    refine ⟨by omega, by rw [List.length_map, List.length_map], fun x hx => ?_, ?_⟩
    · simp only [List.map_map, List.mem_map, Function.comp_apply] at hx
      obtain ⟨v, -, rfl⟩ := hx
      exact mxElem_code_lt bits_ mx _
    · refine Nat.lt_pow_two_of_testBit (n := 6) _ fun j hj => ?_
      rw [← Bool.not_eq_true, testBit_foldl_or, Nat.zero_testBit]
      rintro (none | ⟨c, -, set⟩)
      · exact nomatch none
      · rw [testBit_of_lt_64 c.status_lt hj] at set
        exact nomatch set

section
variable (f rows cols : Nat) (num : Nat → Nat → Machine.Num)

/-- Block b of row r of an MX result (R119). -/
def mxBlk (r b : Nat) : Nat × List Nat × Nat := mxBlock f ((List.range 32).map fun q => num r (32 * b + q))

/-- A block's values are those of its columns. -/
theorem block_of_row (row : Nat → Machine.Num) {b : Nat} (h : b < cols / 32) :
    (((List.range cols).map row).drop (32 * b)).take 32 = (List.range 32).map fun q => row (32 * b + q) := by
  refine List.ext_getElem (by simp; omega) fun i h₁ h₂ => ?_
  simp

theorem mxRows_blocks : (grid rows cols num).map (fun r =>
      (List.range (r.length / 32)).map fun b => mxBlock f ((r.drop (32 * b)).take 32)) =
    grid rows (cols / 32) (mxBlk f num) := by
  rw [grid, grid, List.map_map]
  refine List.map_congr_left fun r _ => ?_
  simp only [Function.comp_apply, List.length_map, List.length_range]
  refine List.map_congr_left fun b hb => ?_
  rw [block_of_row cols (num r) (List.mem_range.1 hb)]
  rfl

/-- The scales of an MX result (R119). -/
theorem mxRows_scales : (mxRows f (grid rows cols num)).2.1.length = rows * (cols / 32) ∧
    ∀ r i, r < rows → i < cols / 32 → (mxRows f (grid rows cols num)).2.1.getD (r * (cols / 32) + i) 0 =
      (mxBlk f num r i).1 := by
  have is : (mxRows f (grid rows cols num)).2.1 =
      (List.range rows).flatMap fun r => (List.range (cols / 32)).map fun i => (mxBlk f num r i).1 := by
    have : (mxRows f (grid rows cols num)).2.1 = (grid rows (cols / 32) (mxBlk f num)).flatMap
        fun r => r.map fun x => x.1 := by
      rw [← mxRows_blocks]
      rfl
    rw [this, grid, List.flatMap_map]
    simp only [List.map_map, Function.comp_def]
  rw [is]
  refine ⟨by simp [List.length_flatMap], fun r i hr hi => ?_⟩
  have pos : 0 < cols / 32 := by omega
  have inside : r * (cols / 32) + i < cols / 32 * (List.range rows).length := by
    rw [List.length_range, Nat.mul_comm _ rows]
    calc r * (cols / 32) + i < r * (cols / 32) + cols / 32 := Nat.add_lt_add_left hi _
      _ = (r + 1) * (cols / 32) := (Nat.succ_mul ..).symm
      _ ≤ rows * (cols / 32) := Nat.mul_le_mul_right _ hr
  have row : (r * (cols / 32) + i) / (cols / 32) = r := by
    rw [Nat.mul_comm, Nat.mul_add_div pos, Nat.div_eq_of_lt hi, Nat.add_zero]
  have col : (r * (cols / 32) + i) % (cols / 32) = i := by rw [Nat.mul_comm, Nat.mul_add_mod, Nat.mod_eq_of_lt hi]
  rw [List.getD_flatMap _ 0 0 (n := cols / 32) (fun a => by simp) _ inside, row, col,
    List.getD_eq_getElem (List.range rows) _ (by simpa using hr), List.getElem_range,
    List.getD_eq_getElem _ _ (by simpa using hi), List.getElem_map, List.getElem_range]

/-- The status bits of an MX result (R125). -/
theorem mxRows_status (whole : cols % 32 = 0) (k : Nat) : (mxRows f (grid rows cols num)).2.2.testBit k = true ↔
    ∃ r c, r < rows ∧ c < cols ∧ (mxBlk f num r (c / 32)).2.2.testBit k = true := by
  have is : (mxRows f (grid rows cols num)).2.2 =
      (grid rows (cols / 32) (mxBlk f num)).foldl (fun a (r : List (Nat × List Nat × Nat)) =>
        r.foldl (fun a x => a ||| x.2.2) a) 0 := by
    rw [← mxRows_blocks]
    rfl
  rw [is, testBit_foldl_grid (fun x : Nat × List Nat × Nat => x.2.2)]
  constructor
  · rintro ⟨r, i, hr, hi, set⟩
    refine ⟨r, 32 * i, hr, by omega, ?_⟩
    rwa [Nat.mul_div_cancel_left _ (by decide)]
  · rintro ⟨r, k, hr, hk, set⟩
    exact ⟨r, k / 32, hr, by omega, set⟩

variable {f} {b : Nat} (bits_ : fmtBits f = some b) (mx : isMx f = true)
include bits_ mx

theorem mxBlk_length (r i : Nat) : (mxBlk f num r i).2.1.length = 32 :=
  (mxBlock_parts bits_ mx _).2.1.trans (by simp)

variable {cols} (whole : cols % 32 = 0)
include whole

/-- The codes of an MX result, row by row (R119). -/
theorem mxRows_codes : (mxRows f (grid rows cols num)).1 =
    grid rows cols fun r k => (mxBlk f num r (k / 32)).2.1.getD (k % 32) 0 := by
  have is : (mxRows f (grid rows cols num)).1 = (grid rows (cols / 32) (mxBlk f num)).map
      fun r => r.flatMap fun x => x.2.1 := by
    rw [← mxRows_blocks]
    rfl
  rw [is, grid, grid, List.map_map]
  refine List.map_congr_left fun r _ => ?_
  have lens := mxBlk_length num bits_ mx r
  have length : (((List.range (cols / 32)).map (mxBlk f num r)).flatMap fun x => x.2.1).length = cols := by
    rw [List.flatMap_map, List.length_flatMap]
    simp only [lens, List.map_const', List.sum_replicate, List.length_range, smul_eq_mul]
    omega
  refine List.ext_getElem (by rw [Function.comp_apply, length]; simp) fun k h₁ h₂ => ?_
  have hk : k < cols := by simpa using h₂
  have it : (List.range (cols / 32)).getD (k / 32) 0 = k / 32 := by
    rw [List.getD_eq_getElem _ _ (by rw [List.length_range]; omega), List.getElem_range]
  rw [List.getElem_map, List.getElem_range, ← List.getD_eq_getElem _ 0 h₁, Function.comp_apply, List.flatMap_map,
    List.getD_flatMap _ _ 0 lens _ (by rw [List.length_range]; omega), it]

end

end Sys2Proof.Machine
end

section
/-! SUPPORT. What a tensor operation that does not fault writes (R119, R123 to R125, R128, R130, R131). -/

namespace Sys2Proof.Machine

/-! ## Shapes -/

theorem Tile.rows_lt (t : Tile) : t.rows < 2 ^ 16 := bits_lt ..
theorem Tile.cols_lt (t : Tile) : t.cols < 2 ^ 16 := bits_lt ..
theorem Desc.outSeq_lt (d : Desc) : d.outSeq < 2 ^ 32 := bits_lt ..

theorem Desc.lanes_lt (d : Desc) : 2 ^ d.log2L < 2 ^ 16 := by
  have small : d.log2L < 2 ^ 2 := bits_lt ..
  exact Nat.pow_lt_pow_right (by decide) (by omega)

/-- The anchor field of an EXACT result holds the descriptor's (R124). -/
theorem Desc.anchorCode (d : Desc) : intCode 16 d.anchor = bits d.d2 0 16 := intCode_intOf (bits_lt ..)

/-- A format without scales. -/
theorem noScales {f : Nat} (plain : isMx f = false) (rows cols : Nat) :
    ([] : List Nat).length = rows * outScaleStride f cols ∧ (isMx f = true → cols % 32 = 0) := by
  rw [outScaleStride, plain]
  exact ⟨rfl, fun h => nomatch h⟩

theorem convFmt_bits {f : Nat} (h : convFmt f = true) : ∃ b, fmtBits f = some b := by
  rw [convFmt, Bool.and_eq_true] at h
  exact Option.isSome_iff_exists.1 h.1

theorem dotOut_bits {f : Nat} (h : dotOut f = true) : isMx f = false ∧ ∃ b, fmtBits f = some b := by
  have mem : f ∈ [0x01, 0x02, 0x03, 0x04, 0x05, 0x06, 0x09, 0x20, 0x21] := by
    by_contra out
    rw [← dotOut_false_iff, h] at out
    exact nomatch out
  have table : ∀ f ∈ [0x01, 0x02, 0x03, 0x04, 0x05, 0x06, 0x09, 0x20, 0x21],
      isMx f = false ∧ (fmtBits f).isSome = true := by decide
  exact ⟨(table f mem).1, Option.isSome_iff_exists.1 (table f mem).2⟩

/-! ## DOT (R123) -/

theorem dotAcc_lt (c : Core) (d : Desc) (i j : Nat) : dotAcc c d i j < 2 ^ (accBits d.wide + 4) := by
  refine foldl_exactAdd_lt _ _ _ ?_
  split
  · exact startAcc_lt ..
  · exact Nat.two_pow_pos _

/-- What a DOT writes that does not fault (R123 to R125). -/
theorem dotRun_ok {c : Core} {n ctx desc : Nat} {d : Desc} {out : List Byte} {status : Nat}
    (h : dotRun c n ctx desc d = .ok out status) :
    let a := readTile c d.in0
    let b := readTile c d.in1
    let v := fun i j => convElem d.outFmt (accNum d.wide d.anchor (dotAcc c d i j))
    TileIs out d.outFmt a.rows b.rows d.outSeq n ctx (if isExact d.outFmt = true then bits d.d2 0 16 else 0)
      (fun i j => if isExact d.outFmt then dotAcc c d i j else (v i j).code) ∧
    StatusIs status a.rows b.rows
      (fun i j k => if k < 3 then (dotAcc c d i j).testBit k else !isExact d.outFmt && (v i j).status.testBit k) := by
  intro a b v
  rw [dotRun_eq, useResult_ok_iff] at h
  obtain ⟨passed, is⟩ := h
  obtain ⟨rfl, rfl⟩ := TResult.ok.inj is
  obtain ⟨fine, -⟩ := checkUse_none passed
  have good := (not_congr (dotBad_iff c d)).1 (Bool.eq_false_iff.1 fine)
  simp only [not_or] at good
  obtain ⟨-, -, -, -, -, -, format, narrow, wide, fits, -⟩ := good
  have outs : dotOut d.outFmt = true := by
    rw [← dotOut_false_iff] at format
    exact Bool.of_not_eq_false format
  obtain ⟨plain, width, bits_⟩ := dotOut_bits outs
  obtain ⟨scales, blocks⟩ := noScales plain a.rows b.rows
  have fits := Nat.not_lt.1 fits
  cases exact_ : isExact d.outFmt with
  | true =>
    have same : d.outFmt = exactFmt d.wide := by
      have := (isExact_iff _).1 exact_
      rw [exactFmt]
      split
      · exact this.resolve_left fun h => narrow ⟨h, ‹_›⟩
      · exact this.resolve_right fun h => wide ⟨h, ‹_›⟩
    have accs : convertAccs d.outFmt d.wide d.anchor (grid a.rows b.rows (dotAcc c d)) =
      (grid a.rows b.rows (dotAcc c d), 0) := by
      rw [convertAccs, if_pos exact_]
    rw [accs]
    have tile := tileIs_outTile (f := d.outFmt) (scales := []) (by rw [same]; exact fmtBits_exactFmt _) a.rows_lt
      b.rows_lt fits blocks scales
      d.outSeq n ctx d.anchor (dotAcc c d) (fun i j _ _ => dotAcc_lt c d i j) d.outSeq_lt
    rw [exact_, if_pos rfl, Desc.anchorCode] at tile
    refine ⟨tile, statusIs_of_testBit (fun k => ?_) fun r j k hk => by simp [show ¬ k < 3 by omega]⟩
    rw [Nat.or_zero, testBit_accFlags]
    refine exists₂_congr fun r j => and_congr_right fun _ => and_congr_right fun _ => ?_
    by_cases hk : k < 3 <;> simp [hk]
  | false =>
    have codes : convertAccs d.outFmt d.wide d.anchor (grid a.rows b.rows (dotAcc c d)) =
        (grid a.rows b.rows fun i j => (v i j).code,
          (grid a.rows b.rows v).foldl (fun x (r : List Conv) => r.foldl (fun x e => x ||| e.status) x) 0) := by
      rw [convertAccs, if_neg (Bool.eq_false_iff.1 exact_)]
      simp only [grid_map]
      rfl
    rw [codes]
    have tile := tileIs_outTile (f := d.outFmt) (scales := []) bits_ a.rows_lt b.rows_lt fits blocks scales
      d.outSeq n ctx d.anchor (fun i j => (v i j).code) (fun i j _ _ => convElem_code_lt bits_ _) d.outSeq_lt
    rw [exact_, if_neg Bool.false_ne_true] at tile
    refine ⟨tile, statusIs_of_testBit (fun k => ?_) fun r j k hk => ?_⟩
    · rw [Nat.testBit_or, Bool.or_eq_true, testBit_accFlags, testBit_foldl_grid]
      by_cases hk : k < 3
      · simp [hk, testBit_of_mod_8 (Conv.status_mod _) hk, a, b]
      · simp [hk, a, b, v]
    · simp [show ¬ k < 3 by omega, testBit_of_lt_64 (Conv.status_lt _) hk]

/-! ## FOREST (R128) -/

theorem forestAcc_lt (c : Core) (d : Desc) (s k : Nat) : forestAcc c d s k < 2 ^ (60 + 4) := by
  refine foldl_exactAdd_lt _ _ _ ?_
  split
  · exact startAcc_lt false _
  · exact Nat.two_pow_pos _

/-- What a FOREST writes that does not fault (R124, R125, R128). -/
theorem forestRun_ok {c : Core} {n ctx desc : Nat} {d : Desc} {out : List Byte} {status : Nat}
    (h : forestRun c n ctx desc d = .ok out status) :
    let x := readTile c d.in0
    TileIs out 0x20 x.rows (2 ^ d.log2L) d.outSeq n ctx (bits d.d2 0 16) (forestAcc c d) ∧
    StatusIs status x.rows (2 ^ d.log2L) (fun r k b => decide (b < 3) && (forestAcc c d r k).testBit b) := by
  intro x
  rw [forestRun_eq, useResult_ok_iff] at h
  obtain ⟨passed, is⟩ := h
  obtain ⟨rfl, rfl⟩ := TResult.ok.inj is
  obtain ⟨fine, -⟩ := checkUse_none passed
  have good := (not_congr (forestBad_iff c d)).1 (Bool.eq_false_iff.1 fine)
  simp only [not_or] at good
  obtain ⟨-, -, -, -, -, -, -, -, -, -, -, -, -, -, fits, -⟩ := good
  have fits : outBytes 0x20 x.rows (2 ^ d.log2L) ≤ 8192 := by
    have row : outBytes 0x20 x.rows (2 ^ d.log2L) = x.rows * ((2 ^ d.log2L * 64 + 7) / 8) := outBytes_formula 0x20 _ _
    rw [row, show (2 ^ d.log2L * 64 + 7) / 8 = 8 * 2 ^ d.log2L by omega]
    rw [Nat.mul_comm 8, Nat.mul_assoc] at fits
    exact Nat.not_lt.1 fits
  obtain ⟨scales, blocks⟩ := noScales (show isMx 0x20 = false from rfl) x.rows (2 ^ d.log2L)
  have tile := tileIs_outTile (f := 0x20) (scales := []) rfl x.rows_lt d.lanes_lt fits blocks scales d.outSeq n ctx
    d.anchor
    (forestAcc c d) (fun i j _ _ => forestAcc_lt c d i j) d.outSeq_lt
  rw [Desc.anchorCode] at tile
  refine ⟨tile, statusIs_of_testBit (fun k => ?_) fun r j k hk => by simp [show ¬ k < 3 by omega]⟩
  rw [testBit_accFlags]
  simp only [Bool.and_eq_true, decide_eq_true_iff, x]

/-! ## CONVERT (R130) -/

/-- A function of source places at a result's place. -/
def convAt {α : Type} (d : Desc) (g : Nat → Nat → α) (r k : Nat) : α := if d.transpose then g k r else g r k

/-- What a CONVERT makes. -/
def convertResult (c : Core) (node ctx : Nat) (d : Desc) : TResult :=
  let t := readTile c d.in0
  let f := d.outFmt
  let rows := convRows c d
  let cols := convCols c d
  if isExact f then
    let accs := grid rows cols (convAt d (srcAcc t (f == 0x21) d.anchor))
    .ok (outTile f rows cols d.outSeq node ctx d.anchor accs [])
      (accFlags accs ||| (grid rows cols (convAt d (exactStatus t (f == 0x21) d.anchor))).foldl
        (fun a r => r.foldl (fun a x => a ||| x) a) 0)
  else if isMx f then
    let m := mxRows f (grid rows cols (convAt d (srcNum t)))
    .ok (outTile f rows cols d.outSeq node ctx 0 m.1 m.2.1) (m.2.2 ||| 0)
  else
    let cs := (grid rows cols (convAt d (srcNum t))).map (fun r => r.map (convElem f))
    .ok (outTile f rows cols d.outSeq node ctx 0 (cs.map (fun r => r.map Conv.code)) [])
      (cs.foldl (fun a r => r.foldl (fun a c => a ||| c.status) a) 0)

theorem convertRun_eq (c : Core) (node ctx desc : Nat) (d : Desc) :
    convertRun c node ctx desc d = useResult (checkUse c desc
      (([d.in0].map (readTile c)).map Tile.span ++ [outSpan d.out d.outFmt (convRows c d) (convCols c d)] ++
        d.statusSpan)
      ([d.in0].map (readTile c)) (convertBad c d) true) (convertResult c node ctx d) := rfl

theorem convertRun_fault_iff (c : Core) (n ctx desc : Nat) (d : Desc) (code addr : Nat) :
    convertRun c n ctx desc d = .fault code addr ↔
      UseFails c desc (usePlaces c d [d.in0] (resultLen d.outFmt (convRows c d) (convCols c d))) [d.in0]
        (convertBad c d = true) true code addr := by
  obtain ⟨out, status, is⟩ : ∃ out status, convertResult c n ctx d = .ok out status := by
    rw [convertResult]
    split
    · exact ⟨_, _, rfl⟩
    split
    · exact ⟨_, _, rfl⟩
    · exact ⟨_, _, rfl⟩
  rw [convertRun_eq, is, useResult_fault_iff, checkUse_iff, usePlaces_eq]

section
variable {c : Core} {n ctx desc : Nat} {d : Desc} {out : List Byte} {status : Nat}

theorem convRows_lt (c : Core) (d : Desc) : convRows c d < 2 ^ 16 := by
  rw [convRows]
  split
  · exact Tile.cols_lt _
  · exact Tile.rows_lt _

theorem convCols_lt (c : Core) (d : Desc) : convCols c d < 2 ^ 16 := by
  rw [convCols]
  split
  · exact Tile.rows_lt _
  · exact Tile.cols_lt _

/-- A CONVERT that does not fault has a result in a format that it can make. -/
theorem convertRun_passed (h : convertRun c n ctx desc d = .ok out status) :
    convertResult c n ctx d = .ok out status ∧ convFmt d.outFmt = true ∧
      outBytes d.outFmt (convRows c d) (convCols c d) ≤ 8192 ∧ (isMx d.outFmt = true → convCols c d % 32 = 0) := by
  rw [convertRun_eq, useResult_ok_iff] at h
  obtain ⟨passed, is⟩ := h
  obtain ⟨fine, -⟩ := checkUse_none passed
  have good := (not_congr (convertBad_iff c d)).1 (Bool.eq_false_iff.1 fine)
  simp only [not_or] at good
  obtain ⟨-, -, -, formats, fits, blocks⟩ := good
  refine ⟨is, ?_, Nat.not_lt.1 fits, fun mx => ?_⟩
  · by_contra other
    exact formats ⟨d.outFmt, by simp, not_or.1 ((convFmt_false_iff _).1 (Bool.eq_false_iff.2 other)) |>.imp_right
      fun h => (not_or.1 h).imp_right not_or.1⟩
  · obtain ⟨low, high⟩ := (isMx_iff _).1 mx
    by_contra rest
    exact blocks ⟨low, high, rest⟩

/-- What a CONVERT to an EXACT format writes (R120, R124, R125). -/
theorem convertRun_exact (h : convertRun c n ctx desc d = .ok out status) (exact_ : isExact d.outFmt = true) :
    let t := readTile c d.in0
    let a := convAt d (srcAcc t (d.outFmt == 0x21) d.anchor)
    let st := convAt d (exactStatus t (d.outFmt == 0x21) d.anchor)
    TileIs out d.outFmt (convRows c d) (convCols c d) d.outSeq n ctx (bits d.d2 0 16) a ∧
    StatusIs status (convRows c d) (convCols c d)
      (fun r k b => if b < 3 then (a r k).testBit b else (st r k).testBit b) := by
  intro t a st
  obtain ⟨is, -, fits, blocks⟩ := convertRun_passed h
  rw [convertResult] at is
  simp only [if_pos exact_] at is
  obtain ⟨rfl, rfl⟩ := TResult.ok.inj is
  have same : d.outFmt = exactFmt (d.outFmt == 0x21) := by
    obtain h | h := (isExact_iff _).1 exact_ <;> rw [h] <;> rfl
  have bits_ : fmtBits d.outFmt = some (accBits (d.outFmt == 0x21) + 4) :=
    (congrArg fmtBits same).trans (fmtBits_exactFmt _)
  have plain : isMx d.outFmt = false := by
    obtain h | h := (isExact_iff _).1 exact_ <;> rw [h] <;> rfl
  have small : ∀ r k, a r k < 2 ^ (accBits (d.outFmt == 0x21) + 4) := fun r k => by
    have each : ∀ r k, srcAcc t (d.outFmt == 0x21) d.anchor r k < 2 ^ (accBits (d.outFmt == 0x21) + 4) := fun r k => by
      rw [srcAcc]
      split
      · exact realign_lt ..
      · exact term_lt ..
    simp only [a, convAt]
    split
    · exact each ..
    · exact each ..
  have st_bits : ∀ r k, st r k < 64 ∧ st r k % 8 = 0 := fun r k => by
    simp only [st, convAt]
    split
    · exact (exactStatus_bits ..).2.2.2
    · exact (exactStatus_bits ..).2.2.2
  have tile := tileIs_outTile (f := d.outFmt) (scales := []) bits_ (convRows_lt c d) (convCols_lt c d)
    fits blocks (noScales plain _ _).1 d.outSeq n ctx d.anchor a (fun i j _ _ => small i j) d.outSeq_lt
  rw [exact_, if_pos rfl, Desc.anchorCode] at tile
  refine ⟨tile, statusIs_of_testBit (fun k => ?_) fun r j k hk => ?_⟩
  · rw [Nat.testBit_or, Bool.or_eq_true, testBit_accFlags, testBit_foldl_grid (fun x => x)]
    by_cases hk : k < 3
    · simp only [hk, true_and, if_true]
      refine or_iff_left ?_
      rintro ⟨r, j, -, -, set⟩
      rw [testBit_of_mod_8 (st_bits r j).2 hk] at set
      exact nomatch set
    · simp only [hk, false_and, and_false, exists_false, false_or, if_false]
      rfl
  · rw [if_neg (by omega), testBit_of_lt_64 (st_bits r j).1 hk]

/-- What a CONVERT to an MX format writes (R119, R124, R125). -/
theorem convertRun_mx (h : convertRun c n ctx desc d = .ok out status) (mx : isMx d.outFmt = true) :
    let blk := mxBlk d.outFmt (convAt d (srcNum (readTile c d.in0)))
    TileIs out d.outFmt (convRows c d) (convCols c d) d.outSeq n ctx 0
      (fun r k => (blk r (k / 32)).2.1.getD (k % 32) 0) ∧
    StatusIs status (convRows c d) (convCols c d) (fun r k b => (blk r (k / 32)).2.2.testBit b) ∧
    ∀ (c' : Core) o, c'.readSpad o out.length = out → ∀ r k, r < convRows c d → k < convCols c d →
      (readTile c' o).scale r k = (blk r (k / 32)).1 := by
  intro blk
  obtain ⟨is, format, fits, blocks⟩ := convertRun_passed h
  obtain ⟨b, bits_⟩ := convFmt_bits format
  have plain : isExact d.outFmt = false := by
    rw [← Bool.not_eq_true, isExact_iff]
    have := (isMx_iff _).1 mx
    omega
  rw [convertResult] at is
  simp only [plain, mx, if_true, Bool.false_eq_true, if_false, Nat.or_zero] at is
  obtain ⟨rfl, rfl⟩ := TResult.ok.inj is
  obtain ⟨count, each⟩ := mxRows_scales d.outFmt (convRows c d) (convCols c d) (convAt d (srcNum (readTile c d.in0)))
  have scales : (mxRows d.outFmt (grid (convRows c d) (convCols c d)
    (convAt d (srcNum (readTile c d.in0))))).2.1.length =
      convRows c d * outScaleStride d.outFmt (convCols c d) := by
    rw [outScaleStride, if_pos mx, count]
  have parts := fun r i => mxBlock_parts bits_ mx ((List.range 32).map fun q =>
    convAt d (srcNum (readTile c d.in0)) r (32 * i + q))
  have small : ∀ r k, r < convRows c d → k < convCols c d → (blk r (k / 32)).2.1.getD (k % 32) 0 < 2 ^ b :=
    fun r k _ _ => by
    obtain ⟨-, length, each, -⟩ := parts r (k / 32)
    rw [List.length_map, List.length_range] at length
    have inside : k % 32 < (blk r (k / 32)).2.1.length := (Nat.mod_lt k (by decide)).trans_eq length.symm
    rw [List.getD_eq_getElem _ _ inside]
    exact each _ (List.getElem_mem inside)
  rw [mxRows_codes (convRows c d) _ bits_ mx (blocks mx)]
  have tile := tileIs_outTile bits_ (convRows_lt c d) (convCols_lt c d) fits blocks scales d.outSeq n ctx 0
    (fun r k => (blk r (k / 32)).2.1.getD (k % 32) 0) small d.outSeq_lt
  rw [plain, if_neg Bool.false_ne_true] at tile
  refine ⟨tile, statusIs_of_testBit (fun k => mxRows_status d.outFmt _ _ _ (blocks mx) k) fun r k j hj => ?_, ?_⟩
  · exact testBit_of_lt_64 (parts r (k / 32)).2.2.2 hj
  · intro c' o there r k hr hk
    have inside : k / 32 < convCols c d / 32 := by
      have := blocks mx
      omega
    rw [readTile_outTile bits_ (convRows_lt c d) (convCols_lt c d) fits scales _ _ _ _ _ there,
      outRead_scale bits_ (convRows_lt c d) (convCols_lt c d) fits scales _ _ _ _ _ mx o hr inside, each r _ hr inside]
    exact Nat.mod_eq_of_lt (parts r (k / 32)).1

/-- What a CONVERT to another format writes (R116, R117, R124, R125). -/
theorem convertRun_plain (h : convertRun c n ctx desc d = .ok out status) (notExact : isExact d.outFmt = false)
    (notMx : isMx d.outFmt = false) :
    let v := fun r k => convElem d.outFmt (convAt d (srcNum (readTile c d.in0)) r k)
    TileIs out d.outFmt (convRows c d) (convCols c d) d.outSeq n ctx 0 (fun r k => (v r k).code) ∧
    StatusIs status (convRows c d) (convCols c d) (fun r k b => (v r k).status.testBit b) := by
  intro v
  obtain ⟨is, format, fits, blocks⟩ := convertRun_passed h
  obtain ⟨b, bits_⟩ := convFmt_bits format
  rw [convertResult] at is
  simp only [notExact, notMx, Bool.false_eq_true, if_false, grid_map] at is
  obtain ⟨rfl, rfl⟩ := TResult.ok.inj is
  have tile := tileIs_outTile bits_ (convRows_lt c d) (convCols_lt c d) fits blocks
    (noScales notMx _ _).1 d.outSeq n ctx 0
    (fun r k => (v r k).code) (fun r k _ _ => convElem_code_lt bits_ _) d.outSeq_lt
  rw [notExact, if_neg Bool.false_ne_true] at tile
  exact ⟨tile, statusIs_of_testBit (fun k => testBit_foldl_grid Conv.status _ _ v k) fun r k j hj =>
    testBit_of_lt_64 (Conv.status_lt _) hj⟩

/-! ## SEAL (R131) -/

/-- What a SEAL writes that does not fault (R104, R131). -/
theorem sealRun_ok (h : sealRun c desc d = .ok out status) :
    status = 0 ∧ out.length = 4 ∧ (readTile c d.in0).consistent = true ∧
      ({ readTile c d.in0 with hdr := patch (readTile c d.in0).hdr 56 out } : Tile).crcOk = true := by
  rw [sealRun_eq, useResult_ok_iff] at h
  obtain ⟨passed, is⟩ := h
  obtain ⟨rfl, rfl⟩ := TResult.ok.inj is
  obtain ⟨-, shaped⟩ := checkUse_none passed
  exact ⟨rfl, leBytes_length .., shaped _ List.mem_cons_self, crcOk_patch (Core.readSpad_length ..) _ _⟩

end

end Sys2Proof.Machine
end

section
/-! SUPPORT. What a row of the tensor engine does with the oldest descriptor (R49, R74, R107, R122, R125). -/

namespace Sys2Proof.Machine

/-- The tensor engine may take the oldest descriptor of core n. -/
structure TensorReady (s : State) (n : Nat) (op : UnitOp) : Prop where
  node : isCoreNode n = true
  settled : (s.core n).clearing = false
  headers : headerOn s n = true
  cap : effectiveCap s n ≠ 0
  oldest : (s.core n).oldest .tensor = some op

/-- Row takes the descriptor and gives the result r, its output at an offset. -/
structure TensorRuns (s : State) (n : Nat) (op : UnitOp) (row : Instr) (at_ : Nat) (r : TResult) : Prop where
  written : ∀ out status, (s.core n).parityOk op.desc 64 → r = .ok out status → ∃ u,
    exec row s = .next (u.opEnd n op true) ∧ u = { s with cores := u.cores } ∧ CoresSame s u [n] ∧
    u.core n = { s.core n with spad := (u.core n).spad, badSpad := (u.core n).badSpad, fired := true } ∧
    ∀ a, (u.core n).spadByte a =
      if (readDesc (s.core n) op.desc).statusEn = true ∧ (readDesc (s.core n) op.desc).status ≤ a ∧
          a < (readDesc (s.core n) op.desc).status + 8 then
        (leBytes status 8).getD (a - (readDesc (s.core n) op.desc).status) 0
      else if at_ ≤ a ∧ a < at_ + out.length then out.getD (a - at_) 0 else (s.core n).spadByte a
  faulted : ∀ code addr, (s.core n).parityOk op.desc 64 → r = .fault code addr →
    exec row s = .next (s.opFault n op code addr)
  parity : ¬ (s.core n).parityOk op.desc 64 → ∃ x, x ∈ (s.core n).badSpad ∧ op.desc / 8 ≤ x ∧ 8 * x < op.desc + 64 ∧
    exec row s = .next (s.opFault n op 0x08 (8 * x))

/-- A core with a tensor result in scratchpad (R107, R125). -/
def Core.withResult (c : Core) (d : Desc) (at_ : Nat) (out : List Byte) (status : Nat) : Core :=
  let written := c.writeSpad at_ out
  { (if d.statusEn then written.writeSpad d.status (leBytes status 8) else written) with fired := true }

theorem Core.withResult_rest (c : Core) (d : Desc) (at_ : Nat) (out : List Byte) (status : Nat) :
    let w := c.withResult d at_ out status
    w = { c with spad := w.spad, badSpad := w.badSpad, fired := true } := by
  intro w
  simp only [w, Core.withResult]
  split <;> rfl

theorem Core.spadByte_withResult (c : Core) (d : Desc) (at_ : Nat) (out : List Byte) (status a : Nat) :
    (c.withResult d at_ out status).spadByte a =
      if d.statusEn = true ∧ d.status ≤ a ∧ a < d.status + 8 then (leBytes status 8).getD (a - d.status) 0
      else if at_ ≤ a ∧ a < at_ + out.length then out.getD (a - at_) 0 else c.spadByte a := by
  cases en : d.statusEn with
  | true =>
    have two : (c.withResult d at_ out status).spadByte a =
        ((c.writeSpad at_ out).writeSpad d.status (leBytes status 8)).spadByte a := by
      rw [Core.withResult, if_pos en]
      rfl
    rw [two, Core.spadByte_writeSpad, leBytes_length, Core.spadByte_writeSpad]
    simp only [true_and]
  | false =>
    have one : (c.withResult d at_ out status).spadByte a = (c.writeSpad at_ out).spadByte a := by
      rw [Core.withResult, if_neg (Bool.eq_false_iff.1 en)]
      rfl
    rw [one, Core.spadByte_writeSpad]
    simp only [Bool.false_eq_true, false_and, if_false]

section
variable {s : State} {n : Nat} {op : UnitOp} (ready : TensorReady s n op) {fn : Nat} (hfn : op.fn = fn)
  {run : Core → UnitOp → Desc → Nat × TResult}
include ready hfn

/-- The engine's step with a descriptor that has a parity error (R74). -/
theorem tensorStep_parity {a : Nat} (bad : firstBad (s.core n).badSpad op.desc 64 = some a) :
    tensorStep s n fn (readDesc (s.core n) op.desc).isSeal run = s.opFault n op 0x08 a := by
  have cap : (effectiveCap s n == 0) = false := beq_eq_false_iff_ne.2 ready.cap
  rw [tensorStep, ready.oldest]
  simp only [ready.settled, ready.headers, cap, hfn, bad, bne_self_eq_false, Bool.not_true, Bool.or_self,
    Bool.false_eq_true, if_false]

/-- The engine's step with a descriptor that it can read (R122). -/
theorem tensorStep_read (ok : (s.core n).parityOk op.desc 64) {at_ : Nat} {r : TResult}
    (result : run (s.core n) op (readDesc (s.core n) op.desc) = (at_, r)) :
    tensorStep s n fn (readDesc (s.core n) op.desc).isSeal run =
      writeResult s n op at_ (readDesc (s.core n) op.desc) r := by
  have cap : (effectiveCap s n == 0) = false := beq_eq_false_iff_ne.2 ready.cap
  rw [tensorStep, ready.oldest]
  simp only [ready.settled, ready.headers, cap, hfn, firstBad_none ok, result, bne_self_eq_false, Bool.not_true,
    Bool.or_self, Bool.false_eq_true, if_false]

/-- A row that makes the engine's step runs the descriptor. -/
theorem tensorRuns {row : Instr} {at_ : Nat} {r : TResult}
    (step : exec row s = .next (tensorStep s n fn (readDesc (s.core n) op.desc).isSeal run))
    (result : run (s.core n) op (readDesc (s.core n) op.desc) = (at_, r)) : TensorRuns s n op row at_ r := by
  refine ⟨fun out status ok is => ?_, fun code addr ok is => ?_, fun bad => ?_⟩
  · rw [tensorStep_read ready hfn ok result, is] at step
    refine ⟨s.setCore n ((s.core n).withResult (readDesc (s.core n) op.desc) at_ out status), step, rfl, ?_, ?_, ?_⟩
    · intro m hm
      rw [State.core_setCore, if_neg (by simpa using hm)]
    · rw [State.core_setCore, if_pos rfl]
      exact Core.withResult_rest ..
    · intro a
      rw [State.core_setCore, if_pos rfl]
      exact Core.spadByte_withResult ..
  · rw [tensorStep_read ready hfn ok result, is] at step
    exact step
  · cases found : firstBad (s.core n).badSpad op.desc 64 with
    | none => exact absurd ((firstBad_eq_none_iff _ (by decide)).1 found) bad
    | some b =>
      obtain ⟨w, rfl, ⟨hw, low, high⟩, -⟩ := (firstBad_eq_some_iff _ (by decide)).1 found
      rw [tensorStep_parity ready hfn found] at step
      exact ⟨w, hw, by omega, high, step⟩

end

section
variable {s : State} {n : Nat} {op : UnitOp} (ready : TensorReady s n op)
include ready

theorem dot_runs (hfn : op.fn = 0) :
    let d := readDesc (s.core n) op.desc
    TensorRuns s n op (.dot n) d.out (dotRun (s.core n) n op.ctx op.desc d) := by
  refine tensorRuns ready hfn (run := fun c op d => (d.out, dotRun c n op.ctx op.desc d)) ?_ rfl
  have row : exec (.dot n) s = execDot n s := rfl
  rw [row, execDot, onCore_next ready.node, ready.oldest]

theorem forest_runs (hfn : op.fn = 1) :
    let d := readDesc (s.core n) op.desc
    TensorRuns s n op (.forest n) d.out (forestRun (s.core n) n op.ctx op.desc d) := by
  refine tensorRuns ready hfn (run := fun c op d => (d.out, forestRun c n op.ctx op.desc d)) ?_ rfl
  have row : exec (.forest n) s = execForest n s := rfl
  rw [row, execForest, onCore_next ready.node, ready.oldest]

theorem convert_runs (hfn : op.fn = 2) (plain : (readDesc (s.core n) op.desc).isSeal = false) :
    let d := readDesc (s.core n) op.desc
    TensorRuns s n op (.convert n) d.out (convertRun (s.core n) n op.ctx op.desc d) := by
  refine tensorRuns ready hfn (run := fun c op d => (d.out, convertRun c n op.ctx op.desc d)) ?_ rfl
  have row : exec (.convert n) s = execConvert n s := rfl
  rw [plain, row, execConvert, onCore_next ready.node]

theorem sealTile_runs (hfn : op.fn = 2) (sealed : (readDesc (s.core n) op.desc).isSeal = true) :
    let d := readDesc (s.core n) op.desc
    TensorRuns s n op (.sealTile n) (d.in0 + 56) (sealRun (s.core n) op.desc d) := by
  refine tensorRuns ready hfn (run := fun c op d => (d.in0 + 56, sealRun c op.desc d)) ?_ rfl
  have row : exec (.sealTile n) s = execSealTile n s := rfl
  rw [sealed, row, execSealTile, onCore_next ready.node]

end

end Sys2Proof.Machine
end

section
/-! PROOFS. The tensor engine: its runs, its results, its faults and its arithmetic (R49, R74, R100 to R131). -/

namespace Sys2Proof.Machine

/-! ## Terms and accumulators -/

/-- A term above and below its anchor (R112). -/
theorem term_scaled (wide neg : Bool) (anchor : Int) (m k : Nat) :
    let L := termMax wide
    let up := term wide anchor (.fin neg m (anchor + k))
    let down := term wide anchor (.fin neg m (anchor - k))
    (accN wide up).natAbs = min (m * 2 ^ k) L ∧ up.testBit 0 = false ∧ up.testBit 1 = decide (L < m * 2 ^ k) ∧
    (accN wide down).natAbs = min (m / 2 ^ k) L ∧ down.testBit 0 = decide (m % 2 ^ k ≠ 0) ∧
    down.testBit 1 = decide (L < m / 2 ^ k) ∧
    (neg = false → 0 ≤ accN wide up ∧ 0 ≤ accN wide down) ∧ (neg = true → accN wide up ≤ 0 ∧ accN wide down ≤ 0) := by
  intro L up down
  have above : truncAt m (anchor + k - anchor) = (m * 2 ^ k, true) := by rw [add_sub_cancel_left, truncAt_up]
  have below : truncAt m (anchor - k - anchor) = (m / 2 ^ k, decide (m % 2 ^ k = 0)) := by
    rw [sub_sub_cancel_left, truncAt_down]
  obtain ⟨upN, upLoss, upSat, upPos, upNeg⟩ := term_spec (wide := wide) (neg := neg) above
  obtain ⟨downN, downLoss, downSat, downPos, downNeg⟩ := term_spec (wide := wide) (neg := neg) below
  refine ⟨upN, upLoss, upSat, downN, downLoss.trans ?_, downSat, fun h => ⟨upPos h, downPos h⟩,
    fun h => ⟨upNeg h, downNeg h⟩⟩
  rw [decide_not]

/-- An accumulator re-aligned (R120; assumption 81). -/
theorem realign_spec (wi wo : Bool) (ai ao : Int) (a : Nat) :
    let v := accN wi a
    let cut := if ao ≤ ai then v * 2 ^ (ai - ao).toNat else v.tdiv (2 ^ (ao - ai).toNat)
    let r := realign wi wo ai ao a
    let top : Int := 2 ^ (accBits wo - 1)
    (a.testBit 2 = true → accN wo r = 0 ∧ r % 16 = a % 8) ∧
    (a.testBit 2 = false → accN wo r = max (-top) (min (top - 1) cut) ∧
      (r.testBit 0 = true ↔ a.testBit 0 = true ∨ (ai < ao ∧ cut * 2 ^ (ao - ai).toNat ≠ v)) ∧
      (r.testBit 1 = true ↔ a.testBit 1 = true ∨ cut < -top ∨ top ≤ cut) ∧ r.testBit 2 = false ∧ r.testBit 3 = false) :=
  ⟨realign_invalid wi wo ai ao, realign_valid wi wo ai ao⟩

/-- An element that becomes an accumulator (R116, R117, R120, R125). -/
theorem exactStatus_spec (t : Tile) (wide : Bool) (ao : Int) (r k : Nat) :
    let st := exactStatus t wide ao r k
    let top : Int := 2 ^ (accBits wide - 1)
    (isExact t.fmt = true →
      let a := t.code r k
      let v := accN (t.fmt == 0x21) a
      let cut := if ao ≤ t.anchor then v * 2 ^ (t.anchor - ao).toNat else v.tdiv (2 ^ (ao - t.anchor).toNat)
      let out := cut < -top ∨ top ≤ cut
      (st.testBit 3 = true ↔ a.testBit 2 = false ∧ out) ∧
      (st.testBit 4 = true ↔ a.testBit 1 = false ∧ a.testBit 2 = false ∧
        (out ∨ (t.anchor < ao ∧ cut * 2 ^ (ao - t.anchor).toNat ≠ v))) ∧
      st.testBit 5 = a.testBit 2 ∧ st < 64) ∧
    (isExact t.fmt = false → (t.value r k = .nan → st = 32) ∧ (∀ s, t.value r k = .inf s → st = 0) ∧
      ∀ s m e, t.value r k = .fin s m e →
        let q : Int := if ao ≤ e then m * 2 ^ (e - ao).toNat else m / 2 ^ (ao - e).toNat
        (st.testBit 3 = true ↔ if s then top < q else top ≤ q) ∧
        (st.testBit 4 = true ↔ termMax wide < q ∨ (e < ao ∧ q * 2 ^ (ao - e).toNat ≠ m)) ∧ st.testBit 5 = false) ∧
    st % 8 = 0 := by
  intro st top
  refine ⟨exactStatus_exact, fun plain => ⟨fun nan => ?_, fun s inf => ?_, fun s m e fin => exactStatus_fin plain fin⟩,
    (exactStatus_bits t wide ao r k).2.2.2.2⟩
  · have is := exactStatus_value wide ao (r := r) (k := k) plain
    rwa [nan] at is
  · have is := exactStatus_value wide ao (r := r) (k := k) plain
    rwa [inf] at is

/-! ## Elements -/

/-- The formats and codes of R108. -/
theorem floatFmt_spec {f : Nat} {g : FFmt} (h : floatFmt f = some g) :
    (f, g.ebits, g.mbits, g.bias) ∈ [(0x01, 8, 23, 127), (0x02, 5, 10, 15), (0x03, 8, 7, 127), (0x04, 4, 3, 7),
      (0x05, 5, 2, 15), (0x10, 4, 3, 7), (0x11, 5, 2, 15), (0x12, 3, 2, 3), (0x13, 2, 3, 1), (0x14, 2, 1, 1)] := by
  unfold floatFmt at h
  split at h <;> cases h <;> decide

/-- Conversion to a floating-point format that is neither EXACT nor MX (R116, R117). -/
theorem convElem_float {f cap nanCode : Nat} {g : FFmt} (h : floatFmt f = some g)
    (row : (f, cap, nanCode) ∈ [(0x01, 0x7F80_0000, 0x7FC0_0000), (0x02, 0x7C00, 0x7E00), (0x03, 0x7F80, 0x7FC0),
      (0x04, 0x7E, 0x7F), (0x05, 0x7C, 0x7E)]) :
    (let r := convElem f .nan
     r.code = nanCode ∧ r.nan = true ∧ r.ovf = false ∧ r.inexact = false) ∧
    (∀ s, let r := convElem f (.inf s)
      r.code = (if s then 2 ^ g.width else 0) + cap ∧ r.nan = false ∧ r.ovf = decide (f = 0x04) ∧ r.inexact = false) ∧
    ∀ s m e, let r := convElem f (.fin s m e)
      let lo := min e g.least
      let x := (Machine.Num.fin s m e).times lo
      g.RoundsTo cap lo x s r.code ∧ r.nan = false ∧ (r.ovf = true ↔ g.Over lo x) ∧
      (r.inexact = true ↔ (g.decode r.code).times lo ≠ x) := by
  obtain ⟨rfl, top, rfl, kind⟩ := topCode_of_row h row
  have is : ∀ x, convElem f x = g.encode x := fun x => by rw [convElem, h]
  simp only [is]
  exact ⟨⟨rfl, rfl, rfl, rfl⟩, fun s => ⟨rfl, rfl, kind, rfl⟩, fun s m e => FFmt.encode_fin (FFmt.regular h) top s m e⟩

/-- Conversion to an integer format (R109, R116, R117). -/
theorem convElem_integer {f w : Nat} (row : (f, w) ∈ [(0x06, 8), (0x07, 4), (0x08, 16), (0x09, 32)]) :
    let hi : Int := 2 ^ (w - 1) - 1
    let lowest : Int := -(2 ^ (w - 1))
    (let r := convElem f .nan
     r.code = 0 ∧ r.nan = true ∧ r.ovf = false ∧ r.inexact = false) ∧
    (∀ s, let r := convElem f (.inf s)
      intOf w r.code = (if s then lowest else hi) ∧ r.nan = false ∧ r.ovf = true ∧ r.inexact = false) ∧
    ∀ s m e, let r := convElem f (.fin s m e)
      let lo := min e 0
      let x := (Machine.Num.fin s m e).times lo
      ∃ v, NearestInt lo x v ∧ r.code < 2 ^ w ∧ intOf w r.code = max lowest (min hi v) ∧ r.nan = false ∧
        (r.ovf = true ↔ hi < v ∨ v < lowest) ∧ (r.inexact = true ↔ intOf w r.code * 2 ^ (-lo).toNat ≠ x) := by
  have is := fun x => (convElem_int row x).1
  have pos := (convElem_int row .nan).2
  simp only [is]
  exact ⟨⟨rfl, rfl, rfl, rfl⟩, fun s => encodeInt_inf pos s, fun s m e => encodeInt_fin pos s m e⟩

/-! ## Results -/

/-- What a CONVERT writes that does not fault (R119, R120, R124, R125, R130). -/
theorem convertRun_ok {c : Core} {n ctx desc : Nat} {d : Desc} {out : List Byte} {status : Nat}
    (h : convertRun c n ctx desc d = .ok out status) :
    let f := d.outFmt
    let src := readTile c d.in0
    let v := fun r k => convElem f (convAt d (srcNum src) r k)
    let a := convAt d (srcAcc src (f == 0x21) d.anchor)
    let st := convAt d (exactStatus src (f == 0x21) d.anchor)
    let blk := mxBlk f (convAt d (srcNum src))
    TileIs out f (convRows c d) (convCols c d) d.outSeq n ctx (if isExact f = true then bits d.d2 0 16 else 0)
      (fun r k =>
      if isExact f then a r k else if isMx f then (blk r (k / 32)).2.1.getD (k % 32) 0 else (v r k).code) ∧
    StatusIs status (convRows c d) (convCols c d) (fun r k b =>
      if isExact f then (if b < 3 then (a r k).testBit b else (st r k).testBit b)
      else if isMx f then (blk r (k / 32)).2.2.testBit b else (v r k).status.testBit b) ∧
    (isMx f = true → ∀ (c' : Core) o, c'.readSpad o out.length = out → ∀ r k, r < convRows c d → k < convCols c d →
      (readTile c' o).scale r k = (blk r (k / 32)).1) := by
  intro f src v a st blk
  cases exact_ : isExact f with
  | true =>
    have plain : isMx f = false := by
      obtain h | h := (isExact_iff f).1 exact_ <;> rw [h] <;> rfl
    obtain ⟨tile, bits_⟩ := convertRun_exact h exact_
    rw [plain]
    exact ⟨tile, bits_, fun h => nomatch h⟩
  | false =>
    cases mx : isMx f with
    | true =>
      obtain ⟨tile, bits_, scales⟩ := convertRun_mx h mx
      exact ⟨tile, bits_, fun _ => scales⟩
    | false =>
      obtain ⟨tile, bits_⟩ := convertRun_plain h exact_ mx
      exact ⟨tile, bits_, fun h => nomatch h⟩

/-- Each quad of a descriptor lies at its own place (R121). -/
theorem readDesc_quad (c : Core) (o : Nat) {i : Nat} (h : i < 8) :
    let d := readDesc c o
    [d.d0, d.d1, d.d2, d.d3, d.d4, d.d5, d.d6, d.d7].getD i 0 = quadAt (c.readSpad o 64) (8 * i) := by
  interval_cases i <;> rfl

/-! ## The statement -/

/-- Settles O16: the row of the oldest descriptor makes the engine's step; a result's bytes and status word are read
back bit by
bit; a fault is the first failing check; elements are rounded to the nearest entry of a rising sequence of values. -/
theorem tensorEngineRunsTheOldestDescriptor : Obligations.TensorEngineRunsTheOldestDescriptor := by
  unfold Obligations.TensorEngineRunsTheOldestDescriptor
  refine ⟨fun s n op node settled headers cap oldest => ?_, ⟨fun wide neg anchor m k => term_scaled wide neg anchor m k,
      fun wide anchor ts few => accN_sum_terms wide anchor few⟩,
    fun c n ctx desc d out status => ⟨dotRun_ok, forestRun_ok, convertRun_ok, sealRun_ok⟩, startAcc_div,
    fun c n ctx desc d code addr => ⟨?_, ?_, ?_, ?_⟩, fun c o i h => readDesc_quad c o h, consistent_iff, fmtBits_iff,
    outBytes_formula, fun f g h => ⟨floatFmt_spec h, fun c _ => decode_cases h c⟩,
    fun f g cap nanCode h row => convElem_float h row, fun f w row => convElem_integer row,
    fun f emax l length row => ⟨fun h => ?_, fun h => ?_, fun k le hit => mxBlock_spec length row le hit⟩,
    realign_spec, exactStatus_spec⟩
  · have ready : TensorReady s n op := ⟨node, settled, headers, cap, oldest⟩
    refine ⟨fun fn => ?_, fun fn => ?_, fun fn plain => ?_, fun fn sealed => ?_⟩
    · obtain ⟨written, faulted, parity⟩ := dot_runs ready fn
      exact ⟨written, faulted, parity⟩
    · obtain ⟨written, faulted, parity⟩ := forest_runs ready fn
      exact ⟨written, faulted, parity⟩
    · obtain ⟨written, faulted, parity⟩ := convert_runs ready fn plain
      exact ⟨written, faulted, parity⟩
    · obtain ⟨written, faulted, parity⟩ := sealTile_runs ready fn sealed
      exact ⟨written, faulted, parity⟩
  · rw [dotRun_fault_iff, propext (dotBad_iff c d)]
    rfl
  · rw [forestRun_fault_iff, propext (forestBad_iff c d)]
    rfl
  · rw [convertRun_fault_iff, propext (convertBad_iff c d)]
    rfl
  · rw [sealRun_fault_iff, propext (sealBad_iff d)]
    rfl
  · rw [mxBlock_none f h, length]
  · rw [mxBlock_zero f h, length]

end Sys2Proof.Machine
end
